-- ==== Sys2Proof/Word.lean ====
section
/-! DEFINITION. The word types of the FRG8 and the plainest arithmetic on them: words, bytes, bit fields of a
natural number, and the sparse map that every large table of the state is kept in. -/

namespace Sys2Proof

/-- A 32-bit word: a g register, an instruction word, a register of the register blocks (R14, R69). -/
abbrev Word := BitVec 32
/-- A 64-bit word: a pad-address register, a lane of v, an address (R69, R70). -/
abbrev DWord := BitVec 64
/-- One byte of memory. -/
abbrev Byte := BitVec 8

/-- Bits [lo + len − 1 : lo] of a natural number. -/
def bitsOf (n lo len : Nat) : Nat := n / 2 ^ lo % 2 ^ len

/-- Bit i of a natural number. -/
def bitOf (n i : Nat) : Bool := n / 2 ^ i % 2 == 1

/-- A Bool as a number. -/
def natOf (b : Bool) : Nat := if b then 1 else 0

/-- The number n with its bits [lo + len − 1 : lo] replaced by v. -/
def putBits (n lo len v : Nat) : Nat :=
  n - bitsOf n lo len * 2 ^ lo + (v % 2 ^ len) * 2 ^ lo

/-- A sparse table: key and value pairs, keys strictly rising, no pair whose value is the table's default. -/
abbrev KMap (α : Type) := List (Nat × α)

end Sys2Proof
end

