-- ==== Sys2Proof/Machine/Crc.lean ====
section
/-! DEFINITION. The check-value unit's arithmetic: the four polynomial selections, byte by byte (R517–R520). -/

namespace Sys2Proof.Machine

/-- The parameters of a selection (R517). -/
structure CrcSel where
  width : Nat
  poly : Nat
  reflected : Bool
  init : Nat
  xorOut : Nat
deriving DecidableEq, Repr

/-- The selections 0–3 (R517). -/
def crcSel (n : Nat) : CrcSel :=
  match n with
  | 0 => ⟨32, 0x1EDC6F41, true, 0xFFFFFFFF, 0xFFFFFFFF⟩
  | 1 => ⟨32, 0x04C11DB7, true, 0xFFFFFFFF, 0xFFFFFFFF⟩
  | 2 => ⟨16, 0x1021, false, 0xFFFF, 0⟩
  | _ => ⟨64, 0x42F0E1EBA9EA3693, false, 0, 0⟩

/-- The low n bits of v in the opposite order. -/
def reverseBits : Nat → Nat → Nat
  | 0, _ => 0
  | n + 1, v => v % 2 * 2 ^ n + reverseBits n (v / 2)

/-- n register shifts toward the low end, for a reflected selection. -/
def crcShiftLow (poly : Nat) : Nat → Nat → Nat
  | 0, r => r
  | n + 1, r => crcShiftLow poly n (if r % 2 == 1 then (r / 2) ^^^ poly else r / 2)

/-- n register shifts toward the high end. -/
def crcShiftHigh (width poly : Nat) : Nat → Nat → Nat
  | 0, r => r
  | n + 1, r =>
    crcShiftHigh width poly n (if bitOf r (width - 1) then (r * 2 % 2 ^ width) ^^^ poly else r * 2 % 2 ^ width)

/-- The register after one byte (R517). -/
def crcByte (s : CrcSel) (r : Nat) (b : Nat) : Nat :=
  if s.reflected then crcShiftLow (reverseBits s.width s.poly) 8 (r ^^^ b)
  else crcShiftHigh s.width s.poly 8 (r ^^^ (b * 2 ^ (s.width - 8)))

/-- The register after a list of bytes. -/
def crcFeed (s : CrcSel) (r : Nat) : List Byte → Nat
  | [] => r
  | b :: bs => crcFeed s (crcByte s r b.toNat) bs

/-- CRC-32C of a list of bytes. -/
def crc32c (bs : List Byte) : Nat := crcFeed (crcSel 0) 0xFFFFFFFF bs ^^^ 0xFFFFFFFF

end Sys2Proof.Machine
end

