-- ==== Sys2Proof/Machine/Ops.lean ====
section
/-! DEFINITION. The named operations over sparse tables and over memory: every table and every byte of the state is
read and written through these, so that the canonical form is kept in one place. -/

namespace Sys2Proof.Machine

/-! ### Sparse tables -/

/-- The value at key k; an unlisted key reads as the default d. -/
def kget {α : Type} (d : α) : KMap α → Nat → α
  | [], _ => d
  | (k, v) :: t, i => if k = i then v else kget d t i

/-- The table without key k. -/
def kerase {α : Type} : KMap α → Nat → KMap α
  | [], _ => []
  | (k, v) :: t, i => if k = i then kerase t i else (k, v) :: kerase t i

/-- Put the pair (i, w) before the first larger key. -/
def kinsert {α : Type} : KMap α → Nat → α → KMap α
  | [], i, w => [(i, w)]
  | (k, v) :: t, i, w => if i < k then (i, w) :: (k, v) :: t else (k, v) :: kinsert t i w

/-- The table with key i set to w; setting the default removes the pair. -/
def kset {α : Type} [DecidableEq α] (d : α) (m : KMap α) (i : Nat) (w : α) : KMap α :=
  if w = d then kerase m i else kinsert (kerase m i) i w

/-- The table with the value at i changed by f. -/
def kmod {α : Type} [DecidableEq α] (d : α) (m : KMap α) (i : Nat) (f : α → α) : KMap α :=
  kset d m i (f (kget d m i))

/-- Are the keys from lo on strictly rising and no value the default? -/
def kwfFrom {α : Type} [DecidableEq α] (d : α) : Nat → KMap α → Bool
  | _, [] => true
  | lo, (k, v) :: t => decide (lo ≤ k) && decide (v ≠ d) && kwfFrom d (k + 1) t

/-- The canonical form: keys strictly rising, no value the default. -/
def kwf {α : Type} [DecidableEq α] (d : α) (m : KMap α) : Bool := kwfFrom d 0 m

/-- The keys listed. -/
def kkeys {α : Type} (m : KMap α) : List Nat := m.map (·.1)

/-! ### Memory -/

/-- Memory: a byte at every address, an unlisted one reading 0 (the address spaces are laid side by side, see
notes/assumptions). -/
abbrev Mem := KMap Byte

/-- The canonical form of memory. -/
abbrev Memory.wf (m : Mem) : Bool := kwf 0#8 m

/-- One byte. -/
def Mem.read (m : Mem) (a : Nat) : Byte := kget 0#8 m a

/-- Write one byte. -/
def Mem.write (m : Mem) (a : Nat) (b : Byte) : Mem := kset 0#8 m a b

/-- The n bytes from a on. -/
def Mem.readBytes (m : Mem) (a : Nat) : Nat → List Byte
  | 0 => []
  | n + 1 => m.read a :: Mem.readBytes m (a + 1) n

/-- Write bytes from a on. -/
def Mem.writeBytes (m : Mem) (a : Nat) : List Byte → Mem
  | [] => m
  | b :: bs => Mem.writeBytes (m.write a b) (a + 1) bs

/-- A little-endian number of a list of bytes (R12). -/
def leNat : List Byte → Nat
  | [] => 0
  | b :: bs => b.toNat + 256 * leNat bs

/-- The n bytes of a number, little endian (R12). -/
def leBytes : Nat → Nat → List Byte
  | 0, _ => []
  | n + 1, v => BitVec.ofNat 8 v :: leBytes n (v / 256)

/-- The little-endian number of n bytes at a. -/
def Mem.readNat (m : Mem) (a n : Nat) : Nat := leNat (m.readBytes a n)

/-- Write the low n bytes of v at a, little endian. -/
def Mem.writeNat (m : Mem) (a n v : Nat) : Mem := m.writeBytes a (leBytes n v)

/-- Write the bytes of a list of (address, byte) cells. -/
def Mem.writeCells (m : Mem) : List (Nat × Byte) → Mem
  | [] => m
  | c :: cs => Mem.writeCells (m.write c.1 c.2) cs

/-- Fill n bytes at a with zero. -/
def Mem.zero (m : Mem) (a n : Nat) : Mem := m.filter fun c => !(decide (a ≤ c.1) && decide (c.1 < a + n))

/-! ### Lists -/

/-- The list with element i replaced, unchanged where there is none. -/
def lset {α : Type} : List α → Nat → α → List α
  | [], _, _ => []
  | _ :: t, 0, w => w :: t
  | x :: t, n + 1, w => x :: lset t n w

/-- The list with element i changed by f. -/
def lmod {α : Type} (f : α → α) : List α → Nat → List α
  | [], _ => []
  | x :: t, 0 => f x :: t
  | x :: t, n + 1 => x :: lmod f t n

/-- The list without element i. -/
def ldrop {α : Type} : List α → Nat → List α
  | [], _ => []
  | _ :: t, 0 => t
  | x :: t, n + 1 => x :: ldrop t n

/-- The first index, from i, whose element satisfies p. -/
def lfind {α : Type} (p : α → Bool) : List α → Nat → Option Nat
  | [], _ => none
  | x :: t, i => if p x then some i else lfind p t (i + 1)

end Sys2Proof.Machine
end

