-- ==== Sys2Proof/Config.lean ====
section
/-! DEFINITION. What the manual leaves open and no proof may look into: free values, applied to the counter `State.free` or
to the operands they depend on, and the cryptographic functions of the security block. None has a body. -/

namespace Sys2Proof

/-- A byte whose value the manual leaves open: argument 0 the count of free values used, argument 1 its place in the
structure that holds it (notes/assumptions/10). -/
opaque Config.freeByte : Nat → Nat → Byte

/-- A number whose value the manual leaves open, by the count of free values used (notes/assumptions/10). -/
opaque Config.freeNat : Nat → Nat

/-- Where the loader puts the descriptor copies of function f in its grant on die d, before reduction to the grant
(notes/assumptions/11). -/
opaque Config.descPlace : Nat → Nat → Nat

/-- Does a firmware image's ECDSA P-384 signature verify against the root in ROM (R501)? Root and image form are not given. -/
opaque Config.signatureOk : List Byte → Bool

/-- KIND, STEPPINGS and SVN of a firmware image's header, whose form is not given (R501). -/
opaque Config.fwHeader : List Byte → Nat × Nat × Nat

/-- The secure ROM's bytes, which start-up measures (R500, R503). -/
opaque Config.romImage : List Byte

/-- The image of kind k (0 MC, 1 CP, 2 power manager) that the module was delivered with (R501; notes/assumptions/32). -/
opaque Config.deliveredFw : Nat → List Byte

/-- The text that measurement 5 digests, from the start-up configuration record as applied, the grade, the stepping and each
SVN_MIN (R503), whose joint form is not given. -/
opaque Config.settingsText : List Byte → Bool → Bool → List Nat → List Byte

/-- SHA-384 (R501, R503), a standard that the manual names. -/
opaque Config.sha384 : List Byte → List Byte

/-- What a DOE mailbox answers to an SPDM request, by the transcript and the measurements: SPDM 1.2's own text (R503). -/
opaque Config.spdmReply : List Byte → List Byte → List (List Byte) → List Byte

/-- Does the FINISH of a session verify (R503)? -/
opaque Config.spdmFinish : List Byte → List Byte → Bool

end Sys2Proof
end

