-- ==== Sys2Proof/Machine/Generator.lean ====
section
/-! DEFINITION. The counter generator: a 64-bit key and a 192-bit counter give 128 bits (R411–R413). -/

namespace Sys2Proof.Machine

/-- The five inputs of a request (R411); in a core, the eight registers of a generator group (R111). -/
structure GenInput where
  key : DWord
  stream : Word
  step : DWord
  element : DWord
  lane : Word
deriving DecidableEq, Repr

/-- One round with its two round keys (R413). -/
def genRound (k0 k1 : Word) (x : Word × Word × Word × Word) : Word × Word × Word × Word :=
  let p0 : DWord := x.1.setWidth 64 * 0xC3A52F19#64
  let p2 : DWord := x.2.2.1.setWidth 64 * 0x9E814B27#64
  let hi0 := p0.extractLsb' 32 32
  let lo0 := p0.extractLsb' 0 32
  let hi2 := p2.extractLsb' 32 32
  let lo2 := p2.extractLsb' 0 32
  (hi2 ^^^ x.2.1 ^^^ k0, lo2, hi0 ^^^ x.2.2.2 ^^^ k1, lo0)

/-- n rounds, the key schedule stepping after each (R413). -/
def genRounds : Nat → Word → Word → Word × Word × Word × Word → Word × Word × Word × Word
  | 0, _, _, x => x
  | n + 1, k0, k1, x => genRounds n (k0 + 0x6D2B79F5#32) (k1 + 0xB5AD4ECB#32) (genRound k0 k1 x)

/-- The four output words x0–x3 (R412, R413). -/
def generator (i : GenInput) : Word × Word × Word × Word :=
  genRounds 10 (i.key.extractLsb' 0 32 ^^^ i.stream) (i.key.extractLsb' 32 32 ^^^ i.lane)
    (i.element.extractLsb' 0 32, i.element.extractLsb' 32 32, i.step.extractLsb' 0 32, i.step.extractLsb' 32 32)

/-- The 128-bit output O = x0 + x1·2^32 + x2·2^64 + x3·2^96 as a number (R157, R413). -/
def generatorBits (i : GenInput) : Nat :=
  let x := generator i
  x.1.toNat + x.2.1.toNat * 2 ^ 32 + x.2.2.1.toNat * 2 ^ 64 + x.2.2.2.toNat * 2 ^ 96

/-- The draw bits of element i at draw width w: O[w·i + w − 1 : w·i] (R157). -/
def drawBits (o w i : Nat) : Nat := bitsOf o (w * i) w

end Sys2Proof.Machine
end

