-- ==== Sys2Proof/Syntax.lean ====
section
/-! DEFINITION. The commands of the module, one constructor per row of spec/opcode_table.json. A core instruction names
the logical core c and thread t that issue it and the fields of its encoding (R110-R139); fields the encoding reserves
have no operand. The other commands name the unit that acts and the data that reach it from outside. -/

namespace Sys2Proof

/-- A fault the module's checks detect (R426): what failed, and which unit. `half`, `row` and `index` name sites, tracks
and slices by physical position; `base` a module memory key; `scrub`, that the scrubber found it; a stack from 16 on is the DIMM of
far channel stack − 16; `tierCorrected` and `tierUncorrectable`, an error of a near or far line beside those of a copy's own lines,
corrected or rebuilt by parity (R267, R270, R447); `cpFault`, that CP-A fails now, or in the next tick window after so many of its
admissions (R454). -/
inductive Detected where
  | correctable (die : Nat) (store scrub : Bool)
  | padWord (key : Nat)
  | instructionWord (core word : Nat)
  | coreLogic (core : Nat)
  | seamTrack (die row index : Nat) (east : Bool)
  | storeSlice (die half slice : Nat)
  | storeLine (base : Nat) (rebuilt : Bool)
  | portFault (port : Nat)
  | stackFault (stack : Nat)
  | tierCorrected
  | tierUncorrectable (stack : Nat)
  | cpFault (after : Option Nat)
  | outsideCover (part : Nat)
deriving DecidableEq, Repr

/-- What the read of a line brings: an error that cannot be corrected, good data, data with an error corrected (R267, R452). -/
inductive LineRead where
  | failed | good | corrected
deriving DecidableEq, Repr

/-- A link of the torus: its axis and the coordinate of its lower end (R316). -/
structure TorusLink where
  axis : Nat
  coord : Nat
deriving DecidableEq, Repr

/-- One of the three copies of a scrubber's voted state: of SCRUB_CTRL or of the walk pointer (R450). -/
inductive ScrubCopy where
  | control (n : Nat)
  | pointer (n : Nat)
deriving DecidableEq, Repr

/-- Is it one of the three? -/
def ScrubCopy.real : ScrubCopy → Bool
  | .control n | .pointer n => decide (n < 3)

/-- What a DIMM's SPD hub reports (R271): fitted, MRDIMM, block CRCs good, capacity in GiB, highest rate in MT/s it
supports. -/
structure Dimm where
  fitted : Bool := false
  mrdimm : Bool := false
  crcOk : Bool := false
  gib : Nat := 0
  rate : Nat := 0
deriving DecidableEq, Repr

/-- What start-up finds (R500–R510): the supply, the secure ROM, the records it reads, strap pins, dies that test good
and defective sites (die, half, row, column), stacks that train, DIMMs, training of the far tier, bays (none empty, else
the REASON of R275 and the namespace's blocks), ports whose cables qualify, the journal. -/
structure StartEnv where
  supplyOk : Bool := false
  romOk : Bool := false
  slotPins : Nat := 0
  carrier : List (BitVec 8) := []
  dieOk : Nat := 0
  sites : List (Nat × Nat × Nat × Nat) := []
  stacksOk : Nat := 0
  dimms : List Dimm := []
  farTrained : Bool := false
  bays : List (Option (Nat × Nat)) := []
  cablesOk : Nat := 0
  journalOk : Bool := false
deriving DecidableEq, Repr

/-- A command. -/
inductive Instr where
  /-- ALU (R115). -/
  | alu (c : Nat) (t : BitVec 4) (rd rs1 rs2 func : BitVec 5) (ext : BitVec 6)
  /-- ADDI (R116). -/
  | addi (c : Nat) (t : BitVec 4) (rd rs1 : BitVec 5) (imm : BitVec 16)
  /-- ANDI (R116). -/
  | andi (c : Nat) (t : BitVec 4) (rd rs1 : BitVec 5) (imm : BitVec 16)
  /-- ORI (R116). -/
  | ori (c : Nat) (t : BitVec 4) (rd rs1 : BitVec 5) (imm : BitVec 16)
  /-- XORI (R116). -/
  | xori (c : Nat) (t : BitVec 4) (rd rs1 : BitVec 5) (imm : BitVec 16)
  /-- LUI (R116). -/
  | lui (c : Nat) (t : BitVec 4) (rd : BitVec 5) (imm : BitVec 16)
  /-- SHI (R116). -/
  | shi (c : Nat) (t : BitVec 4) (rd rs1 : BitVec 5) (kind : BitVec 2) (sh : BitVec 5)
  /-- B (R117). -/
  | b (c : Nat) (t : BitVec 4) (p : BitVec 3) (neg : Bool) (target : BitVec 8)
  /-- LOOP (R117). -/
  | loop (c : Nat) (t : BitVec 4) (g : BitVec 5) (target : BitVec 8)
  /-- LD (R118). -/
  | ld (c : Nat) (t : BitVec 4) (rd rs1 : BitVec 5) (size : BitVec 2) (pad sign : Bool) (off : BitVec 12)
  /-- ST (R118). -/
  | st (c : Nat) (t : BitVec 4) (rs2 rs1 : BitVec 5) (size : BitVec 2) (pad : Bool) (off : BitVec 12)
  /-- AREG (R119). -/
  | areg (c : Nat) (t : BitVec 4) (a : BitVec 3) (func : BitVec 2) (field : BitVec 3) (g : BitVec 5) (imm : BitVec 12)
  /-- MOVV (R120). -/
  | movv (c : Nat) (t : BitVec 4) (g : BitVec 5) (v : Bool) (lane : BitVec 2) (word dir : Bool)
  /-- FSTAT (R138). -/
  | fstat (c : Nat) (t : BitVec 4) (rd : BitVec 5) (clr : BitVec 8) (mode : BitVec 2)
  /-- YIELD (R139). -/
  | yield (c : Nat) (t : BitVec 4)
  /-- TMMA (R128, R129): nm1 is the block count minus one. -/
  | tmma (c : Nat) (t : BitVec 4) (aw aa ap : BitVec 3) (left : Bool) (nm1 : BitVec 4) (wf af zero : Bool)
  /-- TMMA.I8 (R128, R129). -/
  | tmmaI8 (c : Nat) (t : BitVec 4) (aw aa ap : BitVec 3) (left : Bool) (nm1 : BitVec 4) (wf af zero : Bool)
  /-- TDRAIN (R130). -/
  | tdrain (c : Nat) (t : BitVec 4) (ap : BitVec 3) (cm1 : BitVec 6) (dest : Bool) (ad : BitVec 3) (dfmt : BitVec 4)
      (rnd gb : BitVec 2) (cinc : Bool) (ctr : BitVec 3) (acc : Bool)
  /-- VOP (R121). -/
  | vop (c : Nat) (t : BitVec 4) (func : BitVec 5) (fp64 va src2 vb : Bool) (areg : BitVec 3) (pad dst vd hi : Bool)
      (lmask : BitVec 4)
  /-- CVT (R122): VA and VD are the low bits of AS and AD. -/
  | cvt (c : Nat) (t : BitVec 4) (sfmt dfmt : BitVec 4) (rnd : BitVec 2) (src : Bool) (as_ : BitVec 3) (spad dst : Bool)
      (ad : BitVec 3) (dpad : Bool) (part : BitVec 3) (gb : BitVec 2)
  /-- SPLIT (R124): VA is the low bit of AS. -/
  | split (c : Nat) (t : BitVec 4) (ve : Bool) (j k : BitVec 4) (src : Bool) (as_ : BitVec 3) (spad : Bool)
      (ad : BitVec 3) (dpad : Bool) (part : BitVec 3)
  /-- MERGE (R125). -/
  | merge (c : Nat) (t : BitVec 4) (vd vs : Bool) (as_ : BitVec 3) (spad hi : Bool) (gs : BitVec 5)
  /-- SSPK (R126). -/
  | sspk (c : Nat) (t : BitVec 4) (ga : BitVec 5) (as_ : BitVec 3) (spad dpad sfmt : Bool) (rnd gb : BitVec 2)
  /-- SSUP (R126). -/
  | ssup (c : Nat) (t : BitVec 4) (ga : BitVec 5) (ad : BitVec 3) (dpad spad : Bool)
  /-- RNG (R127). -/
  | rng (c : Nat) (t : BitVec 4) (gb : BitVec 2) (vd half inc : Bool)
  /-- QPUSH (R132): nm1 is the entry count minus one. -/
  | qpush (c : Nat) (t : BitVec 4) (q : BitVec 2) (areg : BitVec 3) (pad : Bool) (nm1 : BitVec 4)
  /-- QPOP (R132). -/
  | qpop (c : Nat) (t : BitVec 4) (q : BitVec 2) (areg : BitVec 3) (pad : Bool) (nm1 : BitVec 4)
  /-- WALK (R134). -/
  | walk (c : Nat) (t : BitVec 4) (gd : BitVec 5) (ctr : BitVec 3) (cpt : Bool)
  /-- DMA (R133). -/
  | dma (c : Nat) (t : BitVec 4) (gs gd gl : BitVec 5) (ctr : BitVec 3)
  /-- WAITC (R135). -/
  | waitc (c : Nat) (t : BitVec 4) (ctr : BitVec 3) (gt : BitVec 5) (imm : BitVec 12)
  /-- CNT with FUNC 0 (R136). -/
  | cntadd (c : Nat) (t : BitVec 4) (ctr : BitVec 3) (g : BitVec 5) (imm : BitVec 16)
  /-- CNT with FUNC 1 (R136). -/
  | cntrd (c : Nat) (t : BitVec 4) (ctr : BitVec 3) (g : BitVec 5)
  /-- SWAP (R137). -/
  | swap (c : Nat) (t : BitVec 4) (sw sa : Bool)
  /-- A word that R140 calls an illegal encoding reaches issue. -/
  | illegalEncoding (c : Nat) (t : BitVec 4) (word : Word)
  /-- One turn of the drain engine (R181). -/
  | drainBlock (c : Nat)
  /-- The counter-generator unit serves one request (R100). -/
  | generatorRequest (c : Nat)
  /-- The first entry of outbound queue q crosses its hop (R90). -/
  | queueEntryMove (c : Nat) (q : BitVec 2)
  /-- The store port serves its next requester (R92). -/
  | storePortTurn (c : Nat)
  /-- The transfer of a slot has moved its last byte (R95). -/
  | dmaArrival (c : Nat) (slot : BitVec 3)
  /-- The walker of a slot has read and checks its block (R250). -/
  | walkerStart (c : Nat) (slot : BitVec 3)
  /-- The walker of a slot moves one 32 B unit (R251). -/
  | walkerUnit (c : Nat) (slot : BitVec 3)
  /-- The walker of a slot tests its release counter (R249). -/
  | walkerReleaseWaitEnd (c : Nat) (slot : BitVec 3)
  /-- The current tile of a slot's walk has moved its last unit (R253). -/
  | tileArrival (c : Nat) (slot : BitVec 3)
  /-- The next fold slot of a core opens (R102). -/
  | foldSlotOpen (c : Nat)
  /-- The scheduled end of a core's open filler slot (R105). -/
  | fillerSlotEnd (c : Nat)
  /-- 256 cycles before that end (R105). -/
  | fillerPortCutoff (c : Nat)
  /-- A debug-mode read, by function f, of n units of 32 B from pad-window offset off of core c (R193). -/
  | debugAccRead (f c off n : Nat)
  /-- A tick (R46): energies, in microjoules, of the frame that ends: the module's and each partition's (R495, R496). -/
  | tick (energy : Nat) (parts : List Nat)
  /-- Partition p's check fails after SLIP_LIMIT slips in a row (R50). -/
  | slipLimitReached (p : Nat)
  /-- The armed rate change is taken up (R45). -/
  | rateChange
  /-- Requester `who` writes ALM_RATE_AT_HI (R45). Requesters: 0 the PF, f the VF f, 256 the MC. -/
  | rateArm (who value : Nat)
  /-- The mirror of partition p's sealed frame is complete (R437). -/
  | mirrorComplete (p : Nat)
  /-- The mirror engine of core c takes a turn (R436). -/
  | mirrorTurn (c : Nat)
  /-- A droop stretches the core clock by n cycles (R39). -/
  | supplyDroop (n : Nat)
  /-- Port p sends a sync symbol, at frac sixteenths of a cycle (R58). -/
  | syncSymbolSend (p frac : Nat)
  /-- Port p receives a sync symbol (its 128 bits) at frac sixteenths of a cycle (R59). -/
  | syncSymbolReceive (p : Nat) (sym : BitVec 128) (frac : Nat)
  /-- 16 sync intervals in tolerance (R64). -/
  | lockAcquired
  /-- 16 intervals without a usable pair (R64). -/
  | parentChange
  /-- No neighbour offers a root to a locked module (R64). -/
  | holdover
  /-- 1 ms in holdover (R64). -/
  | lostLock
  /-- ALM_CTRL.ACQUIRE is written (R61). -/
  | acquire
  /-- Function f writes SQ_TAIL of queue q (R344). -/
  | doorbell (f q tail : Nat)
  /-- Function f writes CQ_HEAD of queue q (R345). -/
  | cqHeadWrite (f q head : Nat)
  /-- One round of fetching (R345); `cells` are host-memory bytes (by host address) that the host has changed before it. -/
  | fetchRound (cells : List (Nat × BitVec 8))
  /-- The oldest fetched command of a queue is journaled and accepted (R357). -/
  | commandAccept (f q : Nat)
  /-- A host read (or, with `write`, a record write) of queue q of function f fails (R337). -/
  | hostAccessFail (f q : Nat) (write : Bool)
  /-- ENABLE is written 1 (R347). -/
  | queueEnable (f q : Nat)
  /-- ENABLE is written 0 (R347). -/
  | queueDisable (f q : Nat)
  /-- The next unadmitted command of queue q of function f, a RUN_SPAN, is considered for admission (R353, R360). -/
  | runSpan (f q : Nat)
  /-- The same for a COPY (R354). -/
  | copy (f q : Nat)
  /-- The same for a REDUCE_SCATTER (R381). -/
  | reduceScatter (f q : Nat)
  /-- The same for an ALL_GATHER (R381). -/
  | allGather (f q : Nat)
  /-- The same for an ALL_REDUCE (R381). -/
  | allReduce (f q : Nat)
  /-- The same for a BROADCAST (R381). -/
  | broadcast (f q : Nat)
  /-- The same for a PERMUTE (R398). -/
  | permute (f q : Nat)
  /-- The same for a ROTATE (R396). -/
  | rotate (f q : Nat)
  /-- The same for a VOTE (R394). -/
  | vote (f q : Nat)
  /-- The same for a COMMIT_STEP (R395). -/
  | commitStep (f q : Nat)
  /-- The same for a WINDOW_OPEN (R355). -/
  | windowOpen (f q : Nat)
  /-- The same for a WINDOW_CLOSE (R355). -/
  | windowClose (f q : Nat)
  /-- The same for an EVENT (R356). -/
  | event (f q : Nat)
  /-- The same for a FENCE (R356). -/
  | fence (f q : Nat)
  /-- The same for a CHECKPOINT (R456). -/
  | checkpoint (f q : Nat)
  /-- The same for a REPLAY (R420). -/
  | replay (f q : Nat)
  /-- A line of REPLAY id's stream check arrives (R421); not ok: uncorrectable. -/
  | streamCheck (id : Nat) (ok : Bool)
  /-- The command processor finalises the image that partition p's next RUN_SPAN or REPLAY names (R217). -/
  | finalisation (p : Nat)
  /-- The load frame of partition p's finalised image writes code and descriptors (R219). -/
  | loadFrame (p : Nat)
  /-- A filler image's code is written into partition p (R225). -/
  | fillerLoad (p : Nat)
  /-- The next line of copy id arrives (R281): not ok, it cannot be delivered; corr, an error was corrected. -/
  | tierLineArrival (id : Nat) (ok corr : Bool)
  /-- A failed line of copy id is retried in the next frame (R452). -/
  | lineRetry (id : Nat) (line : LineRead)
  /-- A drive completes a Read of copy id (R277). -/
  | nvmeCompletion (id : Nat) (ok : Bool)
  /-- A flash read of copy id has no completion after 1 s (R277). -/
  | nvmeTimeout (id : Nat)
  /-- An arrived asynchronous line of copy id is written into its destination (R286). -/
  | asyncCopyLine (id : Nat)
  /-- Function f starts the MAP in its pool request registers (R288). -/
  | map (f : Nat)
  /-- MAP_PINNED (R288). -/
  | mapPinned (f : Nat)
  /-- UNMAP (R288). -/
  | unmap (f : Nat)
  /-- PIN (R288). -/
  | pin (f : Nat)
  /-- UNPIN (R288). -/
  | unpin (f : Nat)
  /-- An EVICTED near page of function f that a command needs is refilled (R291). -/
  | refill (f vpage : Nat)
  /-- A write of CACHE_BASE of die d (R260). -/
  | cacheBaseWrite (d value : Nat)
  /-- A write of CARVE of function f on die d (R261). -/
  | carveWrite (f d value : Nat)
  /-- A write of FN_SHARES of function f (R283). -/
  | sharesWrite (f value : Nat)
  /-- A write of a quota of function f: kind 0 near, 1 pinned, 2 far (R289). -/
  | quotaWrite (f kind value : Nat)
  /-- A write of FW_LBA_HI of flash window n (R276). -/
  | flashWindowArm (n value : Nat)
  /-- FLASH_BAY.OFFLINE_REQ of bay b is set (R279). -/
  | offlineReq (b : Nat)
  /-- Bay b's commands have completed (R279). -/
  | bayOffline (b : Nat)
  /-- OFFLINE_REQ of bay b is cleared and the drive re-checked: the REASON of R275 and the namespace's blocks (R279). -/
  | bayOnline (b reason blocks : Nat)
  /-- A stack passes STACK_LIMIT (R447). -/
  | stackRetire (stack : Nat)
  /-- Port p receives a block (its 528 bytes before CODE, as CODE left them); corr: CODE corrected it; good false: CODE
  could not (R307, R310). -/
  | linkBlockReceive (p : Nat) (good corr : Bool) (blk : List (BitVec 8))
  /-- Port p replays the blocks after the one acknowledged (R310). -/
  | linkReplay (p acked : Nat)
  /-- Port p fails: cause 1 replay limit, 2 alignment (R311). -/
  | portFail (p cause : Nat)
  /-- UP_REQ of port p is written (R447, R534). -/
  | portUpRequest (p : Nat) (up : Bool)
  /-- Port p has trained and learnt its neighbour's address and the one-way delay in sixteenths (R306, R313). -/
  | portUp (p neighbour delay : Nat)
  /-- Port p receives a FLOOD symbol: kind 0 VIGIL_NOW, 1 VIGIL_SCHED, 2 VIGIL_RESUME (R309, R482). -/
  | floodReceive (p kind count : Nat)
  /-- Port p receives the LINK_STATE message that module `src` sent for a link (R316). -/
  | linkState (p src : Nat) (link : TorusLink) (up : Bool)
  /-- Port p receives a WRITE message for this module (R328). -/
  | writeMessageReceive (p : Nat) (hdr : BitVec 256) (payload : List (BitVec 8))
  /-- Port p receives a message to pass on (R314). -/
  | messageForward (p : Nat) (hdr : BitVec 256) (payload : List (BitVec 8))
  /-- An ACK arrives (R328). -/
  | ack (hdr : BitVec 256)
  /-- A RETIRE arrives (R329). -/
  | retire (hdr : BitVec 256)
  /-- A NAK arrives (R329). -/
  | nak (hdr : BitVec 256)
  /-- A REWIND arrives (R329). -/
  | rewind (hdr : BitVec 256)
  /-- 2 µs after an accepted message not acknowledged, of stream `stream` from module `src` (R328). -/
  | ackTimer (src stream : Nat)
  /-- 20 µs without an ACK on a stream (R329). -/
  | resendTimeout (stream : Nat)
  /-- 20 µs on a paused stream (R330). -/
  | parkedRepeat (stream : Nat)
  /-- The send streamer sends the next released message of a stream (R327). -/
  | messageTransmit (stream : Nat)
  /-- Port p receives a COLL message for this module (R387). -/
  | collMessageReceive (p : Nat) (hdr : BitVec 256) (payload : List (BitVec 8))
  /-- 20 µs after refused lines of collective id (R384). -/
  | collNotreadyRepeat (id : Nat)
  /-- Collective id has had no new line for COLL_TIMEOUT (R386). -/
  | collTimeout (id : Nat)
  /-- The last landing of collective id has taken place (R385). -/
  | collLanding (id : Nat)
  /-- Core c misses its heartbeat (R426). -/
  | watchdogExpiry (c : Nat)
  /-- A check detects a fault (R426). -/
  | faultDetection (what : Detected)
  /-- Recovery of partition p restores and prepares to reopen (R440). -/
  | recovery (p : Nat)
  /-- The remap sequencer of die d brings in a spare: kind 0 site, 1 track, 2 slice (R444). -/
  | remapSubstitution (d kind half row index : Nat) (dir software : Bool)
  /-- A failure strikes a full row (R445). -/
  | rowExhausted (d half row : Nat)
  /-- A failed slice of a half is rebuilt into its spare (R446). -/
  | sliceRebuild (d half : Nat)
  /-- An uncorrectable store line is rebuilt from parity (R446). -/
  | lineParityRebuild (base : Nat)
  /-- REMAP_CTRL.GO of die d (R462). -/
  | remapGo (d : Nat)
  /-- REMAP_REC_POP of die d (R462). -/
  | remapRecPop (d : Nat)
  /-- The vote of die d's scrubber finds a disagreeing copy holding `bad` (R450). -/
  | scrubVoteCorrect (d : Nat) (copy : ScrubCopy) (bad : Nat)
  /-- CP-A fails and CP-B takes over (R454). -/
  | cpFailover
  /-- An FLR of function f (R369). -/
  | functionReset (f : Nat)
  /-- A device reset (R453). -/
  | deviceReset
  /-- An orderly power-down (R453). -/
  | orderlyPowerDown
  /-- The busbar is below 44 V for 1 ms (R499). -/
  | inputLoss
  /-- The busbar returns within 1 ms (R499). -/
  | powerDip
  /-- PREEMPT with STOP on partition p (R368). -/
  | preemptStop (p : Nat)
  /-- PREEMPT with RESUME on partition p (R229, R368). -/
  | preemptResume (p : Nat)
  /-- FN_RELEASE with GO (R368). -/
  | fnRelease (f : Nat)
  /-- A write of CP_PARTp (R339). -/
  | cpPartWrite (p value : Nat)
  /-- A write of FN_CFGf or, with `events`, FN_EVENTSf (R342). -/
  | fnCfgWrite (f : Nat) (events : Bool) (value : Nat)
  /-- The PF enters or leaves D3hot (R337). -/
  | hostPowerState (d3hot : Bool)
  /-- The central reader writes the dump of this tick (R471). -/
  | dump
  /-- A write of CNT_CFG_kind_k (R466). -/
  | cntCfgWrite (kind k value : Nat)
  /-- A sample of core c is due; skid is the number of instructions of R477, pc the PC it reports. -/
  | threadSample (c skid : Nat) (pc : BitVec 8)
  /-- The trace buffer drains its next record (R478). -/
  | sepiaRecord
  /-- Room returns in the trace buffer after drops (R481). -/
  | lost
  /-- The host writes SEPIA_HEAD (R478). -/
  | sepiaHeadWrite (head : Nat)
  /-- In test mode, core c's thread t issues at a cycle that differs from its record (R216). -/
  | testMismatch (c : Nat) (pc : BitVec 8) (expected actual : BitVec 20)
  /-- Function f writes OBS_CONSENT (R474). -/
  | obsConsentWrite (f value : Nat)
  /-- The PF writes OBS_PARTp (R475). -/
  | obsPartWrite (p value : Nat)
  /-- VIGIL_N is low for 100 ns (R482). -/
  | vigilPin
  /-- VIGIL_CTRL.NOW (R482). -/
  | now
  /-- VIGIL_CTRL.NOW_SYS (R482). -/
  | nowSys
  /-- VIGIL_CTRL.SCHED (R484). -/
  | sched
  /-- VIGIL_CTRL.SCHED_SYS (R484). -/
  | schedSys
  /-- VIGIL_CTRL.RESUME (R486). -/
  | resume
  /-- VIGIL_CTRL.RESUME_SYS (R486). -/
  | resumeSys
  /-- The armed count is reached, at the end of the tick window (R484). -/
  | scheduledFreeze
  /-- The resume point is reached (R486). -/
  | vigilResumePoint
  /-- SCAN_CTRL.GO (R488). -/
  | scanGo
  /-- The scan engine's last write is posted (R489). -/
  | scanDone
  /-- The MC misses its heartbeat (R493). -/
  | mcHeartbeatMiss
  /-- The MC samples its sensors: die temperature, flow in 0.01 L/min, inlet in 0.01 °C (R492). -/
  | telemetrySample (temp flow inlet : Nat)
  /-- A die reaches 105 °C (R497). -/
  | thermalTrip
  /-- Flow below 2.0 L/min for 2 s or inlet above 50 °C (R497). -/
  | coolantFailure
  /-- The power manager's measurements: flow, inlet, hottest die (R497). -/
  | coolantWarn (flow inlet temp : Nat)
  /-- The busbar power averaged over 1 ms, in watts (R496). -/
  | powerLimit (watts : Nat)
  /-- Power is good: start-up begins with what it finds (R508). -/
  | startup (env : StartEnv)
  /-- The start-up step in progress passes its bound (R508). -/
  | startupStepTimeout
  /-- The coolant check has passed (R511). -/
  | coolantCheckPass
  /-- ATTN_N is low for 10 ms (R512). -/
  | attnN
  /-- TB_REFCLK is lost (R554). -/
  | refclkLoss
  /-- A cable of port p is inserted (qualified or not) or removed (R555). -/
  | cableChange (p : Nat) (inserted qualified : Bool)
  /-- PRSNT_N makes or breaks (R560). -/
  | prsntChange (made : Bool)
  /-- Mailbox SUC_WRITE (R507). -/
  | sucWrite
  /-- Mailbox SUC_READ (R521). -/
  | sucRead
  /-- Mailbox FW_STAGE (R502). -/
  | fwStage
  /-- Mailbox INVENTORY (R521). -/
  | inventory
  /-- Mailbox REMOVE (R512). -/
  | remove
  /-- Mailbox POWER_DOWN (R521). -/
  | powerDown
  /-- Function f's DOE mailbox receives an SPDM (or IDE_KM) request (R503). -/
  | spdmRequest (f : Nat) (bytes : List (BitVec 8))
  /-- The UART receives a character: eight data samples and the stop sample (R515). -/
  | uartReceiveCharacter (data : BitVec 8) (stop : Bool)
  /-- The UART sends its next character (R514). -/
  | uartTransmitCharacter
  /-- The next Sepia record is sent on the service connector (R516). -/
  | uartSepiaFrame
  /-- A feed write of 1, 2 or 4 bytes to context ch, 16 the direct interface (R518). -/
  | cvuFeed (who ch bytes value : Nat)
  /-- CTRL.INIT of a channel (R519). -/
  | cvuInit (who ch : Nat)
  /-- A write of a word of the running value (R519, R530). -/
  | cvuValueWrite (who ch : Nat) (high : Bool) (value : Nat)
  /-- A read of a word of the running value (R519). -/
  | cvuValueRead (who ch : Nat) (high : Bool)
  /-- A read of a word of the result (R519). -/
  | cvuResultRead (who ch : Nat) (high : Bool)
  /-- A 4-byte read of the low word of a 64-bit register at a BAR2 address (R528). -/
  | wideLowRead (who addr : Nat)
  /-- A 4-byte write of the low word of a 64-bit RW register (R529). -/
  | wideLowWrite (who addr value : Nat)
  /-- A 4-byte write of its high word (R529). -/
  | wideHighWrite (who addr value : Nat)
  /-- A write to a register while the module is frozen (R535). -/
  | frozenWrite (who addr value mask : Nat)
  /-- The PF writes through the alias of function f (R541). -/
  | aliasWrite (f off value : Nat)
  /-- A write of a dword at a BAR2 address (a BAR0 register of function f at its alias address), bytes enabled by mask. -/
  | registerWrite (who addr value mask : Nat)
  /-- The drive of bay b is pulled, or one is fitted (R279). -/
  | drivePull (b : Nat) (present : Bool)
  /-- The carrier's SLOT_ID straps change: [1:0] SLOT_ID, [2] SLOT_PAR (R561). -/
  | slotIdStrapChange (pins : Nat)
  /-- 100 ms on a port whose UP_REQ is 1 and which is not UP (R511). -/
  | portTrainingRepeat (p : Nat)
  /-- The MC removes a waiting remap record of die d (R492). -/
  | mcRemapRecordRemoval (d : Nat)
deriving DecidableEq, Repr

end Sys2Proof
end

