-- ==== Sys2Proof/Machine/State.lean ====
section
/-! DEFINITION. The state of the module as plain data: every core, every hold buffer, every register, queue, table and
engine the spec gives it, and the queue of commands that wait; the reasons a step can stop; the state after reset. -/

namespace Sys2Proof.Machine

/-! ### The core (chapter "The core") -/

/-- The states of a thread (R75). -/
inductive ThreadState where
  | idle | ready | waitOperand | waitQueue | waitCounter | waitDma | waitArray | yielded | suspended | faulted
deriving DecidableEq, Repr

/-- The causes of a core fault (R106). -/
inductive Cause where
  | encoding | bounds | counter | openQueue | dma | pcOverflow | ecc
deriving DecidableEq, Repr

/-- What a waiting thread waits for: a counter against its threshold (R97), the rest of a QPUSH or QPOP (R132). -/
inductive PendOp where
  | none
  | waitc (ctr : Nat) (threshold : Word)
  | push (q areg : Nat) (pad : Bool) (left : Nat)
  | pop (q areg : Nat) (pad : Bool) (left : Nat)
deriving DecidableEq, Repr

/-- One thread: g0–g31, a0–a7, v0 and v1, p0–p7, PC, TSTAT, its state (R69, R70, R72, R75). g0 and p0 are never
stored: reads give zero and one. -/
structure Thread where
  g : KMap Word := []
  a : KMap DWord := []
  v0 : BitVec 256 := 0
  v1 : BitVec 256 := 0
  p : BitVec 8 := 0
  pc : BitVec 8 := 0
  tstat : Word := 0
  state : ThreadState := .idle
  pend : PendOp := .none
deriving DecidableEq, Repr

/-- An entry of a neighbour queue: 32 B and its Umber bit (R88); in an outbound FIFO also the configuration that pushed it, whose
binding it follows across slots (R88, R102). -/
structure QEntry where
  data : BitVec 256 := 0
  mark : Bool := false
  cfg : BitVec 3 := 0
deriving DecidableEq, Repr

/-- A 32 B unit that a DMA slot holds between its two turns (R92): its offset in the transfer, its data and mark. -/
structure UnitBuf where
  off : Nat
  data : BitVec 256
  mark : Bool
deriving DecidableEq, Repr

/-- The saved loop state of a walk (R107, R257): the 128 B block read at the start, the release counter's start
value, the position: item, point, sequence number, unit; the current pointer line and the one after it (R245); of the current unit,
whether other cores' ports were asked for it and how many have still to serve it; units that wait at other ports to be held
(R92, R251). -/
structure WalkRun where
  block : List Byte := []
  blockAddr : Nat := 0
  cpt : Bool := false
  crel : Word := 0
  started : Bool := false
  item : Nat := 0
  point : Nat := 0
  seq : Nat := 0
  unit : Nat := 0
  ptr : Nat := 0
  ptrLine : Nat := 0
  ptrBytes : List Byte := []
  ptrAhead : List Byte := []
  releaseWait : Bool := false
  asked : Option Nat := none
  out : Nat := 0
  front : BitVec 2 := 0
deriving DecidableEq, Repr

/-- A DMA transfer slot (R93, R107): source and destination (own pads resolved to physical halves), length, counter,
progress, the remote stream, the number of the transfer among the core's and the frame ordinal of its issue (R326, R327),
and the walk it runs, if any. -/
structure DmaSlot where
  src : Nat := 0
  dst : Nat := 0
  len : Nat := 0
  ctr : BitVec 3 := 0
  thread : BitVec 4 := 0
  cfg : BitVec 3 := 0
  srcLocal : Bool := false
  dstLocal : Bool := false
  stream : Option Nat := none
  xfer : Nat := 0
  ord : Nat := 0
  readPos : Nat := 0
  donePos : Nat := 0
  held : Option UnitBuf := none
  asked : Bool := false
  walk : Option WalkRun := none
deriving DecidableEq, Repr

/-- Where a CVT's 32 B result goes: a v register or a pad granule already resolved (R122). -/
inductive VDest where
  | v (n : Bool)
  | pad (key : Nat)
deriving DecidableEq, Repr

/-- What the output of a generator request is for (R100): an RNG, a stochastic CVT, a stochastic SSPK. -/
inductive GenUse where
  | rng (vd half : Bool)
  | cvt (src : BitVec 256) (sfmt dfmt part : Nat) (ftz : Bool) (dst : VDest)
  | sspk (elems : List Nat) (fp32 ftz : Bool) (keys : List Nat)
deriving DecidableEq, Repr

/-- A waiting request of the counter-generator unit (R100). -/
structure GenReq where
  thread : BitVec 4
  input : GenInput
  use : GenUse
deriving DecidableEq, Repr

/-- A running drain (R130, R181): its block list still to do, what TDRAIN fixed at issue, and its progress. -/
structure Drain where
  blocks : List Nat := []
  thread : BitVec 4 := 0
  cfg : BitVec 3 := 0
  toQueue : Bool := false
  q : BitVec 2 := 0
  ad : BitVec 3 := 0
  dfmt : Nat := 0
  int32 : Bool := false
  rnd : Nat := 0
  gen : Option GenInput := none
  ftz : Bool := false
  cinc : Option (BitVec 3) := none
  halfData : Option (BitVec 128 × Bool) := none
  outputs : List QEntry := []
deriving DecidableEq, Repr

/-- External traffic waiting at a core's store port (R92): a unit arriving for this core's pad from another core's
slot, held for the frame; the cells of a walk's unit for this core's pad; bytes of a window's message, of which the last ones
count (R319, R328); a read of this core's pad for another core's slot, or for the unit of its walk. A write whose slot has
faulted since names no slot. -/
inductive ExtReq where
  | inbound (fromCore : Nat) (slot : Option Nat) (key : Nat) (data : BitVec 256) (mark : Bool)
  | cells (fromCore : Nat) (slot : Option Nat) (base : Nat) (cells : List (Nat × Byte)) (mark : Bool)
  | window (key : Nat) (data : List Byte) (mark : Bool) (ctr : Option Nat)
  | outbound (fromCore slot key off : Nat)
  | walkRead (fromCore slot : Nat)
deriving DecidableEq, Repr

/-- One core (R68): threads, queues (a hop's credits are the free
entries of the far inbound FIFO), DMA slots, counters, configuration records, issue pointers, FRONT
bits, accumulator roles, drain engine, CSTAT, generator requests, store port. -/
structure Core where
  threads : KMap Thread := []
  qin : KMap (List QEntry) := []
  qout : KMap (List QEntry) := []
  slots : KMap (Option DmaSlot) := []
  ctrs : KMap Word := []
  cfgs : KMap (BitVec 256) := []
  edges : KMap (BitVec 2) := []
  slotOpen : Option (BitVec 3) := none
  slotIndex : Nat := 0
  arrayPtr : BitVec 4 := 0
  generalPtr : BitVec 4 := 0
  frontW : Bool := false
  frontA : Bool := false
  roles : BitVec 256 := 0
  drain : Option Drain := none
  suspended : Option Drain := none
  cstat : BitVec 8 := 0
  gens : List GenReq := []
  ext : List ExtReq := []
  portPtr : Nat := 0
  fillerCut : Bool := false
  mirrored : Nat := 0
deriving DecidableEq, Repr, Inhabited

/-! ### Held writes (chapter "Faults, frame commit and recovery") -/

/-- An entry of a hold buffer (R427–R430): the partition and frame ordinal that made the write, the line or pad
granule it belongs to, its byte mask and data, its mark, whether it serves an asynchronous copy or landing, whether its frame has
committed; the functions whose spans' cores wrote into it (R299). -/
structure Held where
  part : Nat
  ord : Nat
  base : Nat
  cells : KMap (Option Byte) := []
  mark : Bool := false
  async : Bool := false
  committed : Bool := false
  home : Nat := 0
  outs : List Nat := []
deriving DecidableEq, Repr

/-! ### Links (chapter "Torus links, windows and remote arrivals") -/

/-- A message in a hold ring (R327): its stream, its place in the ring by device address, the frame and the place in it that order it, its SEQ once sequenced,
whether it was sent and acknowledged. -/
structure HeldMsg where
  stream : Nat
  part : Nat
  ord : Nat
  core : Nat
  xfer : Nat
  part_ : Nat
  offset : Nat
  data : List Byte
  mark : Bool
  seq : Option Nat := none
  last : Bool := false
  first : Bool := false
  sent : Bool := false
  acked : Bool := false
  place : Nat := 0
deriving DecidableEq, Repr

/-- An open window (R319). -/
structure Window where
  store : Bool := false
  parked : Bool := false
  func : Nat := 0
  notifyCore : Nat := 0
  ctr : Nat := 0
  peerFunc : Nat := 0
  peerAny : Bool := false
  base : Nat := 0
  size : Nat := 0
  srcMatch : Nat := 0
  srcMask : Nat := 0
  accepted : Nat := 0
deriving DecidableEq, Repr

/-- A stream (R322), with the destination window's size (R323), the resend state of R329, and the command
that closes it. -/
structure Stream where
  fault : Bool := false
  paused : Bool := false
  func : Nat := 0
  tclass : Nat := 0
  dst : Nat := 0
  dstWin : Nat := 0
  dstSize : Nat := 0
  retSframe : Nat := 0
  retSeq : Nat := 0
  resends : Nat := 0
  rounds : Nat := 0
  started : Bool := false
  closing : Option Nat := none
deriving DecidableEq, Repr

/-- An inbound stream record (R328): sender, LF, NS, CLOSED, messages not yet acknowledged, and the point last told
in a RETIRE. -/
structure Isr where
  src : Nat := 0
  stream : Nat := 0
  win : Nat := 0
  lf : Int := 0
  ns : Nat := 0
  closed : Bool := true
  unacked : Nat := 0
  retLf : Int := 0
  retNs : Nat := 0
deriving DecidableEq, Repr

/-- A message that waits at a port (R312, R332): its channel and class, whether it is forwarded, whether its first part has gone with
a block already, its bytes still to go. -/
structure PortMsg where
  vc : Nat
  cls : Nat
  fwd : Bool := false
  cont : Bool := false
  bytes : List Byte
deriving DecidableEq, Repr

/-- The link layer of one port (R307–R312, R332): DATA blocks kept for replay (LSEQ, channel, payload), the sequence numbers both
ways, replays of one block without progress, blocks of the far buffer in use and own blocks to give back, per channel, messages
waiting for the port, the share of the rotation whose turn it is, of each class (16: VC2) whether its last message was forwarded,
blocks received and not yet passed onward, per channel, and the blocks put on the line. -/
structure Port where
  replay : List (Nat × Nat × List Byte) := []
  txNext : Nat := 0
  rxLast : Nat := 4095
  replays : Nat := 0
  spent : KMap Nat := []
  owed : KMap Nat := []
  queue : List PortMsg := []
  share : Nat := 0
  served : KMap Bool := []
  rx : KMap (List (List Byte)) := []
  wire : List (List Byte) := []
deriving DecidableEq, Repr

/-- The torus side of the module (`next`: of each die and class, key 16 · die + class, the handle from which its streams are served;
`ringPos`: of each function's ring on a die, key 8 · function + die, where its next message goes, R327): ports, route banks (key 32·axis + coordinate), known failed links (axis,
coordinate of the link's lower end), windows and the changes of the next bank swap (command, window, entry), streams,
inbound stream records, hold rings, each core's count of window transfers. -/
structure Links where
  ports : KMap Port := []
  routes : KMap (BitVec 2) := []
  shadow : KMap (BitVec 2) := []
  shadowReady : Bool := false
  failed : List (Nat × Nat) := []
  windows : KMap (Option Window) := []
  winChanges : List (Nat × Nat × Option Window) := []
  streams : KMap (Option Stream) := []
  isrs : KMap (Option Isr) := []
  ring : List HeldMsg := []
  next : KMap Nat := []
  ringPos : KMap Nat := []
  xferCount : KMap Nat := []
deriving DecidableEq, Repr

/-! ### Memory tiers (chapter "Memory tiers, streamers and the shared pool") -/

/-- The state of a mapped page (R287): UNMAPPED is the page not listed. -/
inductive PageState where
  | mapped | resident | pinned | evicted
deriving DecidableEq, Repr

/-- A page of a pool map: its state, physical page, backing far page, age (R287, R290). -/
structure Page where
  state : PageState
  phys : Nat := 0
  back : Nat := 0
  age : Nat := 0
deriving DecidableEq, Repr

/-- A waiting pool request (R288). -/
structure PoolReq where
  func : Nat
  far : Bool
  op : Nat
  vpage : Nat
  count : Nat
deriving DecidableEq, Repr

/-- What a copy moves: a walk of level 0 or 1, or a linear copy (R281, R354). -/
inductive CopyForm where
  | walk (level : Nat) (block : List Byte)
  | linear (src dst len : Nat)
deriving DecidableEq, Repr

/-- A position in a walk, or in a linear copy (`unit` its line): item, point, sequence number of the tile, 256 B unit, the
item's pointer (R244, R281). -/
structure CopyPos where
  item : Nat := 0
  point : Nat := 0
  seq : Nat := 0
  unit : Nat := 0
  ptr : Option Nat := none
deriving DecidableEq, Repr

/-- An asynchronous line that arrived and waits for the next frame (R286): its frame ordinal, its cells, its mark, whether it has met
a full hold buffer (R431). -/
structure Arrived where
  ord : Nat
  cells : List (Nat × Byte)
  mark : Bool
  waited : Bool := false
deriving DecidableEq, Repr

/-- A copy in progress (R281, R284, R286, R295): whose it is, its command, home die, form; asynchronous or in-frame; a layer
copy with its event; the position of the next line, whether none is left, whether an in-frame line waits for room in a hold
buffer (R431); pointers read so far (R245); lines that failed once
with the tick of the failure (R452); lines that wait for the next frame; the latest frame ordinal in which it wrote; lines
delivered marked (device address, serving unit, cause). -/
structure CopyRun where
  func : Nat
  part : Nat
  cmd : Nat
  home : Nat
  form : CopyForm
  async : Bool
  layer : Bool := false
  event : Option Nat := none
  pos : CopyPos := {}
  fin : Bool := false
  waits : Bool := false
  ptrs : List Byte := []
  retry : List (CopyPos × Nat) := []
  arrived : List Arrived := []
  lastOrd : Nat := 0
  bad : List (Nat × Nat × Nat) := []
deriving DecidableEq, Repr

/-- The tiers: pool maps (key: function · 2^32 + tier · 2^31 + virtual page), waiting pool requests, die caches (key:
die · 2^40 + set; physical line keys, most recent first), flash windows armed (window, control, first block) and in effect,
copies by number, near stacks (0–15) and far channels (16–31) whose lines are lost, uncorrectable lines of each stack in the last
second (key stack · 2^64 + tick, R447), namespace blocks of each bay, the carve-out grants in effect (key 8·function + die). -/
structure Tiers where
  pages : KMap (Option Page) := []
  reqs : List PoolReq := []
  caches : KMap (List Nat) := []
  fwArmed : List (Nat × Nat × Nat) := []
  fwOn : KMap (Option (Nat × Nat)) := []
  copies : KMap (Option CopyRun) := []
  lost : List Nat := []
  errs : KMap Nat := []
  blocks : KMap Nat := []
  carve : KMap Nat := []
deriving DecidableEq, Repr

/-! ### Collectives (chapter "Collectives and sharded training") -/

/-- What a COLL message carries beyond the transport header (R400). -/
structure CollHdr where
  phase : Nat := 0
  axis : Nat := 0
  madder : Bool := false
  level : Nat := 0
  ctag : Nat := 0
  vflags : Nat := 0
  pdig : Nat := 0
  step : Nat := 0
  line : Nat := 0
  rank : Nat := 0
  piece : Nat := 0
deriving DecidableEq, Repr

/-- A line of a collective between modules: header, peers, direction, payload, mark. -/
structure CollMsg where
  dst : Nat := 0
  src : Nat := 0
  tclass : Nat := 0
  func : Nat := 0
  dirs : Nat := 0
  turned : Bool := false
  last : Bool := false
  umber : Bool := false
  hdr : CollHdr := {}
  payload : List Byte := []
deriving DecidableEq, Repr

/-- A line of a collective: its bytes and its mark. -/
abbrev CollLine := List Byte × Bool

/-- A piece of a PERMUTE in its staging buffer (R398): its place there, the slot it is for, the edge it comes on, its first line on
that edge, its lines staged and its lines written into the slot. -/
structure StagePiece where
  place : Nat
  slot : Nat
  edge : Nat
  first : Nat
  staged : Nat := 0
  written : Nat := 0
deriving DecidableEq, Repr

/-- A running collective (R375, R384–R387): its command, function, partition, operation and agreed fields, its core list
or permutation table; the axis turn, the lines that enter that turn, the lines received (key: edge · 2^32 + line), the
line expected next on each edge, lines sent on each edge, messages sent and not acknowledged, those acknowledged, messages refused
and waiting to be repeated, the output lines landed, whether the next landing waits and was counted (R431), whether the last landing has
taken place and in which frame ordinal; the lines as read at admission; of a PERMUTE the pieces in its staging buffer and how many
pieces each edge has brought there (R398). -/
structure Coll where
  cmd : Nat := 0
  func : Nat := 0
  part : Nat := 0
  op : Nat := 0
  axes : List Nat := []
  fmt : Nat := 0
  widen : Bool := false
  rotMinus : Bool := false
  tclass : Nat := 0
  origin : Nat := 0
  ctag : Nat := 0
  step : Nat := 0
  src : Nat := 0
  dst : Nat := 0
  aux2 : Nat := 0
  dist : Nat := 0
  piece : Nat := 0
  nlist : Nat := 0
  pdig : Nat := 0
  list : List Nat := []
  turn : Nat := 0
  data : List CollLine := []
  got : List (Nat × CollLine) := []
  expected : KMap Nat := []
  prog : KMap Nat := []
  sent : List CollMsg := []
  acked : List CollMsg := []
  refused : List CollMsg := []
  landed : Nat := 0
  waited : Bool := false
  done : Bool := false
  lastOrd : Option Nat := none
  start : List CollLine := []
  stage : List StagePiece := []
  taken : KMap Nat := []
deriving DecidableEq, Repr

/-! ### Commands and queues (chapter "Commands, queues and tenants") -/

/-- Why a command faulted: the reason of R364, the source and the unit. -/
structure FaultInfo where
  reason : Nat
  source : Nat := 0
  unit : Nat := 0
deriving DecidableEq, Repr

/-- A fetched command (R348): its fields, its payload as read at fetch (R352), the reason or the duplicate that
its fetch found (R350, R351), and its progress: the counts at
acceptance and admission, whether its Calends passed, slips, Umber findings (R299), a skip (R395), a fault that its
next commit completes or, with `ends`, the next tick window (R34), the frames its RUN_SPAN has opened, the frame ordinal at whose
commit it completes; STEP_ACC, the inbound stream records and the running collectives of its partition at its admission (R439). -/
structure Cmd where
  func : Nat := 0
  q : Nat := 0
  opcode : Nat := 0
  flags : Nat := 0
  hseq : Nat := 0
  calends : Nat := 0
  sigs : List Nat := []
  waits : List (Nat × Nat) := []
  payload : List Byte := []
  refuse : Option Nat := none
  dup : Bool := false
  accepted : Option Nat := none
  admitted : Option Nat := none
  late : Bool := false
  slips : Nat := 0
  slipped : Bool := false
  skipped : Bool := false
  umber : Option Nat := none
  nfail : Nat := 0
  fault : Option FaultInfo := none
  ends : Bool := false
  startAcc : Nat := 0
  startIsrs : KMap Isr := []
  startColls : KMap Coll := []
  opened : Nat := 0
  launchOrd : Nat := 0
  endOrd : Option Nat := none
  pages : List Nat := []
  ready : Bool := false
deriving DecidableEq, Repr

/-- A completion record before its PHASE is known (R362); `owed` while the mirrors it changes wait for its writing (R366). -/
structure Rec where
  type : Nat
  owed : Bool := false
  replayed : Bool := false
  status : Nat := 0
  opcode : Nat := 0
  hseq : Nat := 0
  tick : Nat := 0
  endTick : Nat := 0
  detail : Nat := 0
deriving DecidableEq, Repr

/-- A queue beyond its registers (R343–R347): the ring bases and sizes taken at ENABLE, the PHASE of the present pass,
slots reserved, records written and not yet journaled as consumed, records held while disabled, DONE records ABANDONED
to write at the first ENABLE after start-up, the record written last with the bytes it replaced (R337). -/
structure Queue where
  on : Bool := false
  sqBase : Nat := 0
  sqLog : Nat := 0
  cqBase : Nat := 0
  cqLog : Nat := 0
  phase : Bool := true
  reserved : Nat := 0
  unread : List Rec := []
  held : List Rec := []
  abandoned : List Rec := []
  last : Option (Rec × List Byte) := none
deriving DecidableEq, Repr

/-- The command processors (R357–R359): the next journal number, whether CP-B is active, whether a standby is fit,
commands admitted in this tick window and how many may be, the admissions after which the active one fails in the next window
(R454), events that an EVENT has SET in this window, commands held to the next tick by a COMMIT_STEP of this one (R404),
acceptances of the last second by tick (R358), functions released and their fetching stopped, the power state, a reset or
a power-down under way. -/
structure Cp where
  nextId : Nat := 1
  cpB : Bool := false
  standby : Bool := false
  journalOk : Bool := false
  admittedNow : Nat := 0
  admitLimit : Nat := 1024
  failAfter : Option Nat := none
  setNow : List Nat := []
  heldNow : List Nat := []
  accepts : KMap Nat := []
  released : List Nat := []
  d3hot : Bool := false
  powerDown : Bool := false
deriving DecidableEq, Repr

/-! ### Partitions, images, frames (chapters "Spatial programs", "Frames", "Faults, frame commit and recovery") -/

/-- A finalised image that a partition holds (R220): where it was named, its bytes, the origin it is placed at, the
carve-out buffer table, mirror areas and hold rings as copied at finalisation (R538); for a filler, the configuration
index of each of its configurations (key 8·virtual core + configuration, R225) and whether its code is written. -/
structure ImgHeld where
  func : Nat := 0
  addr : Nat := 0
  bytes : List Byte := []
  orgRow : Nat := 0
  orgCol : Nat := 0
  carveBuf : List Nat := []
  mirrorArea : List Nat := []
  linkHold : List Nat := []
  cfgMap : KMap Nat := []
  coded : Bool := false
deriving DecidableEq, Repr

/-- A frame in flight: its ordinal, the tick that opened it, the RUN_SPAN it runs and that command's frame index, its
pattern, whether it is a fast or a load frame; sealed, its sealing tick and whether its mirror is complete; the fillers that run
in it (function, pattern of its own) and their commands' frame indices (R340). -/
structure Frame where
  ord : Nat := 0
  opened : Nat := 0
  cmd : Option Nat := none
  k : Nat := 0
  pattern : Option Nat := none
  fast : Bool := false
  load : Bool := false
  sealTick : Nat := 0
  mirrored : Bool := false
  fillers : List (Nat × Nat) := []
  fillerRuns : List (Nat × Nat) := []
deriving DecidableEq, Repr

/-- What the seal of a frame captured (R433): the cores as they stood, and the partition record: the running command
with its frames opened, STEP_ACC, the inbound stream records of its windows, its running collectives, its copies; the number
of the free values that stand for what R107 leaves open; the count of its commit, once it has one. -/
structure Snap where
  ord : Nat := 0
  valid : Bool := false
  cores : KMap Core := []
  ranges : KMap (List Byte) := []
  marks : List Nat := []
  run : Option Nat := none
  opened : Nat := 0
  fillerPos : List (Nat × Nat) := []
  stepAcc : Nat := 0
  isrs : KMap Isr := []
  colls : KMap Coll := []
  copies : KMap CopyRun := []
  seed : Nat := 0
  commitTick : Nat := 0
deriving DecidableEq, Repr

/-- A recovery in progress (R439–R442): case A or B, the ordinal restored, the first ordinal run again, the KIND of
its substitution, the tick from which its delay counts (R442), whether it is restored and can reopen. -/
structure Recov where
  caseB : Bool
  restoreOrd : Option Nat
  firstOrd : Nat
  kind : Nat
  began : Nat
  restored : Bool := false
deriving DecidableEq, Repr

/-- A partition as PREEMPT or a CHECKPOINT saved it (R227–R229, R368, R456): shape, function, cores and pads by position in
the rectangle, the image, the frame ordinal and the command it was running, STEP_ACC and inbound stream records, the held writes into its
own pads not yet applied (key: place · 2^18 + offset). -/
structure Saved where
  func : Nat := 0
  rows : Nat := 0
  cols : Nat := 0
  area : Nat := 0
  cores : KMap Core := []
  pads : KMap Byte := []
  marks : List Nat := []
  image : Option ImgHeld := none
  fillers : List ImgHeld := []
  ord : Nat := 0
  run : Option Nat := none
  stepAcc : Nat := 0
  isrs : KMap Isr := []
  held : List Held := []
deriving DecidableEq, Repr

/-- A partition (R339): its record in effect, the open frame, the sealed frame that waits for its commit, the frame
ordinal, slips in a row, the ordinal that reached SLIP_LIMIT once (R443), the image held, the finalised image that
waits for its load frame, fillers, the image refused after a failed hop check (R220), a stop asked for or done,
recovery, the RUN_SPAN running, the two mirror slots, the start state of the load, a fast frame selected for this tick. -/
structure Part where
  valid : Bool := false
  func : Nat := 0
  orgRow : Nat := 0
  orgCol : Nat := 0
  rows : Nat := 0
  cols : Nat := 0
  ord : Nat := 0
  frame : Option Frame := none
  sealed : Option Frame := none
  slips : Nat := 0
  stalled : Option Nat := none
  image : Option ImgHeld := none
  finalised : Option ImgHeld := none
  loading : Bool := false
  loadOrd : Nat := 0
  fillers : List ImgHeld := []
  fillerNext : List ImgHeld := []
  hopRefused : Option (Nat × Nat) := none
  stopReq : Option Nat := none
  stopped : Bool := false
  resumeReq : Bool := false
  saved : Option Saved := none
  recov : Option Recov := none
  run : Option Nat := none
  snap0 : Snap := {}
  snap1 : Snap := {}
  fastNext : Bool := false
deriving DecidableEq, Repr

/-! ### The Almanac (chapter "Frames, the Almanac and timing promises") -/

/-- What a module knows of the last good sync symbol of a port, and of the last one it sent there (R58, R59). -/
structure SyncPort where
  seen : Bool := false
  root : Nat := 0
  depth : Nat := 255
  seq : Nat := 0
  tick : Nat := 0
  sub : Nat := 0
  frac : Nat := 0
  sentSeq : Nat := 255
  sentTick : Nat := 0
  sentSub : Nat := 0
  sentFrac : Nat := 0
  symbol : BitVec 128 := 0
deriving DecidableEq, Repr

/-- The Almanac beyond its registers: the count of the rate change armed (R45), the ports' sync state, consecutive sync
intervals counted toward lock, whether this interval had a usable pair with the parent and how many in a row had none (R64),
whether an acquisition has taken its parent's time (R61), sixteenths of a cycle slewed and not yet a whole cycle (R61), whether
it ever held lock, a parent change due at the next tick, the time-base cycles that droops have stretched in this frame. -/
structure Alm where
  armed : Option Nat := none
  sync : KMap SyncPort := []
  good : Nat := 0
  paired : Bool := false
  missed : Nat := 0
  stepped : Bool := false
  slew : Int := 0
  everLocked : Bool := false
  parentDue : Bool := false
  stretch : Nat := 0
deriving DecidableEq, Repr

/-! ### Remap, scrubber (chapters "Module and planes", "Faults, frame commit and recovery") -/

/-- The remap state of the module: retired core sites (key 64·(2·die + half) + row: physical columns), retired seam
tracks (key 128·die + 2·row + direction), the changes that the next tick makes active, the logical slice that each half's
spare serves, or will serve from the next tick, a slice being rebuilt and whether software asked for it, records (TICK 0) of the changes of the next tick, remap
records waiting on each die, the remap history (die, record), uncorrectable lines of each slice in this frame (key 128·die +
slice, R426), the three copies of each SCRUB_CTRL and of each scrub pointer. -/
structure Remap where
  sites : KMap (List Nat) := []
  nextSites : KMap (List Nat) := []
  tracks : KMap (List Nat) := []
  nextTracks : KMap (List Nat) := []
  slices : KMap (Option Nat) := []
  nextSlices : KMap (Option Nat) := []
  failedSlice : KMap (Option Nat) := []
  software : Bool := false
  due : List (Nat × Nat) := []
  badLines : KMap Nat := []
  records : KMap (List Nat) := []
  history : List (Nat × Nat) := []
  scrub : KMap (Nat × Nat × Nat) := []
  scrubPtr : KMap (Nat × Nat × Nat) := []
deriving DecidableEq, Repr

/-! ### The collectives of a module (chapter "Collectives and sharded training") -/

/-- The collectives of the module, by command number: those running, and those completed here of which a peer has not yet
acknowledged every line (R384, R404); COMMIT_STEP gates: (function, queue, commands left to skip). -/
structure Colls where
  run : KMap (Option Coll) := []
  past : KMap (Option Coll) := []
  gates : List (Nat × Nat × Nat) := []
deriving DecidableEq, Repr

/-! ### Observation (chapter "Counters, trace and the Vigil freeze") -/

/-- A Sepia record before its PHASE and RSEQ are known (R479). -/
structure Sepia where
  type : Nat
  func : Nat := 0
  tick : Nat
  sub : Nat
  arg0 : Nat := 0
  arg1 : Nat := 0
deriving DecidableEq, Repr

/-- Counters, trace, consent and modes beyond the registers: performance counters (key: kind · 2^24 + instance · 16 +
counter), what the latch of the last dump took (values, tick, configurations,
consent, DUMP_MISSED with the MISSED flag), configurations in effect, configurations that the next tick takes, per-partition
SLIPS, FAST and RECOVERIES (key 4p + i), dump number, the interval in use with the ticks since the last dump, a dump being
written, whether sampling is on, the samples of each core, the sampled cycles of the frames before this one and, of each core, one more than the
sampled cycle of its last sample (R476), the trace buffer, the next record number and PHASE of the host ring, losses since the last LOST
record, sampled consent, whether any admission has been made since start-up, the partitions whose comparator has written its
record of this frame, and the debug reads of accumulators (R193): units served (key, data, mark), reads that wait (core, window
offset, units left), units served of each core in this window. -/
structure Obs where
  ctrs : KMap Nat := []
  latched : KMap Nat := []
  latchTick : Nat := 0
  latchCfg : KMap Nat := []
  latchConsent : KMap Nat := []
  latchMissed : Nat × Bool := (0, false)
  cfg : KMap Nat := []
  armed : KMap Nat := []
  partCnt : KMap Nat := []
  dumpNext : Nat := 0
  dumpSince : Option (Nat × Nat) := none
  dumpBusy : Bool := false
  dumpMissed : Bool := false
  sampleOn : Bool := false
  sampleNo : KMap Nat := []
  sampleCount : Nat := 0
  sampleLast : KMap Nat := []
  buf : List Sepia := []
  rseq : Nat := 0
  phase : Bool := true
  lost : Nat := 0
  lostSamples : Nat := 0
  consent : KMap Nat := []
  admitted : Bool := false
  testHit : List Nat := []
  accOut : List (Nat × BitVec 256 × Bool) := []
  accWait : List (Nat × Nat × Nat) := []
  accServed : KMap Nat := []
deriving DecidableEq, Repr

/-- A register write held while its block is stopped (R535). -/
structure HeldWrite where
  who : Nat
  addr : Nat
  value : Nat
  mask : Nat
deriving DecidableEq, Repr

/-- The Vigil freeze and the scan engine: frozen, source, armed count and whether it came late, resume count, ticks
passed while frozen, queued register writes, floods sent on ports, the count of the last flood of each kind heard or sent since the
last resume (R309), a scan in progress. -/
structure Vigil where
  frozen : Bool := false
  source : Nat := 0
  scheduled : Bool := false
  armed : Option Nat := none
  armedSource : Nat := 0
  resumeAt : Option Nat := none
  frozeTick : Nat := 0
  frozeSub : Nat := 0
  writes : List HeldWrite := []
  floods : List (Nat × Nat × Nat) := []
  heard : KMap (Option Nat) := []
  scanBusy : Bool := false
  rateChanged : Bool := false
deriving DecidableEq, Repr

/-! ### Checkpoint and replay (chapters "Determinism" and "Faults, frame commit and recovery") -/

/-- A running CHECKPOINT (R456): its partition, what is still to be sent to the drives (device address and bytes: pieces of at most
32 blocks, a Flush with no bytes for each drive, the manifest last), the manifest and its address, its CHECK, the first marked source
address and the marked sub-ranges, whether a drive failed, whether the manifest met a full hold buffer, the ordinal of the frame in which the manifest is held, and what the manifest stands for. -/
structure Ckpt where
  cmd : Nat := 0
  func : Nat := 0
  part : Nat := 0
  blob : List (Nat × List Byte) := []
  manifest : List Byte := []
  manifestAddr : Nat := 0
  check : Nat := 0
  umber : Option Nat := none
  nfail : Nat := 0
  failed : Bool := false
  waited : Bool := false
  endOrd : Option Nat := none
  saved : Saved := {}
deriving DecidableEq, Repr

/-- A running REPLAY (R418–R424): its ranges, the expected values copied at admission, whether the frames are over and its
checks run, the values of the ranges checked, the next byte, the running CRC, whether a line of the range is marked, the tick
at which its next line failed once (R452), mismatches, the first marked address and marked sub-ranges, the ordinal of the
frame in which the last line was read. -/
structure Replay where
  cmd : Nat := 0
  func : Nat := 0
  part : Nat := 0
  home : Nat := 0
  ranges : List (Nat × Nat) := []
  expect : List Nat := []
  checking : Bool := false
  crcs : List Nat := []
  off : Nat := 0
  crc : Nat := 0
  marked : Bool := false
  retryAt : Option Nat := none
  mismatch : Nat := 0
  umber : Option Nat := none
  nfail : Nat := 0
  lastBad : Bool := false
  endOrd : Option Nat := none
deriving DecidableEq, Repr

/-! ### Management plane, UART, check-value unit, pins (chapters "Management plane", "Electrical") -/

/-- A context of the check-value unit: its running value and its queue of feed writes (R518, R520). -/
structure CvuCh where
  value : Nat := 0
  queue : List (List Byte) := []
deriving DecidableEq, Repr

/-- The UART (R514–R516): received bytes with framing flag, characters to send, what left the line. -/
structure Uart where
  rx : List (Byte × Bool) := []
  tx : List Byte := []
  line : List Byte := []
deriving DecidableEq, Repr

/-- A firmware bank (R501): the header fields and the image. A bank that FW_STAGE has not written holds the firmware the
module was delivered with, taken as acceptable (DESIGN CHOICE, notes/assumptions/32). -/
structure FwBank where
  steppings : Nat := 3
  svn : Nat := 0
  image : List Byte := []
  delivered : Bool := true
deriving DecidableEq, Repr

/-- An SPDM session state of a function's DOE mailbox (R503): session, whether its FINISH verified, transcript, last answer, IDE_KM
messages accepted. -/
structure Doe where
  session : Option Nat := none
  finished : Bool := false
  transcript : List Byte := []
  reply : List Byte := []
  ide : List (List Byte) := []
deriving DecidableEq, Repr

/-- The management plane beyond its registers: the stored start-up configuration record, the carrier record as read, firmware
banks (key 2·kind + bank), the bank marked active of each kind, SVN_MIN, measurements 1–5, sensor values published, the power
manager's E in microjoules and its per-partition energies and fast-frame history, the mailbox command in progress, whether the
MC restarts, the ticks an orderly power-down has waited for recovery and has run, a removal to begin at resume, dies without
power, started, TB_REFCLK lost, the UART, DOE mailboxes, CVU contexts (16 the direct one), qualified cables by port, PRSNT_N
made, the safe-to-remove indicator, what start-up found. -/
structure Mgmt where
  suc : Option (List Byte) := none
  carrier : Option (List Byte) := none
  banks : KMap FwBank := []
  active : KMap Nat := []
  svnMin : KMap Nat := []
  measured : KMap (List Byte) := []
  telem : List Nat := []
  energy : Int := 0
  runEnergy : KMap Nat := []
  fastEnergy : KMap Nat := []
  fastHist : KMap Nat := []
  frameEnergy : KMap Nat := []
  mbox : Option Nat := none
  mcRestart : Bool := false
  pdWait : Nat := 0
  pdTicks : Nat := 0
  attnPending : Bool := false
  dark : Bool := false
  powered : Bool := false
  refclkLost : Bool := false
  uart : Uart := {}
  doe : KMap Doe := []
  cvu : KMap CvuCh := []
  cables : KMap Bool := []
  prsnt : Bool := false
  safeLed : Bool := false
  env : StartEnv := {}
deriving DecidableEq, Repr

/-! ### The module -/

/-- The module. `ident` is the ordered part (R3, R4): grade B44, stepping B0, FAR_FILL and FLASH_FILL codes, serial
number. `rdata` is the value the last register read returned, `free` counts the free values used; `saves` keeps, by the CHECK of each
manifest written, the cores that its checkpoint carries, where R107 leaves the bytes open (notes/assumptions/16). -/
structure State where
  pending : List Instr := []
  gradeB44 : Bool := false
  stepB0 : Bool := false
  farFill : Nat := 3
  flashFill : Nat := 3
  serial : Nat := 0
  tick : Nat := 0
  subtick : Nat := 0
  regs : KMap Nat := []
  latches : KMap Nat := []
  stages : KMap (Option Nat) := []
  rdata : Nat := 0
  free : Nat := 0
  mem : KMap Byte := []
  marks : KMap Bool := []
  held : List Held := []
  cores : KMap Core := []
  events : KMap Nat := []
  cmds : KMap (Option Cmd) := []
  queues : KMap Queue := []
  cp : Cp := {}
  parts : KMap Part := []
  alm : Alm := {}
  tiers : Tiers := {}
  links : Links := {}
  colls : Colls := {}
  remap : Remap := {}
  obs : Obs := {}
  vigil : Vigil := {}
  ckpts : KMap (Option Ckpt) := []
  replays : KMap (Option Replay) := []
  saves : List (Nat × Saved) := []
  mgmt : Mgmt := {}
deriving DecidableEq, Repr

/-- The module right after power-on reset, before any start-up step. -/
def State.reset : State := {}

/-- Why the machine stops. -/
inductive Fault where
  /-- Raised by every command that names a unit the module does not have (a core, die, port, function, queue or slot out
  of range). Safe: the hardware has no such unit, so nothing it does is left out. -/
  | noSuchUnit
deriving DecidableEq, Repr

/-- Why a command has no meaning here. -/
inductive Refusal where
  /-- An arm of exec whose meaning is not written yet. Safe: the machine stops where the hardware goes on. -/
  | notModelled (mnemonic : String)
deriving DecidableEq, Repr

end Sys2Proof.Machine

namespace Sys2Proof

/-- What a core holds whose scan image was not written by this module, beyond the registers whose places R107 fixes
(notes/assumptions/16). -/
opaque Config.scanCore : List Byte → Machine.Core

/-- The byte at an offset of a core's scan image where R107 gives what stands there and not its form: PC, state and predicates, valid
counts, transfer slots, slot state, pointers, roles, drain engine, CSTAT, credits (notes/assumptions/16). -/
opaque Config.scanByte : Machine.Core → Nat → Byte

/-- STEP_ACC in a partition record that this module did not write (R433, R458; notes/assumptions/16). -/
opaque Config.recordAcc : List Byte → Nat

end Sys2Proof
end

