-- ==== Sys2Proof/Machine/Registers.lean ====
section
/-! DEFINITION. The register file: where each block's registers lie (R539–R545), their reset values, reading and
writing one, counting, setting and clearing bits; the trace buffer (R478–R481); small changes of the state that every
family uses. -/

namespace Sys2Proof.Machine

/-! ### Addresses in BAR2 (R539–R541) -/

/-- A register of function f's BAR0, at its alias address (R541). -/
def bar0 (f off : Nat) : Nat := 0xA000000 + f * 0x10000 + off
/-- A register of queue q of function f (R343). -/
def queueReg (f q off : Nat) : Nat := bar0 f (64 * q + off)
/-- ID / global block (R543). -/
def gidReg (off : Nat) : Nat := off
/-- Almanac block (R66). -/
def almReg (off : Nat) : Nat := 0x100000 + off
/-- Command processor block (R367). -/
def cpReg (off : Nat) : Nat := 0x200000 + off
/-- Pool and tiers block (R301). -/
def tierReg (off : Nat) : Nat := 0x400000 + off
/-- Links block (R333). -/
def linkReg (off : Nat) : Nat := 0x800000 + off
/-- Collective registers (R402). -/
def collReg (off : Nat) : Nat := 0x850000 + off
/-- Counters, trace, Vigil and scan block (R490). -/
def obsReg (off : Nat) : Nat := 0xC00000 + off
/-- MC, power and security block (R522). -/
def mgmtReg (off : Nat) : Nat := 0x1000000 + off
/-- Streamer sub-block of die d (R542). -/
def strmReg (d off : Nat) : Nat := 0x2000000 + d * 0x1000000 + off
/-- Store sub-block of die d (R461). -/
def storeReg (d off : Nat) : Nat := 0x2400000 + d * 0x1000000 + off
/-- Remap sub-block of die d (R462). -/
def remapReg (d off : Nat) : Nat := 0x2800000 + d * 0x1000000 + off
/-- Scrubber sub-block of die d (R463). -/
def scrubReg (d off : Nat) : Nat := 0x2C00000 + d * 0x1000000 + off

/-! ### Reset values (R536) -/

/-- The reset value of the register word at a BAR2 address; zero for every register whose table says zero, and where no
register lies. -/
def resetWord (a : Nat) : Nat :=
  if a == almReg 0x14 then 0xFF00
  else if a == almReg 0x40 then 8
  else if tierReg 0x40 ≤ a && a < tierReg 0x60 then 0x80
  else if a == collReg 0 then 0x64
  else if a == obsReg 0 then 0x10000
  else if a == obsReg 0x0C then 1
  else if a == obsReg 0x500 then 0x03FE0000
  else if a == obsReg 0x50C then 8
  else if a == mgmtReg 0x200 then 0x2EE
  else if a == mgmtReg 0x20C then 8
  else if a == mgmtReg 0x220 then 0x5F
  else if a == mgmtReg 0x400 then 0x1001A
  else if a == gidReg 8 then 0x102
  else if 0x2000000 ≤ a && a < 0xA000000 then
    (if a % 0x1000000 == 0x400018 then 0x400 else if a % 0x1000000 == 0xC00000 then 1 else 0)
  else 0

/-! ### One register word -/

/-- The word kept at a BAR2 address. -/
def State.reg (s : State) (a : Nat) : Nat := kget (resetWord a) s.regs a

/-- Keep a word; only its low 32 bits. -/
def State.setReg (s : State) (a v : Nat) : State := { s with regs := kset (resetWord a) s.regs a (v % 2 ^ 32) }

/-- A field of a register. -/
def State.field (s : State) (a lo len : Nat) : Nat := bitsOf (s.reg a) lo len

/-- Write a field of a register. -/
def State.setField (s : State) (a lo len v : Nat) : State := s.setReg a (putBits (s.reg a) lo len v)

/-- Set one bit of a register. -/
def State.setBit (s : State) (a i : Nat) : State := s.setField a i 1 1

/-- Clear one bit of a register. -/
def State.clearBit (s : State) (a i : Nat) : State := s.setField a i 1 0

/-- One bit of a register. -/
def State.bit (s : State) (a i : Nat) : Bool := bitOf (s.reg a) i

/-- A CNT register counts n more, modulo 2^32 (R14). -/
def State.count (s : State) (a n : Nat) : State := s.setReg a (s.reg a + n)

/-- The 64-bit register whose low word is at a. -/
def State.wide (s : State) (a : Nat) : Nat := s.reg a + s.reg (a + 4) * 2 ^ 32

/-- Write both words of a 64-bit register. -/
def State.setWide (s : State) (a v : Nat) : State := (s.setReg a v).setReg (a + 4) (v / 2 ^ 32)

/-! ### Latches and stages (R528, R529) -/

/-- The key of a requester's latch or stage of the register word at a BAR2 address. -/
def requesterKey (who a : Nat) : Nat := who * 2 ^ 32 + a

/-- The low word a requester has staged for the 64-bit register at lo; without a stage, the register's own. -/
def State.staged (s : State) (who lo : Nat) : Nat := (kget none s.stages (requesterKey who lo)).getD (s.reg lo)

/-- Stage a low word. -/
def State.stageLow (s : State) (who lo v : Nat) : State :=
  { s with stages := kset none s.stages (requesterKey who lo) (some (v % 2 ^ 32)) }

/-- Write the staged low word and a high word together. -/
def State.commitWide (s : State) (who lo hi : Nat) : State :=
  let s1 := (s.setReg lo (s.staged who lo)).setReg (lo + 4) hi
  { s1 with stages := kset none s1.stages (requesterKey who lo) none }

/-! ### Trace (R478–R481) -/

/-- Does a precede b in the trace buffer: time, then type, then function (R478)? -/
def Sepia.before (a b : Sepia) : Bool :=
  let k (r : Sepia) : Nat := ((r.tick * 2 ^ 20 + r.sub) * 256 + r.type) * 256 + r.func
  k a ≤ k b

/-- Put a record into the buffer at its place. -/
def sepiaInsert (r : Sepia) : List Sepia → List Sepia
  | [] => [r]
  | x :: xs => if x.before r then x :: sepiaInsert r xs else r :: x :: xs

/-- A trace record enters the buffer where its type is enabled; with the buffer full it is dropped and counted
(R480, R481). -/
def State.trace (s : State) (type func arg0 arg1 : Nat) : State :=
  if !s.bit (obsReg 0x500) (16 + type) then s
  else if s.obs.buf.length < 32768 then
    { s with obs := { s.obs with buf := sepiaInsert ⟨type, func, s.tick, s.subtick, arg0, arg1⟩ s.obs.buf } }
  else if type == 5 then
    { s.count (obsReg 0x408) 1 with obs := { s.obs with lostSamples := s.obs.lostSamples + 1 } }
  else
    { s.count (obsReg 0x518) 1 with obs := { s.obs with lost := s.obs.lost + 1 } }

/-! ### Performance counters (R465–R469) -/

/-- Counters of each instance of a kind (R465). -/
def countersOf (kind : Nat) : Nat := [4, 8, 8, 8, 4, 4, 8, 8, 4, 4, 8, 8].getD kind 0

/-- The counters of an instance after n occurrences of an event: those set to it in level mode count (R466). -/
def tallied (cfg ctrs : KMap Nat) (kind inst event n : Nat) : KMap Nat :=
  (List.range 8).foldl (fun m k =>
    let c := kget 0 cfg (16 * kind + k)
    if bitsOf c 0 8 == event && bitsOf c 8 2 == 1 then kmod 0 m (kind * 2 ^ 24 + inst * 16 + k) fun v => (v + n) % 2 ^ 48 else m) ctrs

/-- n occurrences of an event in an instance of a kind. -/
def State.tally (s : State) (kind inst event n : Nat) : State :=
  { s with obs := { s.obs with ctrs := tallied s.obs.cfg s.obs.ctrs kind inst event n } }

/-! ### Parts of the state -/

/-- Partition p. -/
def State.part (s : State) (p : Nat) : Part := kget {} s.parts p
/-- Change partition p. -/
def State.modPart (s : State) (p : Nat) (f : Part → Part) : State := { s with parts := kset {} s.parts p (f (s.part p)) }
/-- Logical core c. -/
def State.core (s : State) (c : Nat) : Core := kget {} s.cores c
/-- Replace logical core c. -/
def State.setCore (s : State) (c : Nat) (k : Core) : State := { s with cores := kset {} s.cores c k }
/-- Change logical core c. -/
def State.modCore (s : State) (c : Nat) (f : Core → Core) : State := s.setCore c (f (s.core c))
/-- Accepted or fetched command id. -/
def State.cmd (s : State) (id : Nat) : Option Cmd := kget none s.cmds id
/-- Replace command id. -/
def State.setCmd (s : State) (id : Nat) (c : Option Cmd) : State := { s with cmds := kset none s.cmds id c }
/-- Change command id where it exists. -/
def State.modCmd (s : State) (id : Nat) (f : Cmd → Cmd) : State :=
  match s.cmd id with
  | none => s
  | some c => s.setCmd id (some (f c))
/-- Queue q of function f. -/
def State.queue (s : State) (f q : Nat) : Queue := kget {} s.queues (64 * f + q)
/-- Change queue q of function f. -/
def State.modQueue (s : State) (f q : Nat) (g : Queue → Queue) : State :=
  { s with queues := kset {} s.queues (64 * f + q) (g (s.queue f q)) }

/-! ### Fixed facts of the module (R3–R6, R15, R17) -/

/-- Logical cores per row: 48 on A48, 44 on B44 (R5, R6). -/
def State.perRow (s : State) : Nat := if s.gradeB44 then 44 else 48

/-- Substitutions a row allows (R5, R6). -/
def State.rowSpares (s : State) : Nat := if s.gradeB44 then 6 else 2

/-- Is c the logical id of a core of this grade (R15)? -/
def State.isCore (s : State) (c : Nat) : Bool := decide (c < 49152) && decide (c % 48 < s.perRow)

/-- The die of a logical core (R15). -/
def dieOf (c : Nat) : Nat := c / 6144

/-- Does the partition's rectangle hold die d (R17, R199)? -/
def Part.hasDie (p : Part) (d : Nat) : Bool :=
  p.valid && decide (p.orgRow ≤ d / 4) && decide (d / 4 < p.orgRow + p.rows) && decide (p.orgCol ≤ d % 4)
    && decide (d % 4 < p.orgCol + p.cols)

/-- The dies of a partition, in ascending order. -/
def Part.dies (p : Part) : List Nat := (List.range 8).filter p.hasDie

/-- The partition whose rectangle holds core c, if any; a stopped partition has given up its dies (R368). -/
def State.partOf (s : State) (c : Nat) : Option Nat :=
  (List.range 8).find? fun p => (s.part p).hasDie (dieOf c) && !(s.part p).stopped

/-- The partition record that function f owns, if any (R338, R339). -/
def State.ownerPart (s : State) (f : Nat) : Option Nat :=
  (List.range 8).find? fun p => ((s.part p).valid || (s.part p).stopped) && (s.part p).func == f

/-- FN_CFG of function f (R367). -/
def State.fnCfg (s : State) (f : Nat) : Nat := s.reg (cpReg (0x1000 + 16 * f))
/-- Is function f enabled? -/
def State.fnEnabled (s : State) (f : Nat) : Bool := bitOf (s.fnCfg f) 0
/-- Is function f a filler (R338)? -/
def State.fnFiller (s : State) (f : Nat) : Bool := bitOf (s.fnCfg f) 1

/-- The partition in whose frames function f's commands run: its own, or a filler's host (R338). -/
def State.funcPart (s : State) (f : Nat) : Option Nat :=
  if !s.fnEnabled f then none
  else if s.fnFiller f then
    let p := bitsOf (s.fnCfg f) 2 3
    if (s.part p).valid || (s.part p).stopped then some p else none
  else s.ownerPart f

/-- Is the module stopped under Vigil, in reset, or without power? -/
def State.halted (s : State) : Bool := s.vigil.frozen || s.mgmt.dark

/-- A register write that reaches a stopped block is queued until resume, up to 64 over the module; one more is ignored and
flagged (R535). -/
def State.enqueueWrite (s : State) (who addr value mask : Nat) : State :=
  if s.vigil.writes.length < 64 then
    { s with vigil := { s.vigil with writes := s.vigil.writes ++ [⟨who, addr, value, mask⟩] } }
  else s.setBit (gidReg 0x20) 0

end Sys2Proof.Machine
end

