-- ==== Sys2Proof/Machine/Blocks.lean ====
section
/-! DEFINITION. The link layer of the torus ports: blocks, the rotation of shares, credits, replay, control symbols (R307–R312,
R332). -/

namespace Sys2Proof.Machine

/-- Port p. -/
def State.port (s : State) (p : Nat) : Port := kget {} s.links.ports p
/-- Change port p. -/
def State.modPort (s : State) (p : Nat) (f : Port → Port) : State :=
  { s with links := { s.links with ports := kset {} s.links.ports p (f (s.port p)) } }

/-! ### Blocks (R307, R309) -/

/-- The 528 bytes of a block before its CODE: HDR, PAYLOAD, CRC (R307). -/
def blockBytes (hdr : Nat) (payload : List Byte) : List Byte :=
  let body := leBytes 8 hdr ++ (payload ++ List.replicate (512 - payload.length) 0#8).take 512
  body ++ leBytes 8 (crcFeed (crcSel 3) 0 body)

/-- The channel whose credits the next block gives back. -/
def Port.creditVc (x : Port) : Nat := ((List.range 3).find? fun v => kget 0 x.owed v != 0).getD 0

/-- HDR of a block of a kind, 0 DATA, 1 CONTROL, 2 IDLE: what it acknowledges, and the credit it gives back (R307). -/
def Port.hdr (x : Port) (kind lseq vc : Nat) (nak : Bool) : Nat :=
  kind + lseq % 4096 * 4 + x.rxLast % 4096 * 2 ^ 14 + natOf nak * 2 ^ 26 + vc % 4 * 2 ^ 27
    + kget 0 x.owed x.creditVc % 4096 * 2 ^ 29 + x.creditVc * 2 ^ 41

/-- Put a block on the line; the credit it carries is given back. -/
def Port.send (x : Port) (kind lseq vc : Nat) (nak : Bool) (payload : List Byte) : Port :=
  { x with wire := x.wire ++ [blockBytes (x.hdr kind lseq vc nak) payload], owed := kset 0 x.owed x.creditVc 0 }

/-- A control symbol takes the next block slot, ahead of any waiting DATA block (R309). -/
def Port.control (x : Port) (symbol : List Byte) : Port := x.send 1 0 0 false symbol

/-! ### The rotation of shares (R312, R332) -/

/-- The class that has share i of the rotation, of LINK_SHARE0–15 in ascending class from share 1 on; none for share 0, VC2's, and
for shares that no class has. -/
def shareClass (shares : List Nat) (i : Nat) : Option Nat :=
  if i == 0 then none
  else (List.range 16).find? fun c =>
    let lo := (shares.take c).foldl (· + ·) 1
    decide (lo ≤ i) && decide (i < lo + shares.getD c 0)

/-- Has a channel a block of the far buffer left? -/
def Port.credit (x : Port) (vc : Nat) : Bool := decide (kget 0 x.spent vc < 64)

/-- The place of the next message that class c, or VC2 where there is none, puts on a channel that `on` allows: the rest of one
begun on the channel before any other; forwarded and local ones in turn. -/
def Port.pick (x : Port) (c : Option Nat) (on : Nat → Bool) : Option Nat :=
  let mine (m : PortMsg) : Bool :=
    on m.vc && (match c with
      | none => m.vc == 2
      | some n => m.vc != 2 && m.cls == n) && (m.cont || !(x.queue.any fun y => y.cont && y.vc == m.vc))
  let turn := !kget false x.served (c.getD 16)
  match lfind (fun m => mine m && m.cont) x.queue 0 with
  | some i => some i
  | none =>
    match lfind (fun m => mine m && m.fwd == turn) x.queue 0 with
    | some i => some i
    | none => lfind mine x.queue 0

/-- Up to n more bytes of a block of channel vc, message after message of one class; the last may go on in the next block (R307). -/
def Port.fill (c : Option Nat) (vc : Nat) : Nat → Nat → Port → Port × List Byte
  | 0, _, x => (x, [])
  | fuel + 1, n, x =>
    if n == 0 then (x, [])
    else
      match (x.pick c (· == vc)).bind fun i => x.queue[i]?.map fun m => (i, m) with
      | none => (x, [])
      | some (i, m) =>
        let rest := m.bytes.drop n
        let y := { x with
          queue := if rest.isEmpty then x.queue.eraseIdx i else x.queue.set i { m with bytes := rest, cont := true }
          served := kset false x.served (c.getD 16) m.fwd }
        let z := Port.fill c vc fuel (n - m.bytes.length) y
        (z.1, m.bytes.take n ++ z.2)

/-- One block slot: the share whose turn it is, else the lowest class with a message waiting, else VC2; none where nothing can
go: no message whose channel has a credit, or a full replay buffer (R310, R312, R332; notes/assumptions/75). -/
def Port.slot (shares : List Nat) (x : Port) : Option Port :=
  if 512 ≤ x.replay.length then none
  else
    let first : List (Option Nat) := if x.share == 0 then [none] else (shareClass shares x.share).toList.map some
    let order := first ++ ((List.range 16).map some ++ [none])
    (order.findSome? fun c => (x.pick c x.credit).bind fun i => x.queue[i]?.map fun m => (c, m.vc)).map fun (c, vc) =>
      let y := Port.fill c vc x.queue.length 512 x
      { y.1 with
        share := (x.share + 1) % 16
        replay := x.replay ++ [(x.txNext, vc, y.2)]
        spent := kmod 0 x.spent vc (· + 1)
        txNext := (x.txNext + 1) % 4096 }.send 0 x.txNext vc false y.2

/-- Block slots as long as something can go. -/
def Port.pump (shares : List Nat) : Nat → Port → Port
  | 0, x => x
  | n + 1, x =>
    match x.slot shares with
    | some y => Port.pump shares n y
    | none => x

/-- LINK_SHARE0–15. -/
def State.shareList (s : State) : List Nat := (List.range 16).map fun c => s.field (linkReg (0x100 + 4 * c)) 0 4

/-- Port p sends what can go now, counted (R469); under Vigil it sends IDLE blocks only (R483). -/
def State.pumpPort (s : State) (p : Nat) : State :=
  if s.vigil.frozen then s
  else
    let x := s.port p
    let y := x.pump s.shareList (2 * x.queue.length)
    (s.modPort p fun _ => y).tally 3 p 1 (y.wire.length - x.wire.length)

/-- A message waits at port p for its channel. -/
def State.portSend (s : State) (p : Nat) (m : PortMsg) : State :=
  (s.modPort p fun x => { x with queue := x.queue ++ [m] }).pumpPort p

/-- A control symbol leaves port p. -/
def State.sendControl (s : State) (p : Nat) (symbol : List Byte) : State := s.modPort p (·.control symbol)

/-! ### Replay (R310, R311) -/

/-- Blocks up to and including LSEQ `ack` leave the replay buffer, where it holds that one (R310). -/
def dropAcked (ack : Nat) (l : List (Nat × Nat × List Byte)) : List (Nat × Nat × List Byte) :=
  match lfind (fun b => b.1 == ack) l 0 with
  | some i => l.drop (i + 1)
  | none => l

/-- The replay of every kept block after the one acknowledged, in order (R310). -/
def Port.replayFrom (x : Port) (acked : Nat) : Port :=
  let l := dropAcked acked x.replay
  let y := { x with
    replay := l
    replays := if l.isEmpty then 0 else if l.length == x.replay.length then x.replays + 1 else 1 }
  l.foldl (fun z b => z.send 0 b.1 b.2.1 false b.2.2) y

/-- Has the first block after the one acknowledged been replayed 16 times without success (R311)? -/
def Port.spentReplays (x : Port) (acked : Nat) : Bool :=
  !x.replay.isEmpty && (dropAcked acked x.replay).length == x.replay.length && decide (16 ≤ x.replays)

/-! ### Received blocks (R312) -/

/-- Drop the first n bytes of a channel's received blocks: those left, and how many are passed on whole. A block whose rest is zero
holds no further message. -/
def dropStream : Nat → List (List Byte) → List (List Byte) × Nat
  | _, [] => ([], 0)
  | n, b :: bs =>
    if n < b.length then (if (b.drop n).all (· == 0) then (bs, 1) else (b.drop n :: bs, 0))
    else
      let x := dropStream (n - b.length) bs
      (x.1, x.2 + 1)

/-- The channel on which a message stands first among the received blocks, and the port once it has been passed onward: the
credit of each block so emptied goes back in an IDLE block (R312). -/
def Port.passOn (x : Port) (m : List Byte) : Option (Nat × Port) :=
  (List.range 3).findSome? fun vc =>
    if !m.isEmpty && m.isPrefixOf (kget [] x.rx vc).flatten then
      let y := dropStream m.length (kget [] x.rx vc)
      let z := { x with rx := kset [] x.rx vc y.1, owed := kmod 0 x.owed vc (· + y.2) }
      some (vc, if y.2 == 0 then z else z.send 2 0 0 false [])
    else none

/-- A message that came on port p is passed onward: the channel it came on, where its blocks are here. -/
def State.passOn (s : State) (p : Nat) (m : List Byte) : State × Option Nat :=
  match (s.port p).passOn m with
  | some (vc, x) => (s.modPort p fun _ => x, some vc)
  | none => (s, none)

/-- The same for a message whose port is not named. -/
def State.passAny (s : State) (m : List Byte) : State :=
  match (List.range 8).find? fun p => ((s.port p).passOn m).isSome with
  | some p => (s.passOn p m).1
  | none => s

end Sys2Proof.Machine
end

