-- ==== Sys2Proof/Machine/NumFormat.lean ====
section
/-! DEFINITION. Number formats, rounding and exceptions: exact values, the three rounding modes, the flags, and the
scalar operations, conversions and SS8 blocks built on them (R145–R171). Every operation computes its result
exactly and rounds once. -/

namespace Sys2Proof.Machine

/-- The flags an operation raises, in the order of TSTAT's bits 0–5 (R72, R149). -/
structure Flags where
  invalid : Bool := false
  overflow : Bool := false
  underflow : Bool := false
  inexact : Bool := false
  flush : Bool := false
  saturate : Bool := false
deriving DecidableEq, Repr

/-- Flags raised by either of two steps of one operation. -/
def Flags.join (a b : Flags) : Flags :=
  ⟨a.invalid || b.invalid, a.overflow || b.overflow, a.underflow || b.underflow,
   a.inexact || b.inexact, a.flush || b.flush, a.saturate || b.saturate⟩

/-- No flag. -/
def Flags.none : Flags := {}

/-- The formats of R145 by name; codes 8–15 are reserved. -/
inductive Fmt where
  | fp32 | bf16 | fp16 | ss8 | int8 | int32 | fp64 | uint8
deriving DecidableEq, Repr

/-- The format of a code (R145). -/
def Fmt.ofCode : Nat → Option Fmt
  | 0 => some .fp32 | 1 => some .bf16 | 2 => some .fp16 | 3 => some .ss8
  | 4 => some .int8 | 5 => some .int32 | 6 => some .fp64 | 7 => some .uint8
  | _ => none

/-- The code of a format (R145). -/
def Fmt.code : Fmt → Nat
  | .fp32 => 0 | .bf16 => 1 | .fp16 => 2 | .ss8 => 3 | .int8 => 4 | .int32 => 5 | .fp64 => 6 | .uint8 => 7

/-- Is the format an integer format (R147)? -/
def Fmt.isInt : Fmt → Bool
  | .int8 | .int32 | .uint8 => true
  | _ => false

/-- Element size in bytes (R122); an SS8 block has no element size of its own. -/
def Fmt.size : Fmt → Nat
  | .fp32 => 4 | .bf16 => 2 | .fp16 => 2 | .ss8 => 1 | .int8 => 1 | .int32 => 4 | .fp64 => 8 | .uint8 => 1

/-- Bits of precision, the hidden bit included (R145). -/
def Fmt.prec : Fmt → Nat
  | .fp32 => 24 | .bf16 => 8 | .fp16 => 11 | .fp64 => 53 | _ => 0

/-- Exponent field width (R145). -/
def Fmt.expBits : Fmt → Nat
  | .fp32 => 8 | .bf16 => 8 | .fp16 => 5 | .fp64 => 11 | _ => 0

/-- Exponent bias (R145). -/
def Fmt.bias (f : Fmt) : Int := 2 ^ (f.expBits - 1) - 1

/-- Exponent of the smallest normal number: 1 − bias (R145). -/
def Fmt.emin (f : Fmt) : Int := 1 - f.bias

/-- Range of an integer format (R145). -/
def Fmt.intMin : Fmt → Int
  | .int8 => -128 | .int32 => -(2 ^ 31) | _ => 0

/-- Upper end of an integer format's range (R145). -/
def Fmt.intMax : Fmt → Int
  | .int8 => 127 | .int32 => 2 ^ 31 - 1 | .uint8 => 255 | _ => 0

/-- The value an element holds: a NaN, an infinity, or (−1)^neg · m · 2^e exactly (R146). -/
inductive Val where
  | nan (signalling : Bool)
  | inf (neg : Bool)
  | fin (neg : Bool) (m : Nat) (e : Int)
deriving DecidableEq, Repr

/-- A finite value that is zero. -/
def Val.isZero : Val → Bool
  | .fin _ m _ => m == 0
  | _ => false

/-- The sign of a value; a NaN counts as positive. -/
def Val.neg : Val → Bool
  | .nan _ => false
  | .inf n => n
  | .fin n _ _ => n

/-- ⌊log2 n⌋ of a positive number. -/
def ilog2 (n : Nat) : Nat := n.log2

/-- The value of an element's bits (R145, R146). -/
def unpack (f : Fmt) (w : Nat) : Val :=
  if f.isInt then
    let n := w % 2 ^ (8 * f.size)
    if f != .uint8 && n ≥ 2 ^ (8 * f.size - 1) then .fin true (2 ^ (8 * f.size) - n) 0 else .fin false n 0
  else
    let fb := f.prec - 1
    let frac := bitsOf w 0 fb
    let ex := bitsOf w fb f.expBits
    let sg := bitOf w (fb + f.expBits)
    if ex == 2 ^ f.expBits - 1 then
      if frac == 0 then .inf sg else .nan (!bitOf w (fb - 1))
    else if ex == 0 then .fin sg frac (f.emin - fb)
    else .fin sg (2 ^ fb + frac) (f.emin - fb + ex - 1)

/-- Is the element a subnormal of its format (R146)? -/
def isSubnormal (f : Fmt) (w : Nat) : Bool :=
  !f.isInt && bitsOf w (f.prec - 1) f.expBits == 0 && bitsOf w 0 (f.prec - 1) != 0

/-- Does the element hold an infinity or a NaN? -/
def isNonfinite (f : Fmt) (w : Nat) : Bool :=
  !f.isInt && bitsOf w (f.prec - 1) f.expBits == 2 ^ f.expBits - 1

/-- The canonical quiet NaN (R146, R152). -/
def nanBits (f : Fmt) : Nat := (2 ^ f.expBits - 1) * 2 ^ (f.prec - 1) + 2 ^ (f.prec - 2)

/-- The sign bit in place. -/
def signBits (f : Fmt) (neg : Bool) : Nat := natOf neg * 2 ^ (f.prec - 1 + f.expBits)

/-- An infinity (R146). -/
def infBits (f : Fmt) (neg : Bool) : Nat := signBits f neg + (2 ^ f.expBits - 1) * 2 ^ (f.prec - 1)

/-- The largest finite value of a sign (R145). -/
def maxBits (f : Fmt) (neg : Bool) : Nat := infBits f neg - 1

/-- The value as a source operand, flushed where the mode flushes (R151): a subnormal becomes a zero of its sign. -/
def readOperand (f : Fmt) (ftz : Bool) (w : Nat) : Val × Flags :=
  if ftz && isSubnormal f w then (.fin (bitOf w (f.prec - 1 + f.expBits)) 0 0, { flush := true })
  else (unpack f w, {})

/-- The rounding of an operation: nearest even, toward zero, or stochastic with w draw bits r (R155, R156). -/
inductive Rnd where
  | rne
  | rtz
  | stoch (w r : Nat)
deriving DecidableEq, Repr

/-- m·2^e (plus, where sticky, something positive below its last place) as a multiple of 2^q: the rounded multiple,
and whether it differs from the exact value (R155, R156). -/
def roundToMultiple (rnd : Rnd) (m : Nat) (e : Int) (sticky : Bool) (q : Int) : Nat × Bool :=
  if q ≤ e then (m * 2 ^ (e - q).toNat, sticky)
  else
    let sh := (q - e).toNat
    let lo := m / 2 ^ sh
    let rem := m % 2 ^ sh
    let up := match rnd with
      | .rne => decide (rem * 2 > 2 ^ sh) || (rem * 2 == 2 ^ sh && (sticky || lo % 2 == 1))
      | .rtz => false
      | .stoch w r => decide (rem * 2 ^ w / 2 ^ sh + r ≥ 2 ^ w)
    (if up then lo + 1 else lo, rem != 0 || sticky)

/-- A nonnegative multiple n of 2^q whose n has at most prec bits (or is 2^prec), as exponent and fraction fields. -/
def packMag (f : Fmt) (n : Nat) (q : Int) : Nat :=
  let fb := f.prec - 1
  if n < 2 ^ fb then n
  else if n ≥ 2 ^ f.prec then (q - (f.emin - fb) + 2).toNat * 2 ^ fb
  else (q - (f.emin - fb) + 1).toNat * 2 ^ fb + (n - 2 ^ fb)

/-- Round ±m·2^e (m > 0, or sticky) into a floating-point format, with the flags of R149 and the output flush of
R151. A stochastic or nearest-even overflow gives an infinity, toward zero the largest finite value (R155, R156). -/
def roundTo (f : Fmt) (rnd : Rnd) (ftz neg : Bool) (m : Nat) (e : Int) (sticky : Bool) : Nat × Flags :=
  if m == 0 && !sticky then (signBits f neg, {})
  else
    let fb : Int := f.prec - 1
    let qmin : Int := f.emin - fb
    let qfree : Int := e + ilog2 m - fb
    let free := roundToMultiple rnd m e sticky qfree
    let q : Int := max qfree qmin
    let r := roundToMultiple rnd m e sticky q
    let topAt : Int := if free.1 ≥ 2 ^ f.prec then qfree + 1 + fb else qfree + fb
    let emax : Int := f.bias
    if topAt > emax then
      (match rnd with
        | .rtz => maxBits f neg
        | _ => infBits f neg, { overflow := true, inexact := true })
    else
      let tiny : Bool := topAt < f.emin && free.1 != 0
      let bits := packMag f r.1 q
      if tiny && ftz && bits != 0 then
        (signBits f neg, { flush := true, underflow := true, inexact := true })
      else
        (signBits f neg + bits, { underflow := tiny && r.2, inexact := r.2 })

/-- The exact sum of two finite values: sign, magnitude and exponent; an exact zero of operands of opposite sign is
+0, (−0) + (−0) is −0 (R153). -/
def exactSum (an : Bool) (am : Nat) (ae : Int) (bn : Bool) (bm : Nat) (be : Int) : Bool × Nat × Int :=
  let e := min ae be
  let x : Int := (if an then -1 else 1) * (am * 2 ^ (ae - e).toNat : Nat)
  let y : Int := (if bn then -1 else 1) * (bm * 2 ^ (be - e).toNat : Nat)
  let s := x + y
  if s == 0 then ((an && bn), 0, 0)
  else (decide (s < 0), s.natAbs, e)

/-- INVALID where an operand is a signalling NaN (R149). -/
def sigFlag (a : Val) : Flags :=
  match a with
  | .nan true => { invalid := true }
  | _ => {}

/-- The canonical NaN with INVALID. -/
def invalidNan (f : Fmt) : Nat × Flags := (nanBits f, { invalid := true })

/-- a + b rounded once (R148, R153, R155). -/
def addVal (f : Fmt) (ftz : Bool) (a b : Val) : Nat × Flags :=
  match a, b with
  | .nan _, _ | _, .nan _ => (nanBits f, (sigFlag a).join (sigFlag b))
  | .inf x, .inf y => if x == y then (infBits f x, {}) else invalidNan f
  | .inf x, .fin .. => (infBits f x, {})
  | .fin .., .inf y => (infBits f y, {})
  | .fin an am ae, .fin bn bm be =>
    let s := exactSum an am ae bn bm be
    roundTo f .rne ftz s.1 s.2.1 s.2.2 false

/-- The exact product (R159), with INVALID of 0 × ∞ (R149). -/
def mulVal (a b : Val) : Val × Flags :=
  let flags := (sigFlag a).join (sigFlag b)
  match a, b with
  | .nan _, _ | _, .nan _ => (.nan false, flags)
  | .inf x, .inf y => (.inf (x != y), {})
  | .inf x, .fin y m _ => if m == 0 then (.nan false, { invalid := true }) else (.inf (x != y), {})
  | .fin x m _, .inf y => if m == 0 then (.nan false, { invalid := true }) else (.inf (x != y), {})
  | .fin x m e, .fin y n d => (.fin (x != y) (m * n) (e + d), {})

/-- Round a value to the format (R155). -/
def roundVal (f : Fmt) (rnd : Rnd) (ftz : Bool) (v : Val) : Nat × Flags :=
  match v with
  | .nan _ => (nanBits f, sigFlag v)
  | .inf n => (infBits f n, {})
  | .fin n m e => roundTo f rnd ftz n m e false

/-- The negated value. -/
def negVal : Val → Val
  | .nan s => .nan s
  | .inf n => .inf (!n)
  | .fin n m e => .fin (!n) m e

/-- a / b (R149, R158): the quotient to enough places, the remainder as a sticky bit. -/
def divVal (f : Fmt) (ftz : Bool) (a b : Val) : Nat × Flags :=
  match a, b with
  | .nan _, _ | _, .nan _ => (nanBits f, (sigFlag a).join (sigFlag b))
  | .inf _, .inf _ => invalidNan f
  | .inf x, .fin y .. => (infBits f (x != y), {})
  | .fin x .., .inf y => (signBits f (x != y), {})
  | .fin x m e, .fin y n d =>
    if n == 0 then
      if m == 0 then invalidNan f else (infBits f (x != y), { overflow := true })
    else if m == 0 then (signBits f (x != y), {})
    else
      let k := 2 * f.prec + 4 + ilog2 n
      roundTo f .rne ftz (x != y) (m * 2 ^ k / n) (e - d - k) (m * 2 ^ k % n != 0)

/-- The largest r with r·r ≤ n: the pairs of bits of n taken from the top, k pairs in all. -/
def sqrtFloor (n : Nat) : Nat → Nat
  | 0 => 0
  | k + 1 =>
    let r := 2 * sqrtFloor (n / 4) k
    if (r + 1) * (r + 1) ≤ n then r + 1 else r

/-- The square root (R149, R153, R158). -/
def sqrtVal (f : Fmt) (ftz : Bool) (a : Val) : Nat × Flags :=
  match a with
  | .nan _ => (nanBits f, sigFlag a)
  | .inf false => (infBits f false, {})
  | .inf true => invalidNan f
  | .fin n m e =>
    if m == 0 then (signBits f n, {})
    else if n then invalidNan f
    else
      let k : Nat := 2 * f.prec + 4 + (if e % 2 == 0 then 0 else 1)
      let x := m * 2 ^ k
      let r := sqrtFloor x (ilog2 x / 2 + 1)
      roundTo f .rne ftz false r ((e - k) / 2) (r * r != x)

/-- a·s + d rounded once (R158). -/
def fmaVal (f : Fmt) (ftz : Bool) (a s d : Val) : Nat × Flags :=
  let p := mulVal a s
  let flags := p.2.join (sigFlag d)
  match p.1, d with
  | .nan _, _ | _, .nan _ => (nanBits f, flags)
  | x, y =>
    let r := addVal f ftz x y
    (r.1, flags.join r.2)

/-- Order of two values that are not NaN: a < b with −0 and +0 equal. -/
def ltVal (a b : Val) : Bool :=
  match a, b with
  | .nan _, _ | _, .nan _ => false
  | .inf x, .inf y => x && !y
  | .inf x, .fin .. => x
  | .fin .., .inf y => !y
  | .fin an am ae, .fin bn bm be =>
    let s := exactSum an am ae (!bn) bm be
    s.1 && s.2.1 != 0

/-- Equality of two values that are not NaN, with −0 and +0 equal. -/
def eqVal (a b : Val) : Bool :=
  match a, b with
  | .nan _, _ | _, .nan _ => false
  | a, b => !ltVal a b && !ltVal b a

/-- The comparisons of R154: 0 equal, 1 less, 2 less or equal; a NaN compares false, and raises INVALID as R149
says. -/
def cmpVal (kind : Nat) (a b : Val) : Bool × Flags :=
  let nan := match a, b with
    | .nan _, _ | _, .nan _ => true
    | _, _ => false
  let sig := (sigFlag a).join (sigFlag b)
  match kind with
  | 0 => (eqVal a b, sig)
  | 1 => (ltVal a b, { invalid := nan })
  | _ => (ltVal a b || eqVal a b, { invalid := nan })

/-- Is a before b in the order of minimum and maximum, where −0 is less than +0 (R154)? -/
def beforeVal (a b : Val) : Bool :=
  ltVal a b || (a.isZero && b.isZero && a.neg && !b.neg)

/-- MIN and MAX: one operand delivered without rounding; a NaN operand gives the canonical NaN (R154). The bits
given are those of the operands after input flush. -/
def minMaxVal (f : Fmt) (wantMax : Bool) (a b : Val) (aw bw : Nat) : Nat × Flags :=
  match a, b with
  | .nan _, _ | _, .nan _ => (nanBits f, (sigFlag a).join (sigFlag b))
  | a, b => (if wantMax then (if beforeVal a b then bw else aw) else (if beforeVal b a then bw else aw), {})

/-- An operand's bits after input flush (R151). -/
def flushedBits (f : Fmt) (ftz : Bool) (w : Nat) : Nat :=
  if ftz && isSubnormal f w then signBits f (bitOf w (f.prec - 1 + f.expBits)) else w

/-- An integer into an integer format: in range exact, else the nearer end with INVALID (R164). -/
def clampInt (f : Fmt) (v : Int) : Int × Bool :=
  if v < f.intMin then (f.intMin, true) else if v > f.intMax then (f.intMax, true) else (v, false)

/-- Two's complement bits of an integer in k bytes. -/
def intBits (k : Nat) (v : Int) : Nat := (v % (2 ^ (8 * k) : Nat)).toNat

/-- CVT and the drain engine's conversion of one element from format s to format d (R164, R165). -/
def convert (s d : Fmt) (rnd : Rnd) (ftz : Bool) (w : Nat) : Nat × Flags :=
  let src := readOperand s (ftz && !s.isInt) w
  let r : Nat × Flags :=
    if d.isInt then
      match src.1 with
      | .nan _ => (0, { invalid := true })
      | .inf n => (intBits d.size (if n then d.intMin else d.intMax), { invalid := true })
      | .fin n m e =>
        let q := roundToMultiple rnd m e false 0
        let v : Int := if n then -(q.1 : Int) else q.1
        let c := clampInt d v
        (intBits d.size c.1, if c.2 then { invalid := true } else { inexact := q.2 })
    else roundVal d rnd ftz src.1
  (r.1, src.2.join r.2)

/-- Is the pair (s, d) widening: does d hold every value of s exactly (R123)? -/
def isWidening : Fmt → Fmt → Bool
  | .bf16, .fp32 | .bf16, .fp64 | .fp16, .fp32 | .fp16, .fp64 => true
  | .fp32, .fp64 | .int32, .fp64 => true
  | .int8, .bf16 | .int8, .fp16 | .int8, .fp32 | .int8, .int32 | .int8, .fp64 => true
  | .uint8, .bf16 | .uint8, .fp16 | .uint8, .fp32 | .uint8, .int32 | .uint8, .fp64 => true
  | _, _ => false

/-! ### SS8 blocks -/

/-- ⌊log2|x|⌋ of a nonzero finite value. -/
def floorLog2 (m : Nat) (e : Int) : Int := e + ilog2 m

/-- One element scaled by 2^(133 − E) and rounded to an integer magnitude (R168). -/
def ss8Round (rnd : Rnd) (v : Val) (bigE : Int) : Nat × Bool :=
  match v with
  | .fin _ m e => roundToMultiple rnd m (e + 133 - bigE) false 0
  | _ => (0, false)

/-- The largest ⌊log2|x|⌋ over the nonzero finite elements. -/
def ss8MaxExp : List Val → Option Int
  | [] => none
  | v :: t =>
    let r := ss8MaxExp t
    match v with
    | .fin _ m e =>
      if m == 0 then r else
        match r with
        | none => some (floorLog2 m e)
        | some x => some (max x (floorLog2 m e))
    | _ => r

/-- Does a value stand for an infinity or a NaN? -/
def Val.isNonfin : Val → Bool
  | .fin .. => false
  | _ => true

/-- A 17-byte SS8 block of 16 values (after input flush), the draw bits of element i given by rnd i, and its flags
(R166, R168, R169). -/
def ss8Pack (vs : List Val) (rnd : Nat → Rnd) : List Nat × Flags :=
  let sig : Flags := vs.foldl (fun (f : Flags) v => f.join (sigFlag v)) {}
  if vs.any Val.isNonfin then
    let es := vs.map fun v => match v with
      | .inf false => 0x7F
      | .inf true => 0x81
      | .nan _ => 0x80
      | .fin _ m _ => if m == 0 then 0 else 0x80
    let bad := vs.any fun v => match v with
      | .fin _ m _ => m != 0
      | _ => false
    (0xFF :: es, sig.join { invalid := bad })
  else
    match ss8MaxExp vs with
    | none => (0 :: vs.map fun _ => 0, {})
    | some e =>
      let e0 : Int := max (e + 127) 0
      let round1 := fun bigE => vs.zipIdx.map fun p => ss8Round (rnd p.2) p.1 bigE
      let first := round1 e0
      let hit := first.any fun r => r.1 == 128
      let raise := hit && decide (e0 < 254)
      let bigE := if raise then e0 + 1 else e0
      let rs := if raise then round1 bigE else first
      let clamp := hit && !raise
      let mags := rs.map fun r => if r.1 == 128 then 127 else r.1
      let es := (mags.zip vs).map fun p => intBits 1 (if p.2.neg then -(p.1 : Int) else p.1)
      let under := (mags.zip vs).any fun p => p.1 == 0 && !p.2.isZero
      (bigE.toNat :: es,
        { inexact := clamp || rs.any (·.2), underflow := under, overflow := clamp })

/-- The value of one element of a block (R167). -/
def ss8Value (bigE si : Nat) : Val :=
  if bigE == 0xFF then
    if si == 0 then .fin false 0 0 else if si == 0x7F then .inf false else if si == 0x81 then .inf true else .nan false
  else if si == 0x80 then .nan false
  else if si ≥ 128 then .fin true (256 - si) (bigE - 133) else .fin false si (bigE - 133)

/-- The 16 BF16 elements of a block (R167), with the output flush of R151 and no other flag. -/
def ss8Unpack (ftz : Bool) (bs : List Nat) : List Nat × Flags :=
  match bs with
  | [] => ([], {})
  | e :: ss =>
    let rs := ss.map fun si => match ss8Value e si with
      | .nan _ => (nanBits .bf16, ({} : Flags))
      | v => roundVal .bf16 .rne ftz v
    (rs.map (·.1), rs.foldl (fun (f : Flags) r => f.join r.2) {})

/-- Does any element of the block decode to an infinity or a NaN (R72, R167, R183)? -/
def ss8Nonfinite (bs : List Nat) : Bool :=
  match bs with
  | [] => false
  | e :: ss => ss.any fun si => (ss8Value e si).isNonfin

/-! ### Integer slices and merge -/

/-- A signed 64-bit exponent brought into the range outside which no result changes (|value exponents| ≤ 1,200). -/
def clampExp (lo hi x : Int) : Int := max lo (min hi x)

/-- Slice j of k of an FP64 element against the shared exponent e (R171): the INT8 value and its flags. -/
def splitSlice (ftz : Bool) (k j : Nat) (e : Int) (w : Nat) : Int × Flags :=
  let src := readOperand .fp64 ftz w
  match src.1 with
  | .nan _ | .inf _ => (0, { invalid := true })
  | .fin neg m xe =>
    if m == 0 then (0, src.2)
    else
      let e := clampExp (-3000) 3000 e
      if floorLog2 m xe ≥ e then (if neg then -127 else 127, { invalid := true })
      else
        let r := roundToMultiple .rtz m (xe + 7 * k - e) false 0
        let d : Nat := r.1 / 2 ^ (7 * (k - 1 - j)) % 128
        (if neg then -(d : Int) else d, { inexact := r.2 })

/-- MERGE's lane: c + n·2^sh rounded once to FP64; n = 0 adds +0 (R125). The shift is brought into the range
outside which the rounded sum and its flags no longer change. -/
def mergeLane (ftz : Bool) (c : Nat) (n : Int) (sh : Int) : Nat × Flags :=
  let src := readOperand .fp64 ftz c
  let t : Val := if n == 0 then .fin false 0 0 else .fin (decide (n < 0)) n.natAbs (clampExp (-5000) 5000 sh)
  let r := addVal .fp64 ftz src.1 t
  (r.1, src.2.join r.2)

/-- e(s) of EXPMAX: ⌊log2|s|⌋ of a finite nonzero FP64 element (R121). -/
def fp64Exponent (w : Nat) : Option Int :=
  match unpack .fp64 w with
  | .fin _ m e => if m == 0 then none else some (floorLog2 m e)
  | _ => none

/-! ### Tensor sums -/

/-- One step of a TMMA element: c + l·r with one rounding (R159). -/
def tmmaStep (lf rf : Fmt) (ftz : Bool) (l r : Nat) (acc : Nat × Flags) : Nat × Flags :=
  let a := readOperand lf ftz l
  let b := readOperand rf ftz r
  let c := readOperand .fp32 ftz acc.1
  let x := fmaVal .fp32 ftz a.1 b.1 c.1
  (x.1, acc.2.join (a.2.join (b.2.join (c.2.join x.2))))

/-- One step of a TMMA.I8 element: the exact product added with saturation (R160). -/
def tmmaI8Step (l r : Int) (acc : Int × Flags) : Int × Flags :=
  let c := clampInt .int32 (acc.1 + l * r)
  (c.1, acc.2.join { saturate := c.2 })

end Sys2Proof.Machine
end

