-- ==== Sys2Proof/Machine/Operands.lean ====
section
/-! DEFINITION. Every operand form of the core instructions: g, p and v registers, pad-address registers and their
advance, granules and accumulator blocks under bounds, double-buffer halves and roles, byte addresses in thread
terms, generator groups (R69–R71, R78, R81, R84, R86, R104, R111, R118). -/

namespace Sys2Proof.Machine

/-- The part of the machine one core's instructions act on: the core, memory and the Umber marks, with the core's
logical id; and the key ranges (first, length) of its own pads that a write may not touch now (R436). -/
structure CoreView where
  id : Nat
  core : Core
  mem : Mem
  marks : KMap Bool
  noWrite : List (Nat × Nat) := []
deriving DecidableEq, Repr

/-- What an instruction leaves: the view, and how it ended. -/
inductive IssueEnd where
  | seq                      -- done; the next instruction follows
  | jump (pc : BitVec 8)     -- done; a taken branch
  | stay                     -- not issued: the thread's state was set, the PC does not move
  | begun                    -- issued, and the thread waits for its rest (R132); the PC does not move
  | fault (c : Cause)        -- a core fault
deriving DecidableEq, Repr

/-- The result of one instruction. -/
structure Issue where
  view : CoreView
  ending : IssueEnd
deriving DecidableEq, Repr

/-! ### Threads and registers -/

/-- Thread t of a core. -/
def Core.thread (c : Core) (t : Nat) : Thread := kget {} c.threads t

/-- The core with thread t replaced. -/
def Core.setThread (c : Core) (t : Nat) (th : Thread) : Core := { c with threads := kset {} c.threads t th }

/-- The core with thread t changed by f. -/
def Core.modThread (c : Core) (t : Nat) (f : Thread → Thread) : Core := c.setThread t (f (c.thread t))

/-- A g register; g0 reads as zero (R69). -/
def Thread.getG (th : Thread) (r : Nat) : Word := if r = 0 then 0 else kget 0 th.g r

/-- Write a g register; a write to g0 is discarded (R69). -/
def Thread.setG (th : Thread) (r : Nat) (w : Word) : Thread := if r = 0 then th else { th with g := kset 0 th.g r w }

/-- A predicate; p0 reads as one (R69). -/
def Thread.getP (th : Thread) (r : Nat) : Bool := r == 0 || th.p.getLsbD r

/-- Write a predicate; a write to p0 is discarded (R69). -/
def Thread.setP (th : Thread) (r : Nat) (b : Bool) : Thread :=
  if r = 0 then th else { th with p := BitVec.ofNat 8 (putBits th.p.toNat r 1 (natOf b)) }

/-- A v register (R69). -/
def Thread.getV (th : Thread) (n : Bool) : BitVec 256 := if n then th.v1 else th.v0

/-- Write a v register. -/
def Thread.setV (th : Thread) (n : Bool) (x : BitVec 256) : Thread :=
  if n then { th with v1 := x } else { th with v0 := x }

/-- A pad-address register (R70). -/
def Thread.getA (th : Thread) (r : Nat) : DWord := kget 0 th.a r

/-- Write a pad-address register. -/
def Thread.setA (th : Thread) (r : Nat) (x : DWord) : Thread := { th with a := kset 0 th.a r x }

/-- The 64-bit value of the pair g[n], g[n+1] (R111). -/
def Thread.getPair (th : Thread) (n : Nat) : DWord := th.getG (n + 1) ++ th.getG n

/-- Write a g pair (R111). -/
def Thread.setPair (th : Thread) (n : Nat) (x : DWord) : Thread :=
  (th.setG n (x.extractLsb' 0 32)).setG (n + 1) (x.extractLsb' 32 32)

/-- Is n a legal pair number: even, 2–30 (R111)? -/
def pairOk (n : Nat) : Bool := n % 2 == 0 && n != 0

/-- Lane i (64 bits) of a 256-bit value. -/
def lane64 (x : BitVec 256) (i : Nat) : Nat := bitsOf x.toNat (64 * i) 64

/-- A 256-bit value from a number. -/
def ofNat256 (n : Nat) : BitVec 256 := BitVec.ofNat 256 n

/-- The value with its 64-bit lane i replaced. -/
def setLane64 (x : BitVec 256) (i v : Nat) : BitVec 256 := ofNat256 (putBits x.toNat (64 * i) 64 v)

/-- A 64-bit number read as signed. -/
def signed64 (n : Nat) : Int := (BitVec.ofNat 64 n).toInt

/-- The generator group b as an input (R111, R411). -/
def Thread.genInput (th : Thread) (b : Nat) : GenInput :=
  { key := th.getPair (8 * b), stream := th.getG (8 * b + 2), step := th.getPair (8 * b + 3)
    element := th.getPair (8 * b + 5), lane := th.getG (8 * b + 7) }

/-- The group's 64-bit element index advanced by n (R123, R127, R130). -/
def Thread.advanceGroup (th : Thread) (b n : Nat) : Thread :=
  th.setPair (8 * b + 5) (th.getPair (8 * b + 5) + BitVec.ofNat 64 n)

/-! ### Configuration records (R101) -/

/-- A field of a configuration record. -/
def cfgField (r : BitVec 256) (lo len : Nat) : Nat := bitsOf r.toNat lo len

/-- Record k of a core. -/
def Core.cfg (c : Core) (k : Nat) : BitVec 256 := kget 0 c.cfgs k

/-- The record of the configuration whose slot is open (record 0 where none is). -/
def Core.activeCfg (c : Core) : BitVec 256 := c.cfg ((c.slotOpen.getD 0).toNat)

/-- Is counter c in the active CNT_MASK (R98)? -/
def cntAllowed (r : BitVec 256) (ctr : Nat) : Bool := bitOf (cfgField r 208 8) ctr

/-- QBIND of queue q: 0 open, 1 neighbour link, 2 mesh path (R101). -/
def cfgQbind (r : BitVec 256) (q : Nat) : Nat := cfgField r (225 + 2 * q) 2

/-! ### Pads (R71, R84, R86, R104) -/

/-- The three pads. -/
inductive Pad where
  | w | a | p
deriving DecidableEq, Repr

/-- The pad of a pad-select bit (R111). -/
def padOf (sel : Bool) : Pad := if sel then .a else .w

/-- Granules of a pad (R71). -/
def padGranules : Pad → Nat
  | .w => 3072 | .a => 2048 | .p => 256

/-- The address of a core's pad window (R86). -/
def padWindow (id : Nat) : Nat := 0x300000000000 + id * 0x40000

/-- The window offset of a W or A granule in thread terms under the double-mode bits and FRONT bits given (R84, R86),
or of the live copy of an accumulator block under the role bits given (R81). -/
def granuleOffset (dbufW dbufA frontW frontA : Bool) (roles : BitVec 256) (pad : Pad) (g : Nat) : Nat :=
  match pad with
  | .w => if dbufW then (if (decide (g < 1536)) == frontW then 0xC000 else 0) + g % 1536 * 32 else g * 32
  | .a => 0x18000 + (if dbufA then (if (decide (g < 1024)) == frontA then 0x8000 else 0) + g % 1024 * 32 else g * 32)
  | .p => 0x28000 + (if roles.getLsbD g then 0x4000 else 0) + g * 64

/-- The granule's offset in a core under its active configuration. -/
def Core.granuleOffset (c : Core) (pad : Pad) (g : Nat) : Nat :=
  Sys2Proof.Machine.granuleOffset (bitOf c.activeCfg.toNat 206) (bitOf c.activeCfg.toNat 207) c.frontW c.frontA c.roles pad g

/-- Does the granule lie within the pad and the configuration's bounds (R71, R104)? -/
def inBounds (r : BitVec 256) (pad : Pad) (g : Nat) : Bool :=
  decide (g < padGranules pad) &&
    match pad with
    | .w => decide (cfgField r 144 12 ≤ g) && decide (g ≤ cfgField r 156 12)
    | .a => decide (cfgField r 168 11 ≤ g) && decide (g ≤ cfgField r 179 11)
    | .p => decide (cfgField r 190 8 ≤ g) && decide (g ≤ cfgField r 198 8)

/-- The module address of a granule in bounds, none out of bounds. -/
def CoreView.granule (cv : CoreView) (pad : Pad) (g : Nat) : Option Nat :=
  if inBounds cv.core.activeCfg pad g then some (padWindow cv.id + cv.core.granuleOffset pad g) else none

/-! ### Pad-address registers (R70, R71) -/

/-- The granule a use addresses: BASE + OFFSET (R71). -/
def aregGranule (a : DWord) : Nat := bitsOf a.toNat 0 12 + bitsOf a.toNat 12 12

/-- The register after one use (R71). -/
def aregAdvance (a : DWord) : DWord :=
  let n := a.toNat
  let rcount := bitsOf n 56 8
  if rcount == bitsOf n 48 8 then
    let stride : Int := (BitVec.ofNat 12 (bitsOf n 24 12)).toInt
    let wrap := bitsOf n 36 12
    let off : Int := bitsOf n 12 12 + stride
    let off : Int := if wrap != 0 then (if off ≥ wrap then off - wrap else if off < 0 then off + wrap else off) else off
    BitVec.ofNat 64 (putBits (putBits n 56 8 0) 12 12 (off % 4096).toNat)
  else BitVec.ofNat 64 (putBits n 56 8 (rcount + 1))

/-- One use of a[r] of thread t in a pad: the granule's module address and the view with the register advanced; none
where the granule is out of bounds. -/
def CoreView.useA (cv : CoreView) (t r : Nat) (pad : Pad) : Option (Nat × CoreView) :=
  let a := (cv.core.thread t).getA r
  match cv.granule pad (aregGranule a) with
  | none => none
  | some k => some (k, { cv with core := cv.core.modThread t fun th => th.setA r (aregAdvance a) })

/-- May the core write the granule, block or byte at a key now (R436)? -/
def CoreView.mayWrite (cv : CoreView) (key : Nat) : Bool :=
  !cv.noWrite.any fun r => decide (r.1 ≤ key) && decide (key < r.1 + r.2)

/-- One use of a[r] for a granule or block that is written. -/
def CoreView.useAW (cv : CoreView) (t r : Nat) (pad : Pad) : Option (Nat × CoreView) :=
  match cv.useA t r pad with
  | none => none
  | some (k, cv1) => if cv.mayWrite k then some (k, cv1) else none

/-! ### Byte addresses in thread terms (R118, R126) -/

/-- The module address of a byte of the thread's own W- or A-pad, none out of the pad or the bounds. -/
def CoreView.byteKey (cv : CoreView) (pad : Pad) (addr : Nat) : Option Nat :=
  (cv.granule pad (addr / 32)).map fun k => k + addr % 32

/-- The module addresses of n consecutive bytes, none where any is out of bounds. -/
def CoreView.byteKeys (cv : CoreView) (pad : Pad) (addr : Nat) : Nat → Option (List Nat)
  | 0 => some []
  | n + 1 =>
    match cv.byteKey pad addr, CoreView.byteKeys cv pad (addr + 1) n with
    | some k, some ks => some (k :: ks)
    | _, _ => none

/-- The value of a granule: 32 bytes, little endian. -/
def CoreView.read256 (cv : CoreView) (key : Nat) : BitVec 256 := ofNat256 (cv.mem.readNat key 32)

end Sys2Proof.Machine
end

