-- ==== Sys2Proof/Machine/Complete.lean ====
section
/-! DEFINITION. Completion of commands: records and rings, statuses, signals, faults that end a command, and core
faults (R106, R336, R346, R347, R356, R361–R364, R366). -/

namespace Sys2Proof.Machine

/-! ### Completion records (R362) -/

/-- The 32 bytes of a record of queue q with a PHASE bit. -/
def Rec.bytes (r : Rec) (phase : Bool) (q : Nat) : List Byte :=
  let w := natOf phase + 2 * r.type + 16 * natOf r.replayed + 2 ^ 8 * (r.status % 256) + 2 ^ 16 * (q % 64)
    + 2 ^ 22 * (r.opcode % 256)
  leBytes 4 w ++ leBytes 4 r.hseq ++ leBytes 8 r.tick ++ leBytes 8 r.endTick ++ leBytes 8 r.detail

/-- The memory key of a host address (the host's memory follows the module's 64-bit key space). -/
def hostKey (a : Nat) : Nat := 2 ^ 64 + a % 2 ^ 64

/-- The mirrors that reflect record r of queue q change, by +1 as it is posted or by −1 as its write fails: Q_OUTSTANDING and
FN_ACCEPTED for an ACCEPT, Q_OUTSTANDING and FN_COMPLETED for the DONE of an accepted command (R357, R361, R366). -/
def State.mirrorRec (s : State) (f q : Nat) (r : Rec) (posted : Bool) : State :=
  let by_ (a : Nat) (up : Bool) (s : State) : State := s.setReg a ((s.reg a + (if up then 1 else 2 ^ 32 - 1)) % 2 ^ 32)
  if !r.owed then s
  else if r.type == 0 then by_ (bar0 f 0x1008) posted (by_ (queueReg f q 0x34) posted s)
  else by_ (bar0 f 0x100C) posted (by_ (queueReg f q 0x34) (!posted) s)

/-- Write one record at CQ_TAIL of an enabled queue; the tail moves, PHASE inverts where it passes the ring's end, and the
mirrors follow (R344, R346, R366). -/
def State.writeRecord (s : State) (f q : Nat) (r : Rec) : State :=
  let u := s.queue f q
  let n := 2 ^ u.cqLog
  let tail := s.field (queueReg f q 0x24) 0 17
  let k := hostKey (u.cqBase + 32 * tail)
  let s1 := { s with mem := Mem.writeBytes s.mem k (r.bytes u.phase q) }
  let s2 := (s1.setReg (queueReg f q 0x24) ((tail + 1) % n)).mirrorRec f q r true
  s2.modQueue f q fun u => { u with
    unread := u.unread ++ [{ r with owed := false }]
    last := some (r, Mem.readBytes s.mem k 32)
    phase := u.phase != decide (tail + 1 = n) }

/-- The write of the record written last has failed: it does not stand in host memory, CQ_TAIL, PHASE and the mirrors are as
before it, and it is the first of those held (R337, R347). A record that the host has read was written. -/
def State.unwrite (s : State) (f q : Nat) : State :=
  let u := s.queue f q
  match u.last with
  | none => s
  | some (r, old) =>
    let n := 2 ^ u.cqLog
    let tail := (s.field (queueReg f q 0x24) 0 17 + n - 1) % n
    if s.field (queueReg f q 0x24) 0 17 == s.field (queueReg f q 0x20) 0 17 then s
    else
      let s1 := { s with mem := Mem.writeBytes s.mem (hostKey (u.cqBase + 32 * tail)) old }
      ((s1.setReg (queueReg f q 0x24) tail).mirrorRec f q r false).modQueue f q fun u => { u with
        unread := u.unread.dropLast
        held := r :: u.held
        last := none
        phase := u.phase != decide (tail + 1 = n) }

/-- Can the module write records of queue q of function f now: enabled, not stopped by D3hot (R337, R347)? -/
def State.canWrite (s : State) (f q : Nat) : Bool := (s.queue f q).on && !s.cp.d3hot

/-- Written, unread and reserved slots leave how many free, one slot always unused (R345). -/
def State.freeSlots (s : State) (f q : Nat) : Nat :=
  let u := s.queue f q
  let n := 2 ^ u.cqLog
  let unread := (s.field (queueReg f q 0x24) 0 17 + n - s.field (queueReg f q 0x20) 0 17) % n
  n - 1 - unread - u.reserved

/-- Q_STATUS.HELD mirrors whether records are held (R343). -/
def State.markHeld (s : State) (f q : Nat) : State :=
  s.setField (queueReg f q 0x2C) 4 1 (natOf (!(s.queue f q).held.isEmpty))

/-- Post a record and release `slots` reserved slots; a record is held while its queue cannot be written or older ones are
held (R345, R347). -/
def State.post (s : State) (f q slots : Nat) (r : Rec) : State :=
  let s1 := s.modQueue f q fun u => { u with reserved := u.reserved - slots }
  if s.canWrite f q && (s.queue f q).held.isEmpty then s1.writeRecord f q r
  else (s1.modQueue f q fun u => { u with held := u.held ++ [r] }).markHeld f q

/-- Write held records from CQ_TAIL on while slots are free; `n` bounds them (R347). -/
def State.flushHeld (s : State) (f q : Nat) : Nat → State
  | 0 => s.markHeld f q
  | n + 1 =>
    match (s.queue f q).held with
    | [] => s.markHeld f q
    | r :: rs =>
      if s.canWrite f q && decide (0 < s.freeSlots f q) then
        State.flushHeld ((s.modQueue f q fun u => { u with held := rs }).writeRecord f q r) f q n
      else s.markHeld f q

/-! ### Events (R356) -/

/-- Add 1 to an event; a SET of the same tick window comes last, and its value remains (R372). -/
def State.signal (s : State) (e : Nat) : State :=
  if decide (s.subtick ≤ 15) && s.cp.setNow.contains e then s
  else { s with events := kmod 0 s.events e fun v => (v + 1) % 2 ^ 32 }

/-- Add 1 to each event of a list. -/
def State.signals (s : State) : List Nat → State
  | [] => s
  | e :: es => State.signals (s.signal e) es

/-- Is the wait (event, threshold) satisfied: the signed difference is not negative (R356)? -/
def State.waitMet (s : State) (w : Nat × Nat) : Bool :=
  decide (0 ≤ (BitVec.ofNat 32 (kget 0 s.events w.1) - BitVec.ofNat 32 w.2).toInt)

/-! ### Completion (R361, R363, R364) -/

/-- The status of a command that ends by itself: the highest of R363 that applies. -/
def Cmd.status (c : Cmd) : Nat :=
  if c.fault.isSome then 0x10 else if c.umber.isSome then 0x01 else if c.skipped then 0x02
  else if c.late || c.slipped || decide (0 < c.slips) then 0x03 else 0x00

/-- DETAIL of that status (R364). -/
def Cmd.detail (c : Cmd) : Nat :=
  match c.fault with
  | some f => f.reason % 256 + 2 ^ 8 * (f.source % 256) + 2 ^ 16 * f.unit
  | none =>
    match c.umber with
    | some a => 2 ^ 8 * min c.nfail 255 + 2 ^ 16 * (a % 2 ^ 48)
    | none => if c.status == 0x03 then 2 ^ 16 * min c.slips 65535 else 0

/-- FLAGS.SIG_ALWAYS (R348). -/
def Cmd.sigAlways (c : Cmd) : Bool := bitOf c.flags 6

/-- STEP_ACC of a function gains bits (R393): it is kept in the register of the function. -/
def State.orStep (s : State) (f bits : Nat) : State := s.setReg (bar0 f 0xA100) (s.reg (bar0 f 0xA100) ||| bits)

/-- REPLAY_EXPECT0–3 of function f. -/
def State.replayExpect (s : State) (f : Nat) : List Nat := (List.range 4).map fun i => s.reg (bar0 f (0xA210 + 4 * i))

/-- REPLAY_STATUS of a REPLAY that ends without a check: DONE, and which of its expected values were set (R422, R424). -/
def State.replayUnchecked (s : State) (f : Nat) (expect : List Nat) : State :=
  let set := (List.range expect.length).foldl (fun a i => a + natOf (expect.getD i 0 != 0) * 2 ^ (8 + i)) 0
  s.setReg (bar0 f 0xA230) (set + 2 ^ 12)

/-- What a command leaves behind when it ends: its copies, collective, checkpoint and replay are over; a REPLAY that ends
before its checks, or is DENIED, reports none (R422, R424). -/
def State.dropRuns (s : State) (id : Nat) (c : Cmd) : State :=
  let s1 := match kget none s.replays id with
    | some r => s.replayUnchecked c.func r.expect
    | none => if c.opcode == 0x31 then s.replayUnchecked c.func (s.replayExpect c.func) else s
  { s1 with
    tiers := { s1.tiers with copies := s1.tiers.copies.filter fun x => x.2.all fun r => r.cmd != id }
    colls := { s1.colls with run := kset none s1.colls.run id none }
    ckpts := kset none s1.ckpts id none
    replays := kset none s1.replays id none }

/-- Command id leaves the machine with a status and DETAIL: signals, counts, record, trace (R356, R361). -/
def State.complete (s : State) (id status detail : Nat) : State :=
  match s.cmd id with
  | none => s
  | some c =>
    let s1 := if status < 0x10 || c.sigAlways then s.signals c.sigs else s
    let s3 := s1.setReg (cpReg 0x0C) (s1.reg (cpReg 0x0C) - 1)
    let s4 := if status == 0x01 then s3.orStep c.func 2 else s3
    let r : Rec := { type := 1, owed := true, status := status, opcode := c.opcode, hseq := c.hseq, tick := c.admitted.getD 0
                     endTick := s.tick, detail := detail }
    let s5 := (((s4.tally 11 0 3 1).setCmd id none).dropRuns id c).post c.func c.q 1 r
    let s6 := s5.trace 1 c.func (c.q % 64 + 2 ^ 6 * c.opcode + 2 ^ 14 * status + 2 ^ 22) c.hseq
    { s6 with parts := s6.parts.map fun x =>
        (x.1, if x.2.run == some id then { x.2 with run := none } else x.2) }

/-- Complete with the command's own status and DETAIL. -/
def State.completeOwn (s : State) (id : Nat) : State :=
  match s.cmd id with
  | none => s
  | some c => s.complete id c.status c.detail

/-- Complete DENIED with a reason (R351, R364). -/
def State.deny (s : State) (id reason : Nat) : State := s.complete id 0x11 (reason % 256)

/-- A command faults: it completes FAULT in the next tick window, with the reason, source and unit of its first fault
(R34, R361, R364). -/
def State.faultCmd (s : State) (id : Nat) (i : FaultInfo) : State :=
  s.modCmd id fun c => { c with fault := some (c.fault.getD i), ends := true }

/-- A command faults in a tick window and completes FAULT there. -/
def State.faultNow (s : State) (id : Nat) (i : FaultInfo) : State :=
  (s.modCmd id fun c => { c with fault := some (c.fault.getD i) }).completeOwn id

/-- The commands that have faulted since the last tick complete, in the order of their acceptance (R34, R361). -/
def State.completeEnding (s : State) : State :=
  s.cmds.foldl (fun s x => match x.2 with
    | some c => if c.ends then s.completeOwn x.1 else s
    | none => s) s

/-! ### Core faults (R106) -/

/-- CAUSE of a FAULT record (R480). -/
def Cause.code : Cause → Nat
  | .encoding => 1 | .bounds => 2 | .counter => 3 | .openQueue => 4 | .dma => 5 | .pcOverflow => 6 | .ecc => 7

/-- Retired physical sites of a half-row, as active. -/
def State.retired (s : State) (d h r : Nat) : List Nat := kget [] s.remap.sites (64 * (2 * d + h) + r)

/-- The physical column of a logical column: the sites that are not retired serve the logical columns in order (R18). -/
def physColumn (retired : List Nat) (c : Nat) : Nat :=
  (((List.range 50).filter fun x => !retired.contains x)[c]?).getD 0

/-- Physical column of logical core id (R15, R18). -/
def State.physOf (s : State) (id : Nat) : Nat :=
  physColumn (s.retired (id / 6144) (id / 3072 % 2) (id / 48 % 64)) (id % 48)

/-- The function that a configuration record serves: TENANT (R101). -/
def cfgTenant (r : BitVec 256) : Nat := cfgField r 216 8
/-- FILLER of a configuration record (R101). -/
def cfgFiller (r : BitVec 256) : Bool := bitOf r.toNat 224

/-- The admitted RUN_SPAN or REPLAY of function f. -/
def State.runningOf (s : State) (f : Nat) : Option Nat :=
  (s.cmds.find? fun x => match x.2 with
    | some c => c.func == f && c.admitted.isSome && (c.opcode == 0x01 || c.opcode == 0x31)
    | none => false).map (·.1)

/-- The command that a fault of core c's active configuration ends: the filler's own, or the partition's. -/
def State.coreCommand (s : State) (c : Nat) (cfg : BitVec 256) : Option Nat :=
  if cfgFiller cfg then s.runningOf (cfgTenant cfg) else (s.partOf c).bind fun p => (s.part p).run

/-- A core fault of thread t of core c in configuration k: the thread stops, a FAULT record is written, the running
command is to complete FAULT with reason CORE (R106, R364). `pc` is the PC the record shows. -/
def State.coreFault (s : State) (c t k : Nat) (pc : BitVec 8) (cause : Cause) : State :=
  let s1 := s.modCore c fun x => x.modThread t fun th => { th with state := .faulted }
  let cfg := (s1.core c).cfg k
  let where_ := c / 6144 + 2 ^ 3 * (c / 3072 % 2) + 2 ^ 4 * (c / 48 % 64) + 2 ^ 10 * s.physOf c + 2 ^ 16 * t
    + 2 ^ 20 * pc.toNat + 2 ^ 28 * k + 2 ^ 32 * c
  let s2 := s1.trace 4 (cfgTenant cfg) (1 + 2 ^ 8 * cause.code) where_
  match s.coreCommand c cfg with
  | none => s2
  | some id => s2.faultCmd id { reason := 0x30, source := 1, unit := c }

end Sys2Proof.Machine
end

