-- ==== Sys2Proof/WellFormed.lean ====
section
/-! DEFINITION. Which commands are well formed: the field rules of the core instructions (R111–R140), and the units that
the other commands name exist in the module (R3, R17, R101, R304, R339, R343). -/

namespace Sys2Proof

/-- A g pair number is even and not 0 (R111). -/
def pairField (n : BitVec 5) : Bool := n.toNat % 2 == 0 && n != 0

/-- Does the ALU function keep its field rules: predicate numbers in three bits, EXT zero but for SEL's predicate,
FUNC 30 and 31 reserved (R115)? -/
def aluLegal (rd rs1 rs2 func : BitVec 5) (ext : BitVec 6) : Bool :=
  let f := func.toNat
  let pred (x : BitVec 5) : Bool := decide (x.toNat < 8)
  (if f == 15 then ext.toNat % 8 == 0 else ext == 0) && decide (f < 30) &&
    (if (16 ≤ f && f ≤ 18) || (24 ≤ f && f ≤ 26) then pred rd
     else if 27 ≤ f then pred rd && pred rs1 && pred rs2 else true)

/-- AREG's field rules (R119). -/
def aregLegal (func : BitVec 2) (field : BitVec 3) (g : BitVec 5) (imm : BitVec 12) : Bool :=
  match func.toNat with
  | 0 | 1 => field == 0 && imm == 0 && pairField g
  | 2 => decide (field.toNat < 2) && g == 0
  | _ => decide (field.toNat < 6) && g == 0 && (field.toNat < 4 || decide (imm.toNat < 256))

/-- The format codes CVT converts between (R122). -/
def cvtFormat (n : BitVec 4) : Bool := decide (n.toNat < 8) && n != 3

/-- Element size of a format code (R122). -/
def codeSize (n : BitVec 4) : Nat :=
  match n.toNat with
  | 0 => 4 | 1 => 2 | 2 => 2 | 5 => 4 | 6 => 8 | _ => 1

/-- Is the pair of codes widening (R123)? -/
def codeWidens (s d : BitVec 4) : Bool :=
  match s.toNat with
  | 1 | 2 => d == 0 || d == 6
  | 0 | 5 => d == 6
  | 4 | 7 => d == 1 || d == 2 || d == 0 || d == 5 || d == 6
  | _ => false

/-- CVT's field rules (R111, R122, R123). -/
def cvtLegal (sfmt dfmt : BitVec 4) (rnd : BitVec 2) (src : Bool) (as_ : BitVec 3) (spad dst : Bool) (ad : BitVec 3)
    (dpad : Bool) (part : BitVec 3) (gb : BitVec 2) : Bool :=
  cvtFormat sfmt && cvtFormat dfmt && sfmt != dfmt && rnd != 3 && (rnd != 2 || !codeWidens sfmt dfmt)
    && (if rnd == 2 then gb != 0 else gb == 0)
    && decide (part.toNat < max (codeSize sfmt) (codeSize dfmt) / min (codeSize sfmt) (codeSize dfmt))
    && (src || decide (as_.toNat < 2)) && (dst || decide (ad.toNat < 2))
    && !(src && dst && as_ == ad && spad == dpad)

/-- TDRAIN's field rules (R130). -/
def tdrainLegal (dest : Bool) (ad : BitVec 3) (dfmt : BitVec 4) (rnd gb : BitVec 2) (cinc : Bool) (ctr : BitVec 3)
    (acc : Bool) : Bool :=
  (if acc then rnd == 0 && (dfmt == 5 || dfmt == 4 || dfmt == 7)
    else (dfmt == 0 && rnd == 0) || ((dfmt == 1 || dfmt == 2 || dfmt == 3) && rnd != 3))
    && (if rnd == 2 then gb != 0 else gb == 0) && (!dest || decide (ad.toNat < 4)) && (cinc || ctr == 0)

/-- VOP's field rules (R121). -/
def vopLegal (func : BitVec 5) (fp64 src2 dst hi : Bool) (lmask : BitVec 4) : Bool :=
  decide (func.toNat < 16) && lmask != 0 && !(src2 && dst) && !(fp64 && hi) && !(func == 3 && dst) && (func != 15 || fp64)

/-! ### Instruction fields -/

/-- The three pad-address registers of a TMMA differ (R129). -/
def tmmaLegal (aw aa ap : BitVec 3) : Bool := aw != aa && aw != ap && aa != ap

/-- SPLIT's field rules (R124). -/
def splitLegal (j k : BitVec 4) (src : Bool) (as_ : BitVec 3) : Bool :=
  decide (6 ≤ k.toNat) && decide (k.toNat ≤ 9) && decide (j.toNat < k.toNat) && (src || decide (as_.toNat < 2))

/-- SSPK's rounding and group (R126). -/
def sspkLegal (rnd gb : BitVec 2) : Bool := (rnd == 0 && gb == 0) || (rnd == 2 && gb != 0)

/-- The fields of a core instruction spell a legal word (R140); every other command has none to spell. -/
def Instr.legal : Instr → Bool
  | .alu _ _ rd rs1 rs2 func ext => aluLegal rd rs1 rs2 func ext
  | .shi _ _ _ _ kind _ => kind != 3
  | .loop _ _ g _ => g != 0
  | .ld _ _ _ _ size _ sign _ => size != 3 && !(size == 2 && sign)
  | .st _ _ _ _ size _ _ => size != 3
  | .areg _ _ _ func field g imm => aregLegal func field g imm
  | .fstat _ _ _ _ mode => mode != 3
  | .tmma _ _ aw aa ap _ _ _ _ _ => tmmaLegal aw aa ap
  | .tmmaI8 _ _ aw aa ap _ _ _ _ _ => tmmaLegal aw aa ap
  | .tdrain _ _ _ _ dest ad dfmt rnd gb cinc ctr acc => tdrainLegal dest ad dfmt rnd gb cinc ctr acc
  | .vop _ _ func fp64 _ src2 _ _ _ dst _ hi lmask => vopLegal func fp64 src2 dst hi lmask
  | .cvt _ _ sfmt dfmt rnd src as_ spad dst ad dpad part gb => cvtLegal sfmt dfmt rnd src as_ spad dst ad dpad part gb
  | .split _ _ _ j k src as_ _ _ _ _ => splitLegal j k src as_
  | .merge _ _ vd vs _ _ _ _ => vs != vd
  | .sspk _ _ _ _ _ _ _ rnd gb => sspkLegal rnd gb
  | .rng _ _ gb _ _ _ => gb != 0
  | .walk _ _ gd _ _ => pairField gd
  | .dma _ _ gs gd gl _ => pairField gs && pairField gd && gl != 0
  | .swap _ _ sw sa => sw || sa
  | _ => true

/-! ### Units -/

/-- A logical core id of the largest grade (R15). -/
def coreUnit (c : Nat) : Bool := decide (c < 49152)
/-- A function (R335). -/
def funcUnit (f : Nat) : Bool := decide (f < 256)
/-- A queue of a function (R343). -/
def queueUnit (f q : Nat) : Bool := decide (f < 256) && decide (q < 64)
/-- A die or a partition record (R17, R339). -/
def octUnit (d : Nat) : Bool := decide (d < 8)
/-- A requester of registers: PF, VF or MC (R528). -/
def requester (w : Nat) : Bool := decide (w < 257)

/-- Every unit the command names exists. -/
def Instr.units : Instr → Bool
  | .alu c .. | .addi c .. | .andi c .. | .ori c .. | .xori c .. | .lui c .. | .shi c .. | .b c .. | .loop c .. => coreUnit c
  | .ld c .. | .st c .. | .areg c .. | .movv c .. | .fstat c .. | .yield c .. | .tmma c .. | .tmmaI8 c .. => coreUnit c
  | .tdrain c .. | .vop c .. | .cvt c .. | .split c .. | .merge c .. | .sspk c .. | .ssup c .. | .rng c .. => coreUnit c
  | .qpush c .. | .qpop c .. | .walk c .. | .dma c .. | .waitc c .. | .cntadd c .. | .cntrd c .. | .swap c .. => coreUnit c
  | .illegalEncoding c .. | .drainBlock c | .generatorRequest c | .queueEntryMove c _ | .storePortTurn c => coreUnit c
  | .dmaArrival c _ | .walkerStart c _ | .walkerUnit c _ | .walkerReleaseWaitEnd c _ | .tileArrival c _ => coreUnit c
  | .foldSlotOpen c | .fillerSlotEnd c | .fillerPortCutoff c | .mirrorTurn c | .watchdogExpiry c => coreUnit c
  | .debugAccRead f c .. => funcUnit f && coreUnit c
  | .threadSample c _ _ | .testMismatch c _ _ _ => coreUnit c
  | .slipLimitReached p | .mirrorComplete p | .finalisation p | .loadFrame p | .fillerLoad p | .recovery p => octUnit p
  | .preemptStop p | .preemptResume p | .cpPartWrite p _ | .obsPartWrite p _ => octUnit p
  | .rateArm who _ => requester who
  | .syncSymbolSend p _ | .syncSymbolReceive p _ _ | .linkBlockReceive p _ _ _ | .linkReplay p _ | .portFail p _ => octUnit p
  | .portUpRequest p _ | .portUp p _ _ | .floodReceive p _ _ | .linkState p _ _ _ | .writeMessageReceive p _ _ => octUnit p
  | .messageForward p _ _ | .collMessageReceive p _ _ | .cableChange p _ _ | .portTrainingRepeat p => octUnit p
  | .doorbell f q _ | .cqHeadWrite f q _ | .commandAccept f q | .hostAccessFail f q _ | .queueEnable f q => queueUnit f q
  | .queueDisable f q | .runSpan f q | .copy f q | .reduceScatter f q | .allGather f q | .allReduce f q => queueUnit f q
  | .broadcast f q | .permute f q | .rotate f q | .vote f q | .commitStep f q | .windowOpen f q => queueUnit f q
  | .windowClose f q | .event f q | .fence f q | .checkpoint f q | .replay f q => queueUnit f q
  | .map f | .mapPinned f | .unmap f | .pin f | .unpin f | .refill f _ | .sharesWrite f _ | .quotaWrite f _ _ => funcUnit f
  | .functionReset f | .fnRelease f | .fnCfgWrite f _ _ | .obsConsentWrite f _ | .spdmRequest f _ => funcUnit f
  | .aliasWrite f _ _ => funcUnit f
  | .carveWrite f d _ => funcUnit f && octUnit d
  | .cacheBaseWrite d _ | .remapGo d | .remapRecPop d | .mcRemapRecordRemoval d => octUnit d
  | .remapSubstitution d _ half row .. | .rowExhausted d half row => octUnit d && decide (half < 2) && decide (row < 64)
  | .sliceRebuild d half => octUnit d && decide (half < 2)
  | .scrubVoteCorrect d k _ => octUnit d && k.real
  | .flashWindowArm n _ => decide (n < 16)
  | .offlineReq n | .bayOffline n | .bayOnline n _ _ | .drivePull n _ => decide (n < 4)
  | .stackRetire n => decide (n < 16)
  | .resendTimeout h | .parkedRepeat h | .messageTransmit h => decide (h < 4096)
  | .cntCfgWrite kind k _ => decide (kind < 12) && decide (k < 8)
  | .cvuFeed who ch bytes _ => requester who && decide (ch < 17) && (bytes == 1 || bytes == 2 || bytes == 4)
  | .cvuInit who ch | .cvuValueWrite who ch _ _ | .cvuValueRead who ch _ | .cvuResultRead who ch _ =>
    requester who && decide (ch < 17)
  | .wideLowRead who _ | .wideLowWrite who _ _ | .wideHighWrite who _ _ | .frozenWrite who _ _ _
  | .registerWrite who _ _ _ => requester who
  | _ => true

/-- A well-formed command. -/
def Instr.wellFormed (i : Instr) : Bool := i.legal && i.units

end Sys2Proof
end

