-- ==== Sys2Proof/Decode.lean ====
section
/-! DEFINITION. The core instruction words (R109–R140): a total decoder that answers none for a word a field rule makes
illegal, an encoder written from the same tables, and `decodeTableWord`. The opcode table gives its rows no bits, so
`decodeTableWord` answers none; the word decoder serves finalisation (R143) and the ILLEGAL_ENCODING row. -/

namespace Sys2Proof

/-- Bits [lo + n − 1 : lo] of a word. -/
def fld (w : Word) (lo n : Nat) : BitVec n := w.extractLsb' lo n

/-- Bit i of a word. -/
def flag (w : Word) (i : Nat) : Bool := w.getLsbD i

/-- The instruction a 32-bit word spells on core c and thread t; none where R140 calls the word illegal (a SWAP of a
single-mode pad is found at issue, R137). -/
def decodeCore (c : Nat) (t : BitVec 4) (w : Word) : Option Instr :=
  let rd := fld w 21 5
  let rs1 := fld w 16 5
  let need (ok : Bool) (i : Instr) : Option Instr := if ok then some i else none
  match (fld w 26 6).toNat with
  | 0x01 => need (aluLegal rd rs1 (fld w 11 5) (fld w 6 5) (fld w 0 6)) (.alu c t rd rs1 (fld w 11 5) (fld w 6 5) (fld w 0 6))
  | 0x02 => some (.addi c t rd rs1 (fld w 0 16))
  | 0x03 => some (.andi c t rd rs1 (fld w 0 16))
  | 0x04 => some (.ori c t rd rs1 (fld w 0 16))
  | 0x05 => some (.xori c t rd rs1 (fld w 0 16))
  | 0x06 => need (rs1 == 0) (.lui c t rd (fld w 0 16))
  | 0x07 => need (fld w 7 9 == 0 && fld w 5 2 != 3) (.shi c t rd rs1 (fld w 5 2) (fld w 0 5))
  | 0x08 => need (fld w 8 14 == 0) (.b c t (fld w 23 3) (flag w 22) (fld w 0 8))
  | 0x09 => need (fld w 8 13 == 0 && rd != 0) (.loop c t rd (fld w 0 8))
  | 0x0A => need (fld w 14 2 != 3 && !(fld w 14 2 == 2 && flag w 12))
      (.ld c t rd rs1 (fld w 14 2) (flag w 13) (flag w 12) (fld w 0 12))
  | 0x0B => need (fld w 14 2 != 3 && !flag w 12) (.st c t rd rs1 (fld w 14 2) (flag w 13) (fld w 0 12))
  | 0x0C => need (!flag w 12 && aregLegal (fld w 21 2) (fld w 18 3) (fld w 13 5) (fld w 0 12))
      (.areg c t (fld w 23 3) (fld w 21 2) (fld w 18 3) (fld w 13 5) (fld w 0 12))
  | 0x0D => need (fld w 0 16 == 0) (.movv c t rd (flag w 20) (fld w 18 2) (flag w 17) (flag w 16))
  | 0x0E => need (fld w 0 11 == 0 && fld w 11 2 != 3) (.fstat c t rd (fld w 13 8) (fld w 11 2))
  | 0x0F => need (fld w 0 26 == 0) (.yield c t)
  | 0x10 => need (fld w 0 9 == 0 && tmmaLegal (fld w 23 3) (fld w 20 3) (fld w 17 3))
      (.tmma c t (fld w 23 3) (fld w 20 3) (fld w 17 3) (flag w 16) (fld w 12 4) (flag w 11) (flag w 10) (flag w 9))
  | 0x11 => need (fld w 0 9 == 0 && tmmaLegal (fld w 23 3) (fld w 20 3) (fld w 17 3))
      (.tmmaI8 c t (fld w 23 3) (fld w 20 3) (fld w 17 3) (flag w 16) (fld w 12 4) (flag w 11) (flag w 10) (flag w 9))
  | 0x12 => need (tdrainLegal (flag w 16) (fld w 13 3) (fld w 9 4) (fld w 7 2) (fld w 5 2) (flag w 4) (fld w 1 3) (flag w 0))
      (.tdrain c t (fld w 23 3) (fld w 17 6) (flag w 16) (fld w 13 3) (fld w 9 4) (fld w 7 2) (fld w 5 2) (flag w 4)
        (fld w 1 3) (flag w 0))
  | 0x18 => need (fld w 0 6 == 0 && vopLegal rd (flag w 20) (flag w 18) (flag w 12) (flag w 10) (fld w 6 4))
      (.vop c t rd (flag w 20) (flag w 19) (flag w 18) (flag w 17) (fld w 14 3) (flag w 13) (flag w 12) (flag w 11)
        (flag w 10) (fld w 6 4))
  | 0x19 => need (!flag w 0 && cvtLegal (fld w 22 4) (fld w 18 4) (fld w 16 2) (flag w 15) (fld w 12 3) (flag w 11)
        (flag w 10) (fld w 7 3) (flag w 6) (fld w 3 3) (fld w 1 2))
      (.cvt c t (fld w 22 4) (fld w 18 4) (fld w 16 2) (flag w 15) (fld w 12 3) (flag w 11) (flag w 10) (fld w 7 3)
        (flag w 6) (fld w 3 3) (fld w 1 2))
  | 0x1A => need (fld w 0 5 == 0 && splitLegal (fld w 21 4) (fld w 17 4) (flag w 16) (fld w 13 3))
      (.split c t (flag w 25) (fld w 21 4) (fld w 17 4) (flag w 16) (fld w 13 3) (flag w 12) (fld w 9 3) (flag w 8) (fld w 5 3))
  | 0x1B => need (fld w 0 14 == 0 && flag w 24 != flag w 25)
      (.merge c t (flag w 25) (flag w 24) (fld w 21 3) (flag w 20) (flag w 19) (fld w 14 5))
  | 0x1C => need (fld w 0 11 == 0 && sspkLegal (fld w 13 2) (fld w 11 2))
      (.sspk c t rd (fld w 18 3) (flag w 17) (flag w 16) (flag w 15) (fld w 13 2) (fld w 11 2))
  | 0x1D => need (fld w 0 16 == 0) (.ssup c t rd (fld w 18 3) (flag w 17) (flag w 16))
  | 0x1E => need (fld w 0 21 == 0 && fld w 24 2 != 0) (.rng c t (fld w 24 2) (flag w 23) (flag w 22) (flag w 21))
  | 0x20 => need (fld w 0 16 == 0) (.qpush c t (fld w 24 2) (fld w 21 3) (flag w 20) (fld w 16 4))
  | 0x21 => need (fld w 0 16 == 0) (.qpop c t (fld w 24 2) (fld w 21 3) (flag w 20) (fld w 16 4))
  | 0x22 => need (fld w 0 17 == 0 && pairField rd) (.walk c t rd (fld w 18 3) (flag w 17))
  | 0x23 => need (fld w 0 8 == 0 && pairField rd && pairField rs1 && fld w 11 5 != 0)
      (.dma c t rd rs1 (fld w 11 5) (fld w 8 3))
  | 0x24 => need (fld w 12 6 == 0) (.waitc c t (fld w 23 3) (fld w 18 5) (fld w 0 12))
  | 0x25 =>
    if fld w 21 2 == 0 then some (.cntadd c t (fld w 23 3) (fld w 16 5) (fld w 0 16))
    else need (fld w 21 2 == 1 && fld w 0 16 == 0) (.cntrd c t (fld w 23 3) (fld w 16 5))
  | 0x26 => need (fld w 0 24 == 0 && (flag w 25 || flag w 24)) (.swap c t (flag w 25) (flag w 24))
  | _ => none

/-- A field placed at bit lo. -/
def at_ {n : Nat} (lo : Nat) (v : BitVec n) : Word := v.setWidth 32 <<< lo

/-- A flag placed at bit i. -/
def flagAt (i : Nat) (b : Bool) : Word := (BitVec.ofBool b).setWidth 32 <<< i

/-- MAJOR in bits [31:26] (R109). -/
def major (m : BitVec 6) : Word := at_ 26 m

/-- The word of a core instruction; none for the commands that are no core instruction (R109–R139). -/
def encodeCore : Instr → Option Word
  | .alu _ _ rd rs1 rs2 func ext => some (major 0x01 ||| at_ 21 rd ||| at_ 16 rs1 ||| at_ 11 rs2 ||| at_ 6 func ||| at_ 0 ext)
  | .addi _ _ rd rs1 imm => some (major 0x02 ||| at_ 21 rd ||| at_ 16 rs1 ||| at_ 0 imm)
  | .andi _ _ rd rs1 imm => some (major 0x03 ||| at_ 21 rd ||| at_ 16 rs1 ||| at_ 0 imm)
  | .ori _ _ rd rs1 imm => some (major 0x04 ||| at_ 21 rd ||| at_ 16 rs1 ||| at_ 0 imm)
  | .xori _ _ rd rs1 imm => some (major 0x05 ||| at_ 21 rd ||| at_ 16 rs1 ||| at_ 0 imm)
  | .lui _ _ rd imm => some (major 0x06 ||| at_ 21 rd ||| at_ 0 imm)
  | .shi _ _ rd rs1 kind sh => some (major 0x07 ||| at_ 21 rd ||| at_ 16 rs1 ||| at_ 5 kind ||| at_ 0 sh)
  | .b _ _ p neg target => some (major 0x08 ||| at_ 23 p ||| flagAt 22 neg ||| at_ 0 target)
  | .loop _ _ g target => some (major 0x09 ||| at_ 21 g ||| at_ 0 target)
  | .ld _ _ rd rs1 size pad sign off =>
    some (major 0x0A ||| at_ 21 rd ||| at_ 16 rs1 ||| at_ 14 size ||| flagAt 13 pad ||| flagAt 12 sign ||| at_ 0 off)
  | .st _ _ rs2 rs1 size pad off =>
    some (major 0x0B ||| at_ 21 rs2 ||| at_ 16 rs1 ||| at_ 14 size ||| flagAt 13 pad ||| at_ 0 off)
  | .areg _ _ a func field g imm =>
    some (major 0x0C ||| at_ 23 a ||| at_ 21 func ||| at_ 18 field ||| at_ 13 g ||| at_ 0 imm)
  | .movv _ _ g v lane word dir =>
    some (major 0x0D ||| at_ 21 g ||| flagAt 20 v ||| at_ 18 lane ||| flagAt 17 word ||| flagAt 16 dir)
  | .fstat _ _ rd clr mode => some (major 0x0E ||| at_ 21 rd ||| at_ 13 clr ||| at_ 11 mode)
  | .yield _ _ => some (major 0x0F)
  | .tmma _ _ aw aa ap left nm1 wf af zero =>
    some (major 0x10 ||| at_ 23 aw ||| at_ 20 aa ||| at_ 17 ap ||| flagAt 16 left ||| at_ 12 nm1 ||| flagAt 11 wf
      ||| flagAt 10 af ||| flagAt 9 zero)
  | .tmmaI8 _ _ aw aa ap left nm1 wf af zero =>
    some (major 0x11 ||| at_ 23 aw ||| at_ 20 aa ||| at_ 17 ap ||| flagAt 16 left ||| at_ 12 nm1 ||| flagAt 11 wf
      ||| flagAt 10 af ||| flagAt 9 zero)
  | .tdrain _ _ ap cm1 dest ad dfmt rnd gb cinc ctr acc =>
    some (major 0x12 ||| at_ 23 ap ||| at_ 17 cm1 ||| flagAt 16 dest ||| at_ 13 ad ||| at_ 9 dfmt ||| at_ 7 rnd ||| at_ 5 gb
      ||| flagAt 4 cinc ||| at_ 1 ctr ||| flagAt 0 acc)
  | .vop _ _ func fp64 va src2 vb areg pad dst vd hi lmask =>
    some (major 0x18 ||| at_ 21 func ||| flagAt 20 fp64 ||| flagAt 19 va ||| flagAt 18 src2 ||| flagAt 17 vb ||| at_ 14 areg
      ||| flagAt 13 pad ||| flagAt 12 dst ||| flagAt 11 vd ||| flagAt 10 hi ||| at_ 6 lmask)
  | .cvt _ _ sfmt dfmt rnd src as_ spad dst ad dpad part gb =>
    some (major 0x19 ||| at_ 22 sfmt ||| at_ 18 dfmt ||| at_ 16 rnd ||| flagAt 15 src ||| at_ 12 as_ ||| flagAt 11 spad
      ||| flagAt 10 dst ||| at_ 7 ad ||| flagAt 6 dpad ||| at_ 3 part ||| at_ 1 gb)
  | .split _ _ ve j k src as_ spad ad dpad part =>
    some (major 0x1A ||| flagAt 25 ve ||| at_ 21 j ||| at_ 17 k ||| flagAt 16 src ||| at_ 13 as_ ||| flagAt 12 spad
      ||| at_ 9 ad ||| flagAt 8 dpad ||| at_ 5 part)
  | .merge _ _ vd vs as_ spad hi gs =>
    some (major 0x1B ||| flagAt 25 vd ||| flagAt 24 vs ||| at_ 21 as_ ||| flagAt 20 spad ||| flagAt 19 hi ||| at_ 14 gs)
  | .sspk _ _ ga as_ spad dpad sfmt rnd gb =>
    some (major 0x1C ||| at_ 21 ga ||| at_ 18 as_ ||| flagAt 17 spad ||| flagAt 16 dpad ||| flagAt 15 sfmt ||| at_ 13 rnd
      ||| at_ 11 gb)
  | .ssup _ _ ga ad dpad spad => some (major 0x1D ||| at_ 21 ga ||| at_ 18 ad ||| flagAt 17 dpad ||| flagAt 16 spad)
  | .rng _ _ gb vd half inc => some (major 0x1E ||| at_ 24 gb ||| flagAt 23 vd ||| flagAt 22 half ||| flagAt 21 inc)
  | .qpush _ _ q areg pad nm1 => some (major 0x20 ||| at_ 24 q ||| at_ 21 areg ||| flagAt 20 pad ||| at_ 16 nm1)
  | .qpop _ _ q areg pad nm1 => some (major 0x21 ||| at_ 24 q ||| at_ 21 areg ||| flagAt 20 pad ||| at_ 16 nm1)
  | .walk _ _ gd ctr cpt => some (major 0x22 ||| at_ 21 gd ||| at_ 18 ctr ||| flagAt 17 cpt)
  | .dma _ _ gs gd gl ctr => some (major 0x23 ||| at_ 21 gs ||| at_ 16 gd ||| at_ 11 gl ||| at_ 8 ctr)
  | .waitc _ _ ctr gt imm => some (major 0x24 ||| at_ 23 ctr ||| at_ 18 gt ||| at_ 0 imm)
  | .cntadd _ _ ctr g imm => some (major 0x25 ||| at_ 23 ctr ||| at_ 16 g ||| at_ 0 imm)
  | .cntrd _ _ ctr g => some (major 0x25 ||| at_ 23 ctr ||| at_ 21 1#2 ||| at_ 16 g)
  | .swap _ _ sw sa => some (major 0x26 ||| flagAt 25 sw ||| flagAt 24 sa)
  | .illegalEncoding _ _ word => some word
  | _ => none

/-- The command a word spells by the opcode table's bits: the table gives no row any bits, so none. -/
def decodeTableWord (_nbits _w : Nat) : Option Instr := none

end Sys2Proof
end

