-- ==== Sys2Proof/Machine/Image.lean ====
section
/-! DEFINITION. Program images: their fields and sections, and the checks of finalisation that need only the image and
the fixed facts about the partition (R195–R215, R221, R223, R434, R435). -/

namespace Sys2Proof.Machine

/-- An image as its bytes. -/
abbrev Img := List Byte

/-- The n bytes at offset off. -/
def Img.slice (b : Img) (off n : Nat) : List Byte := (List.drop off b).take n

/-- The little-endian number of n bytes at offset off. -/
def Img.nat (b : Img) (off n : Nat) : Nat := leNat (b.slice off n)

/-! ### Header (R195) -/

/-- FLAGS.FILLER. -/
def Img.filler (b : Img) : Bool := bitOf (b.nat 0x10 4) 0
/-- FLAGS.RATE. -/
def Img.rate (b : Img) : Nat := bitsOf (b.nat 0x10 4) 1 2
/-- DIE_ROWS. -/
def Img.dieRows (b : Img) : Nat := b.nat 0x14 1
/-- DIE_COLS. -/
def Img.dieCols (b : Img) : Nat := b.nat 0x15 1
/-- VROWS. -/
def Img.vrows (b : Img) : Nat := b.nat 0x16 1
/-- VCOLS. -/
def Img.vcols (b : Img) : Nat := b.nat 0x17 1
/-- LATEST_END. -/
def Img.latestEnd (b : Img) : Nat := b.nat 0x1C 4
/-- N_PATTERNS. -/
def Img.nPatterns (b : Img) : Nat := b.nat 0x20 2
/-- N_CONFIGS. -/
def Img.nConfigs (b : Img) : Nat := b.nat 0x22 2
/-- SEQ_LEN. -/
def Img.seqLen (b : Img) : Nat := b.nat 0x24 4
/-- BUBBLE_SIG. -/
def Img.bubbleSig (b : Img) : Nat := b.nat 0x28 4
/-- HOST_SIG. -/
def Img.hostSig (b : Img) : Nat := b.nat 0x2C 4
/-- N_SECTIONS. -/
def Img.nSections (b : Img) : Nat := b.nat 0x30 2
/-- IMAGE_CRC. -/
def Img.crc (b : Img) : Nat := b.nat 0x0C 4
/-- V, the logical core count (R198). -/
def Img.cores (b : Img) : Nat := b.dieRows * b.dieCols * 2 * b.vrows * b.vcols

/-- The CRC-32C of the image with IMAGE_CRC taken as zero (R195). -/
def Img.crcActual (b : Img) : Nat := crc32c (b.slice 0 0x0C ++ [0, 0, 0, 0] ++ List.drop 0x10 b)

/-- C of a rate code (R42, R58). -/
def frameCycles (rate : Nat) : Nat := match rate with
  | 0 => 600000 | 1 => 300000 | _ => 150000

/-- The latest end of work of a rate code (R42). -/
def latestEndOf (rate : Nat) : Nat := match rate with
  | 0 => 582000 | 1 => 289500 | _ => 144000

/-! ### Sections (R195, R196) -/

/-- A directory entry: type, offset, size, count. -/
structure Section_ where
  type : Nat
  off : Nat
  size : Nat
  count : Nat
deriving DecidableEq, Repr

/-- The directory. -/
def Img.sections (b : Img) : List Section_ :=
  (List.range b.nSections).map fun i =>
    ⟨b.nat (0x40 + 16 * i) 4, b.nat (0x44 + 16 * i) 4, b.nat (0x48 + 16 * i) 4, b.nat (0x4C + 16 * i) 4⟩

/-- The section of a type, an empty one where the image lacks it. -/
def Img.sec (b : Img) (type : Nat) : Section_ := (b.sections.find? fun s => s.type == type).getD ⟨0, 0, 0, 0⟩

/-- Has the image a section of the type? -/
def Img.has (b : Img) (type : Nat) : Bool := b.sections.any fun s => s.type == type

/-- Offsets, from the section's start, of lists that lie back to back, each as long as `len` says; none where they do
not fill the section exactly within fuel lists. -/
def packed (len : Nat → Nat) (size : Nat) : Nat → Nat → Option (List Nat)
  | 0, off => if off == size then some [] else none
  | fuel + 1, off =>
    if off == size then some []
    else if off + len off > size then none
    else (packed len size fuel (off + len off)).map (off :: ·)

/-- Offsets, within the SLOTLIST section, at which its slot lists start (R196, R209). -/
def Img.slotLists (b : Img) : Option (List Nat) :=
  let s := b.sec 9
  packed (fun o => 4 + 8 * b.nat (s.off + o) 4) s.size s.count 0

/-- Offsets, within the CHAIN section, at which its chains start (R196, R214). -/
def Img.chains (b : Img) : Option (List Nat) :=
  let s := b.sec 13
  packed (fun o => 4 + 4 * b.nat (s.off + o) 4) s.size s.count 0

/-- COUNT and SIZE of a section agree with the rule of its type (R196). -/
def Img.sectionOk (b : Img) (s : Section_) : Bool :=
  let fixed (n : Nat) (k : Nat) : Bool := s.count == n && s.size == k * n
  match s.type with
  | 1 => true
  | 2 => fixed b.nConfigs 64
  | 3 => fixed b.cores 16
  | 4 => s.size == 4 * s.count
  | 5 => s.size == 24 * s.count
  | 6 => s.size == 8 * s.count
  | 7 => s.size == 64 * s.count
  | 8 => s.size == 16 * s.count
  | 9 => (b.slotLists.map fun l => l.length == s.count).getD false
  | 10 => fixed (b.nPatterns * b.cores) 4
  | 11 => fixed b.seqLen 4
  | 12 => s.count == b.nPatterns && s.size == 16 + 16 * s.count
  | 13 => (b.chains.map fun l => l.length == s.count).getD false
  | 14 => s.count == b.nat (s.off + 4) 4 && s.size == 16 + 24 * s.count
  | 15 => s.size == 24 * s.count
  | 16 => s.size == 8 * s.count
  | 17 => s.size == 8 * s.count
  | _ => false

/-- Reason codes of R218 and R364. -/
def rVersion := 0x01
/-- HEADER. -/
def rHeader := 0x02
/-- SECTION. -/
def rSection := 0x03
/-- GRID. -/
def rGrid := 0x04
/-- ENCODING. -/
def rEncoding := 0x05
/-- RECORD. -/
def rRecord := 0x06
/-- RELOC. -/
def rReloc := 0x07
/-- SYMBOL. -/
def rSymbol := 0x08
/-- HOP. -/
def rHop := 0x09
/-- MESH. -/
def rMesh := 0x0A
/-- FOLD. -/
def rFold := 0x0B
/-- REPORT. -/
def rReport := 0x0C
/-- FILLER. -/
def rFiller := 0x0D
/-- QUOTA. -/
def rQuota := 0x0E
/-- HOST_CHANGED. -/
def rHostChanged := 0x0F

/-- The first failing check of a list of (passes, reason). -/
def firstFail : List (Bool × Nat) → Option Nat
  | [] => none
  | (ok, r) :: t => if ok then firstFail t else some r

/-- Step 1 of finalisation: header and directory (R195–R197), under the rate in use. -/
def Img.checkHeader (b : Img) (rate : Nat) : Option Nat :=
  let rng (x lo hi : Nat) : Bool := decide (lo ≤ x) && decide (x ≤ hi)
  firstFail [
    (b.nat 0 4 == 0x4C53544F, rHeader),
    (b.nat 4 2 == 1 && decide (b.nat 6 2 ≤ 2), rVersion),
    (b.crc == b.crcActual, rHeader),
    (b.nat 0x32 14 == 0 && bitsOf (b.nat 0x10 4) 3 29 == 0 && b.rate != 3, rHeader),
    (rng b.dieRows 1 2 && rng b.dieCols 1 4 && rng b.vrows 1 64 && rng b.vcols 1 48 && rng b.nPatterns 1 256
      && rng b.nConfigs 1 65535 && rng b.seqLen 1 65536 && rng b.nSections 1 32, rHeader),
    (b.nat 8 4 % 8 == 0 && decide (0x40 + 16 * b.nSections ≤ b.nat 8 4), rHeader),
    (b.rate == rate && b.nat 0x18 4 == frameCycles rate && decide (b.latestEnd ≤ latestEndOf rate), rHeader),
    (if b.filler then b.bubbleSig == 0 else b.hostSig == 0, rHeader),
    ([2, 3, 4, 9, 10, 11, 12, 14].all b.has && (!b.has 5 || b.has 6), rSection),
    (b.sections.all (fun s => decide (1 ≤ s.type) && decide (s.type ≤ 17) && decide (s.off + s.size ≤ b.nat 8 4)
      && s.off % 8 == 0) && decide ((b.sections.map (·.type)).Nodup), rSection),
    (b.sections.all b.sectionOk, rSection)]

/-! ### Placement (R198–R200) -/

/-- The logical core of virtual core vi on a partition with the given origin (R15, R198, R199). -/
def Img.logical (b : Img) (orgRow orgCol vi : Nat) : Nat :=
  let c := vi % b.vcols
  let r := vi / b.vcols % b.vrows
  let h := vi / (b.vcols * b.vrows) % 2
  let vd := vi / (b.vcols * b.vrows * 2)
  let d := (orgRow + vd / b.dieCols) * 4 + orgCol + vd % b.dieCols
  ((d * 2 + h) * 64 + r) * 48 + c

/-- The virtual core index of a logical core, none where the image places nothing there. -/
def Img.virtual (b : Img) (orgRow orgCol id : Nat) : Option Nat :=
  let c := id % 48
  let r := id / 48 % 64
  let h := id / (48 * 64) % 2
  let d := id / (48 * 64 * 2)
  let vdr := d / 4 - orgRow
  let vdc := d % 4 - orgCol
  if orgRow ≤ d / 4 && orgCol ≤ d % 4 && vdr < b.dieRows && vdc < b.dieCols && r < b.vrows && c < b.vcols then
    some ((((vdr * b.dieCols + vdc) * 2 + h) * b.vrows + r) * b.vcols + c)
  else none

/-! ### Configurations (R201) -/

/-- The descriptor index of configuration k of virtual core vi; 0xFFFF for none. -/
def Img.configIndex (b : Img) (vi k : Nat) : Nat := b.nat ((b.sec 3).off + 16 * vi + 2 * k) 2

/-- Does virtual core vi hold configuration k? -/
def Img.holds (b : Img) (vi k : Nat) : Bool := b.configIndex vi k != 0xFFFF

/-- Offset of descriptor i. -/
def Img.desc (b : Img) (i : Nat) : Nat := (b.sec 2).off + 64 * i

/-- The 32 B record of configuration k of virtual core vi (R101, R201). -/
def Img.record (b : Img) (vi k : Nat) : Nat := b.nat (b.desc (b.configIndex vi k)) 32
/-- CODE_OFF. -/
def Img.codeOff (b : Img) (i : Nat) : Nat := b.nat (b.desc i + 0x20) 4
/-- CODE_LEN. -/
def Img.codeLen (b : Img) (i : Nat) : Nat := b.nat (b.desc i + 0x24) 2
/-- EDGE. -/
def Img.edge (b : Img) (i : Nat) : Nat := b.nat (b.desc i + 0x26) 1
/-- L_DECL of queue q. -/
def Img.lDecl (b : Img) (i q : Nat) : Nat := bitsOf (b.nat (b.desc i + 0x28) 4) (5 * q) 5

/-- Has the side of queue q a neighbour under an edge mode, on half h, row r, column c of an image of the given width
(R89, R103)? -/
def hasNeighbour (edge vcols h r c q : Nat) : Bool :=
  match q with
  | 0 => r != 0
  | 2 => r != 63
  | 1 => !(edge == 1 && h == 1 && c == vcols - 1)
  | _ => !(edge == 1 && h == 0 && c == 0)

/-- QBIND of queue q of a record. -/
def recQbind (rec q : Nat) : Nat := bitsOf rec (225 + 2 * q) 2

/-- Descriptor i keeps the rules of R201 and its record those of R101 and R103 that need no place. -/
def Img.descOk (b : Img) (i : Nat) : Bool :=
  let rec_ := b.nat (b.desc i) 32
  let d := b.desc i
  bitsOf rec_ 233 23 == 0 && bitsOf rec_ 216 8 == 0 && !bitOf rec_ 224
    && (List.range 4).all (fun q => recQbind rec_ q != 3)
    && decide (1 ≤ b.codeLen i) && decide (b.codeLen i ≤ 256) && decide (b.codeOff i + b.codeLen i ≤ (b.sec 4).count)
    && decide (b.edge i < 3) && b.nat (d + 0x27) 1 == 0 && b.nat (d + 0x2C) 20 == 0 && bitsOf (b.nat (d + 0x28) 4) 20 12 == 0
    && (List.range 4).all fun q =>
      if recQbind rec_ q == 1 then decide (2 ≤ b.lDecl i q) else b.lDecl i q == 0

/-- Virtual core vi's half, row and column. -/
def Img.place (b : Img) (vi : Nat) : Nat × Nat × Nat :=
  (vi / (b.vcols * b.vrows) % 2, vi / b.vcols % b.vrows, vi % b.vcols)

/-- Virtual core vi names legal descriptors, and none binds a side without a neighbour (R103, R201). -/
def Img.vcoreOk (b : Img) (vi : Nat) : Bool :=
  (List.range 8).all fun k =>
    !b.holds vi k || (decide (b.configIndex vi k < b.nConfigs) &&
      (List.range 4).all fun q =>
        let p := b.place vi
        recQbind (b.record vi k) q != 1 || hasNeighbour (b.edge (b.configIndex vi k)) b.vcols p.1 p.2.1 p.2.2 q)

/-- All virtual cores of one die row that hold k agree on EDGE (R201). -/
def Img.edgesAgree (b : Img) : Bool :=
  let die (vi : Nat) : Nat := vi / (b.vcols * b.vrows * 2)
  (List.range b.cores).all fun v => (List.range b.cores).all fun u => (List.range 8).all fun k =>
    !(die v == die u && (b.place v).2.1 == (b.place u).2.1 && b.holds v k && b.holds u k)
      || b.edge (b.configIndex v k) == b.edge (b.configIndex u k)

/-- Entry i of the CARRY section keeps the rules of R434. -/
def Img.carryOk (b : Img) (i : Nat) : Bool :=
  let o := (b.sec 14).off + 16 + 24 * i
  let flags := b.nat (o + 4) 1
  let pad := bitsOf flags 0 2
  let size := match pad with
    | 0 => 3072 | 1 => 2048 | _ => 256
  let source := bitOf flags 2
  decide (b.nat o 4 < b.cores) && pad != 3 && bitsOf flags 3 5 == 0 && b.nat (o + 5) 1 == 0 && b.nat (o + 10) 2 == 0
    && decide (1 ≤ b.nat (o + 8) 2) && decide (b.nat (o + 8) 2 ≤ 3072) && decide (b.nat (o + 6) 2 + b.nat (o + 8) 2 ≤ size)
    && (if source then pad != 2 && decide (b.nat (o + 12) 4 < (b.sec 6).count)
        && b.nat ((b.sec 6).off + 8 * b.nat (o + 12) 4) 1 == 2 else b.nat (o + 12) 4 == 0 && b.nat (o + 16) 8 == 0)

/-- Step 3, first part: descriptors, records, virtual cores, CARRY (R103, R201, R434). The reserved bytes of the CARRY section's header are
not checked (DESIGN CHOICE, notes/assumptions/80). -/
def Img.checkRecords (b : Img) : Option Nat :=
  firstFail [((List.range b.nConfigs).all b.descOk && (List.range b.cores).all b.vcoreOk && b.edgesAgree
    && (List.range (b.sec 14).count).all b.carryOk, rRecord)]

/-! ### Relocation and words (R142, R143, R202, R203) -/

/-- Word p of configuration k of virtual core vi, before relocation. -/
def Img.rawWord (b : Img) (vi k p : Nat) : Nat := b.nat ((b.sec 4).off + 4 * (b.codeOff (b.configIndex vi k) + p)) 4

/-- Offset of relocation entry i. -/
def Img.reloc (b : Img) (i : Nat) : Nat := (b.sec 5).off + 24 * i

/-- Relocation entry i is well formed (R202). -/
def Img.relocOk (b : Img) (i : Nat) : Bool :=
  let o := b.reloc i
  let vi := b.nat o 4
  let k := b.nat (o + 6) 1
  let p := b.nat (o + 4) 2
  decide (k < 8) && decide (b.nat (o + 7) 1 < 4) && b.nat (o + 12) 4 == 0 && decide (vi < b.cores) && b.holds vi k
    && decide (p < b.codeLen (b.configIndex vi k)) && decide (b.nat (o + 8) 4 < (b.sec 6).count)
    && (b.rawWord vi k p / 2 ^ 26 == 6 || b.rawWord vi k p / 2 ^ 26 == 4)

/-- The symbol of relocation entry i: KIND, reserved bytes, ARG (R203). -/
def Img.symbol (b : Img) (n : Nat) : Nat × Nat × Nat :=
  let o := (b.sec 6).off + 8 * n
  (b.nat o 1, b.nat (o + 1) 3, b.nat (o + 4) 4)

/-- Word p of configuration k of virtual core vi after the relocations that `resolve` gives the symbols (R142). -/
def Img.word (b : Img) (resolve : Nat → Nat → Option Nat) (vi k p : Nat) : Nat :=
  (List.range (b.sec 5).count).foldl (fun w i =>
    let o := b.reloc i
    if b.nat o 4 == vi && b.nat (o + 6) 1 == k && b.nat (o + 4) 2 == p then
      let v := ((resolve vi (b.nat (o + 8) 4)).getD 0 + b.nat (o + 0x10) 8) % 2 ^ 64
      putBits w 0 16 (bitsOf v (16 * b.nat (o + 7) 1) 16)
    else w) (b.rawWord vi k p)

/-- One word of a program keeps the rules of R143 under its record and program length. -/
def wordOk (rec len w : Nat) : Bool :=
  let cnt (c : BitVec 3) : Bool := bitOf rec (208 + c.toNat)
  let bound (q : BitVec 2) : Bool := recQbind rec q.toNat != 0
  match decodeCore 0 0 (BitVec.ofNat 32 w) with
  | none => false
  | some i =>
    match i with
    | .b _ _ _ _ target => decide (target.toNat < len)
    | .loop _ _ _ target => decide (target.toNat < len)
    | .dma _ _ _ _ _ c => cnt c
    | .walk _ _ _ c _ => cnt c
    | .waitc _ _ c _ _ => cnt c
    | .cntadd _ _ c _ _ => cnt c
    | .cntrd _ _ c _ => cnt c
    | .tdrain _ _ _ _ dest ad _ _ _ cinc c _ => (!cinc || cnt c) && (!dest || bound (ad.extractLsb' 0 2))
    | .qpush _ _ q _ _ _ => bound q
    | .qpop _ _ q _ _ _ => bound q
    | .swap _ _ sw sa => (!sw || bitOf rec 206) && (!sa || bitOf rec 207)
    | _ => true

/-- Step 4: every word of every program (R143). -/
def Img.checkWords (b : Img) (resolve : Nat → Nat → Option Nat) : Option Nat :=
  firstFail [((List.range b.cores).all fun vi => (List.range 8).all fun k =>
    !b.holds vi k || (List.range (b.codeLen (b.configIndex vi k))).all fun p =>
      wordOk (b.record vi k) (b.codeLen (b.configIndex vi k)) (b.word resolve vi k p), rEncoding)]

/-! ### Fold schedule, span events, report (R209–R215, R223, R435) -/

/-- Offset from the image's start of the slot list of virtual core vi in pattern p (R210). -/
def Img.slotListAt (b : Img) (p vi : Nat) : Nat := b.nat ((b.sec 10).off + 4 * (p * b.cores + vi)) 4

/-- The slots of a list: OPEN, END, CONFIG, KIND and the reserved bits (R209). -/
def Img.slots (b : Img) (off : Nat) : List (Nat × Nat × Nat × Nat × Nat) :=
  (List.range (b.nat off 4)).map fun i =>
    let w := b.nat (off + 4 + 8 * i) 8
    (bitsOf w 0 20, bitsOf w 20 20, bitsOf w 40 3, bitsOf w 43 2, bitsOf w 45 19)

/-- LAST_END of pattern p (R214). -/
def Img.lastEnd (b : Img) (p : Nat) : Nat := b.nat ((b.sec 12).off + 16 + 16 * p) 4

/-- The slots ascend, each OPEN later than the END before it, and keep the rules of R210. Nonzero reserved bits and KIND 2 or 3 are refused
with FOLD (DESIGN CHOICE, notes/assumptions/80). -/
def slotsOk (b : Img) (vi p rate : Nat) : Nat → List (Nat × Nat × Nat × Nat × Nat) → Bool
  | _, [] => true
  | prev, (op, en, cfg, kind, res) :: t =>
    decide (16 ≤ op) && decide (op ≤ en) && decide (prev < op) && decide (kind < 2) && res == 0
      && (if kind == 0 then b.holds vi cfg && decide (en ≤ b.lastEnd p)
          else decide (en ≤ latestEndOf rate) && (b.filler || cfg == 0))
      && slotsOk b vi p rate en t

/-- The bubble slots of a host image as the signature's items (R213). -/
def Img.bubbleItems (b : Img) : List Byte :=
  (List.range b.nPatterns).flatMap fun p => (List.range b.cores).flatMap fun vi =>
    (b.slots (b.slotListAt p vi)).flatMap fun s =>
      if s.2.2.2.1 == 1 then leBytes 4 p ++ leBytes 4 vi ++ leBytes 4 s.1 ++ leBytes 4 s.2.1 else []

/-- The slot lists of a pattern and virtual core keep R209 and R210. -/
def Img.listOk (b : Img) (p vi : Nat) : Bool :=
  let off := b.slotListAt p vi
  let s := b.sec 9
  decide (s.off ≤ off) && (match b.slotLists with
    | some l => l.contains (off - s.off)
    | none => false) && decide (b.nat off 4 ≤ 64) && slotsOk b vi p b.rate 0 (b.slots off)

/-- The mirror size of virtual core vi (R435). -/
def Img.mirrorSize (b : Img) (vi : Nat) : Nat :=
  let n := (List.range (b.sec 14).count).foldl (fun a i =>
    let o := (b.sec 14).off + 16 + 24 * i
    if b.nat o 4 == vi && !bitOf (b.nat (o + 4) 1) 2 then
      a + b.nat (o + 8) 2 * (if bitsOf (b.nat (o + 4) 1) 0 2 == 2 then 128 else 32) else a) 6144
  (n + 255) / 256 * 256

/-- The largest mirror size of any core. -/
def Img.mirrorMax (b : Img) : Nat := (List.range b.cores).foldl (fun a v => max a (b.mirrorSize v)) 0

/-- The virtual cores of the chain at offset o of the CHAIN section (R214). -/
def Img.chain (b : Img) (o : Nat) : List Nat :=
  let a := (b.sec 13).off + o
  (List.range (b.nat a 4)).map fun i => b.nat (a + 4 + 4 * i) 4

/-- Step 6: fold schedule, span events, report (R210–R215, R223, R431, R435). Nonzero bits [31:8] of a SEQ entry and reserved bytes of an
event are refused with FOLD, those of REPORT with REPORT (DESIGN CHOICE, notes/assumptions/80). -/
def Img.checkFold (b : Img) : Option Nat :=
  let r := (b.sec 12).off
  let pats := List.range b.nPatterns
  let hasBubble := pats.any fun p => (List.range b.cores).any fun vi =>
    (b.slots (b.slotListAt p vi)).any fun s => s.2.2.2.1 == 1
  firstFail [
    (pats.all fun p => (List.range b.cores).all fun vi => b.listOk p vi, rFold),
    ((List.range b.seqLen).all (fun i =>
      let e := b.nat ((b.sec 11).off + 4 * i) 4
      decide (e < 256) && decide (e < b.nPatterns)), rFold),
    (b.filler || (if hasBubble then b.bubbleSig != 0 && b.bubbleSig == crc32c b.bubbleItems else b.bubbleSig == 0), rFold),
    ((List.range (b.sec 16).count).all (fun i =>
      let o := (b.sec 16).off + 8 * i
      decide (b.nat o 4 < b.seqLen) && decide (b.nat (o + 4) 1 < 16) && b.nat (o + 5) 3 == 0), rFold),
    (b.nat r 4 == b.nat 0x18 4 && b.nat (r + 4) 1 == b.rate && b.nat (r + 5) 3 == 0 && b.nat (r + 8) 2 == b.nPatterns
      && b.nat (r + 10) 6 == 0 && b.latestEnd == pats.foldl (fun a p => max a (b.lastEnd p)) 0
      && pats.all fun p => b.nat (r + 24 + 16 * p) 8 == 0, rReport),
    ((match b.chains with
      | some l => !b.has 13 || l.all fun o =>
          decide (2 ≤ (b.chain o).length) && decide ((b.chain o).length ≤ 49152)
            && (b.chain o).all (fun v => decide (v < b.cores)) && decide ((b.chain o).Nodup)
      | none => !b.has 13), rReport),
    (pats.all (fun p => b.nat (r + 20 + 16 * p) 4 == b.mirrorMax) && decide (b.mirrorMax ≤ 119808)
      && decide (b.nat (b.sec 14).off 4 ≤ 1024), rReport)]

/-! ### Mesh paths (R207, R208) -/

/-- A mesh path record. -/
structure MeshPath where
  src : Nat
  dst : Nat
  config : Nat
  srcQ : Nat
  dstQ : Nat
  nsFirst : Bool
  lDecl : Nat
deriving DecidableEq, Repr

/-- The mesh path records of an image (R207). -/
def Img.paths (b : Img) : List MeshPath :=
  (List.range (b.sec 8).count).map fun i =>
    let o := (b.sec 8).off + 16 * i
    let x := b.nat (o + 8) 1
    ⟨b.nat o 4, b.nat (o + 4) 4, bitsOf x 0 3, bitsOf x 3 2, bitsOf x 5 2, bitOf x 7, b.nat (o + 9) 1⟩

end Sys2Proof.Machine
end

