-- ==== Sys2Proof/Machine/Almanac.lean ====
section
/-! DEFINITION. The Almanac: counts and rates, idle time, the sync tree, lock and holdover, stretching (R39, R42–R45,
R58–R66). -/

namespace Sys2Proof.Machine

/-! ### Rates and time (R42–R45) -/

/-- The rate in use (R58, R66). -/
def State.rate (s : State) : Nat := s.field (almReg 0x0C) 0 2

/-- C, the frame length in time-base cycles (R42). -/
def State.cycles (s : State) : Nat := frameCycles s.rate

/-- The cycle that a partition's frame has reached: time-base cycles since the tick that opened it, without those that droops have
stretched in the present one (R39, R44, R212; notes/assumptions/71). -/
def State.frameCycle (s : State) (fr : Frame) : Nat := (s.tick - fr.opened) * s.cycles + s.subtick - s.alm.stretch

/-- One time-base cycle passes; the sub-tick count waits at the frame's last cycle for the tick (R44). -/
def State.idle (s : State) : State :=
  { s with subtick := min (s.subtick + 1) (s.cycles - 1) }

/-- Does any partition hold a finalised image, or is a finalisation in progress (R45)? -/
def State.anyImage (s : State) : Bool :=
  (List.range 8).any fun p => (s.part p).image.isSome || (s.part p).finalised.isSome || !(s.part p).fillers.isEmpty
    || !(s.part p).fillerNext.isEmpty

/-- Take up the rate of ALM_RATE_NEXT at the armed count (R45). -/
def State.takeRate (s : State) : State :=
  match s.alm.armed with
  | none => s
  | some at_ =>
    if decide (at_ ≤ s.tick) then
      { s.setField (almReg 0x0C) 0 2 (s.field (almReg 0x54) 0 2) with alm := { s.alm with armed := none } }
    else s

/-- RATE_CHANGE (R45): the armed change is taken up once its count is reached. -/
def execRateChange (s : State) : Host.Outcome State Fault Refusal := .next s.takeRate

/-- A write of ALM_RATE_AT_HI by a requester: it commits the staged low word and arms the change, unless an image is held or the
count is not later than the present one; then the stage stays (R45, R529, R534). A change armed before gives way to this one
(DESIGN CHOICE, notes/assumptions/67). -/
def State.armRate (s : State) (who value : Nat) : State :=
  let at_ := s.staged who (almReg 0x58) + value % 2 ^ 32 * 2 ^ 32
  if s.anyImage || decide (at_ ≤ s.tick) then s.setBit (almReg 0x50) 2
  else
    { s.commitWide who (almReg 0x58) value with alm := { s.alm with armed := some at_ } }

/-- RATE_ARM (R45). -/
def execRateArm (who value : Nat) (s : State) : Host.Outcome State Fault Refusal :=
  if who != 0 then .fault .noSuchUnit else .next (s.armRate who value)

/-! ### Sync symbols (R58, R59) -/

/-- The module's own address (R16, R333). -/
def State.address (s : State) : Nat := s.field (linkReg 0) 0 16

/-- STATE of port p: 2 is UP (R333). -/
def State.portState (s : State) (p : Nat) : Nat := s.field (linkReg (0x40 + 16 * p)) 0 3

/-- What is known of port p's sync symbols. -/
def State.sync (s : State) (p : Nat) : SyncPort := kget {} s.alm.sync p

/-- Change it. -/
def State.modSync (s : State) (p : Nat) (f : SyncPort → SyncPort) : State :=
  { s with alm := { s.alm with sync := kset {} s.alm.sync p (f (s.sync p)) } }

/-- ALM_STATUS.LOCKED. -/
def State.locked (s : State) : Bool := s.bit (almReg 0x14) 0
/-- ALM_STATUS.IS_ROOT. -/
def State.isRoot (s : State) : Bool := s.bit (almReg 0x14) 1
/-- ALM_STATUS.HOLDOVER. -/
def State.inHoldover (s : State) : Bool := s.bit (almReg 0x14) 2
/-- ALM_STATUS.PARENT_VALID. -/
def State.hasParent (s : State) : Bool := s.bit (almReg 0x14) 3
/-- ALM_STATUS.PARENT_PORT. -/
def State.parentPort (s : State) : Nat := s.field (almReg 0x14) 4 3

/-- The 128-bit symbol that port p sends (R58). -/
def State.symbol (s : State) (p frac : Nat) : BitVec 128 :=
  let x := s.sync p
  let st := s.reg (almReg 0x14)
  BitVec.ofNat 128 (s.tick % 2 ^ 16 + s.subtick % 2 ^ 20 * 2 ^ 16 + frac % 16 * 2 ^ 36 + bitsOf st 16 16 * 2 ^ 40
    + bitsOf st 8 8 * 2 ^ 56 + s.rate * 2 ^ 64 + natOf s.locked * 2 ^ 66 + natOf s.inHoldover * 2 ^ 67
    + (x.sentSeq + 1) % 256 * 2 ^ 68 + x.seq % 256 * 2 ^ 76 + x.tick % 2 ^ 16 * 2 ^ 84 + x.sub % 2 ^ 20 * 2 ^ 100
    + x.frac % 16 * 2 ^ 120)

/-- A port of the module exists (R304). -/
def isPort (p : Nat) : Bool := decide (p < 8)

/-- The better of two offers (root, depth, port): lower root, then lower depth, then the earlier port (R60). -/
def betterOffer (a b : Option (Nat × Nat × Nat)) : Option (Nat × Nat × Nat) :=
  match a, b with
  | none, _ => b
  | _, none => a
  | some x, some y => if y.1 < x.1 || (y.1 == x.1 && y.2.1 < x.2.1) then b else a

/-- The best root that the neighbours advertise, with its depth and port (R60). -/
def State.bestOffer (s : State) : Option (Nat × Nat × Nat) :=
  (List.range 8).foldl (fun a p =>
    let x := s.sync p
    if s.portState p == 2 && x.seen && x.depth != 255 then betterOffer a (some (x.root, x.depth, p)) else a) none

/-- Does a neighbour advertise a candidate root with a lower address than the module's own (R64)? -/
def State.lowerOffer (s : State) : Bool := s.bestOffer.any fun o => decide (o.1 < s.address)

/-- A sync interval ends as the port's next symbol leaves (R58, R64). On the parent's port an interval without a usable pair
breaks the count toward lock and is one more in a row; a root counts its intervals on its first port in service, while no
neighbour advertises a lower candidate. -/
def State.endInterval (s : State) (p : Nat) : State :=
  let a := s.alm
  if s.hasParent && s.parentPort == p then
    if a.paired then { s with alm := { a with paired := false, missed := 0 } }
    else { s with alm := { a with good := 0, missed := a.missed + 1 } }
  else if s.isRoot && ((List.range 8).find? fun q => s.portState q == 2) == some p then
    { s with alm := { a with good := if s.lowerOffer then 0 else a.good + 1 } }
  else s

/-- SYNC_SYMBOL_SEND (R58, R309): on a port in service, in a CONTROL block. -/
def execSyncSymbolSend (p frac : Nat) (s : State) : Host.Outcome State Fault Refusal :=
  if !isPort p then .fault .noSuchUnit
  else if s.portState p != 2 || s.mgmt.dark then .next s
  else
    let y := s.symbol p frac
    .next (((s.endInterval p).modSync p fun x => { x with
      sentSeq := (x.sentSeq + 1) % 256, sentTick := s.tick, sentSub := s.subtick, sentFrac := frac % 16, symbol := y }).sendControl p
        (leBytes 16 y.toNat))

/-- The full count nearest to the own one whose low 16 bits are given (R58). -/
def nearestTick (own lo : Nat) : Int :=
  let d : Int := (BitVec.ofNat 16 (lo + 2 ^ 16 - own % 2 ^ 16)).toInt
  own + d

/-- A time in sixteenths of a cycle (R59). -/
def sixteenths (c : Nat) (tick : Int) (sub frac : Nat) : Int := (tick * c + sub) * 16 + frac

/-- The module's time moved by an offset, in one step (R61). -/
def State.stepTime (s : State) (offset : Int) : State :=
  let t := ((s.tick : Int) * s.cycles + s.subtick) + offset / 16
  let t := (max 0 t).toNat
  { s with tick := t / s.cycles, subtick := t % s.cycles }

/-- A locked module slews its time base toward its parent: at most one sixteenth of a cycle in a sync interval of 4,096
cycles, so one cycle in 65,536 (R61). -/
def State.slewTime (s : State) (offset : Int) : State :=
  let x := s.alm.slew + offset.sign
  if x = 16 then { s with subtick := min (s.subtick + 1) (s.cycles - 1), alm := { s.alm with slew := 0 } }
  else if x = -16 then { s with subtick := s.subtick - 1, alm := { s.alm with slew := 0 } }
  else { s with alm := { s.alm with slew := x } }

/-- A usable pair with the parent: the offset is stored; the first of an interval counts toward lock where it lies within ±2 ns
(48 sixteenths), and one beyond breaks the count. A locked module only slews; one that is not takes its parent's time in one
step, at its acquisition and whenever it is beyond the tolerance (R59, R61, R64). -/
def State.usePair (s : State) (offset : Int) : State :=
  let near := decide (offset.natAbs ≤ 48)
  let s1 := { s.setReg (almReg 0x18) (offset % 2 ^ 32).toNat with alm := { s.alm with
    good := if near then s.alm.good + natOf (!s.alm.paired) else 0
    paired := true
    stepped := true } }
  if s.locked then s1.slewTime offset
  else if near && s.alm.stepped then s1
  else s1.stepTime offset

/-- A good symbol of the module's own rate, received on a port in service (R58, R59). -/
def State.receiveSymbol (s : State) (p : Nat) (sym : BitVec 128) (frac : Nat) : State :=
  let n := sym.toNat
  let x := s.sync p
  let c := s.cycles
  let s1 := s.modSync p fun x => { x with
    seen := true, root := bitsOf n 40 16, depth := bitsOf n 56 8, seq := bitsOf n 68 8, tick := s.tick
    sub := s.subtick, frac := frac % 16 }
  if x.sentSeq == 255 && x.sentTick == 0 && x.sentSub == 0 || bitsOf n 76 8 != x.sentSeq then s1
  else
    let ta := sixteenths c x.sentTick x.sentSub x.sentFrac
    let tb := sixteenths c (nearestTick s.tick (bitsOf n 84 16)) (bitsOf n 100 20) (bitsOf n 120 4)
    let tc := sixteenths c (nearestTick s.tick (bitsOf n 0 16)) (bitsOf n 16 20) (bitsOf n 36 4)
    let td := sixteenths c s.tick s.subtick (frac % 16)
    let offset := Int.tdiv ((tb - ta) + (tc - td)) 2
    let delay := Int.tdiv ((td - ta) - (tc - tb)) 2
    let s2 := s1.setReg (almReg (0x20 + 4 * p)) (delay % 2 ^ 24).toNat
    if s.hasParent && s.parentPort == p then s2.usePair offset else s2

/-- SYNC_SYMBOL_RECEIVE (R58, R59): a symbol of another rate is not used. -/
def execSyncSymbolReceive (p : Nat) (sym : BitVec 128) (frac : Nat) (s : State) : Host.Outcome State Fault Refusal :=
  if !isPort p then .fault .noSuchUnit
  else if s.portState p != 2 || s.mgmt.dark then .next s
  else if bitsOf sym.toNat 64 2 != s.rate then .next (s.setBit (almReg 0x50) 1)
  else .next (s.receiveSymbol p sym frac)

/-! ### The sync tree (R60) -/

/-- ALM_STATUS bits above LOCKED and HOLDOVER for a choice: root itself, a parent, or none. -/
def State.setTree (s : State) (root valid : Bool) (port depth addr : Nat) : State :=
  let st := s.reg (almReg 0x14)
  s.setReg (almReg 0x14) (bitsOf st 0 1 + 2 * natOf root + 4 * natOf (bitOf st 2 && !root && !valid) + 8 * natOf valid + 16 * (port % 8)
    + 256 * (min depth 255) + 65536 * (addr % 65536))

/-- At a tick the module takes the root and the parent that R60 gives; a change of parent is flagged and traced (R60, R64,
R480). A locked root that takes a parent keeps LOCKED (DESIGN CHOICE, notes/assumptions/69: the rule says only that it stays
locked while it is root). -/
def State.chooseParent (s : State) : State :=
  let afresh (s : State) : State := { s with alm := { s.alm with good := 0, paired := false, missed := 0, stepped := false } }
  let s0 := if s.alm.parentDue && s.hasParent then s.modSync s.parentPort ({ · with seen := false }) else s
  let s0 := { s0 with alm := { s0.alm with parentDue := false } }
  let self := s0.bit (almReg 0x10) 0
  let offer := s0.bestOffer
  let take := match offer with
    | some o => !self || decide (o.1 < s0.address)
    | none => false
  match take, offer with
  | true, some o =>
    let changed := s.hasParent && s.parentPort != o.2.2
    let s1 := s0.setTree false true o.2.2 (o.2.1 + 1) o.1
    let s2 := if s.hasParent && !changed then s1 else afresh s1
    if changed then (s2.setBit (almReg 0x50) 3).trace 6 0 2 o.2.2 else s2
  | _, _ =>
    if !self then s0.setTree false false 0 255 0
    else if s.isRoot then s0.setTree true false 0 0 s0.address
    else afresh (s0.setTree true false 0 0 s0.address)

/-- A frame passes: a root with no port in service has its sync intervals too, 4,096 cycles each (R64). -/
def State.rootFrame (s : State) : State :=
  if s.isRoot && (List.range 8).all fun q => s.portState q != 2 then
    { s with alm := { s.alm with good := s.alm.good + s.cycles / 4096 } }
  else s

/-! ### Lock and holdover (R61, R64) -/

/-- LOCK_ACQUIRED (R64): after 16 consecutive intervals in tolerance; the root's are those in which it was root and no lower
candidate was advertised. -/
def execLockAcquired (s : State) : Host.Outcome State Fault Refusal :=
  if (s.isRoot && !s.lowerOffer || s.hasParent) && decide (16 ≤ s.alm.good) then
    .next { s.setBit (almReg 0x14) 0 with alm := { s.alm with everLocked := true } }
  else .next s

/-- PARENT_CHANGE (R64): no usable pair for 16 intervals; a new parent is chosen at the next tick. -/
def execParentChange (s : State) : Host.Outcome State Fault Refusal :=
  if s.hasParent && decide (16 ≤ s.alm.missed) then .next { s with alm := { s.alm with parentDue := true } } else .next s

/-- HOLDOVER (R64): a locked module that is not root and to which no neighbour offers a root. -/
def execHoldover (s : State) : Host.Outcome State Fault Refusal :=
  if s.locked && !s.isRoot && !s.inHoldover && s.bestOffer.isNone then
    let port := s.parentPort
    .next ((((s.setTree false false 0 255 0).setBit (almReg 0x14) 2).count (almReg 0x4C) 1).trace 6 0 3 port)
  else .next s

/-- LOST_LOCK (R64): 1 ms in holdover. The holdover ends with the lock (DESIGN CHOICE, notes/assumptions/68: the rule clears
LOCKED and says nothing of HOLDOVER). -/
def execLostLock (s : State) : Host.Outcome State Fault Refusal :=
  if s.inHoldover then
    let s1 := ((s.clearBit (almReg 0x14) 0).clearBit (almReg 0x14) 2).setBit (almReg 0x50) 0
    .next ({ s1 with alm := { s1.alm with good := 0 } }.trace 6 0 1 s.parentPort)
  else .next s

/-- ALM_CTRL.ACQUIRE: an unlocked module with a parent counts its intervals anew and takes its parent's time at its next usable
pair; the bit clears itself (R61). -/
def State.acquire (s : State) : State :=
  if !s.locked && !s.isRoot && s.hasParent then { s with alm := { s.alm with good := 0, stepped := false } } else s

/-- ACQUIRE (R61). -/
def execAcquire (s : State) : Host.Outcome State Fault Refusal := .next s.acquire

/-! ### Stretching (R39) -/

/-- SUPPLY_DROOP (R39, R498): n time-base cycles are lost to stretching; beyond the limit the frame slips at the next tick. -/
def execSupplyDroop (n : Nat) (s : State) : Host.Outcome State Fault Refusal :=
  if s.mgmt.dark then .next s
  else .next <| { s with subtick := min (s.subtick + n) (s.cycles - 1), alm := { s.alm with stretch := s.alm.stretch + n } }.count (mgmtReg 0x214) n

/-- Has the frame passed the stretch limit, 2 % of C (R39)? -/
def State.overStretched (s : State) : Bool := decide (s.cycles / 50 < s.alm.stretch)

end Sys2Proof.Machine
end

