-- ==== Sys2Proof/Machine/Flags.lean ====
section
/-! DEFINITION. TSTAT and CSTAT, and the Umber marks inside the core: how flags are set, what a read of marked data
does, what a write leaves marked (R72–R74, R149, R150). -/

namespace Sys2Proof.Machine

/-- The arithmetic flags as TSTAT bits 0–5 (R72). -/
def Flags.bits (f : Flags) : Nat :=
  natOf f.invalid + 2 * natOf f.overflow + 4 * natOf f.underflow + 8 * natOf f.inexact + 16 * natOf f.flush +
    32 * natOf f.saturate

/-- TSTAT bit UMBER. -/
def umberBit : Nat := 64
/-- TSTAT bit NONFINITE. -/
def nonfiniteBit : Nat := 128

/-- Does the thread flush subnormals (R72, R151)? -/
def Thread.ftz (th : Thread) : Bool := th.tstat.getLsbD 8

/-- Is the thread's UMBER set (R74)? -/
def Thread.umber (th : Thread) : Bool := th.tstat.getLsbD 6

/-- Set sticky TSTAT bits of thread t; SATURATE, UMBER and NONFINITE enter CSTAT too (R72, R73). -/
def Core.raise (c : Core) (t bits : Nat) : Core :=
  { c.modThread t (fun th => { th with tstat := th.tstat ||| BitVec.ofNat 32 (bits % 256) }) with
    cstat := c.cstat ||| (BitVec.ofNat 8 bits &&& 0xE0#8) }

/-- Set sticky TSTAT bits of thread t. -/
def CoreView.raise (cv : CoreView) (t bits : Nat) : CoreView := { cv with core := cv.core.raise t bits }

/-- The mark of the granule or accumulator block at a module address (R74). -/
def CoreView.marked (cv : CoreView) (key : Nat) : Bool := kget false cv.marks (key / 32 * 32)

/-- A thread instruction's read of a granule: a marked one sets the thread's UMBER (R74). -/
def CoreView.noteRead (cv : CoreView) (t key : Nat) : CoreView :=
  if cv.marked key then cv.raise t umberBit else cv

/-- A thread's write of bytes within one granule: the granule is marked while the thread's UMBER is set, an unmarked
write of the whole granule clears the mark, of a part keeps it (R74). -/
def CoreView.writePart (cv : CoreView) (t key : Nat) (bs : List Byte) : CoreView :=
  let base := key / 32 * 32
  let mark := (cv.core.thread t).umber
  let whole := key == base && bs.length == 32
  { cv with
    mem := cv.mem.writeBytes key bs
    marks := if mark then kset false cv.marks base true
      else if whole then kset false cv.marks base false else cv.marks }

/-- A thread's write of a whole granule. -/
def CoreView.write256 (cv : CoreView) (t key : Nat) (x : BitVec 256) : CoreView :=
  cv.writePart t key (leBytes 32 x.toNat)

/-- A thread's write of single bytes at module addresses (an SS8 block, R126): each touched granule keeps its mark,
or is marked while the thread's UMBER is set (R74). -/
def CoreView.writeScattered (cv : CoreView) (t : Nat) : List (Nat × Byte) → CoreView
  | [] => cv
  | c :: cs => CoreView.writeScattered (cv.writePart t c.1 [c.2]) t cs

/-- NONFINITE where any of the elements written is an infinity or a NaN of its format (R72). -/
def nonfiniteBits (f : Fmt) (xs : List Nat) : Nat := if xs.any (isNonfinite f) then nonfiniteBit else 0

end Sys2Proof.Machine
end

