-- ==== Sys2Proof/Machine/CoreScalar.lean ====
section
/-! DEFINITION. The scalar core instructions as functions of a core view: ALU, immediates, branches, pad loads and
stores, AREG, MOVV, FSTAT, YIELD (R115–R120, R138, R139). -/

namespace Sys2Proof.Machine

/-- A finished instruction. -/
def CoreView.done (cv : CoreView) : Issue := ⟨cv, .seq⟩
/-- A core fault, what was done before it kept (R106). -/
def CoreView.failed (cv : CoreView) (c : Cause) : Issue := ⟨cv, .fault c⟩

/-- Change thread t. -/
def CoreView.modT (cv : CoreView) (t : Nat) (f : Thread → Thread) : CoreView := { cv with core := cv.core.modThread t f }

/-- Thread t of the view. -/
def CoreView.th (cv : CoreView) (t : Nat) : Thread := cv.core.thread t

/-- Write a g register and finish. -/
def CoreView.putG (cv : CoreView) (t rd : Nat) (w : Word) : Issue := (cv.modT t (·.setG rd w)).done

/-! ### ALU (R115) -/

/-- The integer, logic, shift and multiply functions 0–14 of two words. -/
def aluInt (func : Nat) (a b : Word) : Word :=
  match func with
  | 0 => a + b
  | 1 => a - b
  | 2 => a &&& b
  | 3 => a ||| b
  | 4 => a ^^^ b
  | 5 => a <<< (b.toNat % 32)
  | 6 => a >>> (b.toNat % 32)
  | 7 => a.sshiftRight (b.toNat % 32)
  | 8 => a * b
  | 9 => (a.signExtend 64 * b.signExtend 64).extractLsb' 32 32
  | 10 => (a.setWidth 64 * b.setWidth 64).extractLsb' 32 32
  | 11 => if a.slt b then a else b
  | 12 => if a.slt b then b else a
  | 13 => if a.ult b then a else b
  | _ => if a.ult b then b else a

/-- The integer comparisons 16–18. -/
def aluCmp (func : Nat) (a b : Word) : Bool :=
  match func with
  | 16 => a == b
  | 17 => a.slt b
  | _ => a.ult b

/-- The scalar FP32 functions 19–23 (R115, R148, R154, R158): result bits and flags. -/
def aluFp (func : Nat) (ftz : Bool) (a b : Nat) : Nat × Flags :=
  let x := readOperand .fp32 ftz a
  let y := readOperand .fp32 ftz b
  let r := match func with
    | 19 => addVal .fp32 ftz x.1 y.1
    | 20 => addVal .fp32 ftz x.1 (negVal y.1)
    | 21 =>
      let p := mulVal x.1 y.1
      let q := roundVal .fp32 .rne ftz p.1
      (q.1, p.2.join q.2)
    | 22 => minMaxVal .fp32 false x.1 y.1 (flushedBits .fp32 ftz a) (flushedBits .fp32 ftz b)
    | _ => minMaxVal .fp32 true x.1 y.1 (flushedBits .fp32 ftz a) (flushedBits .fp32 ftz b)
  (r.1, (x.2.join y.2).join r.2)

/-- A comparison of two elements under the mode, kinds as in cmpVal. -/
def fpCompare (f : Fmt) (ftz : Bool) (kind a b : Nat) : Bool × Flags :=
  let x := readOperand f ftz a
  let y := readOperand f ftz b
  let r := cmpVal kind x.1 y.1
  (r.1, (x.2.join y.2).join r.2)

/-- Does the function write a predicate? -/
def aluToPred (func : Nat) : Bool := (16 ≤ func && func ≤ 18) || (24 ≤ func && func ≤ 29)

/-- ALU's meaning on thread t, its encoding legal (R115). -/
def doAlu (t rd rs1 rs2 func ext : Nat) (cv : CoreView) : Issue :=
  let th := cv.th t
  let a := th.getG rs1
  let b := th.getG rs2
  if func ≤ 14 then cv.putG t rd (aluInt func a b)
  else if func == 15 then cv.putG t rd (if th.getP (ext / 8) then a else b)
  else if func ≤ 18 then (cv.modT t (·.setP rd (aluCmp func a b))).done
  else if func ≤ 23 then
    let r := aluFp func th.ftz a.toNat b.toNat
    ((cv.modT t (·.setG rd (BitVec.ofNat 32 r.1))).raise t r.2.bits).done
  else if func ≤ 26 then
    let r := fpCompare .fp32 th.ftz (func - 24) a.toNat b.toNat
    ((cv.modT t (·.setP rd r.1)).raise t r.2.bits).done
  else
    let x := th.getP rs1
    let y := th.getP rs2
    let r := if func == 27 then x && y else if func == 28 then x || y else x != y
    (cv.modT t (·.setP rd r)).done

/-! ### Immediates (R116) -/

/-- ADDI. -/
def doAddi (t rd rs1 : Nat) (imm : BitVec 16) (cv : CoreView) : Issue :=
  cv.putG t rd ((cv.th t).getG rs1 + imm.signExtend 32)

/-- ANDI. -/
def doAndi (t rd rs1 : Nat) (imm : BitVec 16) (cv : CoreView) : Issue :=
  cv.putG t rd ((cv.th t).getG rs1 &&& imm.setWidth 32)

/-- ORI. -/
def doOri (t rd rs1 : Nat) (imm : BitVec 16) (cv : CoreView) : Issue :=
  cv.putG t rd ((cv.th t).getG rs1 ||| imm.setWidth 32)

/-- XORI. -/
def doXori (t rd rs1 : Nat) (imm : BitVec 16) (cv : CoreView) : Issue :=
  cv.putG t rd ((cv.th t).getG rs1 ^^^ imm.setWidth 32)

/-- LUI. -/
def doLui (t rd : Nat) (imm : BitVec 16) (cv : CoreView) : Issue :=
  cv.putG t rd (imm.setWidth 32 <<< 16)

/-- SHI: kinds 0 SLL, 1 SRL, 2 SRA. -/
def doShi (t rd rs1 kind sh : Nat) (cv : CoreView) : Issue :=
  cv.putG t rd (aluInt (5 + kind) ((cv.th t).getG rs1) (BitVec.ofNat 32 sh))

/-! ### Branches (R117) -/

/-- B: taken when p[P] differs from NEG. -/
def doB (t p : Nat) (neg : Bool) (target : BitVec 8) (cv : CoreView) : Issue :=
  if (cv.th t).getP p != neg then ⟨cv, .jump target⟩ else cv.done

/-- LOOP: decrement and branch while the result is nonzero. -/
def doLoop (t g : Nat) (target : BitVec 8) (cv : CoreView) : Issue :=
  let w := (cv.th t).getG g - 1
  let cv' := cv.modT t (·.setG g w)
  if w != 0 then ⟨cv', .jump target⟩ else cv'.done

/-! ### Pad loads and stores (R118) -/

/-- The naturally aligned byte address of LD and ST: 2^size bytes. -/
def lsAddress (base : Word) (off : BitVec 12) (size : Nat) : Nat :=
  let a := (base + off.signExtend 32).toNat
  a / 2 ^ size * 2 ^ size

/-- LD. -/
def doLd (t rd rs1 size : Nat) (pad sign : Bool) (off : BitVec 12) (cv : CoreView) : Issue :=
  match cv.byteKey (padOf pad) (lsAddress ((cv.th t).getG rs1) off size) with
  | none => cv.failed .bounds
  | some k =>
    let n := cv.mem.readNat k (2 ^ size)
    let w := if sign && bitOf n (8 * 2 ^ size - 1) then BitVec.ofInt 32 ((n : Int) - 2 ^ (8 * 2 ^ size)) else BitVec.ofNat 32 n
    (cv.noteRead t k).putG t rd w

/-- ST. -/
def doSt (t rs2 rs1 size : Nat) (pad : Bool) (off : BitVec 12) (cv : CoreView) : Issue :=
  match cv.byteKey (padOf pad) (lsAddress ((cv.th t).getG rs1) off size) with
  | none => cv.failed .bounds
  | some k =>
    if cv.mayWrite k then (cv.writePart t k (leBytes (2 ^ size) ((cv.th t).getG rs2).toNat)).done else cv.failed .bounds

/-! ### AREG and MOVV (R119, R120) -/

/-- Place and width of field f of a pad-address register (R70). -/
def aregField (f : Nat) : Nat × Nat :=
  match f with
  | 0 => (0, 12) | 1 => (12, 12) | 2 => (24, 12) | 3 => (36, 12) | 4 => (48, 8) | _ => (56, 8)

/-- The register with a field set; OFFSET also clears RCOUNT (R119). -/
def aregSet (a : DWord) (f v : Nat) : DWord :=
  let n := putBits a.toNat (aregField f).1 (aregField f).2 v
  BitVec.ofNat 64 (if f == 1 then putBits n 56 8 0 else n)

/-- AREG: AMOV, AGET, AADD, ASET. -/
def doAreg (t a func field g : Nat) (imm : BitVec 12) (cv : CoreView) : Issue :=
  let th := cv.th t
  let old := th.getA a
  match func with
  | 0 => (cv.modT t (·.setA a (th.getPair g))).done
  | 1 => (cv.modT t (·.setPair g old)).done
  | 2 =>
    let v := (bitsOf old.toNat (aregField field).1 12 + imm.toNat) % 4096
    (cv.modT t (·.setA a (aregSet old field v))).done
  | _ => (cv.modT t (·.setA a (aregSet old field imm.toNat))).done

/-- MOVV: DIR 0 writes g into a word of v, DIR 1 a word of v into g. -/
def doMovv (t g : Nat) (v : Bool) (lane : Nat) (word dir : Bool) (cv : CoreView) : Issue :=
  let th := cv.th t
  let at_ := 64 * lane + 32 * natOf word
  let x := (th.getV v).toNat
  if dir then cv.putG t g (BitVec.ofNat 32 (bitsOf x at_ 32))
  else (cv.modT t (·.setV v (ofNat256 (putBits x at_ 32 (th.getG g).toNat)))).done

/-! ### FSTAT and YIELD (R138, R139) -/

/-- Does a flag-raising operation of thread t still run: a drain it started, or a queue or generator operation? -/
def flagsPending (cv : CoreView) (t : Nat) : Bool :=
  (match cv.core.drain with
    | some d => d.thread.toNat == t
    | none => false) ||
  (match cv.core.suspended with
    | some d => d.thread.toNat == t
    | none => false) ||
  cv.core.gens.any fun r => r.thread.toNat == t

/-- FSTAT: waits for the thread's earlier flag-raising work, then reads TSTAT, clears the named sticky bits, sets the
mode. -/
def doFstat (t rd : Nat) (clr : BitVec 8) (mode : Nat) (cv : CoreView) : Issue :=
  if flagsPending cv t then ⟨cv.modT t ({ · with state := .waitOperand }), .stay⟩
  else
    let w := (cv.th t).tstat
    let cleared := w &&& ~~~(clr.setWidth 32)
    let next := if mode == 1 then cleared &&& ~~~0x100#32 else if mode == 2 then cleared ||| 0x100#32 else cleared
    (cv.modT t fun th => { th.setG rd w with tstat := next }).done

/-- YIELD. -/
def doYield (t : Nat) (cv : CoreView) : Issue := ⟨cv.modT t ({ · with state := .yielded }), .begun⟩

end Sys2Proof.Machine
end

