-- ==== Sys2Proof/Machine/CoreVector.lean ====
section
/-! DEFINITION. The FP-unit instructions as functions of a core view: VOP, CVT, SPLIT, MERGE, SSPK, SSUP, RNG, and
what a generator answer finishes (R121–R127). -/

namespace Sys2Proof.Machine

/-! ### VOP (R121) -/

/-- Result bits and flags of one enabled lane: a is v[VA], s the second source, d the old destination; f the lane
format, d64 the destination's 64-bit lane. -/
def vopLane (func : Nat) (f : Fmt) (ftz : Bool) (a s d d64 : Nat) : Nat × Flags :=
  let bits := 8 * f.size
  let x := readOperand f ftz a
  let y := readOperand f ftz s
  let ones := 2 ^ bits - 1
  let both := x.2.join y.2
  match func with
  | 0 => let r := addVal f ftz x.1 y.1; (r.1, both.join r.2)
  | 1 => let r := addVal f ftz x.1 (negVal y.1); (r.1, both.join r.2)
  | 2 =>
    let p := mulVal x.1 y.1
    let r := roundVal f .rne ftz p.1
    (r.1, (both.join p.2).join r.2)
  | 3 =>
    let z := readOperand f ftz d
    let r := fmaVal f ftz x.1 y.1 z.1
    (r.1, (both.join z.2).join r.2)
  | 4 => let r := minMaxVal f false x.1 y.1 (flushedBits f ftz a) (flushedBits f ftz s); (r.1, both.join r.2)
  | 5 => let r := minMaxVal f true x.1 y.1 (flushedBits f ftz a) (flushedBits f ftz s); (r.1, both.join r.2)
  | 6 => (a % 2 ^ (bits - 1), {})
  | 7 => (if bitOf a (bits - 1) then a - 2 ^ (bits - 1) else a + 2 ^ (bits - 1), {})
  | 8 => let r := divVal f ftz x.1 y.1; (r.1, both.join r.2)
  | 9 => let r := sqrtVal f ftz x.1; (r.1, x.2.join r.2)
  | 10 => let r := fpCompare f ftz 0 a s; (if r.1 then ones else 0, r.2)
  | 11 => let r := fpCompare f ftz 1 a s; (if r.1 then ones else 0, r.2)
  | 12 => let r := fpCompare f ftz 2 a s; (if r.1 then ones else 0, r.2)
  | 13 => (if d64 != 0 then a else s, {})
  | 14 => (s, {})
  | _ =>
    match fp64Exponent s with
    | none => (d, {})
    | some e => (((BitVec.ofInt 64 (max (signed64 d) e)).toNat), {})

/-- Lane i of a pad operand (R121). -/
def padLane (x : BitVec 256) (fp64 hi : Bool) (i : Nat) : Nat :=
  if fp64 then lane64 x i else bitsOf x.toNat (128 * natOf hi + 32 * i) 32

/-- Lane i of a v operand (R69). -/
def vLane (x : BitVec 256) (fp64 : Bool) (i : Nat) : Nat :=
  if fp64 then lane64 x i else bitsOf x.toNat (64 * i) 32

/-- The enabled lanes' results: the new destination value and the flags, lanes i from 4 − n on. -/
def vopLanes (func : Nat) (fp64 ftz : Bool) (lmask : Nat) (a s d : Nat → Nat) (d64 : Nat → Nat)
    (put : BitVec 256 → Nat → Nat → BitVec 256) : Nat → BitVec 256 × Flags × List Nat → BitVec 256 × Flags × List Nat
  | 0, acc => acc
  | n + 1, acc =>
    let i := 3 - n
    let f : Fmt := if fp64 then .fp64 else .fp32
    let acc' :=
      if bitOf lmask i then
        let r := vopLane func f ftz (a i) (s i) (d i) (d64 i)
        (put acc.1 i r.1, acc.2.1.join r.2, acc.2.2 ++ [r.1])
      else acc
    vopLanes func fp64 ftz lmask a s d d64 put n acc'

/-- VOP's meaning on thread t, its encoding legal (R121). With a pad destination NONFINITE is raised by the written bits read as a value,
an all-ones mask of a compare among them, but not by EXPMAX's integer; an FP32 SEL tests the 32 bits of the pad's lane (DESIGN CHOICE,
notes/assumptions/81). -/
def doVop (t func : Nat) (fp64 va src2 vb : Bool) (areg : Nat) (pad dst vd hi : Bool) (lmask : Nat) (cv : CoreView) :
    Issue :=
  let th := cv.th t
  let va_ := th.getV va
  let vb_ := th.getV vb
  if src2 || dst then
    match cv.useA t areg (padOf pad) with
    | none => cv.failed .bounds
    | some (key, cv1) =>
      let g := cv1.read256 key
      if src2 then
        let cv2 := cv1.noteRead t key
        let vd_ := th.getV vd
        let r := vopLanes func fp64 th.ftz lmask (vLane va_ fp64) (padLane g fp64 hi) (vLane vd_ fp64) (lane64 vd_)
          (fun x i v => setLane64 x i v) 4 (vd_, {}, [])
        ((cv2.modT t (·.setV vd r.1)).raise t r.2.1.bits).done
      else if !cv.mayWrite key then cv.failed .bounds
      else
        let cv2 := if func == 13 || func == 15 then cv1.noteRead t key else cv1
        let width := if fp64 then 64 else 32
        let base := if fp64 then 0 else 128 * natOf hi
        let r := vopLanes func fp64 th.ftz lmask (vLane va_ fp64) (vLane vb_ fp64) (padLane g fp64 hi) (padLane g fp64 hi)
          (fun x i v => ofNat256 (putBits x.toNat (base + width * i) width v)) 4 (g, {}, [])
        let nf := if func == 15 then 0 else nonfiniteBits (if fp64 then .fp64 else .fp32) r.2.2
        let cv3 :=
          if fp64 && lmask == 15 then cv2.write256 t key r.1
          else if fp64 then { cv2.writePart t key (leBytes 16 r.1.toNat) with mem := (cv2.mem.writeNat key 32 r.1.toNat) }
          else cv2.writePart t (key + 16 * natOf hi) (leBytes 16 (bitsOf r.1.toNat base 128))
        (cv3.raise t (r.2.1.bits + nf)).done
  else
    let vd_ := th.getV vd
    let r := vopLanes func fp64 th.ftz lmask (vLane va_ fp64) (vLane vb_ fp64) (vLane vd_ fp64) (lane64 vd_)
      (fun x i v => setLane64 x i v) 4 (vd_, {}, [])
    ((cv.modT t (·.setV vd r.1)).raise t r.2.1.bits).done

/-! ### CVT (R122, R123) -/

/-- Element i of size n bytes from byte lo of a 32 B value. -/
def elemAt (x : BitVec 256) (lo n i : Nat) : Nat := bitsOf x.toNat (8 * (lo + n * i)) (8 * n)

/-- The rounding that code r names; a stochastic one takes w draw bits of element i from o (R122, R157). -/
def rndOf (code o w i : Nat) : Rnd :=
  match code with
  | 0 => .rne
  | 1 => .rtz
  | _ => .stoch w (drawBits o w i)

/-- CVT's m converted elements into the destination value, from element m − n on: the value, the flags, the result
elements. -/
def cvtElems (s d : Fmt) (rnd o : Nat) (ftz : Bool) (src : BitVec 256) (slo dlo : Nat) (m : Nat) :
    Nat → BitVec 256 × Flags × List Nat → BitVec 256 × Flags × List Nat
  | 0, acc => acc
  | n + 1, acc =>
    let i := m - 1 - n
    let w := if max s.size d.size == 8 then 32 else if max s.size d.size == 4 then 16 else 8
    let r := convert s d (rndOf rnd o w i) ftz (elemAt src slo s.size i)
    cvtElems s d rnd o ftz src slo dlo m n
      (ofNat256 (putBits acc.1.toNat (8 * (dlo + d.size * i)) (8 * d.size) r.1), acc.2.1.join r.2, acc.2.2 ++ [r.1])

/-- Convert a source value into the old destination value (R122). -/
def cvtValue (s d : Fmt) (rnd o : Nat) (ftz : Bool) (part : Nat) (src old : BitVec 256) : BitVec 256 × Flags × List Nat :=
  let big := max s.size d.size
  let m := 32 / big
  let slice := 32 * min s.size d.size / big
  let slo := if s.size < big then slice * part else 0
  let dlo := if d.size < big then slice * part else 0
  cvtElems s d rnd o ftz src slo dlo m m (old, {}, [])

/-- Deliver a CVT's result to its destination: a v register, or a pad granule of which a narrower result covers only
its slice (R74, R122). -/
def cvtDeliver (t : Nat) (s d : Fmt) (part : Nat) (dst : VDest) (r : BitVec 256 × Flags × List Nat) (cv : CoreView) :
    CoreView :=
  match dst with
  | .v n => (cv.modT t (·.setV n r.1)).raise t r.2.1.bits
  | .pad key =>
    let n := if d.size < s.size then 32 * d.size / s.size else 32
    let cv1 := cv.writePart t (key + (if d.size < s.size then n * part else 0))
      (leBytes n (bitsOf r.1.toNat (if d.size < s.size then 8 * n * part else 0) (8 * n)))
    cv1.raise t (r.2.1.bits + (if d.isInt then 0 else nonfiniteBits d r.2.2))

/-- The old value of a destination. -/
def destOld (cv : CoreView) (t : Nat) : VDest → BitVec 256
  | .v n => (cv.th t).getV n
  | .pad key => cv.read256 key

/-- The source of a CVT or SPLIT: a v register, or a pad granule used through a[r] (R122). -/
def CoreView.source (cv : CoreView) (t : Nat) (fromPad vn : Bool) (r : Nat) (pad : Bool) : Option (BitVec 256 × CoreView) :=
  if fromPad then
    match cv.useA t r (padOf pad) with
    | none => none
    | some (key, cv1) => some (cv1.read256 key, cv1.noteRead t key)
  else some ((cv.th t).getV vn, cv)

/-- The destination of a CVT: a v register, or a pad granule used through a[r]. -/
def CoreView.destination (cv : CoreView) (t : Nat) (toPad vn : Bool) (r : Nat) (pad : Bool) : Option (VDest × CoreView) :=
  if toPad then
    match cv.useAW t r (padOf pad) with
    | none => none
    | some (key, cv1) => some (.pad key, cv1)
  else some (.v vn, cv)

/-- Queue a generator request; the thread goes on, and an instruction that needs the result waits (R100, R113). -/
def CoreView.request (cv : CoreView) (t : Nat) (i : GenInput) (u : GenUse) : CoreView :=
  { cv with core := { cv.core with gens := cv.core.gens ++ [{ thread := BitVec.ofNat 4 t, input := i, use := u }] } }

/-- CVT's meaning on thread t, its encoding legal; a stochastic one requests the generator and finishes with its
answer (R122, R123). Where source and destination name one a-register, the source is used first and the destination at the register
as that use leaves it (DESIGN CHOICE, notes/assumptions/81). -/
def doCvt (t : Nat) (s d : Fmt) (rnd : Nat) (src : Bool) (as_ : Nat) (spad dst : Bool) (ad : Nat) (dpad : Bool)
    (part gb : Nat) (cv : CoreView) : Issue :=
  match cv.source t src (as_ % 2 == 1) as_ spad with
  | none => cv.failed .bounds
  | some (x, cv1) =>
    match cv1.destination t dst (ad % 2 == 1) ad dpad with
    | none => cv.failed .bounds
    | some (dest, cv2) =>
      let ftz := (cv.th t).ftz
      if rnd == 2 then
        let i := (cv.th t).genInput gb
        let cv3 := cv2.modT t (·.advanceGroup gb 1)
        (cv3.request t i (.cvt x s.code d.code part ftz dest)).done
      else (cvtDeliver t s d part dest (cvtValue s d rnd 0 ftz part x (destOld cv2 t dest)) cv2).done

/-! ### SPLIT and MERGE (R124, R125) -/

/-- SPLIT's four slices, from lane 4 − n on: bytes and flags. -/
def splitLanes (ftz : Bool) (k j : Nat) (x e : BitVec 256) : Nat → List Byte × Flags → List Byte × Flags
  | 0, acc => acc
  | n + 1, acc =>
    let i := 3 - n
    let r := splitSlice ftz k j (signed64 (lane64 e i)) (lane64 x i)
    splitLanes ftz k j x e n (acc.1 ++ [BitVec.ofInt 8 r.1], acc.2.join r.2)

/-- SPLIT's meaning on thread t. -/
def doSplit (t : Nat) (ve : Bool) (j k : Nat) (src : Bool) (as_ : Nat) (spad : Bool) (ad : Nat) (dpad : Bool) (part : Nat)
    (cv : CoreView) : Issue :=
  match cv.source t src (as_ % 2 == 1) as_ spad with
  | none => cv.failed .bounds
  | some (x, cv1) =>
    match cv1.useAW t ad (padOf dpad) with
    | none => cv.failed .bounds
    | some (key, cv2) =>
      let th := cv.th t
      let r := splitLanes th.ftz k j x (th.getV ve) 4 ([], {})
      ((cv2.writePart t (key + 4 * part) r.1).raise t r.2.bits).done

/-- MERGE's four lanes, from lane 4 − n on. -/
def mergeLanes (ftz : Bool) (g sh : BitVec 256) (hi : Bool) (gs : Word) : Nat → BitVec 256 × Flags → BitVec 256 × Flags
  | 0, acc => acc
  | n + 1, acc =>
    let i := 3 - n
    let m : Int := (BitVec.ofNat 32 (bitsOf g.toNat (128 * natOf hi + 32 * i) 32)).toInt
    let r := mergeLane ftz (lane64 acc.1 i) m (signed64 (lane64 sh i) + gs.toInt)
    mergeLanes ftz g sh hi gs n (setLane64 acc.1 i r.1, acc.2.join r.2)

/-- MERGE's meaning on thread t. -/
def doMerge (t : Nat) (vd vs : Bool) (as_ : Nat) (spad hi : Bool) (gs : Nat) (cv : CoreView) : Issue :=
  match cv.useA t as_ (padOf spad) with
  | none => cv.failed .bounds
  | some (key, cv1) =>
    let th := cv.th t
    let r := mergeLanes th.ftz (cv1.read256 key) (th.getV vs) hi (th.getG gs) 4 (th.getV vd, {})
    (((cv1.noteRead t key).modT t (·.setV vd r.1)).raise t r.2.bits).done

/-! ### SS8 (R126) -/

/-- The n elements of size k bytes of a 32 B value. -/
def elems (x : BitVec 256) (k n : Nat) : List Nat := (List.range n).map fun i => elemAt x 0 k i

/-- Pack 16 elements and write the block to its 17 byte addresses (R126, R168, R169). -/
def sspkDeliver (t : Nat) (xs : List Nat) (fp32 ftz : Bool) (rnd o : Nat) (keys : List Nat) (cv : CoreView) : CoreView :=
  let f : Fmt := if fp32 then .fp32 else .bf16
  let rs := xs.map (readOperand f ftz)
  let flush : Flags := { flush := rs.any fun r => r.2.flush }
  let p := ss8Pack (rs.map (·.1)) (fun i => rndOf rnd o 8 i)
  let cv1 := cv.writeScattered t (keys.zip (p.1.map (BitVec.ofNat 8)))
  cv1.raise t ((p.2.join flush).bits + (if ss8Nonfinite p.1 then nonfiniteBit else 0))

/-- SSPK's meaning on thread t. -/
def doSspk (t ga as_ : Nat) (spad dpad sfmt : Bool) (rnd gb : Nat) (cv : CoreView) : Issue :=
  match cv.useA t as_ (padOf spad) with
  | none => cv.failed .bounds
  | some (k0, cv1) =>
    match (if sfmt then cv1.useA t as_ (padOf spad) else some (k0, cv1)) with
    | none => cv.failed .bounds
    | some (k1, cv2) =>
      let th := cv.th t
      match cv2.byteKeys (padOf dpad) (th.getG ga).toNat 17 with
      | none => cv.failed .bounds
      | some keys =>
        if !keys.all cv.mayWrite then cv.failed .bounds else
        let cv3 := (cv2.noteRead t k0).noteRead t k1
        let xs := if sfmt then elems (cv.read256 k0) 4 8 ++ elems (cv.read256 k1) 4 8 else elems (cv.read256 k0) 2 16
        if rnd == 2 then
          ((cv3.modT t (·.advanceGroup gb 1)).request t (th.genInput gb) (.sspk xs sfmt th.ftz keys)).done
        else (sspkDeliver t xs sfmt th.ftz rnd 0 keys cv3).done

/-- The view after the thread has read the granules that hold the byte addresses. -/
def noteReads (t : Nat) : List Nat → CoreView → CoreView
  | [], cv => cv
  | k :: ks, cv => noteReads t ks (cv.noteRead t k)

/-- SSUP's meaning on thread t. -/
def doSsup (t ga ad : Nat) (dpad spad : Bool) (cv : CoreView) : Issue :=
  let th := cv.th t
  match cv.byteKeys (padOf spad) (th.getG ga).toNat 17 with
  | none => cv.failed .bounds
  | some keys =>
    match cv.useAW t ad (padOf dpad) with
    | none => cv.failed .bounds
    | some (key, cv1) =>
      let cv2 := noteReads t keys cv1
      let r := ss8Unpack th.ftz (keys.map fun k => (cv.mem.read k).toNat)
      let bs := r.1.flatMap fun n => leBytes 2 n
      ((cv2.writePart t key bs).raise t (r.2.bits + nonfiniteBits .bf16 r.1)).done

/-! ### RNG and the generator's answers (R100, R127) -/

/-- RNG's meaning on thread t: one request; INC advances the element index. -/
def doRng (t gb : Nat) (vd half inc : Bool) (cv : CoreView) : Issue :=
  let i := (cv.th t).genInput gb
  let cv1 := if inc then cv.modT t (·.advanceGroup gb 1) else cv
  (cv1.request t i (.rng vd half)).done

/-- What a request does with its 128 output bits. -/
def genFinish (r : GenReq) (cv : CoreView) : CoreView :=
  let t := r.thread.toNat
  let o := generatorBits r.input
  match r.use with
  | .rng vd half =>
    let v := (cv.th t).getV vd
    let v' := setLane64 (setLane64 v (2 * natOf half) (bitsOf o 0 64)) (2 * natOf half + 1) (bitsOf o 64 64)
    cv.modT t (·.setV vd v')
  | .cvt src sf df part ftz dst =>
    let s := (Fmt.ofCode sf).getD .fp32
    let d := (Fmt.ofCode df).getD .fp32
    cvtDeliver t s d part dst (cvtValue s d 2 o ftz part src (destOld cv t dst)) cv
  | .sspk xs fp32 ftz keys => sspkDeliver t xs fp32 ftz 2 o keys cv

/-- Priority class of a request: a conversion before an RNG (R100). -/
def GenReq.isRng (r : GenReq) : Bool :=
  match r.use with
  | .rng .. => true
  | _ => false

/-- The unit serves the first conversion in issue order, else the first RNG (R100); the thread can issue again. -/
def genServe (cv : CoreView) : CoreView :=
  let i := match lfind (fun r => !GenReq.isRng r) cv.core.gens 0 with
    | some i => i
    | none => 0
  match cv.core.gens[i]? with
  | none => cv
  | some r =>
    let cv1 := { cv with core := { cv.core with gens := ldrop cv.core.gens i } }
    (genFinish r cv1).modT r.thread.toNat fun th =>
      if th.state == .waitOperand then { th with state := .ready } else th

/-! ### What an instruction needs of those before it (R113) -/

/-- The v registers that an instruction reads or writes, and the pads of which it reads a granule (R113); of a request, the v register
or the pads it is still to write. -/
structure Needs where
  v0 : Bool := false
  v1 : Bool := false
  w : Bool := false
  a : Bool := false
deriving DecidableEq, Repr

/-- Both sets together. -/
def Needs.join (x y : Needs) : Needs := ⟨x.v0 || y.v0, x.v1 || y.v1, x.w || y.w, x.a || y.a⟩

/-- Do the two sets meet? -/
def Needs.meets (x y : Needs) : Bool := (x.v0 && y.v0) || (x.v1 && y.v1) || (x.w && y.w) || (x.a && y.a)

/-- A v register. -/
def Needs.v (n : Bool) : Needs := { v0 := !n, v1 := n }

/-- A pad. -/
def Needs.pad (a : Bool) : Needs := { w := !a, a := a }

/-- A set where a condition holds. -/
def Needs.when (b : Bool) (x : Needs) : Needs := if b then x else {}

/-- What a waiting request is still to write. -/
def GenReq.writes (r : GenReq) : Needs :=
  match r.use with
  | .rng vd _ => .v vd
  | .cvt _ _ _ _ _ (.v n) => .v n
  | .cvt _ _ _ _ _ (.pad key) => .pad (decide (0x18000 ≤ key % 0x40000))
  | .sspk _ _ _ keys => .pad (keys.any fun k => decide (0x18000 ≤ k % 0x40000))

/-- Does an instruction of thread t with these needs wait for a request of the thread (R113)? -/
def Core.awaits (k : Core) (t : Nat) (n : Needs) : Bool := k.gens.any fun r => r.thread.toNat == t && r.writes.meets n

/-- An instruction of thread t with these needs: it waits in WAIT_OPERAND for the thread's requests that it depends on (R75, R113). -/
def needing (t : Nat) (n : Needs) (f : CoreView → Issue) (cv : CoreView) : Issue :=
  if cv.core.awaits t n then ⟨cv.modT t ({ · with state := .waitOperand }), .stay⟩ else f cv

/-- VOP's needs: VA where the function reads it, the second source where it has one, the destination (R121). -/
def vopNeeds (func : Nat) (va src2 vb pad dst vd : Bool) : Needs :=
  ((Needs.when (func != 14 && func != 15) (.v va)).join
    (Needs.when (!src2 && func != 6 && func != 7 && func != 9) (.v vb))).join
    ((Needs.when (!dst) (.v vd)).join (Needs.when (src2 || (dst && (func == 13 || func == 15))) (.pad pad)))

/-- The needs of the source of a CVT or SPLIT (R122). -/
def sourceNeeds (fromPad vn pad : Bool) : Needs := if fromPad then .pad pad else .v vn

end Sys2Proof.Machine
end

