-- ==== Sys2Proof/Machine/CoreTensor.lean ====
section
/-! DEFINITION. The tensor instructions and the drain engine as functions of a core view: TMMA, TMMA.I8, TDRAIN, one
block of a drain (R77–R81, R128–R131, R178–R188). -/

namespace Sys2Proof.Machine

/-! ### One block (R78, R129, R159, R160) -/

/-- What the fields of a TMMA or TMMA.I8 fix for every block. -/
structure TmmaOp where
  int8 : Bool
  aw : Nat
  aa : Nat
  ap : Nat
  left : Bool
  wf : Bool
  af : Bool
  zero : Bool
deriving DecidableEq, Repr

/-- Element (i, k) of a left operand (R78). -/
def leftElem (int8 : Bool) (x : BitVec 256) (i k : Nat) : Nat :=
  if int8 then bitsOf x.toNat (8 * (8 * i + k)) 8 else bitsOf x.toNat (8 * (8 * i + 2 * k)) 16

/-- Element (k, j) of a right operand (R78). -/
def rightElem (int8 : Bool) (x : BitVec 256) (k j : Nat) : Nat :=
  if int8 then bitsOf x.toNat (8 * (4 * k + j)) 8 else bitsOf x.toNat (8 * (8 * k + 2 * j)) 16

/-- An INT8 or UINT8 element as an integer (R128). -/
def int8Elem (unsigned : Bool) (n : Nat) : Int := if unsigned then n else (BitVec.ofNat 8 n).toInt

/-- FP32 sum of element (i, j), the products k = 4 − n, … added in order (R159). -/
def tmmaElem (lf rf : Fmt) (ftz : Bool) (l r : BitVec 256) (i j : Nat) : Nat → Nat × Flags → Nat × Flags
  | 0, acc => acc
  | n + 1, acc =>
    tmmaElem lf rf ftz l r i j n (tmmaStep lf rf ftz (leftElem false l i (3 - n)) (rightElem false r (3 - n) j) acc)

/-- INT32 sum of element (i, j), the products k = 8 − n, … added in order (R160). -/
def tmmaI8Elem (lu ru : Bool) (l r : BitVec 256) (i j : Nat) : Nat → Int × Flags → Int × Flags
  | 0, acc => acc
  | n + 1, acc =>
    tmmaI8Elem lu ru l r i j n
      (tmmaI8Step (int8Elem lu (leftElem true l i (7 - n))) (int8Elem ru (rightElem true r (7 - n) j)) acc)

/-- The 16 elements of an accumulator block, element 4i + j at byte 16i + 4j (R78): new values and flags. -/
def tmmaBlock (op : TmmaOp) (ftz : Bool) (w a : BitVec 256) (acc : Nat) : Nat → Nat × Flags × Bool → Nat × Flags × Bool
  | 0, r => r
  | n + 1, r =>
    let e := 15 - n
    let l := if op.left then a else w
    let rt := if op.left then w else a
    let lf := if op.left then op.af else op.wf
    let rf := if op.left then op.wf else op.af
    let old := bitsOf acc (32 * e) 32
    let x : Nat × Flags :=
      if op.int8 then
        let y := tmmaI8Elem lf rf l rt (e / 4) (e % 4) 8 ((if op.zero then 0 else (BitVec.ofNat 32 old).toInt), {})
        (intBits 4 y.1, y.2)
      else
        tmmaElem (if lf then .fp16 else .bf16) (if rf then .fp16 else .bf16) ftz l rt (e / 4) (e % 4) 4
          ((if op.zero then 0x80000000 else old), {})
    tmmaBlock op ftz w a acc n
      (putBits r.1 (32 * e) 32 x.1, r.2.1.join x.2, r.2.2 || (!op.int8 && isNonfinite .fp32 x.1))

/-- One block of thread t: operands, accumulator, marks and flags; none where an operand or the accumulator block is
out of bounds, nothing then done (R74, R79, R129). -/
def tmmaOne (op : TmmaOp) (t : Nat) (cv : CoreView) : Option CoreView :=
  match cv.useA t op.aw .w with
  | none => none
  | some (kw, cv1) =>
    match cv1.useA t op.aa .a with
    | none => none
    | some (ka, cv2) =>
      match cv2.useAW t op.ap .p with
      | none => none
      | some (kp, cv3) =>
        let opMark := cv3.marked kw || cv3.marked ka
        let cv4 := (cv3.noteRead t kw).noteRead t ka
        let th := cv4.th t
        let r := tmmaBlock op th.ftz (cv4.read256 kw) (cv4.read256 ka) (cv4.mem.readNat kp 64) 16
          (cv4.mem.readNat kp 64, {}, false)
        let mark := opMark || th.umber || (!op.zero && cv4.marked kp)
        let cv5 := { cv4 with mem := cv4.mem.writeNat kp 64 r.1, marks := kset false cv4.marks kp mark }
        some (cv5.raise t (r.2.1.bits + (if r.2.2 then nonfiniteBit else 0)))

/-- A burst of n blocks; a fault at block m leaves blocks 0 to m − 1 done (R77, R106). -/
def doTmma (op : TmmaOp) (t : Nat) : Nat → CoreView → Issue
  | 0, cv => cv.done
  | n + 1, cv =>
    match tmmaOne op t cv with
    | none => cv.failed .bounds
    | some cv' => doTmma op t n cv'

/-! ### TDRAIN (R130, R131) -/

/-- n uses of a[r] in the P-pad: the block list; none where a block is out of bounds. -/
def useBlocks (t r : Nat) : Nat → CoreView → Option (List Nat × CoreView)
  | 0, cv => some ([], cv)
  | n + 1, cv =>
    let g := aregGranule ((cv.th t).getA r)
    match cv.useA t r .p with
    | none => none
    | some (_, cv1) =>
      match useBlocks t r n cv1 with
      | none => none
      | some (l, cv2) => some (g :: l, cv2)

/-- The uses of a[r] that come before the first block out of bounds, at most n (R106). -/
def usesBefore (t r : Nat) : Nat → CoreView → List Nat × CoreView
  | 0, cv => ([], cv)
  | n + 1, cv =>
    let g := aregGranule ((cv.th t).getA r)
    match cv.useA t r .p with
    | none => ([], cv)
    | some (_, cv1) =>
      let x := usesBefore t r n cv1
      (g :: x.1, x.2)

/-- Invert the role bit of each block of a list once (R131, R178). -/
def swapRoles (roles : BitVec 256) (blocks : List Nat) : BitVec 256 :=
  roles ^^^ (blocks.eraseDups.foldl (fun m b => m ||| (1#256 <<< b)) 0)

/-- May a TDRAIN of a configuration start: the engine free, and for a filler no suspended drain (R80, R188)? -/
def drainFree (cv : CoreView) : Bool :=
  cv.core.drain.isNone && !(bitOf cv.core.activeCfg.toNat 224 && cv.core.suspended.isSome)

/-- TDRAIN's meaning on thread t: the swap, the block list to the engine, the group's copy (R130, R131). Where AP leaves
the bounds at some block, the blocks before it are swapped, no drain begins, and the group has advanced at the issue
(R106; DEDUCED, notes/assumptions/63). -/
def doTdrain (t ap cm1 : Nat) (dest : Bool) (ad : BitVec 3) (dfmt rnd gb : Nat) (cinc : Bool) (ctr : BitVec 3) (acc : Bool)
    (cv : CoreView) : Issue :=
  if cinc && !cntAllowed cv.core.activeCfg ctr.toNat then cv.failed .counter
  else if !drainFree cv then ⟨cv.modT t ({ · with state := .waitArray }), .stay⟩
  else
    let issued (v : CoreView) : CoreView := if rnd == 2 then v.modT t (·.advanceGroup gb (cm1 + 1)) else v
    match useBlocks t ap (cm1 + 1) cv with
    | none =>
      let x := usesBefore t ap (cm1 + 1) cv
      let cv2 := issued x.2
      CoreView.failed { cv2 with core := { cv2.core with roles := swapRoles cv2.core.roles x.1 } } .bounds
    | some (blocks, cv1) =>
      let th := cv.th t
      let d : Drain :=
        { blocks := blocks, thread := BitVec.ofNat 4 t, cfg := cv.core.slotOpen.getD 0, toQueue := dest
          q := ad.extractLsb' 0 2, ad := ad, dfmt := dfmt, int32 := acc, rnd := rnd
          gen := if rnd == 2 then some (th.genInput gb) else none, ftz := th.ftz
          cinc := if cinc then some ctr else none }
      let cv2 := issued cv1
      { view := { cv2 with core := { cv2.core with drain := some d, roles := swapRoles cv2.core.roles blocks } }
        ending := .seq }

/-! ### Arrival counters (R96, R97) -/

/-- Counter i. -/
def Core.ctr (c : Core) (i : Nat) : Word := kget 0 c.ctrs i

/-- The wait condition (int32_t)(c − t) ≥ 0 (R97). -/
def waitHolds (c t : Word) : Bool := decide (0 ≤ (c - t).toInt)

/-- Threads whose counter condition now holds become READY (R97). -/
def Core.releaseWaiters (c : Core) : Core :=
  { c with
    threads := (kkeys c.threads).foldl
      (fun m t => kmod {} m t fun th =>
        match th.pend with
        | .waitc i thr =>
          if th.state == .waitCounter && waitHolds (c.ctr i) thr then { th with state := .ready, pend := .none } else th
        | _ => th) c.threads }

/-- Add to a counter, modulo 2^32, and release the threads it satisfies (R96, R97). -/
def Core.addCtr (c : Core) (i : Nat) (n : Word) : Core :=
  ({ c with ctrs := kmod 0 c.ctrs i (· + n) }).releaseWaiters

/-! ### The drain engine (R181–R187) -/

/-- The module address of block b's shadow copy (R81, R86). -/
def shadowKey (id : Nat) (roles : BitVec 256) (b : Nat) : Nat :=
  padWindow id + 0x28000 + (if roles.getLsbD b then 0 else 0x4000) + b * 64

/-- The 16 elements of a shadow block converted to the drain's format, elements 16 − n on: bytes and flags (R182, R183). -/
def drainElems (d : Drain) (o acc : Nat) : Nat → List Byte × Flags → List Byte × Flags
  | 0, r => r
  | n + 1, r =>
    let e := 15 - n
    let f := (Fmt.ofCode d.dfmt).getD .fp32
    let src : Fmt := if d.int32 then .int32 else .fp32
    let w := bitsOf acc (32 * e) 32
    let x : Nat × Flags := if f == src then (w, {}) else convert src f (rndOf d.rnd o 8 e) d.ftz w
    drainElems d o acc n (r.1 ++ leBytes f.size x.1, r.2.join x.2)

/-- A drained block: its bytes and flags (R182, R183). -/
def drainBlock (d : Drain) (acc : Nat) : List Byte × Flags :=
  let o := match d.gen with
    | some i => generatorBits i
    | none => 0
  if d.dfmt == 3 then
    let rs := (List.range 16).map fun e => readOperand .fp32 d.ftz (bitsOf acc (32 * e) 32)
    let flush : Flags := { flush := rs.any fun r => r.2.flush }
    let p := ss8Pack (rs.map (·.1)) (fun i => rndOf d.rnd o 8 i)
    ((p.1.map (BitVec.ofNat 8)) ++ leBytes 15 0, p.2.join flush)
  else drainElems d o acc 16 ([], {})

/-- Does an output hold an infinity or a NaN of the drain's format (R183)? -/
def outputNonfinite (d : Drain) (e : QEntry) : Bool :=
  let f := (Fmt.ofCode d.dfmt).getD .fp32
  if d.dfmt == 3 then ss8Nonfinite ((leBytes 17 e.data.toNat).map (·.toNat))
  else (List.range (32 / f.size)).any fun i => isNonfinite f (bitsOf e.data.toNat (8 * f.size * i) (8 * f.size))

/-- The drain without its first block: the element index one further (R130). -/
def Drain.next (d : Drain) : Drain :=
  { d with blocks := d.blocks.tail
           gen := d.gen.map fun i => { i with element := i.element + 1 } }

/-- The 32 B outputs a block completes, in order, and the half granule it leaves for the next (R182). -/
def drainOutputs (d : Drain) (bs : List Byte) (mark : Bool) : List QEntry × Option (BitVec 128 × Bool) :=
  if bs.length == 64 then
    ([⟨ofNat256 (leNat (bs.take 32)), mark, d.cfg⟩, ⟨ofNat256 (leNat (bs.drop 32)), mark, d.cfg⟩], none)
  else if bs.length == 32 then ([⟨ofNat256 (leNat bs), mark, d.cfg⟩], none)
  else
    match d.halfData with
    | none => ([], some (BitVec.ofNat 128 (leNat bs), mark))
    | some (lo, m) => ([⟨ofNat256 (lo.toNat + leNat bs * 2 ^ 128), m || mark, d.cfg⟩], none)

/-- Write one output to the A-pad at the thread's a[AD], or into the outbound FIFO of Q where it has room, a non-finite
value written setting the thread's NONFINITE; `half` says that only bytes 0–15 are written (R182, R183, R185). The answer:
none while it waits, else the view and whether it was out of bounds. -/
def drainWrite (d : Drain) (half : Bool) (e : QEntry) (cv : CoreView) : Option (Bool × CoreView) :=
  let t := d.thread.toNat
  let nf := if outputNonfinite d e then nonfiniteBit else 0
  if d.toQueue then
    let l := kget [] cv.core.qout d.q.toNat
    if l.length < 2 then
      some (true, { cv with core := { cv.core with qout := kset [] cv.core.qout d.q.toNat (l ++ [e]) } }.raise t nf)
    else none
  else
    let r := cv.core.cfg d.cfg.toNat
    let a := (cv.th t).getA d.ad.toNat
    let g := aregGranule a
    let key := padWindow cv.id + granuleOffset (bitOf r.toNat 206) (bitOf r.toNat 207) cv.core.frontW cv.core.frontA
      cv.core.roles .a g
    if inBounds r .a g && cv.mayWrite key then
      let bs := leBytes (if half then 16 else 32) e.data.toNat
      let cv1 := (cv.modT t (·.setA d.ad.toNat (aregAdvance a))).raise t nf
      some (true, { cv1 with
        mem := cv.mem.writeBytes key bs
        marks := if e.mark then kset false cv.marks key true else if half then cv.marks else kset false cv.marks key false })
    else some (false, cv)

/-- Write waiting outputs in order while there is room (R181, R185): the outputs left, and false at an output out of
bounds. -/
def drainFlush (d : Drain) : List QEntry → CoreView → List QEntry × Bool × CoreView
  | [], cv => ([], true, cv)
  | e :: es, cv =>
    match drainWrite d false e cv with
    | none => (e :: es, true, cv)
    | some (false, cv') => (e :: es, false, cv')
    | some (true, cv') => drainFlush d es cv'

/-- Threads that wait for the drain engine or for their flags can try again (R75, R138). -/
def Core.wake (c : Core) (p : ThreadState → Bool) : Core :=
  { c with
    threads := (kkeys c.threads).foldl
      (fun m t => kmod {} m t fun th => if p th.state && th.pend == .none && !(c.gens.any fun r => r.thread.toNat == t)
        then { th with state := .ready } else th) c.threads }

/-- The drain ends: its counter increments and the engine is free (R186). -/
def drainEnd (d : Drain) (cv : CoreView) : CoreView :=
  let core := match d.cinc with
    | some c => cv.core.addCtr c.toNat 1
    | none => cv.core
  { cv with core := Core.wake { core with drain := none } fun st => st == .waitArray || st == .waitOperand }

/-- Blocks converted and not yet written: a block's output is one entry, two for 64 B formats, half of one for INT8 (R182,
R185). -/
def Drain.converted (d : Drain) : Nat :=
  if d.dfmt == 0 || d.dfmt == 5 then (d.outputs.length + 1) / 2
  else if d.dfmt == 4 || d.dfmt == 7 then 2 * d.outputs.length + natOf d.halfData.isSome
  else d.outputs.length

/-- The drain with its next block read and converted, its outputs behind those that wait; its flags go to the thread (R181–R183). -/
def drainRead (d : Drain) (b : Nat) (cv : CoreView) : Drain × CoreView :=
  let k := shadowKey cv.id cv.core.roles b
  let r := drainBlock d (cv.mem.readNat k 64)
  let out := drainOutputs d r.1 (cv.marked k)
  ({ d.next with halfData := out.2, outputs := d.outputs ++ out.1 }, cv.raise d.thread.toNat r.2.bits)

/-- A drain after its outputs went out as far as there is room: it goes on, or ends with its half granule (R182, R186). The Bool is
false at a bounds fault, which ends the drain (R187). -/
def drainSettle (d : Drain) (f : List QEntry × Bool × CoreView) : Bool × CoreView :=
  let keep (d : Drain) (cv : CoreView) : CoreView := { cv with core := { cv.core with drain := some d } }
  let stop (cv : CoreView) : CoreView := { cv with core := { cv.core with drain := none } }
  let d1 := { d with outputs := f.1 }
  if !f.2.1 then (false, stop f.2.2)
  else if !f.1.isEmpty || !d.blocks.isEmpty then (true, keep d1 f.2.2)
  else
    match d.halfData with
    | none => (true, drainEnd d1 f.2.2)
    | some (lo, m) =>
      match drainWrite d1 (!d.toQueue) ⟨lo.setWidth 256, m, d.cfg⟩ f.2.2 with
      | some (true, cv) => (true, drainEnd d1 cv)
      | some (false, cv) => (false, stop cv)
      | none => (true, keep d1 f.2.2)

/-- What one turn of the drain engine does: waiting outputs go out in order; the next block is read and converted, unless three
converted ones wait to be written; its outputs follow (R181–R186). The Bool is false at a bounds fault (R187). -/
def drainTurn (cv : CoreView) : Bool × CoreView :=
  match cv.core.drain with
  | none => (true, cv)
  | some d =>
    let f := drainFlush d d.outputs cv
    match d.blocks with
    | [] => drainSettle d f
    | b :: _ =>
      if !f.2.1 || decide (3 ≤ { d with outputs := f.1 }.converted) then drainSettle d f
      else
        let r := drainRead { d with outputs := f.1 } b f.2.2
        drainSettle r.1 (drainFlush r.1 r.1.outputs r.2)

end Sys2Proof.Machine
end

