-- ==== Sys2Proof/Machine/CoreTransfer.lean ====
section
/-! DEFINITION. Queue, counter and swap instructions as functions of a core view: QPUSH, QPOP, WAITC, CNTADD, CNTRD,
SWAP (R85, R88, R96–R98, R132, R135–R137). -/

namespace Sys2Proof.Machine

/-! ### Queues (R88, R132) -/

/-- Push entries while the outbound FIFO has room: how many are left, and false at a granule out of bounds. -/
def pushSome (t q r : Nat) (pad : Bool) : Nat → CoreView → Nat × Bool × CoreView
  | 0, cv => (0, true, cv)
  | n + 1, cv =>
    let l := kget [] cv.core.qout q
    if l.length < 2 then
      match cv.useA t r (padOf pad) with
      | none => (n + 1, false, cv)
      | some (key, cv1) =>
        let cv2 := cv1.noteRead t key
        let e : QEntry := ⟨cv2.read256 key, cv2.marked key || (cv2.th t).umber, cv2.core.slotOpen.getD 0⟩
        pushSome t q r pad n { cv2 with core := { cv2.core with qout := kset [] cv2.core.qout q (l ++ [e]) } }
    else (n + 1, true, cv)

/-- Pop entries while the inbound FIFO holds any: how many are left, and false at a granule out of bounds. -/
def popSome (t q r : Nat) (pad : Bool) : Nat → CoreView → Nat × Bool × CoreView
  | 0, cv => (0, true, cv)
  | n + 1, cv =>
    match kget [] cv.core.qin q with
    | [] => (n + 1, true, cv)
    | e :: es =>
      match cv.useAW t r (padOf pad) with
      | none => (n + 1, false, cv)
      | some (key, cv1) =>
        let cv2 := if e.mark then cv1.raise t umberBit else cv1
        let cv3 := { cv2 with core := { cv2.core with qin := kset [] cv2.core.qin q es } }
        popSome t q r pad n (cv3.write256 t key e.data)

/-- The thread after its queue operation moved what it could: waiting for the rest, or done (R132). -/
def queueEnd (t : Nat) (rest : PendOp) (r : Nat × Bool × CoreView) : Issue :=
  if !r.2.1 then ⟨r.2.2.modT t ({ · with pend := .none }), .fault .bounds⟩
  else if r.1 = 0 then ⟨r.2.2.modT t ({ · with pend := .none, state := .ready }), .seq⟩
  else ⟨r.2.2.modT t ({ · with pend := rest, state := .waitQueue }), .begun⟩

/-- QPUSH of n entries (R91, R132). -/
def doQpush (t q r : Nat) (pad : Bool) (n : Nat) (cv : CoreView) : Issue :=
  if cfgQbind cv.core.activeCfg q == 0 then cv.failed .openQueue
  else
    let x := pushSome t q r pad n cv
    queueEnd t (.push q r pad x.1) x

/-- QPOP of n entries (R91, R132). -/
def doQpop (t q r : Nat) (pad : Bool) (n : Nat) (cv : CoreView) : Issue :=
  if cfgQbind cv.core.activeCfg q == 0 then cv.failed .openQueue
  else
    let x := popSome t q r pad n cv
    queueEnd t (.pop q r pad x.1) x

/-! ### Counters (R96–R98, R135, R136) -/

/-- WAITC: the threshold is fixed at issue (R97, R135). -/
def doWaitc (t ctr gt : Nat) (imm : BitVec 12) (cv : CoreView) : Issue :=
  if !cntAllowed cv.core.activeCfg ctr then cv.failed .counter
  else
    let thr := (cv.th t).getG gt + imm.signExtend 32
    if waitHolds (cv.core.ctr ctr) thr then cv.done
    else (cv.modT t ({ · with state := .waitCounter, pend := .waitc ctr thr })).done

/-- CNTADD (R136). -/
def doCntadd (t ctr g : Nat) (imm : BitVec 16) (cv : CoreView) : Issue :=
  if !cntAllowed cv.core.activeCfg ctr then cv.failed .counter
  else (({ cv with core := cv.core.addCtr ctr ((cv.th t).getG g + imm.signExtend 32) } : CoreView)).done

/-- CNTRD (R136). -/
def doCntrd (t ctr g : Nat) (cv : CoreView) : Issue :=
  if !cntAllowed cv.core.activeCfg ctr then cv.failed .counter
  else cv.putG t g (cv.core.ctr ctr)

/-! ### SWAP (R85, R137) -/

/-- Byte range, in the pad window, of physical half h of a pad. -/
def halfRange (pad : Pad) (h : Bool) : Nat × Nat :=
  match pad with
  | .w => if h then (0xC000, 0x18000) else (0, 0xC000)
  | _ => if h then (0x20000, 0x28000) else (0x18000, 0x20000)

/-- The pad (by its window offsets) that holds a window offset of a W- or A-pad: first byte and length (R86). -/
def padSpan (off : Nat) : Nat × Nat := if off < 0x18000 then (0, 0x18000) else (0x18000, 0x10000)

/-- Key of byte i of a transfer in its own core's pads that starts at key k: a range given in thread addresses goes round
its pad's end, where the back half lies below the front (R84, R133). -/
def ownAddr (id k i : Nat) : Nat :=
  let p := padSpan (k - padWindow id)
  padWindow id + p.1 + (k - padWindow id - p.1 + i) % p.2

/-- Does slot s still write bytes lo to hi − 1 of its own core's pad window: a transfer not yet arrived, or a walk's
tile of which a unit has moved (R85, R257)? -/
def slotWrites (id : Nat) (s : DmaSlot) (lo hi : Nat) : Bool :=
  s.dstLocal && (s.walk.isNone || s.readPos != 0) &&
    (List.range ((s.len + 31) / 32)).any fun i =>
      decide (ownAddr id s.dst (32 * i) < padWindow id + hi) && decide (padWindow id + lo ≤ ownAddr id s.dst (32 * i) + 31)

/-- Does a transfer of this core write into the half that is about to become the front (R85)? -/
def swapBlocked (cv : CoreView) (pad : Pad) (front : Bool) : Bool :=
  let h := halfRange pad (!front)
  cv.core.slots.any fun p => match p.2 with
    | some s => slotWrites cv.id s h.1 h.2
    | none => false

/-- SWAP: a pad in single mode is an illegal encoding; it waits while a transfer writes the next front (R85, R137). -/
def doSwap (t : Nat) (sw sa : Bool) (cv : CoreView) : Issue :=
  let r := cv.core.activeCfg.toNat
  if (sw && !bitOf r 206) || (sa && !bitOf r 207) then cv.failed .encoding
  else if (sw && swapBlocked cv .w cv.core.frontW) || (sa && swapBlocked cv .a cv.core.frontA) then
    ⟨cv.modT t ({ · with state := .waitArray }), .stay⟩
  else
    ({ cv with core := { cv.core with
        frontW := cv.core.frontW != sw, frontA := cv.core.frontA != sa } } : CoreView).done

end Sys2Proof.Machine
end

