-- ==== Sys2Proof/Machine/Visible.lean ====
section
/-! DEFINITION. What every agent outside a core's own threads reads and writes: tenant addresses and the pool map, flash
windows, carve-out grants, held writes and their visibility, Umber marks of lines, the release of held writes
(R23, R24, R258–R262, R265, R266, R276, R298, R427–R432). -/

namespace Sys2Proof.Machine

/-! ### Keys of memory -/

/-- First key of the far tier. -/
def farKey : Nat := 0x100000000000
/-- First key of the die stores. -/
def storeKey : Nat := 0x200000000000
/-- First key of the pad windows (R86). -/
def padKey : Nat := 0x300000000000
/-- Key of byte n of drive d. -/
def flashKey (d n : Nat) : Nat := 0x10000000000000 + d * 2 ^ 50 + n

/-- Does a key lie in a pad window? -/
def isPadKey (k : Nat) : Bool := decide (padKey ≤ k) && decide (k < 0x300300000000)

/-- The unit that one Umber mark covers: a granule of a W- or A-pad, an accumulator block, a line elsewhere
(R74, R298). -/
def markUnit (k : Nat) : Nat :=
  if isPadKey k then (if k % 0x40000 < 0x28000 then 32 else 64) else 256

/-- The key under which the mark of a byte is kept. -/
def markBase (k : Nat) : Nat := k / markUnit k * markUnit k

/-! ### Tenant addresses (R258, R259, R276, R287) -/

/-- A page of a function's pool map. -/
def State.page (s : State) (f : Nat) (far : Bool) (v : Nat) : Option Page :=
  kget none s.tiers.pages (f * 2 ^ 32 + natOf far * 2 ^ 31 + v)

/-- Change a page. -/
def State.setPage (s : State) (f : Nat) (far : Bool) (v : Nat) (p : Option Page) : State :=
  { s with tiers := { s.tiers with pages := kset none s.tiers.pages (f * 2 ^ 32 + natOf far * 2 ^ 31 + v) p } }

/-- Flash window n as in effect: FW_CTRL and the first logical block. -/
def State.window (s : State) (n : Nat) : Option (Nat × Nat) := kget none s.tiers.fwOn n

/-- Is bay b usable (R275, R279)? -/
def State.bayUsable (s : State) (b : Nat) : Bool := s.bit (tierReg (0x60 + 4 * b)) 1

/-- The key of a flash-window address for function f; none where the window is not f's, not VALID, its bay not usable, or
the block past the namespace (R276). -/
def State.flashAt (s : State) (f a : Nat) : Option Nat :=
  let n := (a - 0x400000000000) / 2 ^ 42
  let w := (a - 0x400000000000) % 2 ^ 42
  match s.window n with
  | none => none
  | some (ctrl, lba) =>
    let d := bitsOf ctrl 1 2
    if bitOf ctrl 0 && bitsOf ctrl 8 8 == f && s.bayUsable d && decide (lba + w / 4096 < kget 0 s.tiers.blocks d) then
      some (flashKey d (lba * 4096 + w))
    else none

/-- The key of a device address that function f names: near and far through its pool map, flash through its windows,
stores and pads as they stand, host memory; none where it is unmapped (R258, R259). -/
def State.key (s : State) (f a : Nat) : Option Nat :=
  if a ≤ 0x00BFFFFFFFFF then
    match s.page f false (a / 2 ^ 21) with
    | some p => if p.state == .resident || p.state == .pinned then some (p.phys * 2 ^ 21 + a % 2 ^ 21) else none
    | none => none
  else if farKey ≤ a && a ≤ 0x13FFFFFFFFFF then
    match s.page f true ((a - farKey) / 2 ^ 21) with
    | some p => some (farKey + p.phys * 2 ^ 21 + a % 2 ^ 21)
    | none => none
  else if storeKey ≤ a && a ≤ 0x2000FFFFFFFF then some a
  else if padKey ≤ a && a ≤ 0x3002FFFFFFFF then some a
  else if 0x400000000000 ≤ a && a ≤ 0x7FFFFFFFFFFF then s.flashAt f a
  else if 0x800000000000 ≤ a && a ≤ 0xFFFFFFFFFFFF then some (hostKey (a - 0x800000000000))
  else none

/-- The units of die d granted to function f, as in effect: BASE and SIZE (R261). -/
def State.grant (s : State) (f d : Nat) : Nat × Nat :=
  let v := kget 0 s.tiers.carve (8 * f + d)
  (bitsOf v 0 8, bitsOf v 8 9)

/-- Does function f own the store bytes a to a + n − 1: all in one die and in its grant (R262)? -/
def State.ownsStore (s : State) (f a n : Nat) : Bool :=
  let o := a - storeKey
  let d := o / 0x20000000
  let g := s.grant f d
  decide (storeKey ≤ a) && decide (d < 8) && decide (o % 0x20000000 + n ≤ 0x20000000)
    && decide (g.1 * 0x200000 ≤ o % 0x20000000) && decide (o % 0x20000000 + n ≤ (g.1 + g.2) * 0x200000)

/-- Does function f own every store line of a to a + n − 1, on whichever dies they lie (R262)? -/
def State.ownsSpan (s : State) (f a n : Nat) : Bool :=
  let o := a - storeKey
  decide (storeKey ≤ a) && decide (o + n ≤ 8 * 0x20000000) && (List.range 8).all fun d =>
    let lo := max o (0x20000000 * d) - 0x20000000 * d
    let hi := min (o + n) (0x20000000 * (d + 1)) - 0x20000000 * d
    let g := s.grant f d
    decide (hi ≤ lo) || (decide (g.1 * 0x200000 ≤ lo) && decide (hi ≤ (g.1 + g.2) * 0x200000))

/-! ### Stacks and slices (R24, R266, R270, R428) -/

/-- Stack (or channel) and local line index of a physical line, with or without stripe parity (R266, R270). -/
def stackOf (parity : Bool) (line : Nat) : Nat × Nat :=
  if parity then
    let stripe := line / 15
    ((stripe % 16 + 1 + line % 15) % 16, stripe)
  else ((line ^^^ (line / 16) ^^^ (line / 256)) % 16, line / 16)

/-- The slice (die · 128 + slice) whose hold buffer keeps a write to a line or granule; `home` the copy's home die
(R24, R428). -/
def State.sliceOf (s : State) (home k : Nat) : Nat :=
  if k < farKey then
    let x := stackOf (s.bit (tierReg 0) 1) (k / 256)
    x.1 / 2 * 128 + 64 * (x.1 % 2) + x.2 % 64
  else if k < storeKey then
    let x := stackOf false ((k - farKey) / 256)
    x.1 / 2 * 128 + 64 * (x.1 % 2) + x.2 % 64
  else if k < padKey then
    let o := k - storeKey
    let line := o % 0x20000000 / 256
    o / 0x20000000 * 128 + ((line ^^^ (line / 2 ^ 7)) % 128)
  else if isPadKey k then
    let c := (k - padKey) / 0x40000
    dieOf c * 128 + 64 * (c / 3072 % 2) + c / 48 % 64
  else home * 128 + (k - 2 ^ 64) / 256 % 128

/-! ### Held writes (R427–R431) -/

/-- Who reads: a partition's frame of an ordinal, or any other agent (R429). -/
abbrev Viewer := Option (Nat × Nat)

/-- Is a held entry seen by the reader (R429)? -/
def Held.seenBy (h : Held) : Viewer → Bool
  | some (p, o) => if h.part == p then decide (h.ord + 2 ≤ o) else h.committed
  | none => h.committed

/-- A byte as the reader sees it through a list of entries, oldest first. -/
def seenByte (v : Viewer) (k : Nat) : List Held → Byte → Byte
  | [], b => b
  | h :: hs, b =>
    seenByte v k hs (if h.seenBy v then (kget none h.cells k).getD b else b)

/-- A byte of memory as the reader sees it (R429). -/
def State.seen (s : State) (v : Viewer) (k : Nat) : Byte := seenByte v k s.held (Mem.read s.mem k)

/-- n bytes as the reader sees them. -/
def State.seenBytes (s : State) (v : Viewer) (k : Nat) : Nat → List Byte
  | 0 => []
  | n + 1 => s.seen v k :: State.seenBytes s v (k + 1) n

/-- The mark of a unit after an entry's write: marked data marks it, unmarked data that covers it whole clears it
(R298). -/
def Held.markAfter (h : Held) (unit : Nat) (old : Bool) : Bool :=
  if h.mark then true else if h.cells.length == unit then false else old

/-- The mark as the reader sees it through a list of entries. -/
def seenMark (v : Viewer) (base unit : Nat) : List Held → Bool → Bool
  | [], b => b
  | h :: hs, b => seenMark v base unit hs (if h.seenBy v && h.base == base then h.markAfter unit b else b)

/-- The mark of the unit that holds a key, as the reader sees it. -/
def State.seenMarked (s : State) (v : Viewer) (k : Nat) : Bool :=
  seenMark v (markBase k) (markUnit k) s.held (kget false s.marks (markBase k))

/-- Entries of one ordinal that a slice holds in frame, or its asynchronous entries (R428, R431). -/
def State.sliceCount (s : State) (slice part ord : Nat) (async : Bool) : Nat :=
  (s.held.filter fun h => s.sliceOf h.home h.base == slice && h.async == async
    && (async || (h.part == part && h.ord == ord))).length

/-- Is there an entry of the frame for the line already? -/
def State.hasEntry (s : State) (part ord base : Nat) (async : Bool) : Bool :=
  s.held.any fun h => h.part == part && h.ord == ord && h.base == base && h.async == async && !h.committed

/-- In-frame entries that a slice holds, of whatever partition and frame (R428). -/
def State.sliceInFrame (s : State) (slice : Nat) : Nat :=
  (s.held.filter fun h => s.sliceOf h.home h.base == slice && !h.async).length

/-- Can the write be taken into its hold buffer now: it merges, or the slice has room, for its frame and in all (R428, R431)? -/
def State.canHold (s : State) (home part ord base : Nat) (async : Bool) : Bool :=
  let slice := s.sliceOf home base
  s.hasEntry part ord base async ||
    (decide (s.sliceCount slice part ord async < 1024) && (async || decide (s.sliceInFrame slice < 3072)))

/-- Cells merged into an entry's cells. -/
def mergeCells (m : KMap (Option Byte)) : List (Nat × Byte) → KMap (Option Byte)
  | [] => m
  | (k, b) :: cs => mergeCells (kset none m k (some b)) cs

/-- Merge a write into the first entry of the same frame and line, else add an entry at the end. -/
def holdInto (e : Held) (cells : List (Nat × Byte)) (unit : Nat) : List Held → List Held
  | [] => [{ e with cells := mergeCells [] cells }]
  | h :: hs =>
    if h.part == e.part && h.ord == e.ord && h.base == e.base && h.async == e.async && !h.committed then
      { h with
        cells := mergeCells h.cells cells
        mark := e.mark || (h.mark && cells.length != unit)
        outs := h.outs ++ e.outs.filter fun f => !h.outs.contains f } :: hs
    else h :: holdInto e cells unit hs

/-- Hold a write of cells that lie in one line or granule for a frame; `outs`, the function whose span's core makes it, where one
does (R299, R427, R428). -/
def State.hold (s : State) (part ord home : Nat) (async mark : Bool) (base : Nat) (cells : List (Nat × Byte))
    (outs : List Nat := []) : State :=
  let e : Held := { part := part, ord := ord, base := base, mark := mark, async := async, home := home, outs := outs }
  let l := holdInto e cells (markUnit base) s.held
  ({ s with held := l }).tally 1 (s.sliceOf home base / 64) 3 (l.length - s.held.length)

/-- The bytes of a write cut into lines (or granules) by the unit of its first byte; the size bounds the recursion. -/
def cutUnits : Nat → Nat → List Byte → List (Nat × List (Nat × Byte))
  | 0, _, _ => []
  | fuel + 1, k, bs =>
    match bs with
    | [] => []
    | _ =>
      let n := markBase k + markUnit k - k
      (markBase k, (bs.take n).mapIdx fun i b => (k + i, b)) :: cutUnits fuel (k + n) (bs.drop n)

/-- Hold a run of bytes at consecutive keys. -/
def State.holdBytes (s : State) (part ord home : Nat) (async mark : Bool) (k : Nat) (bs : List Byte) (outs : List Nat := []) :
    State :=
  (cutUnits (bs.length + 1) k bs).foldl (fun s u => s.hold part ord home async mark u.1 u.2 outs) s

/-! ### Units that serve lines (R266, R267, R269, R270) -/

/-- The serving unit of a key: stacks 0–15, channels 16–31, drives 32–35, the host 64; a store counts as 80 and its die. -/
def State.serving (s : State) (k : Nat) : Nat :=
  if k < farKey then (stackOf (s.bit (tierReg 0) 1) (k / 256)).1
  else if k < storeKey then 16 + (stackOf false ((k - farKey) / 256)).1
  else if k < padKey then 80 + (k - storeKey) / 0x20000000
  else if 2 ^ 64 ≤ k then 64
  else if flashKey 0 0 ≤ k then 32 + (k - flashKey 0 0) / 2 ^ 50
  else 80

/-- Can no line of a near stack (0–15) or DIMM (16–31) be had: it is lost, or it is retired under parity and another stack is lost,
so that no stripe can be rebuilt (R267, R269, R270)? -/
def State.unitLost (s : State) (u : Nat) : Bool :=
  s.tiers.lost.contains u
    || (s.bit (tierReg 0) 2 && s.field (tierReg 0) 3 4 == u && s.tiers.lost.any fun x => decide (x < 16))

/-- Can the line of a key not be delivered: it carries the mark, or the stack or DIMM that holds it is lost (R267, R269,
R270)? -/
def State.lineBad (s : State) (v : Viewer) (k : Nat) : Bool :=
  s.seenMarked v k || (decide (k < storeKey) && s.unitLost (s.serving k))

/-! ### Release (R265, R430) -/

/-- The cache entry of a physical line: line number and tier (R264). -/
def cacheTag (k : Nat) : Nat := k / 256

/-- A line leaves every die's cache (R265). -/
def invalidate (tag : Nat) (m : KMap (List Nat)) : KMap (List Nat) :=
  (m.map fun x => (x.1, x.2.filter fun t => t != tag)).filter fun x => !x.2.isEmpty

/-- Write an entry to its destination, with its mark; a near or far line leaves the caches (R265, R298, R430). -/
def State.applyEntry (s : State) (h : Held) : State :=
  let cells := h.cells.filterMap fun c => c.2.map fun b => (c.1, b)
  { s with
    mem := Mem.writeCells s.mem cells
    marks := kset false s.marks h.base (h.markAfter (markUnit h.base) (kget false s.marks h.base))
    tiers := { s.tiers with caches := if h.base < storeKey then invalidate (cacheTag h.base) s.tiers.caches else s.tiers.caches } }

/-- Has frame j + 1 of the entry's partition been sealed, with frame j committed (R430)? -/
def State.due (s : State) (h : Held) : Bool := h.committed && decide (h.ord + 2 ≤ (s.part h.part).ord)

/-- Apply every entry that is due, oldest first (R430). -/
def State.applyDue (s : State) : State :=
  let due := s.held.filter s.due
  let s1 := due.foldl State.applyEntry s
  { s1 with held := s.held.filter fun h => !s.due h }

/-- Mark the entries of a committed frame (R47). Those of host memory are posted now, before any DONE record of the frame
(R336, R430). -/
def State.commitHeld (s : State) (part ord : Nat) : State :=
  let mine (h : Held) : Bool := h.part == part && h.ord == ord
  let host (h : Held) : Bool := mine h && decide (2 ^ 64 ≤ h.base)
  let s1 := (s.held.filter host).foldl State.applyEntry s
  { s1 with held := (s1.held.filter fun h => !host h).map fun h => if mine h then { h with committed := true } else h }

/-- Drop the entries of the frames from an ordinal on (R432). -/
def State.discardHeld (s : State) (part ord : Nat) : State :=
  { s with held := s.held.filter fun h => !(h.part == part && decide (ord ≤ h.ord) && !h.committed) }

/-- Write bytes at once, with or without the mark, for agents whose writes are not held. -/
def State.writeMarked (s : State) (k : Nat) (bs : List Byte) (mark : Bool) : State :=
  (cutUnits (bs.length + 1) k bs).foldl (fun s u =>
    s.applyEntry { part := 0, ord := 0, base := u.1, mark := mark, cells := mergeCells [] u.2 }) s

/-- Write bytes at once at tenant addresses of function f, line by line; an address with no page takes nothing (R259, R265). -/
def State.writeTenant (s : State) (f a : Nat) (bs : List Byte) : State :=
  (cutUnits (bs.length + 1) a bs).foldl (fun s u => match u.2.head?.bind fun c => s.key f c.1 with
    | some k => s.writeMarked k (u.2.map (·.2)) false
    | none => s) s

end Sys2Proof.Machine
end

