-- ==== Sys2Proof/Machine/Mirror.lean ====
section
/-! DEFINITION. The carried state of a partition's cores: the CARRY section, the ranges the mirror copies, the slots of the
mirror areas, and what a core may not write while its mirror runs (R433–R437). -/

namespace Sys2Proof.Machine

/-- An entry of the CARRY section (R434). -/
structure Carry where
  vcore : Nat
  pad : Nat
  source : Bool
  first : Nat
  count : Nat
  symbol : Nat
  addend : Nat
deriving DecidableEq, Repr

/-- The CARRY entries of an image (R434). -/
def Img.carries (b : Img) : List Carry :=
  (List.range (b.sec 14).count).map fun i =>
    let o := (b.sec 14).off + 16 + 24 * i
    let fl := b.nat (o + 4) 1
    ⟨b.nat o 4, bitsOf fl 0 2, bitOf fl 2, b.nat (o + 6) 2, b.nat (o + 8) 2, b.nat (o + 0x0C) 4, b.nat (o + 0x10) 8⟩

/-- The virtual core that an image places on logical core c. -/
def ImgHeld.vcore (m : ImgHeld) (c : Nat) : Option Nat := Img.virtual m.bytes m.orgRow m.orgCol c

/-- Is a pad of a core in double mode for the mirror: does any configuration double it (R434)? -/
def Core.anyDouble (k : Core) (bit : Nat) : Bool := (List.range 8).any fun i => bitOf (k.cfg i).toNat bit

/-- The offsets in the pad window, and the lengths, of the pieces of a CARRY entry, under the FRONT bits of a core (R434);
an accumulator entry names both copies of each block. -/
def carryPieces (k : Core) (e : Carry) : List (Nat × Nat) :=
  (List.range e.count).flatMap fun i =>
    let g := e.first + i
    match e.pad with
    | 0 => [(granuleOffset (k.anyDouble 206) (k.anyDouble 207) k.frontW k.frontA k.roles .w g, 32)]
    | 1 => [(granuleOffset (k.anyDouble 206) (k.anyDouble 207) k.frontW k.frontA k.roles .a g, 32)]
    | _ => [(0x28000 + 64 * g, 64), (0x2C000 + 64 * g, 64)]

/-- The key ranges of logical core c that the image's MIRROR entries name (R434), k giving its FRONT bits. -/
def ImgHeld.mirrorRanges (m : ImgHeld) (c : Nat) (k : Core) : List (Nat × Nat) :=
  match m.vcore c with
  | none => []
  | some vi =>
    ((Img.carries m.bytes).filter fun e => e.vcore == vi && !e.source).flatMap fun e =>
      (carryPieces k e).map fun p => (padWindow c + p.1, p.2)

/-- The mirror slot in which a frame ordinal is kept (R437). -/
def Part.snap (p : Part) (ord : Nat) : Snap := if ord % 2 == 0 then p.snap0 else p.snap1

/-- The part with the snapshot of an ordinal replaced. -/
def Part.setSnap (p : Part) (ord : Nat) (s : Snap) : Part :=
  if ord % 2 == 0 then { p with snap0 := s } else { p with snap1 := s }

/-- The sealed frame whose mirror is under way, if any (R436). -/
def Part.mirroring (p : Part) : Option Frame := p.sealed.filter fun f => !f.mirrored

/-- The ranges that core c may not write now: its MIRROR ranges, under the FRONT bits of the snapshot that the frame's mirror takes,
from cycle 16 of the frame until cycle 30,000 (R434, R436). -/
def State.noWrite (s : State) (c : Nat) : List (Nat × Nat) :=
  match s.partOf c with
  | none => []
  | some p =>
    let x := s.part p
    match x.frame, x.image with
    | some fr, some m =>
      let t := s.frameCycle fr
      if decide (16 ≤ t) && decide (t < 30000) then m.mirrorRanges c (kget {} (x.snap (fr.ord - 1)).cores c) else []
    | _, _ => []

/-- The mirror size of logical core c: its image's, or the bare scan image of a core that runs nothing (R435, R437). -/
def ImgHeld.coreSize (m : ImgHeld) (c : Nat) : Nat :=
  match m.vcore c with
  | none => 6144
  | some vi => Img.mirrorSize m.bytes vi

end Sys2Proof.Machine
end

