-- ==== Sys2Proof/Machine/CoreIssue.lean ====
section
/-! DEFINITION. The core instructions as commands: when a thread's instruction issues, what its end does to the thread,
and one meaning per instruction over the operations of the Core* files (R75–R77, R102, R106, R109–R140). DMA and WALK
are in CoreDma. -/

namespace Sys2Proof.Machine

/-! ### Issue (R75, R76, R106) -/

/-- What core c's instructions act on. -/
def State.view (s : State) (c : Nat) : CoreView :=
  { id := c, core := s.core c, mem := s.mem, marks := s.marks, noWrite := s.noWrite c }

/-- The state with core c's view put back. -/
def State.putView (s : State) (c : Nat) (cv : CoreView) : State :=
  { s with cores := kset {} s.cores c cv.core, mem := cv.mem, marks := cv.marks }

/-- Does partition p's work stand still: no partition, stopped, or in recovery (R228, R440)? -/
def State.partStill (s : State) (p : Nat) : Bool := (s.part p).stopped || (s.part p).recov.isSome

/-- Can thread t of core c issue: power and clocks run, the tick window is over, a slot is open, the thread is READY, its partition
runs (R36, R75, R76). -/
def State.canIssue (s : State) (c t : Nat) : Bool :=
  !s.halted && decide (16 ≤ s.subtick) && (s.core c).slotOpen.isSome && ((s.core c).thread t).state == .ready &&
    !(match s.partOf c with
      | some p => s.partStill p
      | none => true)

/-- The configuration whose slot is open. -/
def Core.openCfg (k : Core) : Nat := (k.slotOpen.getD 0).toNat

/-- The word that thread t of core c issues next (R102). -/
def State.nextWord (s : State) (c t : Nat) : Nat :=
  let k := s.core c
  Mem.readNat s.mem (padWindow c + 0x30000 + 0x400 * k.openCfg + 4 * (k.thread t).pc.toNat) 4

/-- Does a word belong to the array slot: MAJOR 0x10 to 0x12 (R76, R140)? -/
def wordArray (w : Nat) : Bool := decide (0x10 ≤ bitsOf w 26 6) && decide (bitsOf w 26 6 ≤ 0x12)

/-- Is it thread t's turn in a slot: of the threads looked at from pointer + 1 on, none before t is READY with an instruction of
the slot (R76)? -/
def State.turnOf (s : State) (c t : Nat) (array : Bool) : Bool :=
  let k := s.core c
  let ptr := (if array then k.arrayPtr else k.generalPtr).toNat
  let ready (i : Nat) : Bool := (k.thread i).state == .ready && wordArray (s.nextWord c i) == array
  (((List.range 16).map fun i => (ptr + 1 + i) % 16).takeWhile (· != t)).all fun i => !ready i

/-- The issue pointer of a slot after thread t issued (R76). -/
def Core.point (k : Core) (array : Bool) (t : BitVec 4) : Core :=
  if array then { k with arrayPtr := t } else { k with generalPtr := t }

/-- The end of an instruction of thread t: its PC moves on, or it faults (R102, R106). -/
def endThread (c : Nat) (t : BitVec 4) (pc : BitVec 8) (s : State) (e : IssueEnd) : State :=
  let k := (s.core c).openCfg
  match e with
  | .seq =>
    if pc == 255 then s.coreFault c t.toNat k pc .pcOverflow
    else s.modCore c fun x => x.modThread t.toNat fun th => { th with pc := pc + 1 }
  | .jump target => s.modCore c fun x => x.modThread t.toNat fun th => { th with pc := target }
  | .stay | .begun => s
  | .fault cause => s.coreFault c t.toNat k pc cause

/-- The end of an instruction that issued: the slot's pointer and the thread (R76). -/
def endIssue (c : Nat) (t : BitVec 4) (array : Bool) (pc : BitVec 8) (r : State × IssueEnd) : State :=
  endThread c t pc (r.1.modCore c (·.point array t)) r.2

/-- Entries in the inbound queues of a core. -/
def Core.inbound (k : Core) : Nat := (List.range 4).foldl (fun n q => n + (kget [] k.qin q).length) 0

/-- What the counters of core c see of an issued instruction: its slot, a filler's, entries popped (R468); `s` the state before. -/
def noteIssue (c : Nat) (array : Bool) (s r : State) : State :=
  let k := s.core c
  let r1 := if array then r else r.tally 0 c 3 1
  let r2 := if cfgFiller k.activeCfg then r1.tally 0 c 9 1 else r1
  r2.tally 0 c 8 (k.inbound - (r.core c).inbound)

/-- The blocks of an executed TMMA are counted (R468). -/
def countBlocks (c n : Nat) (r : State × IssueEnd) : State × IssueEnd :=
  match r.2 with
  | .seq => (r.1.tally 0 c 2 n, r.2)
  | _ => r

/-- A core instruction as a command: nothing where it cannot issue or another thread's turn comes first, an encoding fault where its
fields are illegal (R140), else its meaning and, where it issued, its end. -/
def issue (c : Nat) (t : BitVec 4) (array legal : Bool) (f : State → State × IssueEnd) (s : State) :
    Host.Outcome State Fault Refusal :=
  if !s.isCore c then .fault .noSuchUnit
  else if !(s.canIssue c t.toNat && s.turnOf c t.toNat array) then .next s
  else
    let r := if legal then f s else (s, .fault .encoding)
    if r.2 = .stay then .next r.1
    else .next (noteIssue c array s (endIssue c t array ((s.core c).thread t.toNat).pc r))

/-- A function of a core view as a function of the state. -/
def onView (c : Nat) (f : CoreView → Issue) (s : State) : State × IssueEnd :=
  let r := f (s.view c)
  (s.putView c r.view, r.ending)

/-! ### Meanings -/

/-- ALU (R115). -/
def execAlu (c : Nat) (t : BitVec 4) (rd rs1 rs2 func : BitVec 5) (ext : BitVec 6) (s : State) :
    Host.Outcome State Fault Refusal :=
  issue c t false (aluLegal rd rs1 rs2 func ext)
    (onView c (doAlu t.toNat rd.toNat rs1.toNat rs2.toNat func.toNat ext.toNat)) s

/-- ADDI (R116). -/
def execAddi (c : Nat) (t : BitVec 4) (rd rs1 : BitVec 5) (imm : BitVec 16) (s : State) : Host.Outcome State Fault Refusal :=
  issue c t false true (onView c (doAddi t.toNat rd.toNat rs1.toNat imm)) s

/-- ANDI (R116). -/
def execAndi (c : Nat) (t : BitVec 4) (rd rs1 : BitVec 5) (imm : BitVec 16) (s : State) : Host.Outcome State Fault Refusal :=
  issue c t false true (onView c (doAndi t.toNat rd.toNat rs1.toNat imm)) s

/-- ORI (R116). -/
def execOri (c : Nat) (t : BitVec 4) (rd rs1 : BitVec 5) (imm : BitVec 16) (s : State) : Host.Outcome State Fault Refusal :=
  issue c t false true (onView c (doOri t.toNat rd.toNat rs1.toNat imm)) s

/-- XORI (R116). -/
def execXori (c : Nat) (t : BitVec 4) (rd rs1 : BitVec 5) (imm : BitVec 16) (s : State) : Host.Outcome State Fault Refusal :=
  issue c t false true (onView c (doXori t.toNat rd.toNat rs1.toNat imm)) s

/-- LUI (R116). -/
def execLui (c : Nat) (t : BitVec 4) (rd : BitVec 5) (imm : BitVec 16) (s : State) : Host.Outcome State Fault Refusal :=
  issue c t false true (onView c (doLui t.toNat rd.toNat imm)) s

/-- SHI (R116). -/
def execShi (c : Nat) (t : BitVec 4) (rd rs1 : BitVec 5) (kind : BitVec 2) (sh : BitVec 5) (s : State) :
    Host.Outcome State Fault Refusal :=
  issue c t false (kind != 3) (onView c (doShi t.toNat rd.toNat rs1.toNat kind.toNat sh.toNat)) s

/-- B (R117). -/
def execB (c : Nat) (t : BitVec 4) (p : BitVec 3) (neg : Bool) (target : BitVec 8) (s : State) :
    Host.Outcome State Fault Refusal :=
  issue c t false true (onView c (doB t.toNat p.toNat neg target)) s

/-- LOOP (R117). -/
def execLoop (c : Nat) (t : BitVec 4) (g : BitVec 5) (target : BitVec 8) (s : State) : Host.Outcome State Fault Refusal :=
  issue c t false (g != 0) (onView c (doLoop t.toNat g.toNat target)) s

/-- LD (R118). -/
def execLd (c : Nat) (t : BitVec 4) (rd rs1 : BitVec 5) (size : BitVec 2) (pad sign : Bool) (off : BitVec 12) (s : State) :
    Host.Outcome State Fault Refusal :=
  issue c t false (size != 3 && !(size == 2 && sign))
    (onView c (needing t.toNat (.pad pad) (doLd t.toNat rd.toNat rs1.toNat size.toNat pad sign off))) s

/-- ST (R118). -/
def execSt (c : Nat) (t : BitVec 4) (rs2 rs1 : BitVec 5) (size : BitVec 2) (pad : Bool) (off : BitVec 12) (s : State) :
    Host.Outcome State Fault Refusal :=
  issue c t false (size != 3) (onView c (doSt t.toNat rs2.toNat rs1.toNat size.toNat pad off)) s

/-- AREG (R119). -/
def execAreg (c : Nat) (t : BitVec 4) (a : BitVec 3) (func : BitVec 2) (field : BitVec 3) (g : BitVec 5) (imm : BitVec 12)
    (s : State) : Host.Outcome State Fault Refusal :=
  issue c t false (aregLegal func field g imm)
    (onView c (doAreg t.toNat a.toNat func.toNat field.toNat g.toNat imm)) s

/-- MOVV (R120). -/
def execMovv (c : Nat) (t : BitVec 4) (g : BitVec 5) (v : Bool) (lane : BitVec 2) (word dir : Bool) (s : State) :
    Host.Outcome State Fault Refusal :=
  issue c t false true (onView c (needing t.toNat (.v v) (doMovv t.toNat g.toNat v lane.toNat word dir))) s

/-- FSTAT (R138). -/
def execFstat (c : Nat) (t : BitVec 4) (rd : BitVec 5) (clr : BitVec 8) (mode : BitVec 2) (s : State) :
    Host.Outcome State Fault Refusal :=
  issue c t false (mode != 3) (onView c (doFstat t.toNat rd.toNat clr mode.toNat)) s

/-- YIELD (R139). -/
def execYield (c : Nat) (t : BitVec 4) (s : State) : Host.Outcome State Fault Refusal :=
  issue c t false true (onView c (doYield t.toNat)) s

/-- TMMA (R128, R129). -/
def execTmma (c : Nat) (t : BitVec 4) (aw aa ap : BitVec 3) (left : Bool) (nm1 : BitVec 4) (wf af zero : Bool) (s : State) :
    Host.Outcome State Fault Refusal :=
  issue c t true (tmmaLegal aw aa ap)
    (fun s => countBlocks c (nm1.toNat + 1)
      (onView c (needing t.toNat { w := true, a := true }
        (doTmma ⟨false, aw.toNat, aa.toNat, ap.toNat, left, wf, af, zero⟩ t.toNat (nm1.toNat + 1))) s)) s

/-- TMMA.I8 (R128, R129). -/
def execTmmaI8 (c : Nat) (t : BitVec 4) (aw aa ap : BitVec 3) (left : Bool) (nm1 : BitVec 4) (wf af zero : Bool)
    (s : State) : Host.Outcome State Fault Refusal :=
  issue c t true (tmmaLegal aw aa ap)
    (fun s => countBlocks c (nm1.toNat + 1)
      (onView c (needing t.toNat { w := true, a := true }
        (doTmma ⟨true, aw.toNat, aa.toNat, ap.toNat, left, wf, af, zero⟩ t.toNat (nm1.toNat + 1))) s)) s

/-- TDRAIN (R130, R131). -/
def execTdrain (c : Nat) (t : BitVec 4) (ap : BitVec 3) (cm1 : BitVec 6) (dest : Bool) (ad : BitVec 3) (dfmt : BitVec 4)
    (rnd gb : BitVec 2) (cinc : Bool) (ctr : BitVec 3) (acc : Bool) (s : State) : Host.Outcome State Fault Refusal :=
  issue c t true (tdrainLegal dest ad dfmt rnd gb cinc ctr acc)
    (onView c (doTdrain t.toNat ap.toNat cm1.toNat dest ad dfmt.toNat rnd.toNat gb.toNat cinc ctr acc)) s

/-- VOP (R121). -/
def execVop (c : Nat) (t : BitVec 4) (func : BitVec 5) (fp64 va src2 vb : Bool) (areg : BitVec 3) (pad dst vd hi : Bool)
    (lmask : BitVec 4) (s : State) : Host.Outcome State Fault Refusal :=
  issue c t false (vopLegal func fp64 src2 dst hi lmask)
    (onView c (needing t.toNat (vopNeeds func.toNat va src2 vb pad dst vd)
      (doVop t.toNat func.toNat fp64 va src2 vb areg.toNat pad dst vd hi lmask.toNat))) s

/-- CVT (R122). -/
def execCvt (c : Nat) (t : BitVec 4) (sfmt dfmt : BitVec 4) (rnd : BitVec 2) (src : Bool) (as_ : BitVec 3) (spad dst : Bool)
    (ad : BitVec 3) (dpad : Bool) (part : BitVec 3) (gb : BitVec 2) (s : State) : Host.Outcome State Fault Refusal :=
  issue c t false (cvtLegal sfmt dfmt rnd src as_ spad dst ad dpad part gb)
    (onView c (needing t.toNat ((sourceNeeds src (as_.toNat % 2 == 1) spad).join (.when (!dst) (.v (ad.toNat % 2 == 1))))
      (doCvt t.toNat ((Fmt.ofCode sfmt.toNat).getD .fp32) ((Fmt.ofCode dfmt.toNat).getD .fp32) rnd.toNat src
        as_.toNat spad dst ad.toNat dpad part.toNat gb.toNat))) s

/-- SPLIT (R124). -/
def execSplit (c : Nat) (t : BitVec 4) (ve : Bool) (j k : BitVec 4) (src : Bool) (as_ : BitVec 3) (spad : Bool)
    (ad : BitVec 3) (dpad : Bool) (part : BitVec 3) (s : State) : Host.Outcome State Fault Refusal :=
  issue c t false (splitLegal j k src as_)
    (onView c (needing t.toNat ((Needs.v ve).join (sourceNeeds src (as_.toNat % 2 == 1) spad))
      (doSplit t.toNat ve j.toNat k.toNat src as_.toNat spad ad.toNat dpad part.toNat))) s

/-- MERGE (R125). -/
def execMerge (c : Nat) (t : BitVec 4) (vd vs : Bool) (as_ : BitVec 3) (spad hi : Bool) (gs : BitVec 5) (s : State) :
    Host.Outcome State Fault Refusal :=
  issue c t false (vs != vd)
    (onView c (needing t.toNat { v0 := true, v1 := true, w := !spad, a := spad }
      (doMerge t.toNat vd vs as_.toNat spad hi gs.toNat))) s

/-- SSPK (R126). -/
def execSspk (c : Nat) (t : BitVec 4) (ga : BitVec 5) (as_ : BitVec 3) (spad dpad sfmt : Bool) (rnd gb : BitVec 2)
    (s : State) : Host.Outcome State Fault Refusal :=
  issue c t false (sspkLegal rnd gb)
    (onView c (needing t.toNat (.pad spad) (doSspk t.toNat ga.toNat as_.toNat spad dpad sfmt rnd.toNat gb.toNat))) s

/-- SSUP (R126). -/
def execSsup (c : Nat) (t : BitVec 4) (ga : BitVec 5) (ad : BitVec 3) (dpad spad : Bool) (s : State) :
    Host.Outcome State Fault Refusal :=
  issue c t false true (onView c (needing t.toNat (.pad spad) (doSsup t.toNat ga.toNat ad.toNat dpad spad))) s

/-- RNG (R127). -/
def execRng (c : Nat) (t : BitVec 4) (gb : BitVec 2) (vd half inc : Bool) (s : State) : Host.Outcome State Fault Refusal :=
  issue c t false (gb != 0) (onView c (needing t.toNat (.v vd) (doRng t.toNat gb.toNat vd half inc))) s

/-- QPUSH (R132). -/
def execQpush (c : Nat) (t : BitVec 4) (q : BitVec 2) (areg : BitVec 3) (pad : Bool) (nm1 : BitVec 4) (s : State) :
    Host.Outcome State Fault Refusal :=
  issue c t false true
    (onView c (needing t.toNat (.pad pad) (doQpush t.toNat q.toNat areg.toNat pad (nm1.toNat + 1)))) s

/-- QPOP (R132). -/
def execQpop (c : Nat) (t : BitVec 4) (q : BitVec 2) (areg : BitVec 3) (pad : Bool) (nm1 : BitVec 4) (s : State) :
    Host.Outcome State Fault Refusal :=
  issue c t false true (onView c (doQpop t.toNat q.toNat areg.toNat pad (nm1.toNat + 1))) s

/-- WAITC (R97, R135). -/
def execWaitc (c : Nat) (t : BitVec 4) (ctr : BitVec 3) (gt : BitVec 5) (imm : BitVec 12) (s : State) :
    Host.Outcome State Fault Refusal :=
  issue c t false true (onView c (doWaitc t.toNat ctr.toNat gt.toNat imm)) s

/-- CNTADD (R136). -/
def execCntadd (c : Nat) (t : BitVec 4) (ctr : BitVec 3) (g : BitVec 5) (imm : BitVec 16) (s : State) :
    Host.Outcome State Fault Refusal :=
  issue c t false true (onView c (doCntadd t.toNat ctr.toNat g.toNat imm)) s

/-- CNTRD (R136). -/
def execCntrd (c : Nat) (t : BitVec 4) (ctr : BitVec 3) (g : BitVec 5) (s : State) : Host.Outcome State Fault Refusal :=
  issue c t false true (onView c (doCntrd t.toNat ctr.toNat g.toNat)) s

/-- SWAP (R85, R137). -/
def execSwap (c : Nat) (t : BitVec 4) (sw sa : Bool) (s : State) : Host.Outcome State Fault Refusal :=
  issue c t false (sw || sa) (onView c (doSwap t.toNat sw sa)) s

/-- Is a word an illegal encoding on core c now: it decodes to nothing, or to a SWAP of a pad in single mode (R137,
R140)? -/
def wordIllegal (c : Nat) (t : BitVec 4) (word : Word) (s : State) : Bool :=
  match decodeCore c t word with
  | none => true
  | some (.swap _ _ sw sa) =>
    let r := (s.core c).activeCfg.toNat
    (sw && !bitOf r 206) || (sa && !bitOf r 207)
  | some _ => false

/-- A word that R140 calls illegal reaches issue, through the slot of its MAJOR: it only faults. A legal word has no such
effect. -/
def execIllegalEncoding (c : Nat) (t : BitVec 4) (word : Word) (s : State) : Host.Outcome State Fault Refusal :=
  let major := (word.extractLsb' 26 6).toNat
  if s.isCore c && !wordIllegal c t word s then .next s
  else issue c t (decide (0x10 ≤ major) && decide (major ≤ 0x12)) false (fun s => (s, .seq)) s

end Sys2Proof.Machine
end

