-- ==== Sys2Proof/Machine/Walk.lean ====
section
/-! DEFINITION. Walk blocks: their fields, the checks of their start, the visit order, and which bytes each unit of a
tile moves (R231–R249, R254, R256). Pure functions of the block; memory is reached only through the callers. -/

namespace Sys2Proof.Machine

/-- One tile loop (R236). -/
structure TileLoop where
  count : Nat
  stride : Nat
  order : Nat
  haloLo : Nat
  haloHi : Nat
deriving DecidableEq, Repr

/-- One tensor dimension (R233). -/
structure TensorDim where
  count : Nat
  stride : Int
deriving DecidableEq, Repr

/-- A walk block's fields (R232, R233, R236). -/
structure WalkBlk where
  bufBase : Nat
  nbuf : Nat
  layout : Nat
  edge : Nat
  shrink : Bool
  bmode : Nat
  scatter : Bool
  bufStride : Nat
  bufBstride : Nat
  pitch : Nat
  ptrList : Nat
  hilEn : Bool
  ha : Nat
  hb : Nat
  relEn : Bool
  rctr : Nat
  fill : Nat
  loops : List TileLoop
  base : Nat
  fmt : Nat
  tier : Nat
  ndim : Nat
  dims : List TensorDim
  reservedZero : Bool
deriving DecidableEq, Repr

/-- Read the fields of a 128 B walk block (R233, R236). -/
def parseWalk (bs : List Byte) : WalkBlk :=
  let n := leNat bs
  let f (off size : Nat) : Nat := bitsOf n (8 * off) (8 * size)
  let ctrl := f 7 1
  let hil := f 0x16 1
  let rel := f 0x17 1
  let loops := (List.range 6).map fun i =>
    let l := f (0x1C + 6 * i) 6
    TileLoop.mk (bitsOf l 0 16) (bitsOf l 16 16) (bitsOf l 32 3) (bitsOf l 35 4) (bitsOf l 39 4)
  let dims := (List.range 6).map fun i =>
    let d := f (0x50 + 8 * i) 8
    TensorDim.mk (bitsOf d 0 24) (BitVec.ofNat 40 (bitsOf d 24 40)).toInt
  let loopRes := (List.range 6).all fun i => bitsOf (f (0x1C + 6 * i) 6) 43 5 == 0
  let bmode := bitsOf ctrl 5 2
  let ptr := f 0x10 6
  { bufBase := f 0 6, nbuf := f 6 1 + 1, layout := bitsOf ctrl 0 2, edge := bitsOf ctrl 2 2, shrink := bitOf ctrl 4
    bmode := bmode, scatter := bitOf ctrl 7, bufStride := 32 * f 8 3, bufBstride := 32 * f 0xB 3, pitch := 32 * f 0xE 2
    ptrList := ptr, hilEn := bitOf hil 0, ha := bitsOf hil 1 3, hb := bitsOf hil 4 3, relEn := bitOf rel 0
    rctr := bitsOf rel 1 3, fill := f 0x18 4, loops := loops, base := f 0x40 8, fmt := bitsOf (f 0x48 1) 0 4
    tier := bitsOf (f 0x48 1) 4 4, ndim := bitsOf (f 0x49 1) 0 3, dims := dims
    reservedZero := loopRes && !bitOf hil 7 && bitsOf rel 4 4 == 0 && bitsOf (f 0x49 1) 3 5 == 0 && f 0x4A 6 == 0
      && bitsOf ctrl 0 2 != 3 && bmode != 3 && (bmode == 2 || ptr == 0) }

/-- Dimension i of the tensor. -/
def WalkBlk.dim (w : WalkBlk) (i : Nat) : TensorDim := w.dims.getD i ⟨0, 0⟩
/-- Loop i. -/
def WalkBlk.loop (w : WalkBlk) (i : Nat) : TileLoop := w.loops.getD i ⟨0, 0, 0, 0, 0⟩

/-- The element size, 17 for an SS8 block (R235). -/
def WalkBlk.es (w : WalkBlk) : Nat :=
  match Fmt.ofCode w.fmt with
  | some .ss8 => 17
  | some f => f.size
  | none => 1

/-- Is there a batch dimension, NDIM − 1 (R244)? -/
def WalkBlk.batch (w : WalkBlk) : Bool := w.bmode != 0
/-- How many dimensions are tiled. -/
def WalkBlk.tiled (w : WalkBlk) : Nat := if w.batch then w.ndim - 1 else w.ndim
/-- Items of the batch loop (R241). -/
def WalkBlk.items (w : WalkBlk) : Nat := if w.batch then (w.dim (w.ndim - 1)).count else 1

/-- The core extent of dimension i (R237). -/
def WalkBlk.coreExt (w : WalkBlk) (i : Nat) : Nat :=
  if (w.loop i).stride != 0 then (w.loop i).stride else (w.dim i).count

/-- E_i: the tile's extent; 1 in the batch dimension and beyond NDIM (R237). -/
def WalkBlk.extent (w : WalkBlk) (i : Nat) : Nat :=
  if i < w.tiled then w.coreExt i + (w.loop i).haloLo + (w.loop i).haloHi else 1

/-- RB, the row bytes of ROW (R247). -/
def WalkBlk.rowBytes (w : WalkBlk) : Nat := (w.extent 0 * w.es + 31) / 32 * 32
/-- P, the row pitch (R247). -/
def WalkBlk.rowPitch (w : WalkBlk) : Nat := if w.pitch == 0 then w.rowBytes else w.pitch
/-- Rows of a tile: E_1 · … · E_5. -/
def WalkBlk.rows (w : WalkBlk) : Nat := w.extent 1 * w.extent 2 * w.extent 3 * w.extent 4 * w.extent 5
/-- r of the block layouts (R248). -/
def WalkBlk.blkR (w : WalkBlk) : Nat := if w.layout == 1 then 4 else 8
/-- w of the block layouts (R248). -/
def WalkBlk.blkW (w : WalkBlk) : Nat := if w.layout == 1 then 8 else 4

/-- The footprint of a tile in bytes (R246–R248). -/
def WalkBlk.footprint (w : WalkBlk) : Nat :=
  if w.layout == 0 then (w.rows - 1) * w.rowPitch + w.rowBytes else w.rows * w.extent 0 * w.es

/-! ### Visit order (R241, R242) -/

/-- The Hilbert point of d, s doubling from 1 while below m (R242). -/
def hilbertGo : Nat → Nat → Nat → Nat → Nat → Nat → Nat × Nat
  | 0, _, _, _, x, y => (x, y)
  | fuel + 1, m, s, d, x, y =>
    if s < m then
      let rx := d / 2 % 2
      let ry := (d + rx) % 2
      let p : Nat × Nat :=
        if ry == 0 then (if rx == 1 then (s - 1 - y, s - 1 - x) else (y, x)) else (x, y)
      hilbertGo fuel m (2 * s) (d / 4) (p.1 + s * rx) (p.2 + s * ry)
    else (x, y)

/-- hilbert_xy(m, d) (R242). -/
def hilbertXY (m d : Nat) : Nat × Nat := hilbertGo 18 m 1 d 0 0

/-- The smallest power of two not below n. -/
def ceilPow2 (n : Nat) : Nat := if n ≤ 1 then 1 else 2 ^ (Nat.log2 (n - 1) + 1)

/-- m of the Hilbert pair (R242). -/
def WalkBlk.hilM (w : WalkBlk) : Nat := ceilPow2 (max (w.loop w.ha).count (w.loop w.hb).count)

/-- The tiled dimension at nesting position p. -/
def WalkBlk.loopAt (w : WalkBlk) (p : Nat) : Nat :=
  (lfind (fun i => (w.loop i).order == p) (List.range w.tiled) 0).getD 0

/-- The lower position of the Hilbert pair. -/
def WalkBlk.hpos (w : WalkBlk) : Nat := min (w.loop w.ha).order (w.loop w.hb).order

/-- The radix of each position, innermost first; the Hilbert pair is one position of m·m points (R241). -/
def WalkBlk.radices (w : WalkBlk) : List Nat :=
  (List.range w.tiled).filterMap fun p =>
    if w.hilEn && p == w.hpos then some (w.hilM * w.hilM)
    else if w.hilEn && p == w.hpos + 1 then none
    else some (w.loop (w.loopAt p)).count

/-- The number of points of the visit order, skipped ones counted. -/
def WalkBlk.span (w : WalkBlk) : Nat := w.radices.foldl (· * ·) 1

/-- The tile indices of point j as (dimension, index) pairs; none where the point is skipped (R241). -/
def WalkBlk.digits (w : WalkBlk) : List Nat → Nat → Nat → Option (List (Nat × Nat))
  | [], _, _ => some []
  | r :: rs, pos, q =>
    let digit := q % r
    if w.hilEn && pos == w.hpos then
      let xy := hilbertXY w.hilM digit
      if xy.1 ≥ (w.loop w.ha).count || xy.2 ≥ (w.loop w.hb).count then none
      else (w.digits rs (pos + 2) (q / r)).map fun l => (w.ha, xy.1) :: (w.hb, xy.2) :: l
    else (w.digits rs (pos + 1) (q / r)).map fun l => (w.loopAt pos, digit) :: l

/-- The tile index n_i of each tiled dimension at point j. -/
def WalkBlk.tileAt (w : WalkBlk) (j : Nat) : Option (List Nat) :=
  (w.digits w.radices 0 j).map fun l =>
    (List.range w.tiled).map fun i => ((l.find? fun p => p.1 == i).map (·.2)).getD 0

/-- The first point from j on that is visited, within fuel points. -/
def WalkBlk.nextPoint (w : WalkBlk) : Nat → Nat → Option Nat
  | 0, _ => none
  | fuel + 1, j => if j ≥ w.span then none else if (w.tileAt j).isSome then some j else w.nextPoint fuel (j + 1)

/-! ### Elements and layouts (R237, R238, R247, R248) -/

/-- The tensor coordinate of tile element t_i in tile n_i (R237). -/
def WalkBlk.coord (w : WalkBlk) (n : List Nat) (i t : Nat) : Int :=
  (n.getD i 0 : Int) * (w.loop i).stride - (w.loop i).haloLo + t

/-- Is the element with tile coordinates t in range (R237)? -/
def WalkBlk.inRange (w : WalkBlk) (n t : List Nat) : Bool :=
  (List.range w.tiled).all fun i =>
    decide (0 ≤ w.coord n i (t.getD i 0)) && decide (w.coord n i (t.getD i 0) < (w.dim i).count)

/-- Is it a halo element (R237)? -/
def WalkBlk.isHalo (w : WalkBlk) (t : List Nat) : Bool :=
  (List.range w.tiled).any fun i =>
    decide (t.getD i 0 < (w.loop i).haloLo) || decide (t.getD i 0 ≥ w.extent i - (w.loop i).haloHi)

/-- Byte address of the element at tensor coordinates given by c, from an item base. -/
def WalkBlk.elemAddr (w : WalkBlk) (base : Int) (c : Nat → Int) : Int :=
  (List.range w.tiled).foldl (fun a i => a + c i * (w.dim i).stride) base

/-- t_1 … t_5 of row ρ. -/
def WalkBlk.rowCoords (w : WalkBlk) (row : Nat) : List Nat :=
  let e := w.extent
  [row % e 1, row / e 1 % e 2, row / (e 1 * e 2) % e 3, row / (e 1 * e 2 * e 3) % e 4, row / (e 1 * e 2 * e 3 * e 4)]

/-- What byte `off` of a tile's footprint holds: nothing (beyond the row bytes), a zero of the row's padding, or byte
k of the element with tile coordinates t (R247, R248). -/
inductive TileByte where
  | gap
  | zero
  | elem (t : List Nat) (k : Nat)
deriving DecidableEq, Repr

/-- The layout, from footprint offset to element byte. -/
def WalkBlk.byteAt (w : WalkBlk) (off : Nat) : TileByte :=
  if w.layout == 0 then
    let row := off / w.rowPitch
    let x := off % w.rowPitch
    if x ≥ w.rowBytes then .gap
    else if x ≥ w.extent 0 * w.es then .zero
    else .elem (x / w.es :: w.rowCoords row) (x % w.es)
  else
    let bpr := w.extent 0 * w.es / w.blkW
    let g := off / 32
    let q := off % 32
    let bands := w.extent 1 / w.blkR
    let x := g % bpr * w.blkW + q % w.blkW
    let row := (g / bpr % bands) * w.blkR + q / w.blkW + w.extent 1 * (g / bpr / bands)
    .elem (x / w.es :: w.rowCoords row) (x % w.es)

/-- The layout, from row and row byte to footprint offset. -/
def WalkBlk.offsetOf (w : WalkBlk) (row x : Nat) : Nat :=
  if w.layout == 0 then row * w.rowPitch + x
  else
    let bpr := w.extent 0 * w.es / w.blkW
    let t1 := row % w.extent 1
    let u := row / w.extent 1
    32 * ((u * (w.extent 1 / w.blkR) + t1 / w.blkR) * bpr + x / w.blkW) + (t1 % w.blkR) * w.blkW + x % w.blkW

/-- Where a gathered byte comes from: a fixed value, or a byte of the tensor (R238). -/
inductive ByteSrc where
  | value (b : Byte)
  | addr (a : Int)
deriving DecidableEq, Repr

/-- Byte k of the FILL element (R238). -/
def WalkBlk.fillByte (w : WalkBlk) (k : Nat) : Byte :=
  match Fmt.ofCode w.fmt with
  | some .ss8 => BitVec.ofNat 8 (if k == 0 then bitsOf w.fill 0 8 else bitsOf w.fill 8 8)
  | some .fp64 => BitVec.ofNat 8 (bitsOf (convert .fp32 .fp64 .rne false w.fill).1 (8 * k) 8)
  | _ => BitVec.ofNat 8 (bitsOf w.fill (8 * k) 8)

/-- The source of byte k of an element in tile n of an item with the given base (R238). -/
def WalkBlk.srcOf (w : WalkBlk) (base : Int) (n t : List Nat) (k : Nat) : ByteSrc :=
  let c (i : Nat) : Int := w.coord n i (t.getD i 0)
  if w.inRange n t then .addr (w.elemAddr base c + k)
  else
    match w.edge with
    | 0 => .value 0
    | 1 => .addr (w.elemAddr base (fun i => max 0 (min (c i) ((w.dim i).count - 1))) + k)
    | 2 => .addr (w.elemAddr base (fun i => c i % (w.dim i).count) + k)
    | _ => .value (w.fillByte k)

/-- The bytes of gathered unit i: (destination address, source), units of `u` bytes aligned in the destination's
address; the empty list where the unit is not delivered (R239, R251). -/
def WalkBlk.gatherUnit (w : WalkBlk) (u buf : Nat) (base : Int) (n : List Nat) (i : Nat) : List (Nat × ByteSrc) :=
  let lo := max buf ((buf / u + i) * u)
  let hi := min (buf + w.footprint) ((buf / u + i + 1) * u)
  let bytes := (List.range (hi - lo)).map fun d => (lo + d, w.byteAt (lo + d - buf))
  let kept := bytes.any fun p => match p.2 with
    | .elem t _ => !w.shrink || w.inRange n t || w.isHalo t
    | .zero => !w.shrink
    | .gap => false
  if kept then
    bytes.filterMap fun p => match p.2 with
      | .gap => none
      | .zero => some (p.1, .value 0)
      | .elem t k => some (p.1, w.srcOf base n t k)
  else []

/-- Units a gathered tile spans. -/
def WalkBlk.gatherCount (w : WalkBlk) (u buf : Nat) : Nat := (buf + w.footprint - 1) / u - buf / u + 1

/-- Units of a row of a scattered tile, at most. -/
def WalkBlk.rowUnits (w : WalkBlk) (u : Nat) : Nat := w.extent 0 * w.es / u + 2

/-- The bytes of scattered unit i: (tensor address, address in the ring buffer); only in-range elements (R240). -/
def WalkBlk.scatterUnit (w : WalkBlk) (u buf : Nat) (base : Int) (n : List Nat) (i : Nat) : List (Nat × ByteSrc) :=
  let row := i / w.rowUnits u
  let kappa := i % w.rowUnits u
  let rc := w.rowCoords row
  let start := w.elemAddr base fun d => w.coord n d (if d == 0 then 0 else rc.getD (d - 1) 0)
  let lo := (start / u + kappa) * u
  (List.range u).filterMap fun d =>
    let a := lo + d
    let x := a - start
    if 0 ≤ x && x < (w.extent 0 * w.es : Nat) then
      let x := x.toNat
      if w.inRange n (x / w.es :: rc) then some (a.toNat, .addr (buf + w.offsetOf row x)) else none
    else none

/-- The bytes of unit i of the tile (R251). -/
def WalkBlk.unitBytes (w : WalkBlk) (u buf : Nat) (base : Int) (n : List Nat) (i : Nat) : List (Nat × ByteSrc) :=
  if w.scatter then w.scatterUnit u buf base n i else w.gatherUnit u buf base n i

/-- Unit indices of a tile. -/
def WalkBlk.unitCount (w : WalkBlk) (u buf : Nat) : Nat :=
  if w.scatter then w.rows * w.rowUnits u else w.gatherCount u buf

/-- The first unit from i on that moves anything, within fuel units. -/
def WalkBlk.nextUnit (w : WalkBlk) (u buf : Nat) (base : Int) (n : List Nat) : Nat → Nat → Option Nat
  | 0, _ => none
  | fuel + 1, i =>
    if i ≥ w.unitCount u buf then none
    else if (w.unitBytes u buf base n i).isEmpty then w.nextUnit u buf base n fuel (i + 1) else some i

/-- The ring buffer of tile s of item b (R246). -/
def WalkBlk.bufOf (w : WalkBlk) (b s : Nat) : Nat := w.bufBase + w.bufBstride * b + w.bufStride * (s % w.nbuf)

/-- The point after (item, point): the next visited one of the item, or the first of the next item (R241). -/
def WalkBlk.advance (w : WalkBlk) (item point : Nat) : Option (Nat × Nat) :=
  match w.nextPoint (w.span + 1) (point + 1) with
  | some j => some (item, j)
  | none => if item + 1 < w.items then (w.nextPoint (w.span + 1) 0).map fun j => (item + 1, j) else none

/-- The tile index at a visited point. -/
def WalkBlk.tile (w : WalkBlk) (point : Nat) : List Nat := (w.tileAt point).getD []

/-- The next unit of a tile that moves bytes, from unit i on. -/
def WalkBlk.unitFrom (w : WalkBlk) (u buf : Nat) (base : Int) (n : List Nat) (i : Nat) : Option Nat :=
  w.nextUnit u buf base n (w.unitCount u buf + 1) i

/-! ### The start checks (R234, R243, R244, R246–R248, R254, R256) -/

/-- The address range a TIER code names (R234); the second range of PAD is the local pad alias (R133). -/
def tierRange (tier : Nat) (lo hi : Int) : Bool :=
  let inside (a b : Int) : Bool := decide (a ≤ lo) && decide (hi ≤ b)
  match tier with
  | 0 => inside 0 0x00BFFFFFFFFF
  | 1 => inside 0x100000000000 0x13FFFFFFFFFF
  | 2 => inside 0x200000000000 0x2000FFFFFFFF
  | 3 => inside 0x300000000000 0x3002FFFFFFFF || inside 0x3FFF00000000 0x3FFF00027FFF
  | 4 => inside 0x400000000000 0x7FFFFFFFFFFF
  | _ => false

/-- The tiers a tensor may lie in at a level (R231). -/
def tensorTierOk (level tier : Nat) : Bool :=
  match level with
  | 0 => tier == 1 || tier == 4
  | 1 => tier == 0
  | _ => tier == 2 || tier == 3

/-- The span of a tensor's element addresses from a base: lowest and highest byte. -/
def WalkBlk.tensorSpan (w : WalkBlk) (base : Int) : Int × Int :=
  let n := if w.bmode == 2 then w.tiled else w.ndim
  let f (lo : Bool) := (List.range n).foldl (fun a i =>
    let x := ((w.dim i).count - 1 : Int) * (w.dim i).stride
    if lo then a + min 0 x else a + max 0 x) base
  (f true, f false + w.es - 1)

/-- Is the byte range within one space of R93 and R94: one die's store, one core's W- or A-pad, the W or A range of
the local alias, or the near tier? -/
def oneSpace (lo hi : Nat) : Bool :=
  if 0x200000000000 ≤ lo && hi ≤ 0x2000FFFFFFFF then lo / 0x20000000 == hi / 0x20000000
  else if 0x300000000000 ≤ lo && hi ≤ 0x3002FFFFFFFF then
    lo / 0x40000 == hi / 0x40000 &&
      (hi % 0x40000 < 0x18000 || (0x18000 ≤ lo % 0x40000 && hi % 0x40000 < 0x28000))
  else if 0x3FFF00000000 ≤ lo && hi ≤ 0x3FFF00027FFF then
    hi < 0x3FFF00018000 || 0x3FFF00018000 ≤ lo
  else hi ≤ 0x00BFFFFFFFFF

/-- Ring-buffer tiers of a level (R231). -/
def ringTierOk (level lo : Nat) : Bool :=
  match level with
  | 0 => lo ≤ 0x00BFFFFFFFFF
  | 1 => 0x200000000000 ≤ lo && lo ≤ 0x2000FFFFFFFF
  | _ => (0x200000000000 ≤ lo && lo ≤ 0x2000FFFFFFFF) || (0x300000000000 ≤ lo && lo ≤ 0x3002FFFFFFFF)
      || (0x3FFF00000000 ≤ lo && lo ≤ 0x3FFF00027FFF)

/-- The last byte any ring buffer of any item reaches. -/
def WalkBlk.ringEnd (w : WalkBlk) : Nat :=
  w.bufBase + w.bufBstride * (w.items - 1) + w.bufStride * (w.nbuf - 1) + w.footprint - 1

/-- Does a ring-buffer address lie in a pad? -/
def inPad (a : Nat) : Bool := 0x300000000000 ≤ a

/-- The loop of dimension i is legal (R241, R244, R254, R256). -/
def WalkBlk.loopOk (w : WalkBlk) (i : Nat) : Bool :=
  let l := w.loop i
  let d := w.dim i
  if i ≥ w.ndim then l.count == 0 && d.count == 0 && d.stride == 0
  else if w.batch && i == w.ndim - 1 then
    l.count == d.count && l.stride == 1 && l.haloLo == 0 && l.haloHi == 0 && l.order == w.ndim - 1 && d.count != 0
      && (w.bmode != 2 || (d.stride == 0 && d.count ≤ 65535))
  else
    d.count != 0 && l.count != 0 && (if l.stride == 0 then l.count == 1 else l.count ≤ (d.count + l.stride - 1) / l.stride)
      && (!w.scatter || (l.haloLo == 0 && l.haloHi == 0))
      && (w.edge != 2 || (l.haloLo ≤ d.count && l.haloHi ≤ d.count))

/-- ORDER values are 0, 1, … without gap or repeat over the tiled loops (R241). -/
def WalkBlk.orderOk (w : WalkBlk) : Bool :=
  (List.range w.tiled).all fun p => (List.range w.tiled).any fun i => (w.loop i).order == p

/-- The Hilbert rules (R243, R256). -/
def WalkBlk.hilOk (w : WalkBlk) (level : Nat) : Bool :=
  if w.hilEn then
    level != 0 && w.ha != w.hb && w.ha < w.tiled && w.hb < w.tiled &&
      ((w.loop w.ha).order + 1 == (w.loop w.hb).order || (w.loop w.hb).order + 1 == (w.loop w.ha).order) && w.hilM ≤ 65536
  else w.ha == 0 && w.hb == 0

/-- The layout rules (R247, R248, R256). -/
def WalkBlk.layoutOk (w : WalkBlk) (level : Nat) : Bool :=
  (if w.layout == 0 then w.rowPitch ≥ w.extent 0 * w.es
    else level == 2 && inPad w.bufBase && w.extent 0 * w.es % w.blkW == 0 && w.extent 1 % w.blkR == 0
      && w.fmt != 3 && w.fmt != 6 && w.pitch == 0 && w.blkR * w.extent 0 * w.es ≤ 1024) &&
    decide (w.footprint ≤ (if level == 2 then 0x100000 else 0x2000000))

/-- Every start check that needs only the block and the level (R254). -/
def WalkBlk.ok (w : WalkBlk) (level : Nat) : Bool :=
  let sp := w.tensorSpan w.base
  w.reservedZero && decide (w.fmt < 8) && tensorTierOk level w.tier && decide (1 ≤ w.ndim) && decide (w.ndim ≤ 6)
    && (!w.batch || decide (2 ≤ w.ndim)) && (List.range 6).all w.loopOk && w.orderOk
    && decide ((w.dim 0).stride = w.es) && tierRange w.tier sp.1 sp.2
    && w.hilOk level && w.layoutOk level && (level == 2 || !w.relEn)
    && (w.tier != 4 || !w.scatter)
    && ringTierOk level w.bufBase && oneSpace w.bufBase w.ringEnd
    && decide (w.items * ((List.range w.tiled).foldl (fun a i => a * (w.loop i).count) 1) < 2 ^ 32)
    && (w.bmode != 2 || w.ptrList % 8 == 0)

end Sys2Proof.Machine
end

