-- ==== Sys2Proof/Machine/CoreDma.lean ====
section
/-! DEFINITION. A core's DMA slots: what they reach, DMA at issue, faults and ends of a slot, messages to remote windows, when
engines run (R87, R93–R95, R105, R106, R133, R262, R323, R324, R327). The port that serves them is in CorePort. -/

namespace Sys2Proof.Machine

/-! ### Addresses a core's engines reach (R86, R87, R93, R94, R133, R262, R323) -/

/-- The thread granule of a physical offset of a core's own W- or A-pad (R84). -/
def threadGranule (r : BitVec 256) (frontW frontA : Bool) (off : Nat) : Pad × Nat :=
  if off < 0x18000 then
    (.w, (if bitOf r.toNat 206 && frontW then (off + 0xC000) % 0x18000 else off) / 32)
  else
    (.a, (if bitOf r.toNat 207 && frontA then (off - 0x18000 + 0x8000) % 0x10000 else off - 0x18000) / 32)

/-- The window offset of a byte offset in the local pad alias (R84, R133). -/
def aliasOffset (r : BitVec 256) (frontW frontA : Bool) (o : Nat) : Nat :=
  if o < 0x18000 then granuleOffset (bitOf r.toNat 206) (bitOf r.toNat 207) frontW frontA 0 .w (o / 32) + o % 32
  else granuleOffset (bitOf r.toNat 206) (bitOf r.toNat 207) frontW frontA 0 .a ((o - 0x18000) / 32) + o % 32

/-- The thread granule of a byte offset in the local pad alias. -/
def aliasGranule (o : Nat) : Pad × Nat := if o < 0x18000 then (.w, o / 32) else (.a, (o - 0x18000) / 32)

/-- Every granule from offset `off`, n bytes on, of the own pads lies within the bounds, by a map to thread granules. -/
def rangeBound (r : BitVec 256) (g : Nat → Pad × Nat) (off n : Nat) : Bool :=
  (List.range (n / 32)).all fun i => inBounds r (g (off + 32 * i)).1 (g (off + 32 * i)).2

/-- Where one end of a transfer lies: a key, whether in the core's own pads, the stream of a remote window. -/
structure DmaEnd where
  key : Nat
  own : Bool := false
  stream : Option Nat := none
deriving DecidableEq, Repr

/-- One end of a transfer of n bytes at address a, of core c under its active configuration; an own-pad range out of
bounds is a bounds fault, every other breach a DMA fault (R93, R94, R104, R262, R323). -/
def State.dmaEnd (s : State) (c : Nat) (dest : Bool) (a n : Nat) : Except Cause DmaEnd :=
  let k := s.core c
  let r := k.activeCfg
  let f := cfgTenant r
  if 0x3FFF00000000 ≤ a && a + n ≤ 0x3FFF00028000 then
    let o := a - 0x3FFF00000000
    if !oneSpace a (a + n - 1) then .error .dma
    else if !rangeBound r aliasGranule o n then .error .bounds
    else .ok { key := padWindow c + aliasOffset r k.frontW k.frontA o, own := true }
  else if padKey ≤ a && a + n ≤ 0x300300000000 then
    let c2 := (a - padKey) / 0x40000
    if !oneSpace a (a + n - 1) then .error .dma
    else if c2 == c then
      if rangeBound r (threadGranule r k.frontW k.frontA) (a % 0x40000) n then .ok { key := a, own := true } else .error .bounds
    else if s.isCore c2 && (s.partOf c2).isSome && s.partOf c2 == s.partOf c then .ok { key := a }
    else .error .dma
  else if storeKey ≤ a && a + n ≤ 0x200100000000 then
    if s.ownsStore f a n then .ok { key := a } else .error .dma
  else if dest && a / 2 ^ 60 == 0xE then
    let h := bitsOf a 48 12
    let o := a % 2 ^ 48
    match kget none s.links.streams h with
    | some st => if st.func == f && decide (o + n ≤ 32 * st.dstSize) then .ok { key := o, stream := some h } else .error .dma
    | none => .error .dma
  else .error .dma

/-! ### Slots (R93) -/

/-- Transfer slot i. -/
def Core.slot (k : Core) (i : Nat) : Option DmaSlot := kget none k.slots i

/-- Replace transfer slot i. -/
def Core.setSlot (k : Core) (i : Nat) (d : Option DmaSlot) : Core := { k with slots := kset none k.slots i d }

/-- The lowest-numbered free slot (R93). -/
def Core.freeSlot (k : Core) : Option Nat := (List.range 8).find? fun i => (k.slot i).isNone

/-- The slot of core c replaced in the state. -/
def State.setSlot (s : State) (c i : Nat) (d : Option DmaSlot) : State := s.modCore c (·.setSlot i d)

/-- The thread waits for a transfer slot (R75). -/
def waitSlot (c : Nat) (t : BitVec 4) (s : State) : State × IssueEnd :=
  (s.modCore c fun k => k.modThread t.toNat ({ · with state := .waitDma }), .stay)

/-- The ordinal of the frame that partition p has open. -/
def State.ordOf (s : State) (p : Nat) : Nat := (s.part p).ord

/-- The function whose program configuration i of core c belongs to (R299, R340). -/
def State.tenantOn (s : State) (c : Nat) (i : BitVec 3) : List Nat :=
  if cfgFiller ((s.core c).cfg i.toNat) then [cfgTenant ((s.core c).cfg i.toNat)]
  else ((s.partOf c).map fun p => (s.part p).func).toList

/-- What configuration i of core c sees: the frame of the core's partition; a filler's sees what has committed (R429). -/
def State.viewerOf (s : State) (c : Nat) (i : BitVec 3) : Viewer :=
  if cfgFiller ((s.core c).cfg i.toNat) then none else (s.partOf c).map fun p => (p, s.ordOf p)

/-- DMA at issue (R93, R94, R133). -/
def dmaIssue (c : Nat) (t : BitVec 4) (gs gd gl : Nat) (ctr : BitVec 3) (s : State) : State × IssueEnd :=
  let k := s.core c
  let th := k.thread t.toNat
  match k.freeSlot with
  | none => waitSlot c t s
  | some i =>
    if !cntAllowed k.activeCfg ctr.toNat then (s, .fault .counter)
    else
      let a := (th.getPair gs).toNat
      let d := (th.getPair gd).toNat
      let n := (th.getG gl).toNat
      if n == 0 || decide (0x100000 < n) || n % 32 != 0 || a % 32 != 0 || d % 32 != 0 then (s, .fault .dma)
      else
        match s.dmaEnd c false a n, s.dmaEnd c true d n with
        | .error e, _ => (s, .fault e)
        | _, .error e => (s, .fault e)
        | .ok x, .ok y =>
          let ord := ((s.partOf c).map s.ordOf).getD 0
          let count := kget 0 s.links.xferCount c
          let sl : DmaSlot := { src := x.key, dst := y.key, len := n, ctr := ctr, thread := t, cfg := BitVec.ofNat 3 k.openCfg
                                srcLocal := x.own, dstLocal := y.own, stream := y.stream, xfer := count, ord := ord }
          let s1 := s.setSlot c i (some sl)
          ({ s1 with links := { s1.links with xferCount := kset 0 s1.links.xferCount c (count + 1) } }, .seq)

/-- DMA (R133). -/
def execDma (c : Nat) (t : BitVec 4) (gs gd gl : BitVec 5) (ctr : BitVec 3) (s : State) : Host.Outcome State Fault Refusal :=
  issue c t false (pairField gs && pairField gd && gl != 0) (dmaIssue c t gs.toNat gd.toNat gl.toNat ctr) s

/-! ### Faults and arrivals of a slot (R95, R106) -/

/-- A request at a port after slot i of core c is freed by a fault: a read for it is dropped, a write under way lands and counts for no
slot. -/
def ExtReq.orphan (c i : Nat) : ExtReq → Option ExtReq
  | .inbound d j key data mark => some (.inbound d (if d == c && j == some i then none else j) key data mark)
  | .cells d j base l mark => some (.cells d (if d == c && j == some i then none else j) base l mark)
  | .outbound d j key off => if d == c && j == i then none else some (.outbound d j key off)
  | .walkRead d j => if d == c && j == i then none else some (.walkRead d j)
  | .window key data mark ctr => some (.window key data mark ctr)

/-- The slot of core c faults: it is freed, its thread faults, and threads that wait for a slot or for a swap try again (R75, R85,
R106, R254). -/
def State.slotFault (s : State) (c i : Nat) (sl : DmaSlot) (cause : Cause) : State :=
  let pc := ((s.core c).thread sl.thread.toNat).pc
  let s1 := s.modCore c fun k => (k.setSlot i none).wake fun st => st == .waitDma || st == .waitArray
  let s2 := (kkeys s1.cores).foldl (fun s d => s.modCore d fun k => { k with ext := k.ext.filterMap (ExtReq.orphan c i) }) s1
  s2.coreFault c sl.thread.toNat sl.cfg.toNat pc cause

/-- The slot's transfer or walk has ended: it is free, its counter counts where `count` says so, threads that wait for a
slot or for a swap try again (R75, R85, R95, R96). -/
def State.slotEnd (s : State) (c i : Nat) (sl : DmaSlot) (count : Bool) : State :=
  (s.tally 0 c 6 (natOf count)).modCore c fun k =>
    let k1 := k.setSlot i none
    let k2 := if count then k1.addCtr sl.ctr.toNat 1 else k1
    k2.wake fun st => st == .waitDma || st == .waitArray

/-- Is a slot of the filler whose configuration record is r open on the core (R105)? -/
def Core.ownSlot (k : Core) (r : BitVec 256) : Bool :=
  k.slotOpen.isSome && cfgFiller k.activeCfg && cfgTenant k.activeCfg == cfgTenant r

/-- May the slot's configuration take port turns now: a filler's only in its own slots, and not near their end (R105)? -/
def Core.mayMove (k : Core) (sl : DmaSlot) : Bool :=
  let r := k.cfg sl.cfg.toNat
  !cfgFiller r || (k.ownSlot r && !k.fillerCut)

/-- May a transfer within the core's own pads move now: a filler's in its own slots (R105)? -/
def Core.mayCopy (k : Core) (sl : DmaSlot) : Bool :=
  let r := k.cfg sl.cfg.toNat
  !cfgFiller r || k.ownSlot r

/-- Write one 32 B unit into core c's own pad for a slot; none where the mirror forbids it (R74, R95, R436). -/
def State.ownWrite (s : State) (c key : Nat) (data : BitVec 256) (mark : Bool) : Option State :=
  if (s.noWrite c).any fun r => decide (r.1 ≤ key) && decide (key < r.1 + r.2) then none
  else some { s with mem := Mem.writeNat s.mem key 32 data.toNat, marks := kset false s.marks key mark }

/-! ### Messages to remote windows (R324, R327) -/

/-- The hold ring of function f on die d: its first byte and its length, from the registers copied at finalisation; the
partition's image or the filler's (R327, R333, R538). -/
def State.ringArea (s : State) (f d : Nat) : Nat × Nat :=
  let imgs := (List.range 8).flatMap fun p => (s.part p).image.toList ++ (s.part p).fillers
  match imgs.find? fun m => m.func == f with
  | some m =>
    let v := m.linkHold.getD d 0
    if bitOf v 0 then
      (storeKey + d * 0x20000000 + (s.grant f d).1 * 0x200000 + bitsOf v 8 13 * 0x10000, bitsOf v 21 14 * 0x10000)
    else (0, 0)
  | none => (0, 0)

/-- Bytes that the messages of function f issued on die d take in its ring. -/
def State.ringUsed (s : State) (f d : Nat) : Nat :=
  s.links.ring.foldl (fun n m =>
    match kget none s.links.streams m.stream with
    | some st => if st.func == f && dieOf m.core == d then n + 32 + m.data.length else n
    | none => n) 0

/-- Put a unit at window offset o into the last message of the transfer that it continues, if any: the ring so changed, and that
message (R324). -/
def extendMsg (core xfer o : Nat) (data : List Byte) (mark : Bool) : List HeldMsg → Option (List HeldMsg × HeldMsg)
  | [] => none
  | m :: ms =>
    if m.core == core && m.xfer == xfer && m.seq.isNone && m.offset + m.data.length == o && o % 256 != 0 then
      let y := { m with data := m.data ++ data, mark := m.mark || mark }
      some (y :: ms, y)
    else (extendMsg core xfer o data mark ms).map fun z => (m :: z.1, z.2)

/-- Write a run of a ring's bytes from position n of it on, round its end; a mark marks the lines it meets (R298, R327). -/
def State.writeRing (s : State) (area : Nat × Nat) (n : Nat) (data : List Byte) (mark : Bool) : State :=
  data.foldl (fun (x : State × Nat) b =>
    let k := area.1 + x.2 % area.2
    ({ x.1 with
      mem := Mem.write x.1.mem k b
      marks := if mark then kset false x.1.marks (markBase k) true else x.1.marks }, x.2 + 1)) (s, n) |>.1

/-- Hold a unit for a remote window in the ring of the issuing core's die: it extends its message, or starts one, behind a 32 B
header whose bytes are open until the message is sequenced; none where the ring is full (R324, R327; where a message lies in the
ring: DESIGN CHOICE, notes/assumptions/76). -/
def State.holdMsg (s : State) (c part h : Nat) (sl : DmaSlot) (o : Nat) (data : List Byte) (mark : Bool) : Option State :=
  let f := cfgTenant ((s.core c).cfg sl.cfg.toNat)
  let d := dieOf c
  let area := s.ringArea f d
  match extendMsg c sl.xfer o data mark s.links.ring with
  | some (ring, m) =>
    if decide (s.ringUsed f d + data.length ≤ area.2) then
      let at_ := m.place - area.1 + 32 + (o - m.offset)
      some ({ s with links := { s.links with ring := ring } }.writeRing area at_ data mark)
    else none
  | none =>
    if decide (s.ringUsed f d + 32 + data.length ≤ area.2) then
      let n := kget 0 s.links.ringPos (8 * f + d)
      let m : HeldMsg := { stream := h, part := part, ord := sl.ord, core := c, xfer := sl.xfer, part_ := o / 256, offset := o
                           data := data, mark := mark, place := area.1 + n % area.2 }
      let hdr := (List.range 32).map fun i => Config.freeByte s.free i
      some ({ s with
        free := s.free + 1
        links := { s.links with
          ring := s.links.ring ++ [m]
          ringPos := kset 0 s.links.ringPos (8 * f + d) ((n + 32 + (256 - o % 256)) % area.2) } }.writeRing area n (hdr ++ data) mark)
    else none

/-! ### When engines run -/

/-- May core c's engines run: the core exists, clocks run, its partition runs. -/
def State.engineRuns (s : State) (c : Nat) : Bool :=
  !s.halted && !(match s.partOf c with
    | some p => s.partStill p
    | none => true)

/-- A command of core c's engines: only on a core that exists, only while engines run. -/
def engine (c : Nat) (f : State → State) (s : State) : Host.Outcome State Fault Refusal :=
  if !s.isCore c then .fault .noSuchUnit else if s.engineRuns c then .next (f s) else .next s

end Sys2Proof.Machine
end

