-- ==== Sys2Proof/Machine/CoreWalk.lean ====
section
/-! DEFINITION. The core walker: WALK at issue, the start of a walk and its checks, the turn of its slot, the release wait, the
arrival of a tile, a restored walk (R92, R134, R232, R240–R254, R257). -/

namespace Sys2Proof.Machine

/-! ### Issue (R134) -/

/-- Key of a walk block at address a: 128-byte aligned, in the core's own A-pad through the local alias, or in a die store
that the tenant owns (R134, R232, R262). -/
def State.blockKey (s : State) (c a : Nat) : Except Cause Nat :=
  let k := s.core c
  let r := k.activeCfg
  if a % 128 != 0 then .error .dma
  else if 0x3FFF00018000 ≤ a && a + 128 ≤ 0x3FFF00028000 then
    let o := a - 0x3FFF00000000
    if rangeBound r aliasGranule o 128 then .ok (padWindow c + aliasOffset r k.frontW k.frontA o) else .error .bounds
  else if s.ownsStore (cfgTenant r) a 128 then .ok a
  else .error .dma

/-- WALK at issue (R93, R134). -/
def walkIssue (c : Nat) (t : BitVec 4) (gd : Nat) (ctr : BitVec 3) (cpt : Bool) (s : State) : State × IssueEnd :=
  let k := s.core c
  match k.freeSlot with
  | none => waitSlot c t s
  | some i =>
    if !cntAllowed k.activeCfg ctr.toNat then (s, .fault .counter)
    else
      match s.blockKey c ((k.thread t.toNat).getPair gd).toNat with
      | .error e => (s, .fault e)
      | .ok key =>
        let run : WalkRun := { blockAddr := key, cpt := cpt }
        (s.setSlot c i (some { ctr := ctr, thread := t, cfg := BitVec.ofNat 3 k.openCfg, walk := some run
                               ord := ((s.partOf c).map s.ordOf).getD 0 }), .seq)

/-- WALK (R134). -/
def execWalk (c : Nat) (t : BitVec 4) (gd : BitVec 5) (ctr : BitVec 3) (cpt : Bool) (s : State) :
    Host.Outcome State Fault Refusal :=
  issue c t false (pairField gd) (walkIssue c t gd.toNat ctr cpt) s

/-! ### Addresses of a walk (R87, R104, R246, R262) -/

/-- The key of a byte that a walk of core c's slot reads or writes, or the cause of its refusal: out of the bounds in the own pads, a
refused access elsewhere (R87, R104, R106). -/
def State.walkKey (s : State) (c : Nat) (sl : DmaSlot) (front : BitVec 2) (a : Nat) : Except Cause Nat :=
  let r := (s.core c).cfg sl.cfg.toNat
  let fw := front.getLsbD 0
  let fa := front.getLsbD 1
  let bounded (g : Pad × Nat) (key : Nat) : Except Cause Nat := if inBounds r g.1 g.2 then .ok key else .error .bounds
  if 0x3FFF00000000 ≤ a && a < 0x3FFF00028000 then
    let o := a - 0x3FFF00000000
    bounded (aliasGranule o) (padWindow c + aliasOffset r fw fa o)
  else if padKey ≤ a && a < 0x300300000000 then
    let c2 := (a - padKey) / 0x40000
    if 0x28000 ≤ a % 0x40000 then .error .dma
    else if c2 == c then bounded (threadGranule r fw fa (a % 0x40000)) a
    else if s.isCore c2 && (s.partOf c2).isSome && s.partOf c2 == s.partOf c then .ok a
    else .error .dma
  else if s.ownsStore (cfgTenant r) a 1 then .ok a
  else .error .dma

/-- Every granule that holds a byte from offset `off` on, n bytes, lies within the bounds, by a map to thread granules. -/
def spanBound (r : BitVec 256) (g : Nat → Pad × Nat) (off n : Nat) : Bool :=
  (List.range ((off + n - 1) / 32 - off / 32 + 1)).all fun i =>
    let x := g ((off / 32 + i) * 32)
    inBounds r x.1 x.2

/-- Does every ring buffer of every item keep the bounds, as far as it lies in the core's own pads (R246)? -/
def ringBound (c : Nat) (r : BitVec 256) (fw fa : Bool) (w : WalkBlk) : Bool :=
  (List.range w.items).all fun b => (List.range w.nbuf).all fun x =>
    let buf := w.bufOf b x
    if 0x3FFF00000000 ≤ buf then spanBound r aliasGranule (buf - 0x3FFF00000000) w.footprint
    else if padWindow c ≤ buf && buf < padWindow c + 0x28000 then
      spanBound r (threadGranule r fw fa) (buf - padWindow c) w.footprint
    else true

/-! ### Items and tiles (R244–R249) -/

/-- The base of the current item (R244). -/
def WalkRun.base (run : WalkRun) (w : WalkBlk) : Int :=
  match w.bmode with
  | 0 => w.base
  | 1 => w.base + run.item * (w.dim (w.ndim - 1)).stride
  | _ => run.ptr

/-- Does a pointer keep the rules of BASE, and under TIER STORE BASE's die store (R245)? -/
def WalkBlk.pointerOk (w : WalkBlk) (level p : Nat) : Bool :=
  let sp := w.tensorSpan p
  tierRange w.tier sp.1 sp.2 && (level != 2 || w.tier != 2 || p / 0x20000000 == w.base / 0x20000000)

/-- The run with the pointer line of its item, and the line after it where a later item's pointer lies there: read when the walk
first needs the line, and with its first item the next (R245). -/
def State.pointerLine (s : State) (v : Viewer) (w : WalkBlk) (run : WalkRun) : WalkRun :=
  let line := (w.ptrList + 8 * run.item) / 256 * 256
  if run.ptrLine == line && !run.ptrBytes.isEmpty then run
  else
    { run with
      ptrLine := line
      ptrBytes := if run.ptrLine + 256 == line && !run.ptrAhead.isEmpty then run.ptrAhead else s.seenBytes v line 256
      ptrAhead := if line + 256 ≤ w.ptrList + 8 * (w.items - 1) then s.seenBytes v (line + 256) 256 else [] }

/-- The run with its item's pointer read; none where the list or the pointer breaks R245. -/
def State.readPointer (s : State) (c : Nat) (sl : DmaSlot) (w : WalkBlk) (run : WalkRun) : Option WalkRun :=
  if w.bmode != 2 then some run
  else
    let a := w.ptrList + 8 * run.item
    let f := cfgTenant ((s.core c).cfg sl.cfg.toNat)
    if !(s.ownsStore f a 8 && (a - storeKey) / 0x20000000 == dieOf c) then none
    else
      let run1 := s.pointerLine (s.viewerOf c sl.cfg) w run
      let p := leNat ((run1.ptrBytes.drop (a % 256)).take 8)
      if w.pointerOk 2 p then some { run1 with ptr := p } else none

/-- A walk of core c taken up after its scan image was restored: its block and its pointer lines are read again (R232, R257). -/
def State.rereadWalk (s : State) (v : Viewer) (run : WalkRun) : WalkRun :=
  if !run.started then run
  else
    let bytes := s.seenBytes v run.blockAddr 128
    let w := parseWalk bytes
    let run1 := { run with block := bytes }
    if w.bmode != 2 then run1 else s.pointerLine v w { run1 with ptrBytes := [], ptrAhead := [] }

/-- Every walk of core c taken up after a restore (R232, R257). -/
def State.rereadWalks (s : State) (c : Nat) : State :=
  (List.range 8).foldl (fun s i =>
    match (s.core c).slot i with
    | some sl => match sl.walk with
      | some run => s.setSlot c i (some { sl with walk := some (s.rereadWalk (s.viewerOf c sl.cfg) run) })
      | none => s
    | none => s) s

/-- The slot at the start of the run's current tile: its ring buffer as the slot's destination, and whether the release
counter is to be waited for (R85, R246, R249). -/
def tileSlot (c : Nat) (s : State) (sl : DmaSlot) (w : WalkBlk) (run : WalkRun) : DmaSlot :=
  let buf := w.bufOf run.item run.seq
  let key := match s.walkKey c sl run.front buf with
    | .ok k => k
    | .error _ => buf
  let own := padWindow c ≤ key && decide (key < padWindow c + 0x28000)
  { sl with dst := key, len := w.footprint, dstLocal := own && !w.scatter, readPos := 0
            walk := some { run with unit := 0, releaseWait := w.relEn && decide (w.nbuf ≤ run.seq) } }

/-! ### Start (R250, R254) -/

/-- The walker reads its block and checks it; a walk that fails a check faults (R250, R254). -/
def walkStart (c i : Nat) (s : State) : State :=
  match (s.core c).slot i with
  | none => s
  | some sl =>
    match sl.walk with
    | none => s
    | some run =>
      if run.started then s
      else
        let k := s.core c
        let r := k.cfg sl.cfg.toNat
        let bytes := s.seenBytes (s.viewerOf c sl.cfg) run.blockAddr 128
        let w := parseWalk bytes
        let run1 := { run with
          block := bytes, started := true, crel := k.ctr w.rctr
          front := BitVec.ofNat 2 (natOf k.frontW + 2 * natOf k.frontA), point := (w.nextPoint (w.span + 1) 0).getD 0 }
        if w.ok 2 && (!w.relEn || cntAllowed r w.rctr) && ringBound c r k.frontW k.frontA w then
          match s.readPointer c sl w run1 with
          | none => s.slotFault c i sl .dma
          | some run2 => s.setSlot c i (some (tileSlot c s sl w run2))
        else s.slotFault c i sl .dma

/-- WALKER_START (R250). -/
def execWalkerStart (c : Nat) (slot : BitVec 3) (s : State) : Host.Outcome State Fault Refusal :=
  engine c (walkStart c slot.toNat) s

/-! ### One unit (R239, R240, R251) -/

/-- The current unit of a walk: its bytes with their sources, or none where the tile has no further unit. -/
def WalkRun.unitBytes (run : WalkRun) : Option (Nat × List (Nat × ByteSrc)) :=
  let w := parseWalk run.block
  let buf := w.bufOf run.item run.seq
  let base := run.base w
  let n := w.tile run.point
  (w.unitFrom 32 buf base n run.unit).map fun u => (u, w.unitBytes 32 buf base n u)

/-- A source byte with its mark and, where it is read, its key. -/
def State.walkByte (s : State) (c : Nat) (sl : DmaSlot) (front : BitVec 2) : ByteSrc → Except Cause (Byte × Bool × Option Nat)
  | .value b => .ok (b, false, none)
  | .addr a => match s.walkKey c sl front a.toNat with
    | .ok k => .ok (s.seen (s.viewerOf c sl.cfg) k, s.seenMarked (s.viewerOf c sl.cfg) k, some k)
    | .error e => .error e

/-- What a unit carries: its cells with their keys, whether any source is marked, the keys read. -/
structure WalkUnit where
  cells : List (Nat × Byte) := []
  mark : Bool := false
  reads : List Nat := []
deriving DecidableEq, Repr

/-- The unit of a list of bytes and sources; the cause of the first refusal (R87, R104). -/
def State.walkCells (s : State) (c : Nat) (sl : DmaSlot) (front : BitVec 2) : List (Nat × ByteSrc) → Except Cause WalkUnit
  | [] => .ok {}
  | (a, b) :: t =>
    match s.walkKey c sl front a, s.walkByte c sl front b, s.walkCells c sl front t with
    | .ok k, .ok x, .ok r => .ok ⟨(k, x.1) :: r.cells, x.2.1 || r.mark, x.2.2.toList ++ r.reads⟩
    | .error e, _, _ => .error e
    | _, .error e, _ => .error e
    | _, _, .error e => .error e

/-- The cores other than c in whose pads keys lie. -/
def otherCores (c : Nat) (keys : List Nat) : List Nat :=
  ((keys.filter fun k => isPadKey k && (k - padKey) / 0x40000 != c).map fun k => (k - padKey) / 0x40000).eraseDups

/-- What became of a unit: written or under way at another core's port, waiting for room, refused. -/
inductive Move where
  | moved (s : State) (out : Nat)
  | wait
  | refused
deriving DecidableEq, Repr

/-- Write a unit's cells, all in one granule or line: into the core's own pad, to the port of another core, or held (R74, R92, R95,
R251, R436). -/
def State.walkWrite (s : State) (c i : Nat) (cfg : BitVec 3) (cells : List (Nat × Byte)) (mark : Bool) : Move :=
  match cells with
  | [] => .moved s 0
  | (k, _) :: _ =>
    let base := markBase k
    if padWindow c ≤ k && k < padWindow c + 0x28000 then
      if (s.noWrite c).any fun r => decide (r.1 ≤ base) && decide (base < r.1 + r.2) then .refused
      else
        let old := kget false s.marks base
        .moved { s with
          mem := Mem.writeCells s.mem cells
          marks := kset false s.marks base (if mark then true else if cells.length == markUnit k then false else old) } 0
    else if isPadKey k then
      .moved (s.modCore ((k - padKey) / 0x40000) fun x => { x with ext := x.ext ++ [.cells c (some i) base cells mark] }) 1
    else
      match s.partOf c with
      | none => .wait
      | some p =>
        if s.canHold 0 p (s.ordOf p) base false then .moved (s.hold p (s.ordOf p) 0 false mark base cells (s.tenantOn c cfg)) 0
        else .wait

/-- The walk of slot i carries its current unit, all of it at hand; none where it waits; a refused one ends the walk in a fault
(R251, R254). -/
def walkMove (c i : Nat) (sl : DmaSlot) (run : WalkRun) (u : Nat) (x : WalkUnit) (s : State) : Option State :=
  match s.walkWrite c i sl.cfg x.cells x.mark with
  | .refused => some (s.slotFault c i sl .bounds)
  | .wait => none
  | .moved y out =>
    some (y.setSlot c i (some { sl with
      readPos := sl.readPos + 32
      walk := some { run with unit := u + 1, asked := none, out := run.out + out } }))

/-- The turn of a slot that runs a walk: its current unit moves, or is asked of the ports of the other cores that hold its source;
none where it has nothing to send (R92, R251). -/
def walkTurn (c i : Nat) (sl : DmaSlot) (run : WalkRun) (s : State) : Option State :=
  if !run.started || run.releaseWait then none
  else
    match run.unitBytes with
    | none => none
    | some (u, l) =>
      match s.walkCells c sl run.front l with
      | .error e => some (s.slotFault c i sl e)
      | .ok x =>
        match run.asked with
        | some 0 => walkMove c i sl run u x s
        | some _ => none
        | none =>
          match otherCores c x.reads with
          | [] => walkMove c i sl run u x s
          | d :: ds =>
            some ((d :: ds).foldl (fun s e => s.modCore e fun k => { k with ext := k.ext ++ [.walkRead c i] })
              (s.setSlot c i (some { sl with walk := some { run with asked := some (ds.length + 1) } })))

/-- A port has carried one read of the current unit of slot i's walk; with the last of them the unit moves (R92, R251). -/
def walkRead (c i : Nat) (s : State) : State :=
  match (s.core c).slot i with
  | none => s
  | some sl =>
    match sl.walk with
    | none => s
    | some run =>
      let n := run.asked.getD 0 - 1
      let run1 := { run with asked := some n }
      let sl1 := { sl with walk := some run1 }
      let s1 := s.setSlot c i (some sl1)
      if n == 0 then (walkTurn c i sl1 run1 s1).getD s1 else s1

/-! ### Release and arrival (R249, R253) -/

/-- The walker tests its release counter; where the condition holds it requests the tile's units (R249). -/
def walkRelease (c i : Nat) (s : State) : State :=
  match (s.core c).slot i with
  | none => s
  | some sl =>
    match sl.walk with
    | none => s
    | some run =>
      let w := parseWalk run.block
      let need : Word := run.crel + BitVec.ofNat 32 (run.seq - w.nbuf + 1)
      if run.releaseWait && waitHolds ((s.core c).ctr w.rctr) need then
        s.setSlot c i (some { sl with walk := some { run with releaseWait := false } })
      else s

/-- WALKER_RELEASE_WAIT_END (R249). -/
def execWalkerReleaseWaitEnd (c : Nat) (slot : BitVec 3) (s : State) : Host.Outcome State Fault Refusal :=
  engine c (walkRelease c slot.toNat) s

/-- The current tile has moved its last unit: it is counted where each tile counts, and the walk goes on with the next
tile or ends; a SWAP that waited for the tile tries again (R85, R241, R253). -/
def tileArrive (c i : Nat) (s : State) : State :=
  match (s.core c).slot i with
  | none => s
  | some sl =>
    match sl.walk with
    | none => s
    | some run =>
      let w := parseWalk run.block
      if !run.started || run.releaseWait || run.unitBytes.isSome || run.out != 0 then s
      else
        match w.advance run.item run.point with
        | none => s.slotEnd c i sl true
        | some (b, j) =>
          let s0 := s.tally 0 c 6 1
          let s1 := if run.cpt then s0.modCore c (·.addCtr sl.ctr.toNat 1) else s0
          let run1 := { run with item := b, point := j, seq := run.seq + 1 }
          match (if b == run.item then some run1 else s1.readPointer c sl w run1) with
          | none => s1.slotFault c i sl .dma
          | some run2 =>
            (s1.setSlot c i (some (tileSlot c s1 sl w run2))).modCore c (·.wake fun st => st == .waitArray)

/-- TILE_ARRIVAL (R253). -/
def execTileArrival (c : Nat) (slot : BitVec 3) (s : State) : Host.Outcome State Fault Refusal :=
  engine c (tileArrive c slot.toNat) s

end Sys2Proof.Machine
end

