-- ==== Sys2Proof/Machine/CorePort.lean ====
section
/-! DEFINITION. A core's store port: one turn of it for a slot's transfer or walk, for inbound traffic or for an external read; a unit
of a walk; the arrival of a transfer (R92, R94, R95, R105, R251, R319, R328, R427, R428, R431). -/

namespace Sys2Proof.Machine

/-! ### One turn of the store port (R92) -/

/-- Write a unit out of core c for its slot: into a hold buffer, the ring of a remote window, or the queue of another
core's port; none where it has to wait (R92, R427, R428, R431). -/
def writeOut (c i : Nat) (sl : DmaSlot) (u : UnitBuf) (s : State) : Option State :=
  let done (x : State) (arrived : Bool) : State :=
    x.setSlot c i (some { sl with held := none, donePos := sl.donePos + (if arrived then 32 else 0) })
  match s.partOf c with
  | none => none
  | some p =>
    match sl.stream with
    | some h => (s.holdMsg c p h sl (sl.dst + u.off) (leBytes 32 u.data.toNat) u.mark).map fun x => done x true
    | none =>
      let key := sl.dst + u.off
      if isPadKey key then
        let c2 := (key - padKey) / 0x40000
        some ((done s false).modCore c2 fun k => { k with ext := k.ext ++ [.inbound c (some i) key u.data u.mark] })
      else if s.canHold 0 p (s.ordOf p) (markBase key) false then
        some (done (s.holdBytes p (s.ordOf p) 0 false u.mark key (leBytes 32 u.data.toNat) (s.tenantOn c sl.cfg)) true)
      else none

/-- A unit read for slot i of core c: it lands in the core's own pad, or the slot holds it for its write (R92, R95). -/
def landRead (c i : Nat) (sl : DmaSlot) (off : Nat) (data : BitVec 256) (mark : Bool) (s : State) : State :=
  let sl' := { sl with asked := false, readPos := off + 32 }
  if sl.dstLocal then
    match s.ownWrite c (ownAddr c sl.dst off) data mark with
    | none => s.slotFault c i sl .bounds
    | some x => x.setSlot c i (some { sl' with donePos := sl.donePos + 32 })
  else s.setSlot c i (some { sl' with held := some ⟨off, data, mark⟩ })

/-- The turn of a transfer's slot: the oldest unit it holds goes out, else its next unit is read in; none where it has
nothing to send (R92). -/
def dmaTurn (c i : Nat) (sl : DmaSlot) (s : State) : Option State :=
  if sl.srcLocal && sl.dstLocal then none
  else
    match sl.held with
    | some u => writeOut c i sl u s
    | none =>
      if sl.asked || decide (sl.len ≤ sl.readPos) then none
      else
        let off := sl.readPos
        if sl.srcLocal then
          let key := ownAddr c sl.src off
          writeOut c i { sl with readPos := off + 32 } ⟨off, ofNat256 (Mem.readNat s.mem key 32), kget false s.marks key⟩ s
        else if isPadKey sl.src then
          let c2 := (sl.src - padKey) / 0x40000
          some ((s.setSlot c i (some { sl with asked := true })).modCore c2 fun k =>
            { k with ext := k.ext ++ [.outbound c i (sl.src + off) off] })
        else
          let key := sl.src + off
          some (landRead c i sl off (ofNat256 (leNat (s.seenBytes (s.viewerOf c sl.cfg) key 32))) (s.seenMarked (s.viewerOf c sl.cfg) key) s)

/-- The turn of slot i of core c; none where it has nothing to send, or is a filler's whose turns are over (R92, R105, R251). -/
def slotTurn (c i : Nat) (s : State) : Option State :=
  match (s.core c).slot i with
  | none => none
  | some sl =>
    if !(s.core c).mayMove sl then none
    else
      match sl.walk with
      | some run => walkTurn c i sl run s
      | none => dmaTurn c i sl s

/-- Is a request inbound external traffic? -/
def ExtReq.isInbound : ExtReq → Bool
  | .inbound .. | .cells .. | .window .. => true
  | .outbound .. | .walkRead .. => false

/-- Hold cells that came to a core's port for a slot of core c1, whose frame they belong to; none where they wait (R92, R95). -/
def State.holdFrom (s : State) (c1 : Nat) (slot : Option Nat) (base : Nat) (cells : List (Nat × Byte)) (mark : Bool) : Option State :=
  match s.partOf c1 with
  | none => none
  | some p =>
    let outs := (slot.bind (s.core c1).slot).elim [] fun sl => s.tenantOn c1 sl.cfg
    if s.canHold 0 p (s.ordOf p) base false then some (s.hold p (s.ordOf p) 0 false mark base cells outs) else none

/-- A unit of slot `slot` of core c1 has reached its hold buffer (R95). -/
def State.landed (s : State) (c1 : Nat) (slot : Option Nat) : State :=
  match slot with
  | none => s
  | some i => s.modCore c1 fun k => match k.slot i with
    | none => k
    | some sl => k.setSlot i (some (match sl.walk with
      | some run => { sl with walk := some { run with out := run.out - 1 } }
      | none => { sl with donePos := sl.donePos + 32 }))

/-- What an inbound unit does at core c once the port has carried it; none where it has to wait (R92, R95, R319, R328). -/
def State.landExt (s : State) (c : Nat) : ExtReq → Option State
  | .inbound c1 i key data mark =>
    (s.holdFrom c1 i key ((leBytes 32 data.toNat).mapIdx fun n b => (key + n, b)) mark).map fun x => x.landed c1 i
  | .cells c1 i base cells mark => (s.holdFrom c1 i base cells mark).map fun x => x.landed c1 i
  | .window key data mark ctr =>
    let s1 := s.writeMarked key data mark
    some (match ctr with
      | some n => s1.modCore c fun k => k.addCtr n 1
      | none => s1)
  | _ => none

/-- Serve the first inbound unit of external traffic at core c (R92). -/
def inboundTurn (c : Nat) (s : State) : Option State :=
  let k := s.core c
  match lfind ExtReq.isInbound k.ext 0 with
  | none => none
  | some n =>
    match k.ext[n]? with
    | none => none
    | some e => (s.setCore c { k with ext := ldrop k.ext n }).landExt c e

/-- Serve the first external read at core c: the unit goes to the slot that asked (R92). -/
def outboundTurn (c : Nat) (s : State) : Option State :=
  let k := s.core c
  match lfind (fun e => !e.isInbound) k.ext 0 with
  | none => none
  | some n =>
    let s1 := s.setCore c { k with ext := ldrop k.ext n }
    match k.ext[n]? with
    | some (.outbound c1 i key off) =>
      match (s1.core c1).slot i with
      | none => some s1
      | some sl =>
        some (landRead c1 i sl off (ofNat256 (leNat (s.seenBytes (s.viewerOf c1 sl.cfg) key 32))) (s.seenMarked (s.viewerOf c1 sl.cfg) key) s1)
    | some (.walkRead c1 i) => some (walkRead c1 i s1)
    | _ => none

/-- The requester at place n of the fixed order: slots 0–7, inbound traffic, outbound reads (R92). -/
def portServe (c n : Nat) (s : State) : Option State :=
  if n < 8 then slotTurn c n s else if n == 8 then inboundTurn c s else outboundTurn c s

/-- The first of `left` requesters from place n on that has something to send, with what its turn does. -/
def portNext (c : Nat) (s : State) : Nat → Nat → Option (Nat × State)
  | 0, _ => none
  | left + 1, n =>
    match portServe c n s with
    | some x => some (n, x)
    | none => portNext c s left ((n + 1) % 10)

/-- The requester whose turn comes next at core c's port, with what its turn does, the pointer moved behind it (R92). -/
def State.portTurn (s : State) (c : Nat) : Option (Nat × State) :=
  (portNext c s 10 (s.core c).portPtr).map fun x => (x.1, x.2.modCore c fun k => { k with portPtr := (x.1 + 1) % 10 })

/-- STORE_PORT_TURN (R92). -/
def execStorePortTurn (c : Nat) (s : State) : Host.Outcome State Fault Refusal :=
  engine c (fun s => match s.portTurn c with
    | some x => x.2
    | none => s) s

/-- WALKER_UNIT (R251): the walk of the slot carries its unit in the slot's turn of the port, once that turn comes (R92). -/
def execWalkerUnit (c : Nat) (slot : BitVec 3) (s : State) : Host.Outcome State Fault Refusal :=
  engine c (fun s => match s.portTurn c with
    | some x => if x.1 == slot.toNat && (((s.core c).slot slot.toNat).bind (·.walk)).isSome then x.2 else s
    | none => s) s

/-! ### Arrival of a transfer (R95) -/

/-- Move what is left of a transfer within the core's own pads, whose units cross no store port (R92, R94); none where
the mirror forbids a write. -/
def ownMove (c : Nat) (sl : DmaSlot) : Nat → State → Option State
  | 0, s => some s
  | n + 1, s =>
    let off := sl.len - 32 * (n + 1)
    let a := ownAddr c sl.src off
    match s.ownWrite c (ownAddr c sl.dst off) (ofNat256 (Mem.readNat s.mem a 32)) (kget false s.marks a) with
    | none => none
    | some x => ownMove c sl n x

/-- A transfer whose last byte has reached its bank or hold buffer ends, a filler's whenever its units arrive; one within the core's
own pads moves first, a filler's in its own slots (R95, R105). -/
def dmaArrive (c i : Nat) (s : State) : State :=
  match (s.core c).slot i with
  | none => s
  | some sl =>
    if sl.walk.isSome then s
    else if sl.srcLocal && sl.dstLocal then
      if !(s.core c).mayCopy sl then s
      else
        match ownMove c sl (sl.len / 32) s with
        | none => s.slotFault c i sl .bounds
        | some x => x.slotEnd c i sl true
    else if sl.donePos == sl.len then s.slotEnd c i sl true
    else s

/-- DMA_ARRIVAL (R95, R96). -/
def execDmaArrival (c : Nat) (slot : BitVec 3) (s : State) : Host.Outcome State Fault Refusal :=
  engine c (dmaArrive c slot.toNat) s

end Sys2Proof.Machine
end

