-- ==== Sys2Proof/Machine/CoreEngines.lean ====
section
/-! DEFINITION. What moves inside the cores beside the threads: the drain engine, the generator unit, the neighbour queues
and mesh paths, fold slots and filler slots (R88–R91, R100, R102, R105, R108, R181–R188, R207, R210–R213, R225). -/

namespace Sys2Proof.Machine

/-! ### Drain engine and generator (R100, R181–R188) -/

/-- A suspended filler drain goes back to the free engine while a slot of its own filler is open (R188). -/
def Core.resumeDrain (k : Core) : Core :=
  match k.drain, k.suspended with
  | none, some d => if k.ownSlot (k.cfg d.cfg.toNat) then { k with drain := some d, suspended := none } else k
  | _, _ => k

/-- One turn of the drain engine; an output out of bounds faults the thread that issued the TDRAIN (R181, R187). -/
def drainStep (c : Nat) (s : State) : State :=
  let s1 := s.modCore c Core.resumeDrain
  match (s1.core c).drain with
  | none => s1
  | some d =>
    let r := drainTurn (s1.view c)
    let s2 := s1.putView c r.2
    if r.1 then s2
    else
      (s2.modCore c (·.wake fun st => st == .waitArray || st == .waitOperand)).coreFault c d.thread.toNat d.cfg.toNat
        ((s2.core c).thread d.thread.toNat).pc .bounds

/-- Blocks that the running drain of a core has still to read. -/
def Core.drainLeft (k : Core) : Nat := (k.drain.map fun d => d.blocks.length).getD 0

/-- DRAIN_BLOCK (R181). -/
def execDrainBlock (c : Nat) (s : State) : Host.Outcome State Fault Refusal :=
  engine c (fun s =>
    let r := drainStep c s
    r.tally 0 c 4 ((s.core c).resumeDrain.drainLeft - (r.core c).drainLeft)) s

/-- GENERATOR_REQUEST (R100): the drain engine's own requests are served in its turns. -/
def execGeneratorRequest (c : Nat) (s : State) : Host.Outcome State Fault Refusal :=
  engine c (fun s => (s.putView c (genServe (s.view c))).tally 0 c 0x0C (min 1 (s.core c).gens.length)) s

/-! ### Neighbours and paths (R89, R207) -/

/-- The logical core of half h (of die d), row r, column j. -/
def coreAt (d h r j : Nat) : Nat := ((d * 2 + h) * 64 + r) * 48 + j

/-- The core and the inbound queue that queue q of core c joins, under a row-edge mode and with the given last column
(R89, R200); queues 0 N, 1 E, 2 S, 3 W; modes 0 RING48, 1 CHAIN96, 2 RING96. -/
def neighbour (edge last c q : Nat) : Option (Nat × Nat) :=
  let d := c / 6144
  let h := c / 3072 % 2
  let r := c / 48 % 64
  let j := c % 48
  match q with
  | 0 => if r == 0 then none else some (coreAt d h (r - 1) j, 2)
  | 2 => if r == 63 then none else some (coreAt d h (r + 1) j, 0)
  | 1 =>
    if j < last then some (coreAt d h r (j + 1), 3)
    else if edge == 0 then some (coreAt d h r 0, 3)
    else if h == 0 then some (coreAt d 1 r 0, 3)
    else if edge == 2 then some (coreAt d 0 r 0, 3) else none
  | _ =>
    if 0 < j then some (coreAt d h r (j - 1), 1)
    else if edge == 0 then some (coreAt d h r last, 1)
    else if h == 1 then some (coreAt d 0 r last, 1)
    else if edge == 2 then some (coreAt d 1 r last, 1) else none

/-- Where an entry of queue q of core c that configuration i pushed goes: by its neighbour link or by the mesh path of its image,
whatever slot is open now (R88, R89, R102, R207). -/
def State.queueTarget (s : State) (c q i : Nat) : Option (Nat × Nat) :=
  let k := s.core c
  let m := (s.partOf c).bind fun p => (s.part p).image
  match cfgQbind (k.cfg i) q with
  | 1 => neighbour (kget 0 k.edges i).toNat ((m.map fun x => Img.vcols x.bytes - 1).getD (s.perRow - 1)) c q
  | 2 =>
    match m with
    | none => none
    | some x =>
      match x.vcore c with
      | none => none
      | some vi =>
        ((Img.paths x.bytes).find? fun e => e.src == vi && e.config == i && e.srcQ == q).map fun e =>
          (Img.logical x.bytes x.orgRow x.orgCol e.dst, e.dstQ)
  | _ => none

/-- Thread t of core c goes on with the rest of its QPUSH or QPOP on queue q, if it waits for one (R132). -/
def queueResume (c q : Nat) (push : Bool) (s : State) (t : Nat) : State :=
  let th := (s.core c).thread t
  if th.state != .waitQueue then s
  else
    match th.pend with
    | .push q1 r pad left =>
      if push && q1 == q then
        let x := onView c (fun cv => let y := pushSome t q r pad left cv; queueEnd t (.push q r pad y.1) y) s
        endThread c (BitVec.ofNat 4 t) th.pc x.1 x.2
      else s
    | .pop q1 r pad left =>
      if !push && q1 == q then
        let x := onView c (fun cv => let y := popSome t q r pad left cv; queueEnd t (.pop q r pad y.1) y) s
        endThread c (BitVec.ofNat 4 t) th.pc x.1 x.2
      else s
    | _ => s

/-- The first entry of an outbound queue crosses its hop where the far queue has credit, one of 8 entries (R88, R90);
threads that waited at either end go on. -/
def queueMove (c q : Nat) (s : State) : State :=
  match kget [] (s.core c).qout q with
  | [] => s
  | e :: es =>
    match s.queueTarget c q e.cfg.toNat with
    | none => s
    | some (c2, q2) =>
      let far := kget [] (s.core c2).qin q2
      if far.length < 8 then
        let s1 := s.modCore c fun k => { k with qout := kset [] k.qout q es }
        let s2 := s1.modCore c2 fun k => { k with qin := kset [] k.qin q2 (far ++ [{ e with cfg := 0 }]) }
        let s3 := (List.range 16).foldl (queueResume c q true) (s2.tally 0 c 7 1)
        let s4 := (List.range 16).foldl (queueResume c2 q2 false) s3
        s4.tally 0 c2 8 (far.length + 1 - (kget [] (s4.core c2).qin q2).length)
      else s

/-- QUEUE_ENTRY_MOVE (R90). -/
def execQueueEntryMove (c : Nat) (q : BitVec 2) (s : State) : Host.Outcome State Fault Refusal :=
  engine c (queueMove c q.toNat) s

/-! ### Fold slots (R102, R108, R209–R213, R225) -/

/-- Has every thread of the open slot finished: yielded or faulted (R102, R108)? -/
def Core.slotDone (k : Core) : Bool :=
  match k.slotOpen with
  | none => true
  | some i =>
    (List.range 16).all fun t =>
      !bitOf (cfgField (k.cfg i.toNat) 0 16) t || (k.thread t).state == .yielded || (k.thread t).state == .faulted

/-- A slot of configuration i opens: its threads at their entries and READY, the others IDLE unless suspended or faulted,
the pointers at 15 (R76, R102). -/
def Core.openSlot (k : Core) (i : Nat) : Core :=
  let r := k.cfg i
  let threads := (List.range 16).foldl (fun m t =>
    kmod {} m t fun th =>
      if th.state == .faulted then th
      else if bitOf (cfgField r 0 16) t then
        { th with pc := BitVec.ofNat 8 (cfgField r (16 + 8 * t) 8), state := .ready, pend := .none }
      else if th.state == .suspended then th
      else { th with state := .idle }) k.threads
  let k1 := { k with threads := threads, slotOpen := some (BitVec.ofNat 3 i), arrayPtr := 15, generalPtr := 15 }
  if cfgFiller r then ({ k1 with fillerCut := false }).resumeDrain else k1

/-- The index at which configuration k of a filler stands on virtual core vi (R225). -/
def ImgHeld.fillerIndex (m : ImgHeld) (vi k : Nat) : Nat := kget k m.cfgMap (8 * vi + k)

/-- The configuration of a filler that runs in a bubble slot of virtual core vi in this frame: the filler's slot with
the same OPEN and END in the pattern its own command runs (R213, R225). -/
def bubbleConfig (p : Part) (fr : Frame) (vi op en : Nat) : Option Nat :=
  match p.image with
  | none => none
  | some _ =>
    p.fillers.findSome? fun m =>
      match fr.fillers.find? fun x => x.1 == m.func with
      | none => none
      | some x =>
        ((Img.slots m.bytes (Img.slotListAt m.bytes x.2 vi)).find? fun e => e.1 == op && e.2.1 == en).map fun e =>
          m.fillerIndex vi e.2.2.1

/-- The next slot of core c opens, at its cycle or later and the slot before it done (R102, R212), and not in the tick window (R36); a
bubble slot with no filler passes. -/
def foldOpen (c : Nat) (s : State) : State :=
  match s.partOf c with
  | none => s
  | some p =>
    let x := s.part p
    match x.frame, x.image with
    | some fr, some m =>
      match fr.pattern, m.vcore c with
      | some pat, some vi =>
        let k := s.core c
        let l := Img.slots m.bytes (Img.slotListAt m.bytes pat vi)
        match l[k.slotIndex]? with
        | none => s
        | some e =>
          if !k.slotDone || fr.fast || fr.load || decide (s.subtick < 16) || decide (s.frameCycle fr < e.1) then s
          else
            let k1 := { k with slotIndex := k.slotIndex + 1 }
            if e.2.2.2.1 == 0 then (s.setCore c (k1.openSlot e.2.2.1)).tally 0 c 0x0A 1
            else
              match bubbleConfig x fr vi e.1 e.2.1 with
              | some i => (s.setCore c (k1.openSlot i)).tally 0 c 0x0A 1
              | none => s.setCore c k1
      | _, _ => s
    | _, _ => s

/-- FOLD_SLOT_OPEN (R102). -/
def execFoldSlotOpen (c : Nat) (s : State) : Host.Outcome State Fault Refusal := engine c (foldOpen c) s

/-- Is a filler's slot open on the core? -/
def Core.fillerOpen (k : Core) : Bool := k.slotOpen.isSome && cfgFiller k.activeCfg

/-- The end of a filler slot: its threads not yet yielded are suspended, and its drain (R105, R188). -/
def Core.endFiller (k : Core) : Core :=
  let r := k.activeCfg
  let threads := (List.range 16).foldl (fun m t =>
    kmod {} m t fun th =>
      if bitOf (cfgField r 0 16) t && th.state != .yielded && th.state != .faulted then { th with state := .suspended, pend := .none }
      else th) k.threads
  let k1 := { k with threads := threads, slotOpen := none, fillerCut := true }
  match k1.drain with
  | some d =>
    if cfgFiller (k1.cfg d.cfg.toNat) then
      Core.wake { k1 with drain := none, suspended := some d } fun st => st == .waitArray
    else k1
  | none => k1

/-- Has the frame of core c reached its open slot's scheduled end, less n cycles (R105, R209)? -/
def State.slotEnds (s : State) (c n : Nat) : Bool :=
  match s.partOf c with
  | none => false
  | some p =>
    let x := s.part p
    match x.frame, x.image with
    | some fr, some m =>
      match fr.pattern, m.vcore c with
      | some pat, some vi =>
        match (Img.slots m.bytes (Img.slotListAt m.bytes pat vi))[(s.core c).slotIndex - 1]? with
        | some e => decide (e.2.1 ≤ s.frameCycle fr + n)
        | none => false
      | _, _ => false
    | _, _ => false

/-- FILLER_SLOT_END (R105): once the scheduled end is reached. -/
def execFillerSlotEnd (c : Nat) (s : State) : Host.Outcome State Fault Refusal :=
  engine c (fun s => if (s.core c).fillerOpen && s.slotEnds c 0 then s.modCore c Core.endFiller else s) s

/-- FILLER_PORT_CUTOFF (R105): from 256 cycles before the scheduled end. -/
def execFillerPortCutoff (c : Nat) (s : State) : Host.Outcome State Fault Refusal :=
  engine c (fun s => if (s.core c).fillerOpen && s.slotEnds c 256 then s.modCore c ({ · with fillerCut := true }) else s) s

end Sys2Proof.Machine
end

