-- ==== Sys2Proof/Machine/Records.lean ====
section
/-! DEFINITION. Remap records: their form, the buffer of each die, those that wait for the tick at which their substitution takes
effect (R35, R37, R444, R448, R462); the retirement of a stack under parity (R269, R447). -/

namespace Sys2Proof.Machine

/-- A remap record (R448). -/
def remapRecord (tick kind : Nat) (software : Bool) (half row index : Nat) (dir : Bool) (spare : Nat) : Nat :=
  tick % 2 ^ 64 + kind * 2 ^ 64 + natOf software * 2 ^ 67 + half * 2 ^ 68 + row * 2 ^ 69 + index * 2 ^ 75 + natOf dir * 2 ^ 85
    + spare * 2 ^ 86

/-- Words of a die's record registers: the count and the oldest record. -/
def State.showRecords (s : State) (d : Nat) : State :=
  let l := kget [] s.remap.records d
  let r := l.headD 0
  (List.range 4).foldl (fun s i => s.setReg (remapReg d (0x20 + 4 * i)) (r / 2 ^ (32 * i) % 2 ^ 32)) (s.setReg (remapReg d 0x14) l.length)

/-- Queue a record for the MC; with 64 waiting it is lost and counted (R35). -/
def State.queueRecord (s : State) (d r : Nat) : State :=
  let l := kget [] s.remap.records d
  if 64 ≤ l.length then s.count (remapReg d 0x10) 1
  else ({ s with remap := { s.remap with records := kset [] s.remap.records d (l ++ [r]) } }).showRecords d

/-- A record, its TICK still 0, waits for the tick at which its substitution becomes active (R37, R448). -/
def State.dueRecord (s : State) (d r : Nat) : State := { s with remap := { s.remap with due := s.remap.due ++ [(d, r)] } }

/-- The substitutions of the shadow banks take effect at this tick: their records are queued with it (R448). -/
def State.queueDue (s : State) : State :=
  let s1 := s.remap.due.foldl (fun s x => s.queueRecord x.1 (x.2 + s.tick % 2 ^ 64)) s
  { s1 with remap := { s1.remap with due := [] } }

/-- The oldest record of a die goes. -/
def State.popRecord (s : State) (d : Nat) : State :=
  ({ s with remap := { s.remap with records := kset [] s.remap.records d ((kget [] s.remap.records d).drop 1) } }).showRecords d

/-- Is stripe parity in use with no stack retired (R266, R269)? -/
def State.stackCover (s : State) : Bool := s.bit (tierReg 0) 1 && !s.bit (tierReg 0) 2

/-- Stack n retires under parity (R269, R447). -/
def State.retireStack (s : State) (n : Nat) : State :=
  ((s.setBit (tierReg 0) 2).setField (tierReg 0) 3 4 n).queueRecord (n / 2) (remapRecord s.tick 4 false (n % 2) 0 n false 0)

end Sys2Proof.Machine
end

