-- ==== Sys2Proof/Machine/Links.lean ====
section
/-! DEFINITION. Torus links: addresses and routes, ports and blocks, windows and streams, messages and their answers
(R16, R304–R333, R447). -/

namespace Sys2Proof.Machine

/-! ### Addresses and axes (R16, R304, R313) -/

/-- The coordinate of a module address on an axis: 0 W, 1 X, 2 Y, 3 Z (R16). -/
def coordOf (axis addr : Nat) : Nat :=
  match axis with
  | 0 => bitsOf addr 14 2 | 1 => bitsOf addr 9 5 | 2 => bitsOf addr 4 5 | _ => bitsOf addr 0 4

/-- The address with a coordinate replaced. -/
def setCoord (axis addr c : Nat) : Nat :=
  match axis with
  | 0 => putBits addr 14 2 c | 1 => putBits addr 9 5 c | 2 => putBits addr 4 5 c | _ => putBits addr 0 4 c

/-- The length of an axis (R313, R333). -/
def State.axisLen (s : State) (axis : Nat) : Nat :=
  let r := s.reg (linkReg 4)
  match axis with
  | 0 => match bitsOf r 0 2 with
    | 0 => 1 | 1 => 2 | _ => 4
  | 1 => bitsOf r 2 5 + 1 | 2 => bitsOf r 7 5 + 1 | _ => bitsOf r 12 4 + 1

/-- The axis of a port (R304). -/
def portAxis (p : Nat) : Nat :=
  match p with
  | 0 | 1 => 1 | 2 | 3 => 2 | 4 | 5 => 3 | _ => 0

/-- The port of an axis and direction, 0 + and 1 − (R304). -/
def axisPort (axis dir : Nat) : Nat :=
  (match axis with
  | 1 => 0 | 2 => 2 | 3 => 4 | _ => 6) + dir % 2

/-- The die of a port (R304). -/
def portDie (p : Nat) : Nat :=
  match p with
  | 0 => 3 | 1 => 0 | 2 => 7 | 3 => 4 | 4 => 2 | 5 => 1 | 6 => 6 | _ => 5

/-- The lower coordinate of the link that a port of this module ends (R311, R316). -/
def State.portLink (s : State) (p : Nat) : Nat :=
  let a := portAxis p
  let c := coordOf a s.address
  if p % 2 == 0 then c else (c + s.axisLen a - 1) % s.axisLen a

/-! ### Routes (R314, R315) -/

/-- Does a way of d links from coordinate c in a direction avoid the failed links of the axis? -/
def wayOk (failed : List (Nat × Nat)) (axis n c dir : Nat) (d : Nat) : Bool :=
  (List.range d).all fun i =>
    let link := if dir == 0 then (c + i) % n else (c + n - 1 - i % n) % n
    !failed.contains (axis, link)

/-- An entry of the route table for target coordinate t (R315): 0 here, 1 +, 2 −, 3 unreachable. -/
def State.routeEntry (s : State) (failed : List (Nat × Nat)) (axis t : Nat) : Nat :=
  let n := s.axisLen axis
  let c := coordOf axis s.address
  if decide (n ≤ t) then 3
  else if t == c then 0
  else
    let plus := (t + n - c) % n
    let minus := n - plus
    let p := wayOk failed axis n c 0 plus
    let m := wayOk failed axis n c 1 minus
    if p && (decide (plus ≤ minus) || !m) then 1 else if m then 2 else 3

/-- The route table for a set of failed links. -/
def State.routeTable (s : State) (failed : List (Nat × Nat)) : KMap (BitVec 2) :=
  (List.range 128).foldl (fun m k => kset 0 m k (BitVec.ofNat 2 (s.routeEntry failed (k / 32) (k % 32)))) []

/-- The shadow bank is built for the known failures and marked ready (R315, R316). -/
def State.buildShadow (s : State) : State :=
  { s.setBit (linkReg 0x1C) 1 with links := { s.links with shadow := s.routeTable s.links.failed, shadowReady := true } }

/-- The route of the active bank to coordinate t. -/
def State.route (s : State) (axis t : Nat) : Nat := (kget 0 s.links.routes (32 * axis + t)).toNat

/-! ### Headers (R325) -/

/-- The fields of a transport header that every message kind but COLL uses. -/
structure Hdr where
  dst : Nat
  src : Nat
  kind : Nat
  tclass : Nat := 0
  win : Nat := 0
  stream : Nat := 0
  sframe : Nat := 0
  seq : Nat := 0
  offset : Nat := 0
  lenM1 : Nat := 0
  last : Bool := false
  first : Bool := false
  umber : Bool := false
  func : Nat := 0
  nak : Nat := 0
deriving DecidableEq, Repr

/-- The 256 bits of a header, TURNED and DIRS zero (R325). -/
def Hdr.bits (h : Hdr) : Nat :=
  h.dst % 2 ^ 16 + h.src % 2 ^ 16 * 2 ^ 16 + h.kind % 16 * 2 ^ 32 + h.tclass % 16 * 2 ^ 36 + h.win % 2 ^ 12 * 2 ^ 40
    + h.stream % 2 ^ 12 * 2 ^ 52 + h.sframe % 2 ^ 48 * 2 ^ 64 + h.seq % 2 ^ 32 * 2 ^ 112 + h.offset % 2 ^ 24 * 2 ^ 144
    + h.lenM1 % 8 * 2 ^ 168 + natOf h.last * 2 ^ 171 + natOf h.first * 2 ^ 172 + natOf h.umber * 2 ^ 173
    + h.func % 256 * 2 ^ 180 + h.nak % 16 * 2 ^ 188

/-- The fields of 256 header bits. -/
def parseHdr (b : BitVec 256) : Hdr :=
  let n := b.toNat
  { dst := bitsOf n 0 16, src := bitsOf n 16 16, kind := bitsOf n 32 4, tclass := bitsOf n 36 4, win := bitsOf n 40 12
    stream := bitsOf n 52 12, sframe := bitsOf n 64 48, seq := bitsOf n 112 32, offset := bitsOf n 144 24
    lenM1 := bitsOf n 168 3, last := bitOf n 171, first := bitOf n 172, umber := bitOf n 173, func := bitsOf n 180 8
    nak := bitsOf n 188 4 }

/-- DIRS bit of an axis. -/
def dirsBit (hdr axis : Nat) : Nat := bitsOf hdr (176 + axis) 1

/-! ### Sending through the torus (R312, R314, R317) -/

/-- The coordinate at which a message that entered an axis at c in a direction meets the first link known to have failed; its own
entry coordinate where there is none. -/
def turnPoint (failed : List (Nat × Nat)) (axis n c dir : Nat) : Nat :=
  match (List.range n).find? fun d => !wayOk failed axis n c dir (d + 1) with
  | some d => if dir == 0 then (c + d) % n else (c + n - d % n) % n
  | none => c

/-- Does a way in a direction from coordinate a to coordinate b cross the link between coordinates n − 1 and 0? -/
def wraps (dir a b : Nat) : Bool := if dir == 0 then decide (b < a) else decide (a < b)

/-- The virtual channel of a message on an axis: VC2 for the answers; else VC1 once it has crossed, or now crosses, the link
between coordinates n − 1 and 0, counted from its entry at the source's coordinate, for a TURNED one by the failed link it met;
`came`, the channel on which it came along this axis (R312, R317). -/
def State.channel (s : State) (hdr axis dir : Nat) (came : Option Nat := none) : Nat :=
  if 1 < bitsOf hdr 32 4 then 2
  else
    let n := s.axisLen axis
    let own := coordOf axis s.address
    let from_ := coordOf axis (bitsOf hdr 16 16)
    let now := if dir == 0 then own + 1 == n else own == 0
    let before :=
      match came with
      | some vc => vc == 1
      | none =>
        if bitOf hdr 174 then
          let t := turnPoint s.links.failed axis n from_ (1 - dir)
          wraps (1 - dir) from_ t || wraps dir t own
        else wraps dir from_ own
    if now || before then 1 else 0

/-- Send a message out on an axis in a direction: a WRITE or COLL that meets a link that is down goes back the other way
once; every other message there is lost (R317, R331, R383). `fwd`, it is forwarded; `came`, the channel it came on along this axis. -/
def State.emit (s : State) (axis dir hdr : Nat) (payload : List Byte) (fwd : Bool := false) (came : Option Nat := none) : State :=
  let p := axisPort axis dir
  let kind := bitsOf hdr 32 4
  let out (s : State) (q h d : Nat) : State :=
    s.portSend q { vc := s.channel h axis d came, cls := bitsOf h 36 4, fwd := fwd, bytes := leBytes 32 h ++ payload }
  if s.portState p == 2 then out s p hdr dir
  else if 1 < kind then s
  else if bitOf hdr 174 then s.count (linkReg 0x28) 1
  else
    let h := putBits (putBits hdr 174 1 1) (176 + axis) 1 (1 - dir)
    let q := axisPort axis (1 - dir)
    let s1 := if kind == 1 then s.count (collReg 0x10) 1 else s
    if s.portState q == 2 then out s1 q h (1 - dir) else s1.count (linkReg 0x28) 1

/-- The first axis, in the order W, X, Y, Z, on which an address differs from the module's own (R314). -/
def State.nextAxis (s : State) (dst : Nat) : Option Nat :=
  (List.range 4).find? fun a => coordOf a dst != coordOf a s.address

/-- A message enters its next axis here: the direction comes from the route table, for a COLL message from its DIRS; none
where the destination is this module, false where it is unreachable (R314, R315). -/
def State.launch (s : State) (hdr : Nat) (payload : List Byte) (fwd : Bool := false) : State × Bool :=
  match s.nextAxis (bitsOf hdr 0 16) with
  | none => (s, true)
  | some a =>
    if bitsOf hdr 32 4 == 1 then (s.emit a (dirsBit hdr a) hdr payload fwd, true)
    else
      let r := s.route a (coordOf a (bitsOf hdr 0 16))
      if r == 1 || r == 2 then (s.emit a (r - 1) (putBits hdr (176 + a) 1 (r - 1)) payload fwd, true) else (s, false)

/-- Is every axis to an address reachable under the active bank (R315)? -/
def State.reachable (s : State) (dst : Nat) : Bool :=
  (List.range 4).all fun a => coordOf a dst == coordOf a s.address || s.route a (coordOf a dst) != 3

/-- Send an answer or a notice from this module (R328, R331). -/
def State.sendMsg (s : State) (h : Hdr) : State := (s.launch ({ h with src := s.address } : Hdr).bits []).1

/-! ### Windows, streams, records -/

/-- Window n of the active bank. -/
def State.win (s : State) (n : Nat) : Option Window := kget none s.links.windows n
/-- Stream h. -/
def State.stream (s : State) (h : Nat) : Option Stream := kget none s.links.streams h
/-- Replace stream h. -/
def State.setStream (s : State) (h : Nat) (x : Option Stream) : State :=
  { s with links := { s.links with streams := kset none s.links.streams h x } }
/-- Change stream h. -/
def State.modStream (s : State) (h : Nat) (f : Stream → Stream) : State :=
  match s.stream h with
  | some x => s.setStream h (some (f x))
  | none => s
/-- Replace inbound stream record i. -/
def State.setIsr (s : State) (i : Nat) (x : Option Isr) : State :=
  { s with links := { s.links with isrs := kset none s.links.isrs i x } }
/-- Replace the hold rings' messages. -/
def State.setRing (s : State) (l : List HeldMsg) : State := { s with links := { s.links with ring := l } }

/-- The index of the inbound stream record of a sender's stream (R328). -/
def State.isrOf (s : State) (src stream : Nat) : Option (Nat × Isr) :=
  s.links.isrs.findSome? fun x => match x.2 with
    | some r => if r.src == src && r.stream == stream then some (x.1, r) else none
    | none => none

/-- A free record index, if any (R328). -/
def State.freeIsr (s : State) : Option Nat :=
  (List.range 4096).find? fun i => (kget none s.links.isrs i).isNone

/-! ### Stream faults, resends (R329) -/

/-- A stream faults: FAULT set, sending stopped, a FAULT record, the function's running command faulted at its next commit
(R329). -/
def State.streamFault (s : State) (h cause : Nat) : State :=
  match s.stream h with
  | none => s
  | some x =>
    if x.fault then s
    else
      let s1 := (s.setStream h (some { x with fault := true })).trace 4 x.func (2 + 256 * cause) h
      match s1.runningOf x.func with
      | none => s1
      | some id => s1.modCmd id fun c => { c with fault := some (c.fault.getD { reason := 0x31, source := 2, unit := h }) }

/-- The bank swap of the route table at a tick; a stream whose destination it cuts off faults (R46, R315, R317, R329). -/
def State.swapRoutes (s : State) : State :=
  if s.links.shadowReady then
    let b := s.field (linkReg 0x1C) 0 1
    let s1 := { s.setReg (linkReg 0x1C) (1 - b) with links := { s.links with routes := s.links.shadow, shadowReady := false } }
    (kkeys s.links.streams).foldl (fun s h => match s.stream h with
      | some x => if s.reachable x.dst then s else s.streamFault h 5
      | none => s) s1
  else s

/-- Resend from the first message not acknowledged; where 8 rounds in a row have made no progress the stream faults instead
(R329). -/
def State.resendRound (s : State) (h : Nat) : State :=
  match s.stream h with
  | none => s
  | some x =>
    if x.fault then s
    else if 8 ≤ x.rounds then s.streamFault h 4
    else
      (s.setStream h (some { x with rounds := x.rounds + 1, resends := (x.resends + 1) % 2 ^ 32 })).setRing
        (s.links.ring.map fun m => if m.stream == h && !m.acked then { m with sent := false } else m)

/-- Does a held message stand before the point (f, q)? -/
def HeldMsg.before (m : HeldMsg) (f q : Nat) : Bool :=
  match m.seq with
  | some n => decide (m.ord < f) || (m.ord == f && decide (n < q))
  | none => false

/-- Messages before a point are acknowledged; progress ends the count of rounds and a pause (R329, R330). -/
def State.acknowledge (s : State) (h f q : Nat) : State :=
  let l := s.links.ring.map fun m => if m.stream == h && m.before f q then { m with acked := true, sent := true } else m
  if l == s.links.ring then s
  else (s.setRing l).modStream h fun x => { x with rounds := 0, paused := false }

/-- Sequence the messages of a frame at its commit: per stream, by core, transfer and place (R327). -/
def State.sequenceStream (s : State) (part ord h : Nat) : State :=
  let mine (m : HeldMsg) : Bool := m.part == part && m.ord == ord && m.stream == h && m.seq.isNone
  let key (m : HeldMsg) : Nat := (m.core * 2 ^ 32 + m.xfer) * 2 ^ 40 + m.part_
  let keys := (s.links.ring.filter mine).map key
  let n := keys.length
  let started := ((s.stream h).map (·.started)).getD true
  let ring := s.links.ring.map fun m =>
    if mine m then
      let i := (keys.filter fun k => decide (k < key m)).length
      { m with seq := some i, last := i + 1 == n, first := i == 0 && !started }
    else m
  if n == 0 then s else (s.setRing ring).modStream h ({ · with started := true })

/-- All streams of a committed frame are sequenced (R327). -/
def State.sequence (s : State) (part ord : Nat) : State :=
  (kkeys s.links.streams).foldl (fun s h => s.sequenceStream part ord h) s

/-- The first of two held messages in SEQ order. -/
def HeldMsg.lt (a b : HeldMsg) : Bool :=
  decide (a.ord < b.ord) || (a.ord == b.ord && decide (a.seq.getD 0 < b.seq.getD 0))

/-- The next released message of a stream that has not been sent. -/
def State.nextMsg (s : State) (h : Nat) : Option HeldMsg :=
  (s.links.ring.filter fun m => m.stream == h && m.seq.isSome && !m.sent).foldl
    (fun a m => match a with
      | none => some m
      | some b => if m.lt b then some m else some b) none

/-- A command that names a stream handle. -/
def onStream (h : Nat) (f : State → State) (s : State) : Host.Outcome State Fault Refusal :=
  if decide (4096 ≤ h) then .fault .noSuchUnit else if s.halted then .next s else .next (f s)

/-- The streams of one class with a released message to send whose core lies on one die, ascending. -/
def State.sendersOf (s : State) (die cls : Nat) : List Nat :=
  (kkeys s.links.streams).filter fun h => (s.stream h).any (fun x => !x.fault && x.tclass == cls)
    && (s.nextMsg h).any fun m => dieOf m.core == die

/-- The stream whose turn it is among those of a die and class: in ascending handle, one message each (R332). -/
def State.nextSender (s : State) (die cls : Nat) : Option Nat :=
  let l := s.sendersOf die cls
  match l.find? fun h => decide (kget 0 s.links.next (16 * die + cls) ≤ h) with
  | some h => some h
  | none => l.head?

/-- Send the next released message of a stream, from cycle 16 of a frame on and in the stream's turn; an unreachable destination
faults the stream (R327, R329, R332). -/
def State.transmit (s : State) (h : Nat) : State :=
  match s.stream h, s.nextMsg h with
  | some x, some m =>
    let key := 16 * dieOf m.core + x.tclass
    if x.fault || decide (s.subtick < 16) then s
    else if !s.reachable x.dst then s.streamFault h 5
    else if s.nextSender (dieOf m.core) x.tclass != some h then s
    else
      let hd : Hdr := { dst := x.dst, src := s.address, kind := 0, tclass := x.tclass, win := x.dstWin, stream := h, sframe := m.ord
                        seq := m.seq.getD 0, offset := m.offset / 32, lenM1 := m.data.length / 32 - 1, last := m.last
                        first := m.first, umber := m.mark, func := x.func }
      let s1 := ((s.launch hd.bits m.data).1).setRing (s.links.ring.map fun y => if y == m then { y with sent := true } else y)
      { s1 with links := { s1.links with next := kset 0 s1.links.next key (h + 1) } }
  | _, _ => s

/-- MESSAGE_TRANSMIT (R327, R332). -/
def execMessageTransmit (stream : Nat) (s : State) : Host.Outcome State Fault Refusal := onStream stream (·.transmit stream) s

/-- RESEND_TIMEOUT (R329): 20 µs without an ACK for a message it has sent. -/
def execResendTimeout (stream : Nat) (s : State) : Host.Outcome State Fault Refusal :=
  onStream stream (fun s =>
    if s.links.ring.any fun m => m.stream == stream && m.sent && !m.acked then
      (if ((s.stream stream).map (·.paused)).getD false then s else s.resendRound stream)
    else s) s

/-- PARKED_REPEAT (R330): a paused stream repeats its messages, outside the count of rounds. -/
def execParkedRepeat (stream : Nat) (s : State) : Host.Outcome State Fault Refusal :=
  onStream stream (fun s =>
    match s.stream stream with
    | some x =>
      if x.paused && !x.fault then
        s.setRing (s.links.ring.map fun m => if m.stream == stream && !m.acked then { m with sent := false } else m)
      else s
    | none => s) s

/-! ### Receiving a WRITE (R321, R328) -/

/-- The source check of a window (R321). -/
def Window.admits (w : Window) (src func : Nat) : Bool :=
  (src &&& w.srcMask) == (w.srcMatch &&& w.srcMask) && (w.peerAny || func == w.peerFunc)

/-- SIZE of a window or stream in 32 B units: 0 stands for 2^24 (R319). -/
def unitsOf (size : Nat) : Nat := if size % 2 ^ 24 == 0 then 2 ^ 24 else size % 2 ^ 24

/-- An ACK, NAK, RETIRE or REWIND to a sender's stream, with a point (R328, R329). -/
def State.answer (s : State) (kind dst stream lf ns : Nat) (closed : Bool) (reason : Nat) : State :=
  s.sendMsg { dst := dst, src := s.address, kind := kind, stream := stream, sframe := lf, seq := ns, last := closed, nak := reason }

/-- An accepted message lands, its window counts it, the counter of NOTIFY_CORE increments with its last byte: in a store at once, in
a pad unit by unit through the core's store port (R92, R328). -/
def State.landMsg (s : State) (n : Nat) (w : Window) (h : Hdr) (payload : List Byte) : State :=
  let data := payload.take (32 * (h.lenM1 + 1))
  let a := w.base + 32 * h.offset
  let s1 := { s with links := { s.links with
    windows := kset none s.links.windows n (some { w with accepted := (w.accepted + 1) % 2 ^ 32 }) } }
  if w.store then (s1.writeMarked a data h.umber).modCore w.notifyCore fun k => k.addCtr w.ctr 1
  else
    let unit (i : Nat) : ExtReq :=
      .window (a + 32 * i) ((data.drop (32 * i)).take 32) h.umber (if i == h.lenM1 then some w.ctr else none)
    s1.modCore w.notifyCore fun k => { k with ext := k.ext ++ (List.range (h.lenM1 + 1)).map unit }

/-- Does a message stay within its window, and within the lines that the window's function still owns (R262, R328;
notes/assumptions/74)? -/
def State.inWindow (s : State) (w : Window) (h : Hdr) : Bool :=
  decide (h.offset + h.lenM1 + 1 ≤ unitsOf w.size)
    && (!w.store || s.ownsStore w.func (w.base + 32 * h.offset) (32 * (h.lenM1 + 1)))

/-- The order rule of a record, and what follows (R328). -/
def State.orderRule (s : State) (n i : Nat) (w : Window) (r : Isr) (h : Hdr) (payload : List Byte) : State :=
  let f : Int := h.sframe
  let before := decide (f < r.lf) || (f == r.lf && (r.closed || decide (h.seq < r.ns)))
  if before then
    (s.count (linkReg 0x20) 1).answer 2 h.src h.stream r.lf.toNat r.ns r.closed 0
  else if (f == r.lf && h.seq == r.ns) || (decide (r.lf < f) && h.seq == 0 && r.closed) then
    let un := r.unacked + 1
    let r1 := { r with lf := f, ns := h.seq + 1, closed := h.last, unacked := un }
    let s1 := s.landMsg n w h payload
    if h.last || 64 ≤ un then
      (s1.setIsr i (some { r1 with unacked := 0 })).answer 2 h.src h.stream h.sframe (h.seq + 1) h.last 0
    else s1.setIsr i (some r1)
  else s.answer 4 h.src h.stream r.lf.toNat r.ns r.closed 1

/-- The checks of a WRITE message, in their order (R328). -/
def State.receiveWrite (s : State) (hdr : BitVec 256) (payload : List Byte) : State :=
  let h := parseHdr hdr
  let nak (s : State) (reason : Nat) : State := s.answer 4 h.src h.stream 0 0 false reason
  match s.win h.win with
  | none => nak (s.count (linkReg 0x24) 1) 2
  | some w =>
    if w.parked then nak s 5
    else if !w.admits h.src h.func then nak (s.count (linkReg 0x24) 1) 3
    else if !s.inWindow w h then nak (s.count (linkReg 0x24) 1) 4
    else
      match s.isrOf h.src h.stream with
      | some (i, r) => s.orderRule h.win i w r h payload
      | none =>
        if !h.first then nak s 1
        else
          match s.freeIsr with
          | none => nak (s.setBit (linkReg 0x0C) 4) 6
          | some i =>
            let r : Isr := { src := h.src, stream := h.stream, win := h.win, lf := (h.sframe : Int) - 1, ns := 0, closed := true }
            (s.setIsr i (some r)).orderRule h.win i w r h payload

/-- What the line of port p in service brings; the link layer runs on under Vigil (R483). -/
def onLine (p : Nat) (f : State → State) (s : State) : Host.Outcome State Fault Refusal :=
  if !isPort p then .fault .noSuchUnit else if s.mgmt.dark || s.portState p != 2 then .next s else .next (f s)

/-- A command of port p. -/
def onPort (p : Nat) (f : State → State) (s : State) : Host.Outcome State Fault Refusal :=
  if !isPort p then .fault .noSuchUnit else if s.halted then .next s else .next (f s)

/-- A message's bytes on a channel. -/
def messageBytes (hdr : BitVec 256) (payload : List Byte) : List Byte := leBytes 32 hdr.toNat ++ payload

/-- WRITE_MESSAGE_RECEIVE (R328): only on a port in service, only a message for this module. -/
def execWriteMessageReceive (p : Nat) (hdr : BitVec 256) (payload : List (BitVec 8)) (s : State) :
    Host.Outcome State Fault Refusal :=
  onPort p (fun s =>
    if s.portState p == 2 && bitsOf hdr.toNat 0 16 == s.address && bitsOf hdr.toNat 32 4 == 0 then
      ((s.passOn p (messageBytes hdr payload)).1).receiveWrite hdr payload
    else s) s

/-- MESSAGE_FORWARD (R314, R317): on the axis of its port it follows its DIRS bit until that coordinate is reached. -/
def execMessageForward (p : Nat) (hdr : BitVec 256) (payload : List (BitVec 8)) (s : State) :
    Host.Outcome State Fault Refusal :=
  onPort p (fun s =>
    let h := hdr.toNat
    let a := portAxis p
    if s.portState p != 2 then s
    else
      let y := s.passOn p (messageBytes hdr payload)
      if coordOf a (bitsOf h 0 16) != coordOf a s.address then y.1.emit a (dirsBit h a) h payload true y.2
      else (y.1.launch h payload true).1) s

/-! ### Answers (R328–R331) -/

/-- Is a message of a kind for this module, about a stream it has? -/
def State.mine (s : State) (hdr : BitVec 256) (kind : Nat) : Option Stream :=
  let h := parseHdr hdr
  if h.dst == s.address && h.kind == kind then
    match s.stream h.stream with
    | some x => if x.dst == h.src then some x else none
    | none => none
  else none

/-- RETIRE (R329): the hold ring frees what stands before the point, and the stream keeps it. -/
def execRetire (hdr : BitVec 256) (s : State) : Host.Outcome State Fault Refusal :=
  if s.halted then .next s
  else
    match s.mine hdr 3 with
    | none => .next s
    | some x =>
      let h := parseHdr hdr
      let s0 := s.passAny (messageBytes hdr [])
      if decide (h.sframe < x.retSframe) || (h.sframe == x.retSframe && decide (h.seq ≤ x.retSeq)) then .next s0
      else
        let s1 := s0.setRing (s0.links.ring.filter fun m => !(m.stream == h.stream && m.before h.sframe h.seq))
        .next (s1.setStream h.stream (some { x with retSframe := h.sframe, retSeq := h.seq, rounds := 0 }))

/-- REWIND (R329): every held message from the point on is sent again. -/
def execRewind (hdr : BitVec 256) (s : State) : Host.Outcome State Fault Refusal :=
  if s.halted then .next s
  else
    match s.mine hdr 5 with
    | none => .next s
    | some _ =>
      let h := parseHdr hdr
      .next ((s.passAny (messageBytes hdr [])).setRing (s.links.ring.map fun m =>
        if m.stream == h.stream && m.seq.isSome && !m.before h.sframe h.seq then { m with sent := false, acked := false } else m))

/-- The effect of a NAK on its stream (R329, R330). -/
def State.nakStream (s : State) (h : Hdr) : State :=
  match h.nak with
  | 1 => (s.acknowledge h.stream h.sframe h.seq).resendRound h.stream
  | 2 => s.streamFault h.stream 1
  | 3 => s.streamFault h.stream 2
  | 4 => s.streamFault h.stream 3
  | 5 => s.modStream h.stream ({ · with paused := true })
  | 6 => s.resendRound h.stream
  | _ => s

/-- ACK_TIMER (R328): an accepted message not yet acknowledged after 2 µs. -/
def execAckTimer (src stream : Nat) (s : State) : Host.Outcome State Fault Refusal :=
  if s.halted then .next s
  else
    match s.isrOf src stream with
    | some (i, r) =>
      if 0 < r.unacked then
        .next ((s.setIsr i (some { r with unacked := 0 })).answer 2 src stream r.lf.toNat r.ns r.closed 0)
      else .next s
    | none => .next s

/-- RETIRE for every record of partition p's windows whose mirrored point has moved (R329). -/
def State.sendRetires (s : State) (p : Nat) (mirrored : KMap Isr) : State :=
  mirrored.foldl (fun s x =>
    match kget none s.links.isrs x.1 with
    | some r =>
      if ((s.win r.win).map fun w => s.funcPart w.func) == some (some p) && (r.retLf != x.2.lf || r.retNs != x.2.ns) then
        (s.setIsr x.1 (some { r with retLf := x.2.lf, retNs := x.2.ns })).answer 3 r.src r.stream x.2.lf.toNat x.2.ns false 0
      else s
    | none => s) s

/-! ### Port state (R306, R309–R311, R313, R316, R447, R534) -/

/-- STATE and the neighbour's address of port p. -/
def State.setPortState (s : State) (p st : Nat) : State := s.setField (linkReg (0x40 + 16 * p)) 0 3 st

/-- A LINK_STATE message that a module sends about a link of an axis; where the link stands in the header is open (R316; DESIGN
CHOICE, notes/assumptions/24). -/
def linkStateHdr (src axis coord : Nat) (up : Bool) : Nat :=
  ({ dst := src, src := src, kind := 6, offset := coord + 32 * axis + 128 * natOf up } : Hdr).bits

/-- A LINK_STATE message from this module about a link of an axis, both ways round the ring (R316). -/
def State.sendLinkState (s : State) (axis coord : Nat) (up : Bool) : State :=
  [0, 1].foldl (fun s dir =>
    if s.portState (axisPort axis dir) == 2 then s.emit axis dir (linkStateHdr s.address axis coord up) [] else s) s

/-- A link's new state is known: the failed set changes and the shadow bank is built (R315, R316). -/
def State.noteLink (s : State) (axis coord : Nat) (up : Bool) : State :=
  let l := s.links.failed.filter fun x => x != (axis, coord)
  ({ s with links := { s.links with failed := if up then l else l ++ [(axis, coord)] } }).buildShadow

/-- A port is taken down: FAILED, counted, traced, a remap record queued; what its replay buffer holds is lost; LINK_STATE is
flooded; the WRITE and COLL messages that waited for it go back the other way (R311, R317, R444, R448). -/
def State.portDown (s : State) (p cause : Nat) : State :=
  let s1 := ((s.setPortState p 4).count (linkReg (0x4C + 16 * p)) 1).trace 4 0 (4 + 256 * cause) p
  let s2 := (s1.queueRecord (portDie p) (remapRecord s.tick 3 false 0 0 p false 0)).modPort p fun x =>
    { x with replay := [], queue := [], spent := [], owed := [], rx := [] }
  let s3 := (s2.noteLink (portAxis p) (s.portLink p) false).sendLinkState (portAxis p) (s.portLink p) false
  (s.port p).queue.foldl (fun s m =>
    if m.cont || m.vc == 2 then s
    else s.emit (portAxis p) (p % 2) (leNat (m.bytes.take 32)) (m.bytes.drop 32) m.fwd (some m.vc)) s3

/-- PORT_FAIL (R311): cause 1 replay limit, 2 alignment. -/
def execPortFail (p cause : Nat) (s : State) : Host.Outcome State Fault Refusal :=
  onPort p (fun s => if s.portState p == 2 then s.portDown p cause else s) s

/-- A replay asked for: a block that 16 replays have not brought over takes the port down; new blocks resume after the replay (R310,
R311). -/
def State.linkReplay (s : State) (p acked : Nat) : State :=
  if (s.port p).spentReplays acked then s.portDown p 1
  else
    let s1 := s.modPort p (·.replayFrom acked)
    (s1.tally 3 p 5 (s1.port p).replay.length).pumpPort p

/-- LINK_REPLAY (R310). -/
def execLinkReplay (p acked : Nat) (s : State) : Host.Outcome State Fault Refusal :=
  onLine p (·.linkReplay p acked) s

/-- What a good block's header says of the blocks this port sent: acknowledged ones leave the replay buffer, credits come back, a
NAK asks for a replay; then new blocks go (R307, R310, R312). -/
def State.blockHeader (s : State) (p hdr : Nat) : State :=
  let s1 := s.modPort p fun x =>
    let l := dropAcked (bitsOf hdr 14 12) x.replay
    { x with
      spent := kmod 0 x.spent (bitsOf hdr 41 2) (· - bitsOf hdr 29 12)
      replay := if bitOf hdr 26 then x.replay else l
      replays := if !bitOf hdr 26 && decide (l.length < x.replay.length) then 0 else x.replays }
  if bitOf hdr 26 then (s1.count (linkReg (0x48 + 16 * p)) 1).linkReplay p (bitsOf hdr 14 12) else s1.pumpPort p

/-- LINK_BLOCK_RECEIVE (R307–R310, R312): what its header says; then a DATA block is taken in order, and acknowledged in an IDLE block,
or answered with NAK. A block counts as good where CODE left it good and its CRC matches; a CONTROL block that is not is dropped. -/
def State.blockReceive (s : State) (p : Nat) (good corr : Bool) (blk : List Byte) : State :=
  let hdr := leNat (blk.take 8)
  let kind := bitsOf hdr 0 2
  let ok := good && blk.length == 528 && crcFeed (crcSel 3) 0 (blk.take 520) == leNat (blk.drop 520)
  let s0 := if corr then (s.count (linkReg (0x44 + 16 * p)) 1).tally 3 p 3 1 else s
  let sendNak (s : State) : State :=
    ((s.count (linkReg (0x48 + 16 * p)) 1).tally 3 p 4 1).modPort p fun x => x.send 2 0 0 true []
  if !ok then (if kind == 1 then s0 else sendNak s0)
  else
    let s1 := s0.blockHeader p hdr
    if kind != 0 || s1.portState p != 2 then s1
    else if bitsOf hdr 2 12 == ((s1.port p).rxLast + 1) % 4096 then
      (s1.tally 3 p 2 1).modPort p fun x => { x with
        rxLast := bitsOf hdr 2 12
        rx := kmod [] x.rx (bitsOf hdr 27 2) (· ++ [(blk.drop 8).take 512]) }.send 2 0 0 false []
    else sendNak s1

/-- LINK_BLOCK_RECEIVE (R310). -/
def execLinkBlockReceive (p : Nat) (good corr : Bool) (blk : List (BitVec 8)) (s : State) :
    Host.Outcome State Fault Refusal :=
  onLine p (·.blockReceive p good corr blk) s

/-- May port p train: on an axis longer than 1; the W ports with the carrier's W length equal to TOR_DIM's; the cable ports with
both assemblies qualified (R313, R505, R507)? -/
def State.portFitted (s : State) (p : Nat) : Bool :=
  s.axisLen (portAxis p) != 1 && (if p < 6 then kget false s.mgmt.cables p else s.field (linkReg 4) 0 2 == s.field (mgmtReg 0x10) 4 2)

/-- A write of UP_REQ: 1 starts training of a port that is not in service, on an axis longer than 1; 0 stops training or
takes the port down (R311, R313, R447, R534). -/
def State.portRequest (s : State) (p : Nat) (up : Bool) : State :=
  let s1 := s.setField (linkReg 8) p 1 (natOf up)
  let st := s.portState p
  if up then
    if st != 2 && st != 1 && s.portFitted p then s1.setPortState p 1 else s1
  else if st == 1 then s1.setPortState p 0
  else if st == 2 then s1.portDown p 0
  else s1

/-- PORT_UP_REQUEST (R447). -/
def execPortUpRequest (p : Nat) (up : Bool) (s : State) : Host.Outcome State Fault Refusal :=
  if isPort p && s.vigil.frozen then .next (s.enqueueWrite 0 (linkReg 8) (putBits (s.reg (linkReg 8)) p 1 (natOf up)) 15)
  else onPort p (·.portRequest p up) s

/-- A port has trained: its delay and its neighbour's address decide whether it comes into service (R306, R313, R316). -/
def State.portTrained (s : State) (p nb delay : Nat) : State :=
  let a := portAxis p
  let n := s.axisLen a
  let want := setCoord a s.address ((coordOf a s.address + (if p % 2 == 0 then 1 else n - 1)) % n)
  let s1 := s.setField (linkReg (0x40 + 16 * p)) 16 16 nb
  if decide (2880 < delay) then (s1.setPortState p 4).setBit (linkReg 0x0C) 2
  else if nb % 65536 != want then (s1.setPortState p 3).setBit (linkReg 0x0C) 1
  else
    let s2 := (s1.setPortState p 2).setReg (almReg (0x20 + 4 * p)) delay
    let s3 := s2.modPort p fun x => { wire := x.wire }
    (s3.noteLink a (s.portLink p) true).sendLinkState a (s.portLink p) true

/-- PORT_UP (R306, R313): only a port in training. -/
def execPortUp (p neighbour delay : Nat) (s : State) : Host.Outcome State Fault Refusal :=
  onPort p (fun s => if s.portState p == 1 then s.portTrained p neighbour delay else s) s

/-- PORT_TRAINING_REPEAT (R511): a port whose UP_REQ is 1 and which is not UP trains again. -/
def execPortTrainingRepeat (p : Nat) (s : State) : Host.Outcome State Fault Refusal :=
  onPort p (fun s => if s.bit (linkReg 8) p && s.portState p != 2 && s.portFitted p then s.setPortState p 1 else s) s

/-- LINK_STATE (R316): the shadow bank changes; the message goes on round the ring as it came, until it meets a failed link or comes
back to its source. -/
def execLinkState (p src : Nat) (link : TorusLink) (up : Bool) (s : State) : Host.Outcome State Fault Refusal :=
  onPort p (fun s =>
    if s.portState p != 2 || portAxis p != link.axis then s
    else
      let m := linkStateHdr src link.axis link.coord up
      let s0 := (s.passOn p (leBytes 32 m)).1
      if src == s.address then s0 else (s0.noteLink link.axis link.coord up).emit link.axis (1 - p % 2) m [] true) s

/-! ### Opening and closing (R319, R320, R322, R355) -/

/-- Windows of function f that are open or waiting to open. -/
def State.winCount (s : State) (f : Nat) : Nat :=
  (s.links.windows.filter fun x => match x.2 with
    | some w => w.func == f
    | none => false).length +
  (s.links.winChanges.filter fun x => match x.2.2 with
    | some w => w.func == f
    | none => false).length

/-- FN_WIN_MAX of function f (R333). -/
def State.winMax (s : State) (f : Nat) : Nat := s.field (bar0 f 0xA040) 0 13

/-- The lowest window number neither open nor waiting to open. -/
def State.freeWindow (s : State) : Option Nat :=
  (List.range 4096).find? fun n => (s.win n).isNone && !s.links.winChanges.any fun x => x.2.1 == n

/-- The lowest free stream handle. -/
def State.freeStream (s : State) : Option Nat := (List.range 4096).find? fun n => (s.stream n).isNone

/-- A window entry as WINDOW_OPEN carries it (R319); none where a field that must be zero is not. -/
def parseWindow (f : Nat) (c : Nat) : Option Window :=
  let b := bitsOf c
  if b 0 1 != 0 || b 2 6 != 0 || b 8 8 != 0 || b 35 5 != 0 || b 49 15 != 0 || b 112 16 != 0 || b 152 8 != 0 || b 192 32 != 0
      || b 224 32 != 0 || b 64 5 != 0 then none
  else some { store := bitOf c 1, func := f, notifyCore := b 16 16, ctr := b 32 3, peerFunc := b 40 8, peerAny := bitOf c 48
              base := b 64 48, size := b 128 24, srcMatch := b 160 16, srcMask := b 176 16 }

/-- Does an inbound window keep R320's rules on its range and core? -/
def State.windowOk (s : State) (f : Nat) (w : Window) : Bool :=
  let n := 32 * unitsOf w.size
  let mine := s.isCore w.notifyCore && (s.partOf w.notifyCore).isSome && s.partOf w.notifyCore == s.funcPart f
  if w.store then mine && s.ownsStore f w.base n
  else
    decide (padKey ≤ w.base) && decide (w.base % 0x40000 + n ≤ 0x28000) && (w.base - padKey) / 0x40000 == w.notifyCore && mine

/-- WINDOW_OPEN at admission (R320, R355). -/
def State.openWindow (s : State) (id : Nat) (c : Cmd) : State :=
  let pay := leNat c.payload
  if bitsOf pay 0 8 == 0 then
    match parseWindow c.func (bitsOf pay 64 256), s.freeWindow with
    | some w, some n =>
      if decide (s.winCount c.func < s.winMax c.func) && s.windowOk c.func w then
        { s with links := { s.links with winChanges := s.links.winChanges ++ [(id, n, some w)] } }
      else s.deny id 0x18
    | _, _ => s.deny id 0x18
  else
    match s.freeStream with
    | none => s.deny id 0x18
    | some h =>
      let st : Stream := { func := c.func, tclass := bitsOf pay 96 4, dst := bitsOf pay 64 16, dstWin := bitsOf pay 80 12
                           dstSize := unitsOf (bitsOf pay 128 24) }
      (s.setStream h (some st)).complete id c.status (if c.status == 0 then h * 2 ^ 16 else c.detail)

/-- The streams whose hold ring is empty, or that have faulted, and that a command closes, go (R355). -/
def State.closeStreams (s : State) : State :=
  (kkeys s.links.streams).foldl (fun s h =>
    match s.stream h with
    | some x =>
      match x.closing with
      | some id =>
        if x.fault || !(s.links.ring.any fun m => m.stream == h) then
          ((s.setRing (s.links.ring.filter fun m => m.stream != h)).setStream h none).completeOwn id
        else s
      | none => s
    | none => s) s

/-- WINDOW_CLOSE at admission (R320, R355). -/
def State.closeWindow (s : State) (id : Nat) (c : Cmd) : State :=
  let pay := leNat c.payload
  let h := bitsOf pay 16 12
  if bitsOf pay 0 8 == 0 then
    match s.win h with
    | some w =>
      if w.func == c.func then { s with links := { s.links with winChanges := s.links.winChanges ++ [(id, h, none)] } }
      else s.deny id 0x18
    | none => s.deny id 0x18
  else
    match s.stream h with
    | some x =>
      if x.func == c.func && x.closing.isNone then (s.setStream h (some { x with closing := some id })).closeStreams
      else s.deny id 0x18
    | none => s.deny id 0x18

/-- The window changes of the bank swap take effect, and their commands complete (R320, R355). -/
def State.swapWindows (s : State) : State :=
  let l := s.links.winChanges
  let s1 := { s with links := { s.links with winChanges := [] } }
  l.foldl (fun s x =>
    let s2 := { s with links := { s.links with
      windows := kset none s.links.windows x.2.1 x.2.2
      isrs := if x.2.2.isSome then s.links.isrs else
        s.links.isrs.filter fun r => match r.2 with
          | some r => r.win != x.2.1
          | none => false } }
    match s2.cmd x.1 with
    | none => s2
    | some c => s2.complete x.1 c.status (if c.status == 0 && x.2.2.isSome then x.2.1 * 2 ^ 16 else c.detail)) s1

/-- The windows of a partition's functions become parked or not (R330). -/
def State.park (s : State) (p : Nat) (on : Bool) : State :=
  { s with links := { s.links with
    windows := s.links.windows.map fun x => (x.1, x.2.map fun w => if s.funcPart w.func == some p then { w with parked := on } else w) } }

end Sys2Proof.Machine
end

