-- ==== Sys2Proof/Machine/Queues.lean ====
section
/-! DEFINITION. Queues: doorbells, enabling, fetching in rounds, the checks of a command, acceptance
(R335–R359, R366, R372). -/

namespace Sys2Proof.Machine

/-! ### Facts of a function (R343, R356, R367) -/

/-- QUEUES of function f. -/
def State.fnQueues (s : State) (f : Nat) : Nat := bitsOf (s.fnCfg f) 8 7
/-- EV_BASE of function f. -/
def State.evBase (s : State) (f : Nat) : Nat := s.field (cpReg (0x1004 + 16 * f)) 0 16
/-- EV_COUNT of function f. -/
def State.evCount (s : State) (f : Nat) : Nat := s.field (cpReg (0x1004 + 16 * f)) 16 13
/-- Does function f hold event e? -/
def State.ownsEvent (s : State) (f e : Nat) : Bool := decide (s.evBase f ≤ e) && decide (e < s.evBase f + s.evCount f)
/-- Does queue q of function f exist (R343)? -/
def State.queueExists (s : State) (f q : Nat) : Bool := decide (f < 256) && decide (q < s.fnQueues f)

/-- A queue command: nothing where the queue does not exist. -/
def onQueue (f q : Nat) (g : State → State) (s : State) : Host.Outcome State Fault Refusal :=
  if !(decide (f < 256) && decide (q < 64)) then .fault .noSuchUnit
  else if s.queueExists f q then .next (g s) else .next s

/-! ### Doorbells (R344–R346) -/

/-- Entries of the submission ring: as taken at ENABLE, else as the register says. -/
def State.sqSize (s : State) (f q : Nat) : Nat :=
  2 ^ (if (s.queue f q).on then (s.queue f q).sqLog else s.field (queueReg f q 0x08) 0 5)

/-- Records of the completion ring. -/
def State.cqSize (s : State) (f q : Nat) : Nat :=
  2 ^ (if (s.queue f q).on then (s.queue f q).cqLog else s.field (queueReg f q 0x1C) 0 5)

/-- A write of SQ_TAIL: at or above the ring size it is ignored and flagged (R344). -/
def State.writeTail (s : State) (f q tail : Nat) : State :=
  let t := tail % 65536
  if decide (s.sqSize f q ≤ t) then s.setBit (queueReg f q 0x2C) 1 else s.setReg (queueReg f q 0x0C) t

/-- A write of CQ_HEAD; freed slots let held records out (R344, R347). -/
def State.writeCqHead (s : State) (f q head : Nat) : State :=
  let h := head % 131072
  if decide (s.cqSize f q ≤ h) then s.setBit (queueReg f q 0x2C) 1
  else
    let s1 := s.setReg (queueReg f q 0x20) h
    s1.flushHeld f q (s1.queue f q).held.length

/-- DOORBELL (R344); under Vigil the write waits (R535). -/
def execDoorbell (f q tail : Nat) (s : State) : Host.Outcome State Fault Refusal :=
  onQueue f q (fun s =>
    if s.vigil.frozen then s.enqueueWrite f (queueReg f q 0x0C) tail 15 else s.writeTail f q tail) s

/-- CQ_HEAD_WRITE (R345). -/
def execCqHeadWrite (f q head : Nat) (s : State) : Host.Outcome State Fault Refusal :=
  onQueue f q (fun s =>
    if s.vigil.frozen then s.enqueueWrite f (queueReg f q 0x20) head 15 else s.writeCqHead f q head) s

/-! ### Enabling and disabling (R347, R371, R534) -/

/-- CP_STATUS.ABANDON_PENDING: some queue still holds entries from before a power loss (R371). -/
def State.abandonPending (s : State) : State :=
  s.setField (cpReg 0) 3 1 (natOf (s.queues.any fun x => !x.2.abandoned.isEmpty))

/-- ENABLE = 1: the queue takes its base and size registers; held records and those whose consumption was not journaled
are written again with REPLAYED, then ABANDONED ones (R347, R371). Sizes outside R343's ranges enable nothing (DESIGN
CHOICE, notes/assumptions/21). -/
def State.enableQueue (s : State) (f q : Nat) : State :=
  let sq := s.field (queueReg f q 0x08) 0 5
  let cq := s.field (queueReg f q 0x1C) 0 5
  if (s.queue f q).on || !(decide (1 ≤ sq) && decide (sq ≤ 16) && decide (2 ≤ cq) && decide (cq ≤ 17)) then s
  else
    let s1 := s.modQueue f q fun u => { u with
      on := true
      sqBase := s.wide (queueReg f q 0x00)
      sqLog := sq
      cqBase := s.wide (queueReg f q 0x14)
      cqLog := cq
      held := (u.unread ++ u.held).map (fun r => { r with replayed := true }) ++ u.abandoned
      unread := []
      last := none
      abandoned := [] }
    let s2 := ((s1.setBit (queueReg f q 0x28) 0).setBit (queueReg f q 0x2C) 0).abandonPending
    s2.flushHeld f q (s2.queue f q).held.length

/-- ENABLE = 0: fetching stops, accepted commands run on (R347). -/
def State.disableQueue (s : State) (f q : Nat) : State :=
  let s1 := s.modQueue f q ({ · with on := false })
  (s1.clearBit (queueReg f q 0x28) 0).clearBit (queueReg f q 0x2C) 0

/-- QUEUE_ENABLE (R347). -/
def execQueueEnable (f q : Nat) (s : State) : Host.Outcome State Fault Refusal :=
  onQueue f q (fun s =>
    if s.vigil.frozen then s.enqueueWrite f (queueReg f q 0x28) 1 15 else s.enableQueue f q) s

/-- QUEUE_DISABLE (R347). -/
def execQueueDisable (f q : Nat) (s : State) : Host.Outcome State Fault Refusal :=
  onQueue f q (fun s =>
    if s.vigil.frozen then s.enqueueWrite f (queueReg f q 0x28) 0 15 else s.disableQueue f q) s

/-- HOST_ACCESS_FAIL (R337): the queue stops as though ENABLE were cleared, and HOST_ERR is set; a failed write is that of the
record written last, which is held. -/
def execHostAccessFail (f q : Nat) (write : Bool) (s : State) : Host.Outcome State Fault Refusal :=
  onQueue f q (fun s =>
    if s.halted then s
    else
      let s1 := (if write then s.unwrite f q else s).modQueue f q ({ · with on := false })
      ((s1.clearBit (queueReg f q 0x2C) 0).setBit (queueReg f q 0x2C) 2).markHeld f q) s

/-! ### Commands as fetched (R348, R349, R353–R356) -/

/-- PLEN of an opcode, and whether it needs a partition; none for a reserved opcode (R349, R375, R395, R418, R455). -/
def opcodeInfo : Nat → Option (Nat × Bool)
  | 0x01 => some (80, true)
  | 0x02 => some (32, true)
  | 0x10 => some (64, true)
  | 0x11 => some (64, true)
  | 0x12 => some (64, true)
  | 0x13 => some (64, true)
  | 0x14 => some (64, true)
  | 0x15 => some (64, true)
  | 0x18 => some (64, true)
  | 0x19 => some (16, true)
  | 0x20 => some (40, true)
  | 0x21 => some (8, true)
  | 0x22 => some (16, false)
  | 0x23 => some (0, false)
  | 0x30 => some (96, true)
  | 0x31 => some (144, true)
  | _ => none

/-- A field of a command's payload. -/
def Cmd.pay (c : Cmd) (off n : Nat) : Nat := leNat ((c.payload.drop off).take n)

/-- NWAIT of a FLAGS field. -/
def flagsNwait (fl : Nat) : Nat := bitsOf fl 1 3
/-- NSIG. -/
def flagsNsig (fl : Nat) : Nat := bitsOf fl 4 2
/-- SCOPE. -/
def Cmd.scope (c : Cmd) : Bool := bitOf c.flags 7
/-- CAL_EN. -/
def Cmd.calEn (c : Cmd) : Bool := bitOf c.flags 0

/-- Payload bytes that are reserved or unused by the opcode: offset and length (R353–R356, R375, R395, R418,
R455). -/
def payloadReserved : Nat → List (Nat × Nat)
  | 0x01 => [(0x14, 4), (0x42, 14)]
  | 0x02 => [(2, 6)]
  | 0x20 => [(1, 7)]
  | 0x21 => [(1, 1), (4, 4)]
  | 0x22 => [(1, 3), (6, 2), (12, 4)]
  | 0x10 | 0x12 => [(5, 1), (0x28, 24)]
  | 0x11 | 0x13 => [(5, 1), (0x38, 2), (0x3C, 4)]
  | 0x14 => [(5, 1), (0x38, 2), (0x3C, 4)]
  | 0x15 => [(5, 1), (0x3C, 4)]
  | 0x18 => [(5, 1), (0x10, 16), (0x28, 24)]
  | 0x19 => [(5, 1), (8, 8)]
  | 0x30 => [(0x1A, 6), (0x2D, 3), (0x3D, 3), (0x4D, 3), (0x5D, 3)]
  | 0x31 => [(0x17, 1), (0x28, 8), (0x5D, 3), (0x6D, 3), (0x7D, 3), (0x8D, 3)]
  | _ => []

/-- The bits of OPT that a collective opcode uses (R375). -/
def collOpt : Nat → Nat
  | 0x11 | 0x13 => 1
  | 0x18 => 2
  | 0x15 => 4
  | _ => 0

/-- Do the payload's own fields hold a reserved value? -/
def Cmd.payloadBad (c : Cmd) : Bool :=
  (payloadReserved c.opcode).any (fun r => c.pay r.1 r.2 != 0) ||
    match c.opcode with
    | 0x02 => decide (1 < c.pay 0 1) || c.pay 1 1 / 8 != 0 ||
        (if c.pay 0 1 == 0 then c.pay 0x10 8 != 0 || c.pay 0x18 8 != 0 else false)
    | 0x20 => decide (1 < c.pay 0 1) ||
        (c.pay 0 1 == 1 && (c.pay 0x0A 2 / 4096 != 0 || c.pay 0x0C 1 / 16 != 0 || c.pay 0x0D 3 != 0 || c.pay 0x10 4 / 2 ^ 24 != 0
          || c.pay 0x14 20 != 0))
    | 0x21 => decide (1 < c.pay 0 1) || c.pay 2 2 / 4096 != 0
    | 0x22 => decide (1 < c.pay 0 1)
    | 0x10 | 0x11 | 0x12 | 0x13 | 0x14 | 0x15 | 0x18 =>
      c.pay 0 1 / 8 != 0 || c.pay 2 1 / 16 != 0 || c.pay 4 1 / 16 != 0
        || (List.range 8).any fun i => bitOf (c.pay 3 1) i && !bitOf (collOpt c.opcode) i
    | 0x19 => c.pay 4 1 / 64 != 0 || decide (64 < c.pay 6 2)
    | 0x30 => decide (4 < c.pay 0x18 1) || c.pay 0x19 1 / 2 != 0
    | 0x31 =>
      decide (4 < c.pay 0x14 1) || c.pay 0x15 1 / 8 != 0
        || (List.range 4).any fun i => decide (c.pay 0x14 1 ≤ i) && c.pay (0x50 + 16 * i) 16 != 0
    | _ => false

/-- Events that the payload names (R353, R356). -/
def Cmd.payloadEvents (c : Cmd) : List Nat :=
  match c.opcode with
  | 0x01 => ((List.range 16).filter fun i => bitOf (c.pay 0x40 2) i).map fun i => c.pay (0x20 + 2 * i) 2
  | 0x22 => [c.pay 4 2]
  | _ => []

/-- The first check of R351 that a command with d = 0 fails, CALENDS apart; `raw` its 64 bytes. -/
def State.checkCommand (s : State) (f : Nat) (raw : List Byte) (c : Cmd) : Option Nat :=
  let n (off k : Nat) : Nat := leNat ((raw.drop off).take k)
  let plen := n 0x18 4
  let addr := n 0x10 8
  match opcodeInfo c.opcode with
  | none => some (if n 1 1 != f then 0x11 else 0x10)
  | some info =>
    firstFail [
      (n 1 1 == f, 0x11),
      (c.flags / 256 == 0 && decide (flagsNwait c.flags ≤ 4) && decide (flagsNsig c.flags ≤ 2) && (!c.scope || c.opcode == 0x23)
        && (List.range 4).all (fun i =>
          if i < flagsNwait c.flags then n (0x22 + 8 * i) 2 == 0 else n (0x20 + 8 * i) 8 == 0)
        && (List.range 2).all (fun i => decide (i < flagsNsig c.flags) || n (0x1C + 2 * i) 2 == 0), 0x12),
      (c.sigs.all (s.ownsEvent f) && c.waits.all (fun w => s.ownsEvent f w.1), 0x14),
      (!info.2 || (s.funcPart f).isSome, 0x17),
      (plen == info.1 && (if plen == 0 then addr == 0 else addr != 0 && addr % 8 == 0), 0x16),
      (!c.payloadBad, 0x12),
      (c.payloadEvents.all (s.ownsEvent f), 0x14)]

/-- The command at entry `head` of the queue, with its payload, and the outcome of R350 and R351. -/
def State.readCommand (s : State) (f q head : Nat) : Cmd :=
  let u := s.queue f q
  let raw := Mem.readBytes s.mem (hostKey (u.sqBase + 64 * head)) 64
  let n (off k : Nat) : Nat := leNat ((raw.drop off).take k)
  let plen := n 0x18 4
  let addr := n 0x10 8
  let good := plen == ((opcodeInfo (n 0 1)).map (·.1)).getD 0 && addr % 8 == 0
  let flags := n 2 2
  let c : Cmd := {
    func := f, q := q, opcode := n 0 1, flags := flags, hseq := n 4 4, calends := n 8 8
    sigs := (List.range (min 2 (flagsNsig flags))).map fun i => n (0x1C + 2 * i) 2
    waits := (List.range (min 4 (flagsNwait flags))).map fun i => (n (0x20 + 8 * i) 2, n (0x24 + 8 * i) 4)
    payload := if good then Mem.readBytes s.mem (hostKey addr) plen else [] }
  let ahead := (s.cmds.filter fun x => match x.2 with
    | some y => y.func == f && y.q == q && y.accepted.isNone && !y.dup && y.refuse != some 0x13
    | none => false).length
  let d : Int := (BitVec.ofNat 32 c.hseq - BitVec.ofNat 32 (s.reg (queueReg f q 0x30) + ahead)).toInt
  if d < 0 then { c with dup := true }
  else if 0 < d then { c with refuse := some 0x13 }
  else { c with refuse := s.checkCommand f raw c }

/-! ### Consumption: acceptance, denial, duplicates (R350, R351, R357) -/

/-- Q_HSEQ_NEXT advances by one. -/
def State.nextHseq (s : State) (f q : Nat) : State := s.setReg (queueReg f q 0x30) (s.reg (queueReg f q 0x30) + 1)

/-- A record of a command that is not accepted: DUPLICATE, or DONE with DENIED (R350, R351, R362). -/
def State.turnAway (s : State) (id : Nat) (c : Cmd) : State :=
  let s1 := s.setCmd id none
  if c.dup then s1.post c.func c.q 2 { type := 2, opcode := c.opcode, hseq := c.hseq }
  else
    let reason := c.refuse.getD 0
    let s2 := if reason == 0x13 then s1 else s1.nextHseq c.func c.q
    let s3 := if c.opcode == 0x31 then s2.replayUnchecked c.func (s2.replayExpect c.func) else s2
    s3.post c.func c.q 2 { type := 1, status := 0x11, opcode := c.opcode, hseq := c.hseq, endTick := s.tick, detail := reason }

/-- Is K refused at acceptance (R56)? -/
def State.calendsBad (s : State) (c : Cmd) : Bool :=
  c.calEn && (decide (c.calends ≤ s.tick + 1) || decide (s.tick + 2 ^ 32 < c.calends))

/-- The fetched commands of a queue that are not yet consumed, oldest first. -/
def State.fetched (s : State) (f q : Nat) : List (Nat × Cmd) :=
  s.cmds.filterMap fun x => match x.2 with
    | some c => if c.func == f && c.q == q && c.accepted.isNone then some (x.1, c) else none
    | none => none

/-- Consume, in fetch order, the fetched commands that are turned away, up to the next one to accept (R350). -/
def State.consumeRefused (s : State) (f q : Nat) : Nat → State
  | 0 => s
  | n + 1 =>
    match s.fetched f q with
    | (id, c) :: _ =>
      if c.dup || c.refuse.isSome then State.consumeRefused (s.turnAway id c) f q n else s
    | [] => s

/-- Frames in a second at the rate in use (R42). -/
def State.ticksPerSecond (s : State) : Nat := 1500000000 / s.cycles

/-- Acceptances of the second that ends now, counted by whole ticks (notes/assumptions/70). -/
def State.recentAccepts (s : State) : KMap Nat := s.cp.accepts.filter fun x => decide (s.tick ≤ x.1 + s.ticksPerSecond)

/-- An acceptance counts in the limit of R358. -/
def State.noteAccept (s : State) : State :=
  { s with cp := { s.cp with accepts := kmod 0 s.recentAccepts s.tick (· + 1) } }

/-- Accept a command: a journal number, the counts, the ACCEPT record; a gate left by a COMMIT_STEP marks it (R357,
R395). -/
def State.accept (s : State) (id : Nat) (c : Cmd) : State :=
  let new := s.cp.nextId
  let s1 := (s.setCmd id none).setCmd new (some { c with accepted := some s.tick })
  let s2 := { s1 with cp := { s1.cp with nextId := new + 1 } }
  let s3 := (s2.nextHseq c.func c.q).noteAccept
  let s4 := ((s3.tally 11 0 1 1).count (cpReg 0x10) 1).count (cpReg 0x0C) 1
  let s5 := s4.post c.func c.q 1 { type := 0, owed := true, opcode := c.opcode, hseq := c.hseq, tick := s.tick }
  let s6 := match lfind (fun g => g.1 == c.func && g.2.1 == c.q) s5.colls.gates 0 with
    | some i =>
      let g := s5.colls.gates.getD i (0, 0, 0)
      let l := if g.2.2 ≤ 1 then ldrop s5.colls.gates i else lset s5.colls.gates i (g.1, g.2.1, g.2.2 - 1)
      ({ s5 with colls := { s5.colls with gates := l } }).modCmd new ({ · with skipped := true })
    | none => s5
  if s.cp.released.contains c.func then s6.deny new 0x1A else s6

/-- The oldest fetched command of a queue is consumed, and what stands refused behind it (R350, R351, R357). -/
def State.acceptNext (s : State) (f q : Nat) : State :=
  match s.fetched f q with
  | [] => s
  | (id, c) :: rest =>
    let s1 :=
      if c.dup || c.refuse.isSome then s.turnAway id c
      else if s.calendsBad c then s.turnAway id { c with refuse := some 0x15 }
      else s.accept id c
    s1.consumeRefused f q rest.length

/-- COMMAND_ACCEPT (R357). -/
def execCommandAccept (f q : Nat) (s : State) : Host.Outcome State Fault Refusal :=
  if !(decide (f < 256) && decide (q < 64)) then .fault .noSuchUnit
  else if s.halted then .next s
  else .next (s.acceptNext f q)

/-! ### Fetching (R337, R345, R358) -/

/-- Commands fetched and not yet consumed. -/
def State.fetchedCount (s : State) : Nat := (s.cmds.filter fun x => match x.2 with
  | some c => c.accepted.isNone
  | none => false).length

/-- Does the journal take another command: 1,000,000 acceptances in a second, 65,536 uncompleted (R358)? -/
def State.journalRoom (s : State) : Bool :=
  decide (s.cmds.length < 65536)
    && decide (s.recentAccepts.foldl (fun n x => n + x.2) s.fetchedCount < 1000000)

/-- May the module fetch from a queue now: READY (R508), function enabled, queue enabled, not in D3hot, room in the journal? -/
def State.canFetch (s : State) (f q : Nat) : Bool :=
  s.bit (mgmtReg 0) 4 && s.fnEnabled f && s.queueExists f q && (s.queue f q).on && !s.cp.d3hot && !s.cp.powerDown
    && !s.cp.released.contains f && s.field (queueReg f q 0x10) 0 16 != s.field (queueReg f q 0x0C) 0 16
    && s.journalRoom

/-- Fetch the next entry of a queue: two slots reserved, SQ_HEAD past the entry; with too few slots CQ_WAIT (R345, R350). -/
def State.fetchOne (s : State) (f q : Nat) : State :=
  if !s.canFetch f q then s
  else if s.freeSlots f q < 2 then s.setBit (queueReg f q 0x2C) 3
  else
    let head := s.field (queueReg f q 0x10) 0 16
    let c := s.readCommand f q head
    let id := s.cp.nextId
    let s1 := (s.clearBit (queueReg f q 0x2C) 3).modQueue f q fun u => { u with reserved := u.reserved + 2 }
    let s2 := (s1.setReg (queueReg f q 0x10) ((head + 1) % s.sqSize f q)).setCmd id (some c)
    ({ s2 with cp := { s2.cp with nextId := id + 1 } }).consumeRefused f q 1

/-- The queues in fetch order: ascending function, then queue (R345). -/
def State.fetchOrder (s : State) : List (Nat × Nat) :=
  (List.range 256).flatMap fun f => (List.range (s.fnQueues f)).map fun q => (f, q)

/-- The queues that hold entries when a round starts (R345, R372). -/
def State.fetchable (s : State) : List (Nat × Nat) := s.fetchOrder.filter fun x => s.canFetch x.1 x.2

/-- Bytes that the host changes in its own memory. -/
def State.hostCells (s : State) (cells : List (Nat × BitVec 8)) : State :=
  { s with mem := Mem.writeCells s.mem (cells.map fun c => (hostKey c.1, c.2)) }

/-- FETCH_ROUND (R345): one command of each enabled queue that has entries. -/
def execFetchRound (cells : List (Nat × BitVec 8)) (s : State) : Host.Outcome State Fault Refusal :=
  let s1 := s.hostCells cells
  if s.halted then .next s1
  else .next (s1.fetchable.foldl (fun s x => s.fetchOne x.1 x.2) s1)

end Sys2Proof.Machine
end

