-- ==== Sys2Proof/Machine/Load.lean ====
section
/-! DEFINITION. Finalising and loading images: symbols, hop latencies, mesh paths, fillers, quotas, what a load writes into
the cores (R90, R142, R178, R195–R226, R437, R445). -/

namespace Sys2Proof.Machine

/-! ### Where an image lies (R353, R418) -/

/-- IMAGE of a RUN_SPAN or REPLAY payload. -/
def Cmd.image (c : Cmd) : Nat := c.pay 0 8
/-- IMAGE_SIZE. -/
def Cmd.imageSize (c : Cmd) : Nat := c.pay 8 4
/-- FIRST. -/
def Cmd.first (c : Cmd) : Nat := c.pay 0x0C 4
/-- COUNT. -/
def Cmd.frames (c : Cmd) : Nat := c.pay 0x10 4

/-- The pages (tier and virtual page) that the tenant bytes a to a + n − 1 of the near and far tiers lie on. -/
def pagesOf (a n : Nat) : List (Bool × Nat) :=
  if n == 0 then []
  else if a + n - 1 ≤ 0x00BFFFFFFFFF then (List.range ((a + n - 1) / 2 ^ 21 - a / 2 ^ 21 + 1)).map fun i => (false, a / 2 ^ 21 + i)
  else if farKey ≤ a && a + n - 1 ≤ 0x13FFFFFFFFFF then
    (List.range ((a + n - 1) / 2 ^ 21 - a / 2 ^ 21 + 1)).map fun i => (true, (a - farKey) / 2 ^ 21 + i)
  else []

/-- Is each of the bytes mapped for function f: a page in any state but UNMAPPED (R259)? -/
def State.mappedRange (s : State) (f a n : Nat) : Bool :=
  n == 0 || (!(pagesOf a n).isEmpty && (pagesOf a n).all fun p => (s.page f p.1 p.2).isSome)

/-- Does a near page among them wait for a refill (R291)? -/
def State.evictedRange (s : State) (f a n : Nat) : Bool :=
  (pagesOf a n).any fun p => !p.1 && ((s.page f false p.2).map (·.state)) == some .evicted

/-- The committed bytes at tenant address a of function f (R429); one with no key reads 0 here and is never used. -/
def State.tenantBytes (s : State) (f a n : Nat) : List Byte :=
  (List.range n).map fun i => ((s.key f (a + i)).map (s.seen none)).getD 0

/-! ### Symbols (R203, R263, R323) -/

/-- A field at a 64 KiB granularity of a CARVE_BUF, MIRROR_AREA or LINK_HOLD entry, on die d of function f: its first
byte and its length; none where it is not VALID or its SIZE is reserved (R263). -/
def State.areaOf (s : State) (f d v : Nat) : Option (Nat × Nat) :=
  let size := bitsOf v 21 14
  if bitOf v 0 && decide (1 ≤ size) && decide (size ≤ 8192) then
    some (storeKey + d * 0x20000000 + (s.grant f d).1 * 0x200000 + bitsOf v 8 13 * 0x10000, size * 0x10000)
  else none

/-- Does an area of that kind stay within the grant on its die (R263)? -/
def State.areaInGrant (s : State) (f d v : Nat) : Bool :=
  decide ((bitsOf v 8 13 + bitsOf v 21 14) * 0x10000 ≤ (s.grant f d).2 * 0x200000)

/-- Bytes of descriptors that every die holds a copy of (R203). -/
def Img.descBytes (b : Img) : Nat := 64 * (b.sec 7).count

/-- Where the copies start on die d: within the function's grant, 128-byte aligned; the place is open. -/
def State.descBase (s : State) (f d : Nat) (b : Img) : Nat :=
  let g := s.grant f d
  let room := (g.2 * 0x200000 - b.descBytes) / 128 + 1
  storeKey + d * 0x20000000 + g.1 * 0x200000 + Config.descPlace f d % room * 128

/-- What symbol n resolves to for virtual core vi of an image of function f (R203, R263, R323); one with nonzero reserved bytes resolves to
nothing and is refused with SYMBOL (DESIGN CHOICE, notes/assumptions/80). -/
def State.resolve (s : State) (f : Nat) (carve : List Nat) (b : Img) (orgRow orgCol vi n : Nat) : Option Nat :=
  let y := b.symbol n
  let arg := y.2.2
  if y.2.1 != 0 then none
  else
    match y.1 with
    | 1 => if arg < b.cores then some (padWindow (b.logical orgRow orgCol arg)) else none
    | 2 =>
      let v := carve.getD arg 0
      let d := bitsOf v 1 3
      if arg < 256 && s.areaInGrant f d v then (s.areaOf f d v).map (·.1) else none
    | 3 => if arg < 4096 then some (0xE * 2 ^ 60 + arg * 2 ^ 48) else none
    | 4 => if arg < (b.sec 7).count then some (s.descBase f (dieOf (b.logical orgRow orgCol vi)) b + 64 * arg) else none
    | _ => none

/-- The same for a held image. -/
def State.resolveHeld (s : State) (m : ImgHeld) : Nat → Nat → Option Nat := s.resolve m.func m.carveBuf m.bytes m.orgRow m.orgCol

/-- Step 3, second part: relocation entries, then every symbol, and those that relocations and SOURCE entries of CARRY name for their
cores (R202, R203, R434). -/
def Img.checkRelocs (b : Img) (resolve : Nat → Nat → Option Nat) : Option Nat :=
  firstFail [
    ((List.range (b.sec 5).count).all b.relocOk, rReloc),
    ((List.range (b.sec 6).count).all (fun n => (resolve 0 n).isSome)
      && (List.range (b.sec 5).count).all (fun i => (resolve (b.nat (b.reloc i) 4) (b.nat (b.reloc i + 8) 4)).isSome)
      && (Img.carries b).all (fun e => !e.source || (resolve e.vcore e.symbol).isSome), rSymbol)]

/-! ### Hops and mesh paths (R90, R204, R207, R208) -/

/-- Distance. -/
def dist (a b : Nat) : Nat := if a ≤ b then b - a else a - b

/-- The retired sites of a half-row as the next tick makes them active (R217, R230). -/
def State.retiredNext (s : State) (d h r : Nat) : List Nat :=
  let k := 64 * (2 * d + h) + r
  if s.remap.nextSites.any fun x => x.1 == k then kget [] s.remap.nextSites k else s.retired d h r

/-- The physical column of a logical core under that table. -/
def State.physNext (s : State) (id : Nat) : Nat :=
  physColumn (s.retiredNext (id / 6144) (id / 3072 % 2) (id / 48 % 64)) (id % 48)

/-- The latency of the hop of queue q of core c, under a row-edge mode and with the given last column (R90). -/
def State.hopLatency (s : State) (edge last c q : Nat) : Nat :=
  match neighbour edge last c q with
  | none => 0
  | some (c2, _) =>
    let x := s.physNext c
    let y := s.physNext c2
    let west := c / 3072 % 2 == 0
    if q % 2 == 0 then 2 + dist x y
    else if !((q == 1 && c % 48 == last) || (q == 3 && c % 48 == 0)) then 2 + (dist x y - 1)
    else if edge == 0 then 4
    else if (q == 1) == west then 4 + (if west then (49 - x) + y else (49 - y) + x)
    else 10

/-- Every bound hop of an image keeps its declared latency (R204). -/
def State.hopsOk (s : State) (b : Img) (orgRow orgCol : Nat) : Bool :=
  (List.range b.cores).all fun vi => (List.range 8).all fun k => !b.holds vi k || (List.range 4).all fun q =>
    recQbind (b.record vi k) q != 1 ||
      decide (s.hopLatency (b.edge (b.configIndex vi k)) (b.vcols - 1) (b.logical orgRow orgCol vi) q
        ≤ b.lDecl (b.configIndex vi k) q)

/-- Position of a logical core along its row, 0–99 (R207). -/
def State.posOf (s : State) (id : Nat) : Nat := 50 * (id / 3072 % 2) + s.physNext id

/-- Mesh path record i is well formed: both ends on one die, their queues bound with QBIND = 2 (R207). Nonzero reserved bytes are refused
with MESH (DESIGN CHOICE, notes/assumptions/80). -/
def Img.pathOk (b : Img) (i : Nat) (e : MeshPath) : Bool :=
  let o := (b.sec 8).off + 16 * i
  let die (vi : Nat) : Nat := vi / (b.vcols * b.vrows * 2)
  decide (e.src < b.cores) && decide (e.dst < b.cores) && die e.src == die e.dst && b.holds e.src e.config
    && b.holds e.dst e.config && recQbind (b.record e.src e.config) e.srcQ == 2 && recQbind (b.record e.dst e.config) e.dstQ == 2
    && decide (2 ≤ e.lDecl) && decide (e.lDecl ≤ 63) && b.nat (o + 10) 6 == 0

/-- The physical latency of a mesh path (R207). -/
def State.pathLatency (s : State) (b : Img) (orgRow orgCol : Nat) (e : MeshPath) : Nat :=
  let x := b.logical orgRow orgCol e.src
  let y := b.logical orgRow orgCol e.dst
  2 + dist (s.posOf x) (s.posOf y) + dist (x / 48 % 64) (y / 48 % 64) + (if x / 3072 % 2 == y / 3072 % 2 then 0 else 2)

/-- The segments along a row from position a to b: (die, row, position, direction), directions 0 east, 1 west (R208). -/
def rowSegs (d r a b : Nat) : List (Nat × Nat × Nat × Nat) :=
  if a ≤ b then (List.range (b - a)).map fun i => (d, r, a + i, 0) else (List.range (a - b)).map fun i => (d, r, a - i, 1)

/-- The segments along a column; directions 2 south, 3 north. -/
def colSegs (d x a b : Nat) : List (Nat × Nat × Nat × Nat) :=
  if a ≤ b then (List.range (b - a)).map fun i => (d, a + i, x, 2) else (List.range (a - b)).map fun i => (d, a - i, x, 3)

/-- The segments of a mesh path (R207, R208). -/
def State.pathSegs (s : State) (b : Img) (orgRow orgCol : Nat) (e : MeshPath) : List (Nat × Nat × Nat × Nat) :=
  let x := b.logical orgRow orgCol e.src
  let y := b.logical orgRow orgCol e.dst
  let rx := x / 48 % 64
  let ry := y / 48 % 64
  if e.nsFirst then colSegs (dieOf x) (s.posOf x) rx ry ++ rowSegs (dieOf x) ry (s.posOf x) (s.posOf y)
  else rowSegs (dieOf x) rx (s.posOf x) (s.posOf y) ++ colSegs (dieOf x) (s.posOf y) rx ry

/-- The scheduled intervals of the owner slots of configuration k on virtual core vi in pattern p. -/
def Img.intervals (b : Img) (p vi k : Nat) : List (Nat × Nat) :=
  ((b.slots (b.slotListAt p vi)).filter fun x => x.2.2.2.1 == 0 && x.2.2.1 == k).map fun x => (x.1, x.2.1)

/-- Do the slots of two paths' configurations on their end cores overlap in some pattern (R208)? -/
def Img.pathsOverlap (b : Img) (e g : MeshPath) : Bool :=
  (List.range b.nPatterns).any fun p => [e.src, e.dst].any fun v => [g.src, g.dst].any fun u =>
    (b.intervals p v e.config).any fun x => (b.intervals p u g.config).any fun y =>
      decide (x.1 ≤ y.2) && decide (y.1 ≤ x.2)

/-- No two paths share a segment against R208. -/
def State.segsOk (s : State) (b : Img) (orgRow orgCol : Nat) : List MeshPath → Bool
  | [] => true
  | e :: es =>
    es.all (fun g =>
      !((s.pathSegs b orgRow orgCol e).any fun x => (s.pathSegs b orgRow orgCol g).contains x)
        || (e.config != g.config && !b.pathsOverlap e g)) && s.segsOk b orgRow orgCol es

/-- Step 5: hops and mesh paths (R204, R207, R208). -/
def State.checkHops (s : State) (b : Img) (orgRow orgCol : Nat) : Option Nat :=
  let l := Img.paths b
  firstFail [
    (s.hopsOk b orgRow orgCol, rHop),
    ((List.range l.length).all (fun i => match l[i]? with
      | some e => b.pathOk i e
      | none => true), rMesh),
    (l.all fun e => decide (s.pathLatency b orgRow orgCol e ≤ e.lDecl), rHop),
    (s.segsOk b orgRow orgCol l, rMesh)]

/-! ### Quotas (R218, R221, R437) -/

/-- The sum of the mirror sizes of the logical cores of die d (R437). -/
def State.mirrorSum (s : State) (m : ImgHeld) (d : Nat) : Nat :=
  (List.range 128).foldl (fun a hr => (List.range s.perRow).foldl (fun a j => a + m.coreSize (coreAt d (hr / 64) (hr % 64) j)) a) 0

/-- Is the mirror area of die d VALID and large enough (R437)? -/
def State.mirrorAreaOk (s : State) (m : ImgHeld) (d : Nat) : Bool :=
  match s.areaOf m.func d (m.mirrorArea.getD d 0) with
  | some a => decide (512 + 2 * s.mirrorSum m d ≤ a.2) && s.areaInGrant m.func d (m.mirrorArea.getD d 0)
  | none => false

/-- Does the hold ring of die d, where it is VALID, have a length and keep within its function's grant (R263, R327, R333)? -/
def State.ringOk (s : State) (m : ImgHeld) (d : Nat) : Bool :=
  let v := m.linkHold.getD d 0
  !bitOf v 0 || ((s.areaOf m.func d v).isSome && s.areaInGrant m.func d v)

/-- The stash declarations of an image: virtual core, mode, size (R221); their reserved bytes are ignored (DESIGN CHOICE,
notes/assumptions/80). -/
def Img.stash (b : Img) : List (Nat × Nat × Nat) :=
  (List.range (b.sec 15).count).map fun i =>
    let o := (b.sec 15).off + 24 * i
    (b.nat o 4, b.nat (o + 4) 1, b.nat (o + 8) 4)

/-- The stash of an image keeps within the near quota and the grants, its descriptors within the grants; against what
they are held is open (PRESUMED, notes/assumptions/12). -/
def State.quotaOk (s : State) (m : ImgHeld) (dies : List Nat) : Bool :=
  let st := Img.stash m.bytes
  let sum (l : List (Nat × Nat × Nat)) : Nat := l.foldl (fun a x => a + x.2.2) 0
  decide (sum (st.filter fun x => x.2.1 == 2) ≤ s.field (tierReg (0x1000 + 16 * m.func)) 0 20 * 2 ^ 21)
    && dies.all (fun d =>
      let n := sum (st.filter fun x => x.2.1 == 1 && dieOf (Img.logical m.bytes m.orgRow m.orgCol x.1) == d) + Img.descBytes m.bytes
      decide (n ≤ (s.grant m.func d).2 * 0x200000))
    && st.all fun x => x.2.1 != 0 || decide (x.2.2 ≤ 65536)

/-! ### Fillers (R105, R225, R226) -/

/-- Do two records of one core meet in threads, pad bounds or counters (R105)? -/
def recordsMeet (a b : Nat) : Bool :=
  let inter (lo len gap glen : Nat) : Bool :=
    decide (bitsOf a lo len ≤ bitsOf b gap glen) && decide (bitsOf b lo len ≤ bitsOf a gap glen)
  (bitsOf a 0 16 &&& bitsOf b 0 16) != 0 || (bitsOf a 208 8 &&& bitsOf b 208 8) != 0 || inter 144 12 156 12 || inter 168 11 179 11
    || inter 190 8 198 8

/-- Configuration indices of virtual core vi that the host and the fillers already held leave empty, ascending. -/
def freeConfigs (host : Img) (others : List ImgHeld) (vi : Nat) : List Nat :=
  (List.range 8).filter fun k => !host.holds vi k &&
    !(others.any fun m => (List.range 8).any fun j => Img.holds m.bytes vi j && m.fillerIndex vi j == k)

/-- The configurations that virtual core vi holds. -/
def Img.configsOf (b : Img) (vi : Nat) : List Nat := (List.range 8).filter fun k => b.holds vi k

/-- The index of each of a filler's configurations: the empty ones in ascending order (R225). -/
def fillerMap (host b : Img) (others : List ImgHeld) : KMap Nat :=
  (List.range b.cores).flatMap fun vi => ((b.configsOf vi).zip (freeConfigs host others vi)).map fun x => (8 * vi + x.1, x.2)

/-- Virtual core vi keeps R105 and has room for the filler's configurations (R226). -/
def fillerCoreOk (host b : Img) (others : List ImgHeld) (vi : Nat) : Bool :=
  let mine := (b.configsOf vi).map (b.record vi)
  decide ((b.configsOf vi).length ≤ (freeConfigs host others vi).length)
    && mine.all (fun r => (List.range 4).all fun q => recQbind r q == 0)
    && mine.all (fun r => (host.configsOf vi).all fun k => !recordsMeet r (host.record vi k))
    && mine.all (fun r => others.all fun m => (Img.configsOf m.bytes vi).all fun k => !recordsMeet r (Img.record m.bytes vi k))

/-- The slots of a filler lie in bubble slots of the host's pattern of the same number (R225, R340). -/
def fillerSlotsOk (host b : Img) : Bool :=
  (List.range b.nPatterns).all fun p => (List.range b.cores).all fun vi =>
    (b.slots (b.slotListAt p vi)).all fun x =>
      b.holds vi x.2.2.1 && decide (p < host.nPatterns) &&
        (host.slots (host.slotListAt p vi)).any fun y => y.2.2.2.1 == 1 && y.1 == x.1 && y.2.1 == x.2.1

/-- Step 7, for a filler (R225, R226). -/
def checkFiller (b : Img) (f : Nat) (host : Option ImgHeld) (others : List ImgHeld) : Option Nat :=
  match host with
  | none => some rFiller
  | some h =>
    firstFail [(h.func != f && b.dieRows == Img.dieRows h.bytes && b.dieCols == Img.dieCols h.bytes && b.vrows == Img.vrows h.bytes
      && b.vcols == Img.vcols h.bytes && b.hostSig == Img.bubbleSig h.bytes && fillerSlotsOk h.bytes b
      && (List.range b.cores).all (fillerCoreOk h.bytes b others), rFiller)]

/-! ### Finalisation (R45, R217–R220) -/

/-- Is die d unusable: a row of it exhausted (R445), or, once start-up has tested the dies, not marked in MOD_STATE.DIE_OK
(R510)? -/
def State.exhausted (s : State) (d : Nat) : Bool :=
  ((List.range 128).any fun i => s.bit (remapReg d (0x400 + 4 * i)) 4)
    || s.mgmt.powered && decide (7 ≤ s.field (mgmtReg 0) 0 4) && !s.bit (mgmtReg 0) (16 + d)

/-- Step 2: the grid fits the partition and the grade (R199, R200, R445). -/
def State.checkGrid (s : State) (x : Part) (b : Img) : Option Nat :=
  firstFail [(b.dieRows == x.rows && b.dieCols == x.cols && decide (b.vcols ≤ s.perRow) && !(x.dies.any s.exhausted), rGrid)]

/-- The image as function f's partition x would hold it, with the registers sampled now (R538). -/
def State.sampleImage (s : State) (f : Nat) (x : Part) (addr : Nat) (b : Img) : ImgHeld :=
  { func := f, addr := addr, bytes := b, orgRow := x.orgRow, orgCol := x.orgCol
    carveBuf := (List.range 256).map fun n => s.wide (bar0 f (0x8000 + 8 * n))
    mirrorArea := (List.range 8).map fun d => s.wide (bar0 f (0xA300 + 8 * d))
    linkHold := (List.range 8).map fun d => s.wide (bar0 f (0xA000 + 8 * d)) }

/-- The first of several results that is a reason. -/
def firstReason : List (Option Nat) → Option Nat
  | [] => none
  | some r :: _ => some r
  | none :: t => firstReason t

/-- The steps of finalisation in their order: the reason of the first that fails (R217, R218). -/
def State.checkImage (s : State) (f : Nat) (x : Part) (m : ImgHeld) : Option Nat :=
  let b := m.bytes
  let r := s.resolveHeld m
  firstReason [
    Img.checkHeader b s.rate,
    s.checkGrid x b,
    Img.checkRecords b,
    Img.checkRelocs b r,
    if x.dies.all (s.ringOk m) then none else some rSymbol,
    Img.checkWords b r,
    s.checkHops b m.orgRow m.orgCol,
    Img.checkFold b,
    if Img.filler b != s.fnFiller f then some rFiller
    else if Img.filler b then checkFiller b f x.image (x.fillers.filter fun o => o.func != f) else none,
    if (Img.filler b || x.dies.all (s.mirrorAreaOk m)) && s.quotaOk m x.dies then none else some rQuota]

/-- Does a held image serve a command: same address and IMAGE_CRC (R220)? -/
def State.serves (s : State) (c : Cmd) (m : ImgHeld) : Bool :=
  m.func == c.func && m.addr == c.image
    && leNat (s.tenantBytes c.func (c.image + 0x0C) 4) == Img.crc m.bytes

/-- The images of partition p that a command can run from once loaded. -/
def Part.images (x : Part) : List ImgHeld := x.image.toList ++ x.finalised.toList ++ x.fillers ++ x.fillerNext

/-- What a RUN_SPAN or REPLAY's own payload and image bytes refuse before the image is parsed: PAYLOAD for a COUNT out of
range, a misaligned or unreadable image; HEADER for a size that is not the image's (DEDUCED, notes/assumptions/13). -/
def State.spanBad (s : State) (c : Cmd) : Option Nat :=
  if !(decide (1 ≤ c.frames) && decide (c.frames ≤ 2 ^ 24)) || c.image % 8 != 0 || !s.mappedRange c.func c.image c.imageSize then some 0x16
  else if c.imageSize < 0x40 then some rHeader
  else none

/-- Finalise the image that accepted command id names into partition p (R217–R220). -/
def State.finalise (s : State) (p id : Nat) (c : Cmd) : State :=
  let x := s.part p
  match s.spanBad c with
  | some r => s.deny id r
  | none =>
    if s.evictedRange c.func c.image c.imageSize then s
    else
      let b := s.tenantBytes c.func c.image c.imageSize
      if Img.nat b 8 4 != c.imageSize then s.deny id rHeader
      else
        let m := s.sampleImage c.func x c.image b
        match s.checkImage c.func x m with
        | some r => s.deny id r
        | none =>
          if decide (Img.seqLen b < c.first + c.frames) then s.deny id rFold
          else if Img.filler b then
            match x.image with
            | some h =>
              let others := x.fillers.filter fun o => o.func != c.func
              let m2 := { m with cfgMap := fillerMap h.bytes b others }
              (s.modPart p fun x => { x with fillerNext := (x.fillerNext.filter fun o => o.func != c.func) ++ [m2] }).tally 11 0 6 1
            | none => s
          else (s.modPart p fun x => { x with finalised := some m }).tally 11 0 6 1

/-- Is c an accepted RUN_SPAN or REPLAY, not yet admitted, that runs in partition p's frames? -/
def State.spanOf (s : State) (p : Nat) (c : Cmd) : Bool :=
  (c.opcode == 0x01 || c.opcode == 0x31) && c.accepted.isSome && c.admitted.isNone && s.funcPart c.func == some p

/-- The accepted spans of partition p that name no image it holds, oldest first. -/
def State.unfinalised (s : State) (p : Nat) : List (Nat × Cmd) :=
  s.cmds.filterMap fun x => match x.2 with
    | some c =>
      if s.spanOf p c && ((s.spanBad c).isSome || !(s.part p).images.any (s.serves c)) then some (x.1, c) else none
    | none => none

/-- Does an accepted span wait for the image that waits for its load frame? -/
def State.finalWanted (s : State) (p : Nat) : Bool :=
  match (s.part p).finalised with
  | none => false
  | some m => s.cmds.any fun x => match x.2 with
    | some c => s.spanOf p c && s.serves c m
    | none => false

/-- FINALISATION of partition p (R217): the oldest span that needs one, with no rate change armed (R45), the partition
neither stopped nor in recovery; an owner image only while none waits for its load frame. -/
def execFinalisation (p : Nat) (s : State) : Host.Outcome State Fault Refusal :=
  if 8 ≤ p then .fault .noSuchUnit
  else if s.halted || s.alm.armed.isSome || s.partStill p then .next s
  else
    match s.unfinalised p with
    | (id, c) :: _ => if !s.fnFiller c.func && s.finalWanted p then .next s else .next (s.finalise p id c)
    | [] => .next s

/-! ### Loading (R86, R101, R178, R219, R225) -/

/-- The code words of configuration k of virtual core vi, at index i of the instruction store of its core, and zero words beyond
them (R86, R140, R202). -/
def State.writeConfig (s : State) (m : ImgHeld) (vi k i : Nat) : State :=
  let c := Img.logical m.bytes m.orgRow m.orgCol vi
  let n := Img.codeLen m.bytes (Img.configIndex m.bytes vi k)
  let words := (List.range n).flatMap fun p => leBytes 4 (Img.word m.bytes (s.resolveHeld m) vi k p)
  let a := padWindow c + 0x30000 + 0x400 * i
  { s with mem := Mem.writeBytes s.mem a (words ++ List.replicate (1024 - 4 * n) 0#8) }

/-- The code of every virtual core. -/
def State.writeCode (s : State) (m : ImgHeld) (index : Nat → Nat → Nat) : State :=
  (List.range (Img.cores m.bytes)).foldl (fun s vi =>
    (Img.configsOf m.bytes vi).foldl (fun s k => s.writeConfig m vi k (index vi k)) s) s

/-- The descriptor copies of each die (R203, R219). -/
def State.writeDescs (s : State) (m : ImgHeld) (dies : List Nat) : State :=
  let d := Img.slice m.bytes (Img.sec m.bytes 7).off (Img.descBytes m.bytes)
  dies.foldl (fun s die => s.writeMarked (s.descBase m.func die m.bytes) d false) s

/-- A configuration record as the loader writes it: TENANT, and FILLER for a filler (R101, R201, R225). -/
def ImgHeld.record (m : ImgHeld) (vi k : Nat) : BitVec 256 :=
  BitVec.ofNat 256 (Img.record m.bytes vi k + m.func * 2 ^ 216 + natOf (Img.filler m.bytes) * 2 ^ 224)

/-- The records of virtual core vi put into its core (R101, R219, R225). -/
def Core.putRecords (c : Core) (m : ImgHeld) (vi : Nat) : Core :=
  (Img.configsOf m.bytes vi).foldl (fun c k =>
    let i := if Img.filler m.bytes then m.fillerIndex vi k else k
    { c with
      cfgs := kset 0 c.cfgs i (m.record vi k)
      edges := kset 0 c.edges i (BitVec.ofNat 2 (Img.edge m.bytes (Img.configIndex m.bytes vi k))) }) c

/-- The logical cores of a die of this grade. -/
def State.coresOfDie (s : State) (d : Nat) : List Nat :=
  (List.range 128).flatMap fun hr => (List.range s.perRow).map fun j => coreAt d (hr / 64) (hr % 64) j

/-- The logical cores of a partition. -/
def State.coresOf (s : State) (x : Part) : List Nat := x.dies.flatMap s.coresOfDie

/-- A core at the start of its partition: registers, counters, FRONT and role bits zero, its records written (R69, R84, R98,
R178). -/
def ImgHeld.freshCore (m : ImgHeld) (c : Nat) : Core :=
  match m.vcore c with
  | some vi => Core.putRecords {} m vi
  | none => {}

/-- Every accumulator copy of a core is +0 and unmarked (R178). -/
def State.zeroAcc (s : State) (c : Nat) : State :=
  { s with
    mem := Mem.zero s.mem (padWindow c + 0x28000) 0x8000
    marks := s.marks.filter fun x => !(decide (padWindow c + 0x28000 ≤ x.1) && decide (x.1 < padWindow c + 0x30000)) }

/-- A partition starts with an image: every core fresh, every accumulator +0 (R69, R178, R219). -/
def State.startPart (s : State) (p : Nat) (m : ImgHeld) : State :=
  (s.coresOf (s.part p)).foldl (fun s c => (s.setCore c (m.freshCore c)).zeroAcc c) s

/-- The load frame writes code and descriptors (R219). -/
def State.writeLoad (s : State) (p : Nat) (m : ImgHeld) : State :=
  ((s.writeCode m fun _ k => k).writeDescs m (s.part p).dies).modPart p ({ · with loading := true })

/-- LOAD_FRAME of partition p (R219): in the load frame of a finalised image. -/
def execLoadFrame (p : Nat) (s : State) : Host.Outcome State Fault Refusal :=
  if 8 ≤ p then .fault .noSuchUnit
  else if s.halted || s.partStill p then .next s
  else
    match (s.part p).frame, (s.part p).finalised with
    | some fr, some m => if fr.load then .next (s.writeLoad p m) else .next s
    | _, _ => .next s

/-- FILLER_LOAD of partition p (R225): the code of the oldest filler image not yet written. -/
def execFillerLoad (p : Nat) (s : State) : Host.Outcome State Fault Refusal :=
  if 8 ≤ p then .fault .noSuchUnit
  else if s.halted || s.partStill p then .next s
  else
    match (s.part p).fillerNext.find? fun m => !m.coded with
    | some m =>
      .next (((s.writeCode m m.fillerIndex).writeDescs m (s.part p).dies).modPart p fun x => { x with
        fillerNext := x.fillerNext.map fun o => if o.func == m.func then { o with coded := true } else o })
    | none => .next s

end Sys2Proof.Machine
end

