-- ==== Sys2Proof/Machine/Colls.lean ====
section
/-! DEFINITION. Collectives: groups and ranks, the Cobalt and Madder trees, what each line engine sends, adds and lands, the
step vote and its gates, COLL messages and their answers (R191, R192, R373–R403). -/

namespace Sys2Proof.Machine

/-! ### Opcodes, groups, ranks (R349, R373) -/

/-- REDUCE_SCATTER. -/
def opRS := 0x10
/-- ALL_GATHER. -/
def opAG := 0x11
/-- ALL_REDUCE. -/
def opAR := 0x12
/-- BROADCAST. -/
def opBC := 0x13
/-- PERMUTE. -/
def opPM := 0x14
/-- ROTATE. -/
def opRO := 0x15
/-- VOTE. -/
def opVT := 0x18

/-- Is it a collective or VOTE? -/
def isColl (op : Nat) : Bool := (decide (0x10 ≤ op) && decide (op ≤ 0x15)) || op == 0x18

/-- The least L with n ≤ 2^L (R373). -/
def levelsOf (n : Nat) : Nat := if n ≤ 1 then 0 else Nat.log2 (n - 1) + 1

/-- The axis of turn k: ALL_GATHER handles its axes in reverse order (R381). -/
def Coll.axis (c : Coll) (k : Nat) : Nat := (if c.op == opAG then c.axes.reverse else c.axes).getD k 0

/-- The rank of this module on the axis of turn k, for a tree: Cobalt's BROADCAST ranks put the root last (R373, R381). -/
def State.collRank (s : State) (c : Coll) (k tree : Nat) : Nat :=
  let a := c.axis k
  let n := s.axisLen a
  let o := coordOf a c.origin
  (coordOf a s.address + 2 * n - o - (if c.op == opBC && tree == 0 then 1 else 0)) % n

/-- The address of the module with a rank on the axis of turn k. -/
def State.rankAddr (s : State) (c : Coll) (k tree rank : Nat) : Nat :=
  let a := c.axis k
  setCoord a s.address ((rank + coordOf a c.origin + (if c.op == opBC && tree == 0 then 1 else 0)) % s.axisLen a)

/-- The group size (R373). -/
def State.groupSize (s : State) (axes : List Nat) : Nat := axes.foldl (fun n a => n * s.axisLen a) 1

/-- The group rank of this module, the first named axis most significant (R373). -/
def State.groupRank (s : State) (axes : List Nat) (origin : Nat) : Nat :=
  axes.foldl (fun g a =>
    let n := s.axisLen a
    g * n + (coordOf a s.address + n - coordOf a origin) % n) 0

/-- The address of the module with a group rank: the axes from the last named back. -/
def State.groupAddr (s : State) (axes : List Nat) (origin g : Nat) : Nat :=
  (axes.reverse.foldl (fun (x : Nat × Nat) a =>
    let n := s.axisLen a
    (x.1 / n, setCoord a x.2 ((x.1 % n + coordOf a origin) % n))) (g, s.address)).2

/-! ### The trees (R378–R381) -/

/-- The sender and the receiver of the reduce edge at level l in the pair of subtrees that holds rank ρ (R379). -/
def treeEdge (tree n l ρ : Nat) : Option (Nat × Nat) :=
  let r := ρ / 2 ^ (l + 1) * 2 ^ (l + 1)
  if r + 2 ^ l < n then
    some (if tree == 0 then (r + 2 ^ l - 1, min (r + 2 ^ (l + 1)) n - 1) else (r + 2 ^ l, r))
  else none

/-- The ranks below that edge, its far side: first rank and count. -/
def farSide (tree n l ρ : Nat) : Nat × Nat :=
  let r := ρ / 2 ^ (l + 1) * 2 ^ (l + 1)
  if tree == 0 then (r, 2 ^ l) else (r + 2 ^ l, min (r + 2 ^ (l + 1)) n - (r + 2 ^ l))

/-- The level at which rank ρ sends in the reduce phase; none at the root. -/
def sendLevel (tree n ρ : Nat) : Option Nat :=
  (List.range (levelsOf n)).find? fun l => ((treeEdge tree n l ρ).map (·.1)) == some ρ

/-- PHASE of the reduce edges of an operation, and of its distribute edges (R381, R400). -/
def upPhase (op : Nat) : Nat := if op == opAG then 2 else if op == opVT then 5 else 0
/-- PHASE of distribute edges. -/
def downPhase (op : Nat) : Nat := if op == opVT then 5 else 1

/-- The key of an edge: the module at its other end, phase, tree, level (R387). -/
def edgeKey (peer phase tree level : Nat) : Nat := ((peer * 16 + phase) * 2 + tree) * 8 + level

/-- A line received on an edge. -/
def Coll.line (c : Coll) (edge n : Nat) : Option CollLine :=
  (c.got.find? fun x => x.1 == edge * 2 ^ 32 + n).map (·.2)

/-- How many parts (shards) the data of a turn is cut into, and the lines of half a part (R378). -/
def Coll.shards (c : Coll) (n : Nat) : Nat := if c.op == opRS || c.op == opAG then n else 1
/-- Lines that one tree carries of one part. -/
def Coll.half (c : Coll) (n : Nat) : Nat :=
  if c.op == opVT then 1 else if c.op == opRS then c.data.length / (2 * n) else c.data.length / 2

/-- Line g of a tree's whole part, where it comes from this module's own data; ρ its rank (R378). -/
def Coll.own (c : Coll) (n tree ρ g : Nat) : Option CollLine :=
  let h := c.half n
  if c.op == opVT then c.data[0]?
  else if c.op == opRS then c.data[g / h * (2 * h) + tree * h + g % h]?
  else if c.op == opAG then (if g / h == ρ then c.data[tree * h + g % h]? else none)
  else c.data[tree * h + g]?

/-- Sum of two lines of FP32 elements, round to nearest even, keep mode (R191, R192). -/
def addLine (n : Nat) (a b : List Byte) : List Byte :=
  (List.range n).flatMap fun i =>
    let x := leNat ((a.drop (4 * i)).take 4)
    let y := leNat ((b.drop (4 * i)).take 4)
    leBytes 4 (addVal .fp32 false (unpack .fp32 x) (unpack .fp32 y)).1

/-- Does a line of FP32 elements hold a non-finite one? -/
def lineNonfinite (a : List Byte) : Bool :=
  (List.range (a.length / 4)).any fun i => isNonfinite .fp32 (leNat ((a.drop (4 * i)).take 4))

/-- Combine two lines on a reduce edge: FP32 addition, OR for a VOTE; the mark travels (R192, R394). -/
def Coll.combine (c : Coll) (x y : CollLine) : CollLine :=
  if c.op == opVT then (List.zipWith (· ||| ·) x.1 y.1, x.2 || y.2) else (addLine (x.1.length / 4) x.1 y.1, x.2 || y.2)

/-- The partial of line g that rank ρ holds before level l (R379); for a gather, the line where its subtree holds it. -/
def State.partialLine (s : State) (c : Coll) (k n tree ρ g : Nat) : Nat → Option CollLine
  | 0 => c.own n tree ρ g
  | l + 1 =>
    match treeEdge tree n l ρ with
    | some (snd, rcv) =>
      if rcv == ρ then
        let e := edgeKey (s.rankAddr c k tree snd) (upPhase c.op) tree l
        if c.op == opAG then
          let f := farSide tree n l ρ
          let h := c.half n
          if f.1 * h ≤ g && g < (f.1 + f.2) * h then c.line e (g - f.1 * h) else s.partialLine c k n tree ρ g l
        else
          match s.partialLine c k n tree ρ g l, c.line e g with
          | some x, some y => some (c.combine x y)
          | _, _ => none
      else s.partialLine c k n tree ρ g l
    | none => s.partialLine c k n tree ρ g l

/-- The lines that a distribute edge at level l carries, as first line and count: for REDUCE_SCATTER only the far side's
shards (R381). -/
def Coll.downRange (c : Coll) (n tree l ρ : Nat) : Nat × Nat :=
  let h := c.half n
  if c.op == opRS then
    let f := farSide tree n l ρ
    (f.1 * h, f.2 * h)
  else (0, c.shards n * h)

/-- The lines that a reduce edge carries: for a gather only the sender's subtree. -/
def Coll.upRange (c : Coll) (n tree l ρ : Nat) : Nat × Nat :=
  let h := c.half n
  if c.op == opAG then
    let f := farSide tree n l ρ
    (f.1 * h, f.2 * h)
  else (0, c.shards n * h)

/-- Line g of the whole at rank ρ: formed at the root, elsewhere as it came down (R380). -/
def State.wholeLine (s : State) (c : Coll) (k n tree ρ g : Nat) : Option CollLine :=
  match sendLevel tree n ρ with
  | none => if c.op == opBC then c.own n tree ρ g else s.partialLine c k n tree ρ g (levelsOf n)
  | some l =>
    match treeEdge tree n l ρ with
    | some (_, rcv) =>
      let r := c.downRange n tree l ρ
      if r.1 ≤ g && g < r.1 + r.2 then c.line (edgeKey (s.rankAddr c k tree rcv) (downPhase c.op) tree l) (g - r.1) else none
    | none => none

/-! ### What to send (R379–R381, R396, R398) -/

/-- One edge on which this module sends: peer, phase, tree, level, lines, the axis and its direction, the content. -/
structure Sending where
  peer : Nat
  phase : Nat
  tree : Nat
  level : Nat
  count : Nat
  axis : Nat
  dir : Nat
  content : Nat → Option CollLine

/-- The edges of turn k on which this module sends along a tree: up at its send level, then down from the highest level
(R379, R380). -/
def State.treeSends (s : State) (c : Coll) (k tree : Nat) : List Sending :=
  let a := c.axis k
  let n := s.axisLen a
  let ρ := s.collRank c k tree
  let up : List Sending :=
    if c.op == opBC then []
    else
      match sendLevel tree n ρ with
      | none => []
      | some l =>
        match treeEdge tree n l ρ with
        | some (_, rcv) =>
          let r := c.upRange n tree l ρ
          [{ peer := s.rankAddr c k tree rcv, phase := upPhase c.op, tree := tree, level := l, count := r.2, axis := a, dir := tree
             content := fun i => s.partialLine c k n tree ρ (r.1 + i) l }]
        | none => []
  let down : List Sending := (List.range (levelsOf n)).reverse.filterMap fun l =>
    match treeEdge tree n l ρ with
    | some (snd, rcv) =>
      if rcv == ρ then
        let r := c.downRange n tree l ρ
        some { peer := s.rankAddr c k tree snd, phase := downPhase c.op, tree := tree, level := l, count := r.2, axis := a
               dir := 1 - tree, content := fun i => s.wholeLine c k n tree ρ (r.1 + i) }
      else none
    | none => none
  up ++ down

/-- The entry that follows entry e in its cycle (R397). -/
def permNext (nlist : Nat) (t : List Nat) (e : Nat) : Nat :=
  let v := t.getD e 0
  bitsOf v 0 16 * nlist + bitsOf v 16 12

/-- The entries of the cycle from e on, e first. -/
def permCycle (nlist : Nat) (t : List Nat) (start : Nat) : Nat → Nat → List Nat
  | 0, _ => []
  | n + 1, e =>
    let x := permNext nlist t e
    e :: (if x == start then [] else permCycle nlist t start n x)

/-- All entries in the order of their cycles, each cycle from its least entry (R398). -/
def permOrder (nlist : Nat) (t : List Nat) : List Nat :=
  (List.range t.length).foldl (fun l e => if l.contains e then l else l ++ permCycle nlist t e t.length e) []

/-- The pieces that rank g sends to rank d, in order: (piece, destination piece); a piece that stays is none of them. -/
def Coll.pieces (c : Coll) (g d : Nat) : List (Nat × Nat) :=
  (permOrder c.nlist c.list).filterMap fun e =>
    let v := c.list.getD e 0
    if e / c.nlist == g && bitsOf v 0 16 == d && permNext c.nlist c.list e != e then some (e % c.nlist, bitsOf v 16 12) else none

/-- The edges of a PERMUTE, one to each other module of the group (R398). -/
def State.permSends (s : State) (c : Coll) : List Sending :=
  let me := s.groupRank c.axes c.origin
  let lp := c.piece / 256
  (List.range (s.groupSize c.axes)).filterMap fun d =>
    let l := c.pieces me d
    if d == me || l.isEmpty then none
    else
      some { peer := s.groupAddr c.axes c.origin d, phase := 4, tree := 0, level := 0, count := l.length * lp, axis := 0, dir := 0
             content := fun i => c.start[((l.getD (i / lp) (0, 0)).1) * lp + i % lp]? }

/-- The edge of a ROTATE (R396). -/
def State.rotSends (s : State) (c : Coll) : List Sending :=
  let a := c.axis 0
  let n := s.axisLen a
  let x := coordOf a s.address
  let t := if c.rotMinus then (x + n - c.dist % n) % n else (x + c.dist) % n
  [{ peer := setCoord a s.address t, phase := 3, tree := 0, level := 0, count := c.data.length, axis := a, dir := natOf c.rotMinus
     content := fun i => c.data[i]? }]

/-- How many axis turns a collective takes. -/
def Coll.turns (c : Coll) : Nat := if c.op == opRO || c.op == opPM then 1 else c.axes.length

/-- Does the module take part in turn k of a BROADCAST: it shares the root's coordinates on the axes not yet handled
(R381)? -/
def State.joins (s : State) (c : Coll) (k : Nat) : Bool :=
  c.op != opBC || (c.axes.drop (k + 1)).all fun a => coordOf a s.address == coordOf a c.origin

/-- The edges on which the module sends in its present turn. -/
def State.sends (s : State) (c : Coll) : List Sending :=
  if c.turns ≤ c.turn then []
  else if c.op == opPM then s.permSends c
  else if c.op == opRO then s.rotSends c
  else if s.joins c c.turn then s.treeSends c c.turn 0 ++ s.treeSends c c.turn 1 else []

/-- The order in which the present turn sends: each edge with the line before which it stops; a PERMUTE piece by piece in the order
of its cycles (R398), the others edge by edge. -/
def State.sendSteps (s : State) (c : Coll) : List (Sending × Nat) :=
  let es := s.sends c
  if c.op == opPM then
    let me := s.groupRank c.axes c.origin
    (permOrder c.nlist c.list).flatMap fun e =>
      let d := bitsOf (c.list.getD e 0) 0 16
      match lfind (fun p => p.1 == e % c.nlist) (c.pieces me d) 0 with
      | some j =>
        if e / c.nlist == me && d != me then
          (es.filter fun x => x.peer == s.groupAddr c.axes c.origin d).map fun x => (x, (j + 1) * (c.piece / 256))
        else []
      | none => []
  else es.map fun e => (e, e.count)

/-! ### What a turn gives -/

/-- All of a list of options, or none. -/
def allSome {α : Type} : List (Option α) → Option (List α)
  | [] => some []
  | none :: _ => none
  | some x :: t => (allSome t).map (x :: ·)

/-- The lines of the whole that tree t carries, from line `lo` on, n of them. -/
def State.wholeLines (s : State) (c : Coll) (tree lo count : Nat) : List (Option CollLine) :=
  let n := s.axisLen (c.axis c.turn)
  let ρ := s.collRank c c.turn tree
  (List.range count).map fun i => s.wholeLine c c.turn n tree ρ (lo + i)

/-- The output of the present turn of a tree operation, once every line of it is here (R381). -/
def State.treeResult (s : State) (c : Coll) : Option (List CollLine) :=
  let n := s.axisLen (c.axis c.turn)
  let h := c.half n
  let ρ := s.collRank c c.turn 1
  if !s.joins c c.turn then some c.data
  else if c.op == opRS then allSome (s.wholeLines c 0 (ρ * h) h ++ s.wholeLines c 1 (ρ * h) h)
  else if c.op == opAG then
    allSome ((List.range n).flatMap fun j => s.wholeLines c 0 (j * h) h ++ s.wholeLines c 1 (j * h) h)
  else if c.op == opVT then allSome (s.wholeLines c 0 0 1)
  else allSome (s.wholeLines c 0 0 h ++ s.wholeLines c 1 0 h)

/-- The output of a ROTATE: every line of the module DIST ranks away. -/
def State.rotResult (s : State) (c : Coll) : Option (List CollLine) :=
  let a := c.axis 0
  let n := s.axisLen a
  let x := coordOf a s.address
  let f := if c.rotMinus then (x + c.dist) % n else (x + n - c.dist % n) % n
  allSome ((List.range c.data.length).map fun i => c.line (edgeKey (setCoord a s.address f) 3 0 0) i)

/-- The line that belongs at line i of a PERMUTE's buffer; its own where the piece stays (R398). -/
def State.permLine (s : State) (c : Coll) (i : Nat) : Option CollLine :=
  let me := s.groupRank c.axes c.origin
  let lp := c.piece / 256
  match (List.range c.list.length).find? fun e => permNext c.nlist c.list e == me * c.nlist + i / lp with
  | none => none
  | some e =>
    if e / c.nlist == me then c.start[e % c.nlist * lp + i % lp]?
    else
      match lfind (fun p => p.1 == e % c.nlist) (c.pieces (e / c.nlist) me) 0 with
      | none => none
      | some j => c.line (edgeKey (s.groupAddr c.axes c.origin (e / c.nlist)) 4 0 0) (j * lp + i % lp)

/-- The output of the present turn. -/
def State.turnResult (s : State) (c : Coll) : Option (List CollLine) :=
  if c.op == opPM then allSome ((List.range c.start.length).map (s.permLine c))
  else if c.op == opRO then s.rotResult c
  else s.treeResult c

/-! ### COLL messages (R325, R400) -/

/-- The header of a COLL message, or of its ACK or NAK (kind). -/
def CollMsg.bits (m : CollMsg) (kind reason : Nat) : Nat :=
  let h := m.hdr
  m.dst % 2 ^ 16 + m.src % 2 ^ 16 * 2 ^ 16 + kind * 2 ^ 32 + m.tclass % 16 * 2 ^ 36 + h.phase % 16 * 2 ^ 40 + h.axis % 4 * 2 ^ 44
    + natOf h.madder * 2 ^ 46 + h.level % 8 * 2 ^ 48 + h.ctag % 2 ^ 32 * 2 ^ 64 + h.vflags % 8 * 2 ^ 96 + h.pdig % 2 ^ 16 * 2 ^ 112
    + h.step % 2 ^ 32 * 2 ^ 128 + (m.payload.length + 31 - 32) / 32 % 8 * 2 ^ 168 + natOf m.last * 2 ^ 171 + natOf m.umber * 2 ^ 173
    + natOf m.turned * 2 ^ 174 + m.dirs % 16 * 2 ^ 176 + m.func % 256 * 2 ^ 180 + reason % 16 * 2 ^ 188 + h.line % 2 ^ 32 * 2 ^ 192
    + h.piece % 2 ^ 12 * 2 ^ 224 + h.rank % 2 ^ 16 * 2 ^ 236

/-- The fields of a received COLL header. -/
def parseColl (b : BitVec 256) (payload : List Byte) : CollMsg :=
  let n := b.toNat
  { dst := bitsOf n 0 16, src := bitsOf n 16 16, tclass := bitsOf n 36 4, func := bitsOf n 180 8, dirs := bitsOf n 176 4
    turned := bitOf n 174, last := bitOf n 171, umber := bitOf n 173
    hdr := { phase := bitsOf n 40 4, axis := bitsOf n 44 2, madder := bitOf n 46, level := bitsOf n 48 3, ctag := bitsOf n 64 32
             vflags := bitsOf n 96 3, pdig := bitsOf n 112 16, step := bitsOf n 128 32, line := bitsOf n 192 32
             piece := bitsOf n 224 12, rank := bitsOf n 236 16 }
    payload := payload }

/-- Put a COLL message on its way (R314, R383). -/
def State.sendColl (s : State) (m : CollMsg) : State := (s.launch (m.bits 1 0) m.payload).1

/-- An ACK or NAK of a COLL message goes back to its source, with the fields of R400; the form of the ACK is open
(DESIGN CHOICE, notes/assumptions/30). -/
def State.answerColl (s : State) (m : CollMsg) (kind reason : Nat) : State :=
  (s.launch (CollMsg.bits { m with dst := m.src, src := s.address, payload := [], dirs := 0, turned := false } kind reason) []).1

/-! ### The engine (R378–R387) -/

/-- Collective id, if it runs here. -/
def State.coll (s : State) (id : Nat) : Option Coll := kget none s.colls.run id
/-- Replace collective id. -/
def State.setColl (s : State) (id : Nat) (c : Option Coll) : State :=
  { s with colls := { s.colls with run := kset none s.colls.run id c } }

/-- Is its format SS8? -/
def Coll.ss8 (c : Coll) : Bool := Fmt.ofCode c.fmt == some .ss8

/-- Bytes of a line: 15 blocks of SS8 in a gather or broadcast, 32 for a vote, else 256 (R378). -/
def Coll.lineLen (c : Coll) : Nat := if c.op == opVT then 32 else if c.ss8 && (c.op == opAG || c.op == opBC) then 255 else 256

/-- Zeros up to a whole number of 32 B units (R378). -/
def padUnits (bs : List Byte) : List Byte := bs ++ List.replicate ((32 - bs.length % 32) % 32) 0#8

/-- DIRS of the axes of a PERMUTE's route, from this module's own table (R314, R398). -/
def State.permDirs (s : State) (dst : Nat) : Nat :=
  (List.range 4).foldl (fun d a => if s.route a (coordOf a dst) == 2 then d + 2 ^ a else d) 0

/-- The message that carries line i of an edge (R378, R393, R400). -/
def State.collMsg (s : State) (c : Coll) (e : Sending) (i : Nat) (l : CollLine) : CollMsg :=
  let pm := c.op == opPM
  let dstRank := ((List.range (s.groupSize c.axes)).find? fun g => s.groupAddr c.axes c.origin g == e.peer).getD 0
  let dp := ((c.pieces (s.groupRank c.axes c.origin) dstRank).getD (i / (c.piece / 256)) (0, 0)).2
  { dst := e.peer, src := s.address, tclass := c.tclass, func := c.func
    dirs := if pm then s.permDirs e.peer else e.dir * 2 ^ e.axis
    last := i + 1 == e.count, umber := l.2
    hdr := { phase := e.phase, axis := e.axis, madder := e.tree == 1, level := e.level, ctag := c.ctag
             vflags := s.reg (bar0 c.func 0xA100), pdig := c.pdig, step := c.step, line := i
             rank := if pm then dstRank else 0, piece := if pm then dp else 0 }
    payload := padUnits l.1 }

/-- The lines of an edge that can go now, in ascending order: those not yet sent and below `upto`, up to the first one not yet
here. -/
def Sending.ready (e : Sending) (from_ upto : Nat) : List CollLine :=
  (((List.range (upto - from_)).map fun i => e.content (from_ + i)).takeWhile Option.isSome).filterMap fun x => x

/-- Send what an edge of collective id can send of its lines below `upto`. -/
def State.sendEdge (s : State) (id : Nat) (e : Sending) (upto : Nat) : State :=
  match s.coll id with
  | none => s
  | some c =>
    let key := edgeKey e.peer e.phase e.tree e.level
    let i0 := kget 0 c.prog key
    let ls := e.ready i0 upto
    let ms := ls.mapIdx fun i l => s.collMsg c e (i0 + i) l
    let s1 := ms.foldl State.sendColl s
    s1.setColl id (some { c with prog := kset 0 c.prog key (i0 + ls.length), sent := c.sent ++ ms })

/-- What the addition at level l for line g leaves in the sticky status, where this module makes it and both operands are here:
1 a non-finite sum, 2 an operand with the mark (R192). -/
def State.sumSticky (s : State) (c : Coll) (n tree ρ g l : Nat) : Nat :=
  match treeEdge tree n l ρ, s.partialLine c c.turn n tree ρ g (l + 1) with
  | some (_, rcv), some x => if rcv == ρ then natOf (lineNonfinite x.1) ||| (2 * natOf x.2) else 0
  | _, _ => 0

/-- The sticky status of the additions that a turn can make as it begins, with lines that came early (R192). -/
def State.turnSticky (s : State) (c : Coll) : Nat :=
  if (c.op == opAR || c.op == opRS) && decide (c.turn < c.turns) then
    let n := s.axisLen (c.axis c.turn)
    [0, 1].foldl (fun b tree => (List.range (c.shards n * c.half n)).foldl (fun b g => (List.range (levelsOf n)).foldl (fun b l =>
      b ||| s.sumSticky c n tree (s.collRank c c.turn tree) g l) b) b) 0
  else 0

/-- Does this module land the collective's output: not a VOTE, not the root of a BROADCAST? -/
def State.lands (s : State) (c : Coll) : Bool :=
  !(c.op == opVT || (c.op == opBC && c.axes.all fun a => coordOf a s.address == coordOf a c.origin))

/-- A collective that lands nothing is done, in the frame that runs, once its verdict is formed or its last message is
acknowledged (R385). -/
def State.collSettle (s : State) (id : Nat) : State :=
  match s.coll id with
  | none => s
  | some c =>
    if decide (c.turns ≤ c.turn) && !c.done && !s.lands c && (c.op == opVT || c.sent.isEmpty) then
      s.setColl id (some { c with done := true, lastOrd := some (s.part c.part).ord })
    else s

/-- Send what can be sent in the present turn; when all of it is sent and the turn's output is here, go on with the next
turn (R381). -/
def State.collPump (s : State) (id : Nat) : Nat → State
  | 0 => s
  | fuel + 1 =>
    match s.coll id with
    | none => s
    | some c =>
      if c.turns ≤ c.turn then s
      else
        let s1 := (s.sendSteps c).foldl (fun s e => s.sendEdge id e.1 e.2) s
        match s1.coll id with
        | none => s1
        | some c1 =>
          if (s.sends c).all fun e => kget 0 c1.prog (edgeKey e.peer e.phase e.tree e.level) == e.count then
            match s1.turnResult c1 with
            | some d =>
              let c2 := { c1 with turn := c1.turn + 1, data := d }
              State.collPump ((s1.setColl id (some c2)).orStep c2.func (s1.turnSticky c2)) id fuel
            | none => s1
          else s1

/-- The engine goes on as far as it can; not in an orderly power-down (R453). -/
def State.collRun (s : State) (id : Nat) : State := if s.cp.powerDown then s else (s.collPump id 6).collSettle id

/-- A collective ends with a FAULT (R374, R386). -/
def State.collFail (s : State) (id reason : Nat) : State :=
  (s.setColl id none).faultCmd id { reason := reason, source := 4 }

/-! ### Receiving (R374, R384, R387, R393) -/

/-- The running collective of function f with a tag. -/
def State.collOf (s : State) (f ctag : Nat) : Option (Nat × Coll) :=
  s.colls.run.findSome? fun x => match x.2 with
    | some c => if c.func == f && c.ctag == ctag then some (x.1, c) else none
    | none => none

/-- The lines that an incoming edge carries in all, none where this module has no such edge: phase, axis, tree and level
must name the peer that sent it. -/
def State.incoming (s : State) (c : Coll) (m : CollMsg) : Option Nat :=
  let h := m.hdr
  let tree := natOf h.madder
  if c.op == opPM then
    if h.phase == 4 && !h.madder && h.level == 0 then
      let me := s.groupRank c.axes c.origin
      ((List.range (s.groupSize c.axes)).find? fun g => s.groupAddr c.axes c.origin g == m.src).map fun g =>
        (c.pieces g me).length * (c.piece / 256)
    else none
  else if c.op == opRO then
    let a := c.axis 0
    let n := s.axisLen a
    let x := coordOf a s.address
    let f := if c.rotMinus then (x + c.dist) % n else (x + n - c.dist % n) % n
    if h.phase == 3 && h.axis == a && !h.madder && h.level == 0 && m.src == setCoord a s.address f then some c.data.length else none
  else
    match (List.range c.axes.length).find? fun k => c.axis k == h.axis with
    | none => none
    | some k =>
      let n := s.axisLen h.axis
      let ρ := s.collRank c k tree
      match treeEdge tree n h.level ρ with
      | none => none
      | some (snd, rcv) =>
        if rcv == ρ && h.phase == upPhase c.op && c.op != opBC && m.src == s.rankAddr c k tree snd then some (2 ^ 32)
        else if snd == ρ && h.phase == downPhase c.op && m.src == s.rankAddr c k tree rcv then some (2 ^ 32)
        else none

/-- What the additions that a line of a reduce edge makes possible leave in the sticky status (R192). -/
def State.stickyOf (s : State) (c : Coll) (m : CollMsg) : Nat :=
  let tree := natOf m.hdr.madder
  let n := s.axisLen m.hdr.axis
  if (c.op == opAR || c.op == opRS) && m.hdr.phase == 0 && c.axis c.turn == m.hdr.axis && decide (c.turn < c.turns) then
    (List.range (levelsOf n)).foldl (fun b l =>
      if l < m.hdr.level then b else b ||| s.sumSticky c n tree (s.collRank c c.turn tree) m.hdr.line l) 0
  else 0

/-- The line that an edge expects arrives (R387). -/
def State.takeLine (s : State) (id : Nat) (c : Coll) (m : CollMsg) (edge : Nat) : State :=
  let c1 := { c with
    got := c.got ++ [(edge * 2 ^ 32 + m.hdr.line, (m.payload.take c.lineLen, m.umber))]
    expected := kset 0 c.expected edge (m.hdr.line + 1) }
  let s1 := (s.setColl id (some c1)).orStep c.func (s.stickyOf c1 m)
  ((s1.answerColl m 2 0).collRun id)

/-- VFLAGS of a message whose STEP is later than STEP_VERDICT.STEP reach STEP_ACC (R393). -/
def State.rideStatus (s : State) (f : Nat) (m : CollMsg) : State :=
  let late := (BitVec.ofNat 32 m.hdr.step - BitVec.ofNat 32 (s.reg (bar0 f 0xA104))).toInt
  if 0 < late then s.orStep f m.hdr.vflags else s

/-- A COLL message for this module (R374, R384, R387, R393). -/
def State.receiveColl (s : State) (m : CollMsg) : State :=
  match s.collOf m.func m.hdr.ctag with
  | none => (s.count (collReg 0x0C) 1).answerColl m 4 7
  | some (id, c) =>
    let s1 := s.rideStatus c.func m
    if (s.part c.part).stopped || (s.part c.part).recov.isSome then s1.answerColl m 4 5
    else if m.hdr.pdig != c.pdig then (s1.setBit (collReg 0x14) 1).collFail id 0x27
    else
      match s1.incoming c m with
      | none => s1.answerColl m 4 3
      | some count =>
        let edge := edgeKey m.src m.hdr.phase (natOf m.hdr.madder) m.hdr.level
        let e := kget 0 c.expected edge
        if m.hdr.line < e then (s1.count (collReg 0x08) 1).answerColl m 2 0
        else if e < m.hdr.line || count ≤ m.hdr.line then s1.answerColl m 4 1
        else s1.takeLine id c m edge

/-- COLL_MESSAGE_RECEIVE (R387): on a port in service, a COLL message for this module. -/
def execCollMessageReceive (p : Nat) (hdr : BitVec 256) (payload : List (BitVec 8)) (s : State) :
    Host.Outcome State Fault Refusal :=
  onPort p (fun s =>
    if s.portState p == 2 && bitsOf hdr.toNat 0 16 == s.address && bitsOf hdr.toNat 32 4 == 1 then
      ((s.passOn p (messageBytes hdr payload)).1).receiveColl (parseColl hdr payload)
    else s) s

/-! ### Answers (R384, R387) -/

/-- Is a sent message the one that an answer is about? -/
def CollMsg.answers (a m : CollMsg) : Bool :=
  m.dst == a.src && m.hdr.phase == a.hdr.phase && m.hdr.madder == a.hdr.madder && m.hdr.level == a.hdr.level
    && m.hdr.line == a.hdr.line

/-- The same edge? -/
def CollMsg.sameEdge (a m : CollMsg) : Bool :=
  m.dst == a.src && m.hdr.phase == a.hdr.phase && m.hdr.madder == a.hdr.madder && m.hdr.level == a.hdr.level

/-- The collective that an answer is about, running or completed here: it carries the tag, and the function of the message it
answers. -/
def State.collAnswered (s : State) (a : CollMsg) : Option (Nat × Coll) :=
  (s.colls.run ++ s.colls.past).findSome? fun x => match x.2 with
    | some c =>
      if c.func == a.func && c.ctag == a.hdr.ctag && (c.sent ++ c.acked).any a.sameEdge then some (x.1, c) else none
    | none => none

/-- Replace a collective that runs; one completed here is kept while a line of it is not acknowledged (R384, R404). -/
def State.putColl (s : State) (id : Nat) (c : Coll) : State :=
  if (s.coll id).isSome then s.setColl id (some c)
  else { s with colls := { s.colls with past := kset none s.colls.past id (if c.sent.isEmpty then none else some c) } }

/-- An acknowledged line needs no repeat; with the last one a collective that only sends is done (R385). -/
def State.collAck (s : State) (a : CollMsg) : State :=
  match s.collAnswered a with
  | some (id, c) => (s.putColl id { c with
      sent := c.sent.filter fun m => !a.answers m
      acked := c.acked ++ c.sent.filter a.answers
      refused := c.refused.filter fun m => !a.answers m }).collSettle id
  | none => s

/-- The lines of an edge that NAK ORDER has sent again: from the first one not acknowledged; where every line before the refused one is,
its receiver has gone back to an earlier state, and all of them go again: the NAK does not say which line is expected
(DESIGN CHOICE, notes/assumptions/30). -/
def Coll.resends (c : Coll) (a : CollMsg) : List CollMsg :=
  let open_ := c.sent.filter a.sameEdge
  if open_.any fun m => decide (m.hdr.line < a.hdr.line) then open_ else c.acked.filter a.sameEdge ++ open_

/-- A NAK of a COLL message: ORDER resends the edge, NOTREADY and PARKED keep the line for the next repeat; the other reasons leave
the collective to its timeout (R384, R386, R387). -/
def State.collNak (s : State) (a : CollMsg) (reason : Nat) : State :=
  match s.collAnswered a with
  | some (id, c) =>
    if reason == 1 then (c.resends a).foldl State.sendColl s
    else if reason == 7 || reason == 5 then
      s.putColl id { c with refused := (c.refused.filter fun m => !a.answers m) ++ c.sent.filter a.answers }
    else s
  | none => s

/-- The refused lines of a collective are sent again (R384). -/
def State.repeatRefused (s : State) (id : Nat) (c : Coll) : State :=
  c.refused.foldl State.sendColl (s.putColl id { c with refused := [] })

/-- COLL_NOTREADY_REPEAT (R384): also where the collective has completed here (R404). -/
def execCollNotreadyRepeat (id : Nat) (s : State) : Host.Outcome State Fault Refusal :=
  if s.halted then .next s
  else
    match s.coll id, kget none s.colls.past id with
    | some c, _ => .next (s.repeatRefused id c)
    | none, some c => .next (s.repeatRefused id c)
    | none, none => .next s

/-- COLL_TIMEOUT (R386): not while the partition is stopped, nor once the last landing has taken place. -/
def execCollTimeout (id : Nat) (s : State) : Host.Outcome State Fault Refusal :=
  if s.halted then .next s
  else
    match s.coll id with
    | some c =>
      if c.done || (s.part c.part).stopped then .next s else .next ((s.setBit (collReg 0x14) 0).collFail id 0x28)
    | none => .next s

/-- NAK (R329, R330, R384, R387): for a stream of this module where the sender and the stream fit and the reason is not
NOTREADY, else for a COLL message. -/
def execNak (hdr : BitVec 256) (s : State) : Host.Outcome State Fault Refusal :=
  if s.halted then .next s
  else
    let h := parseHdr hdr
    let s0 := s.passAny (messageBytes hdr [])
    match s.mine hdr 4 with
    | some _ => if h.nak == 7 then .next (s0.collNak (parseColl hdr []) 7) else .next (s0.nakStream h)
    | none => if h.dst == s.address && h.kind == 4 then .next (s0.collNak (parseColl hdr []) h.nak) else .next s

/-- ACK (R328, R387): every message of the stream before its point is acknowledged; where no stream fits, a line of a
collective is. -/
def execAck (hdr : BitVec 256) (s : State) : Host.Outcome State Fault Refusal :=
  if s.halted then .next s
  else
    let h := parseHdr hdr
    let s0 := s.passAny (messageBytes hdr [])
    match s.mine hdr 2 with
    | some _ => .next (s0.acknowledge h.stream h.sframe h.seq)
    | none => if h.dst == s.address && h.kind == 2 then .next (s0.collAck (parseColl hdr [])) else .next s

/-! ### Landing (R382, R385, R392, R398) -/

/-- The bytes that an output line lands as: an SS8 line with WIDEN gives 32 B of BF16 a block (R382). -/
def Coll.landBytes (c : Coll) (l : List Byte) : List Byte :=
  if c.widen then
    (List.range (l.length / 17)).flatMap fun i =>
      (ss8Unpack false (((l.drop (17 * i)).take 17).map BitVec.toNat)).1.flatMap (leBytes 2)
  else l

/-- Bytes of the output that one line gives. -/
def Coll.landLen (c : Coll) : Nat := if c.widen then 480 else c.lineLen

/-- Cut a run of bytes at the multiples of u of its offset b. -/
def cutAt (u : Nat) : Nat → Nat → List Byte → List (Nat × List Byte)
  | 0, _, _ => []
  | fuel + 1, b, bs =>
    match bs with
    | [] => []
    | _ =>
      let n := u - b % u
      (b, bs.take n) :: cutAt u fuel (b + n) (bs.drop n)

/-- The device address of output byte b, as its function names it. -/
def Coll.outAddr (c : Coll) (b : Nat) : Nat :=
  if c.list.isEmpty then c.dst + b else padWindow (c.list.getD (b / c.piece) 0) + c.aux2 + b % c.piece

/-- Hold a run of bytes of an asynchronous copy or landing; none where a hold buffer is full, counted on that die
(R428, R431). -/
def State.holdAsync (s : State) (part ord home : Nat) (mark : Bool) (k : Nat) (bs : List Byte) : Option State :=
  (cutUnits (bs.length + 1) k bs).foldl (fun o u => o.bind fun s =>
    if s.canHold home part ord u.1 true then some (s.hold part ord home true mark u.1 u.2) else none) (some s)

/-- The die whose hold buffer a write waits for counts it (R431). -/
def State.countWait (s : State) (home k : Nat) : State := s.count (storeReg (s.sliceOf home k / 128) 8) 1

/-- A write of a collective into this module's memory: its bytes by device address, its mark, whether it is output (not a staged
line), and the collective after it. -/
structure Landing where
  runs : List (Nat × List Byte)
  mark : Bool
  output : Bool
  after : Coll

/-- Output line `landed` lands, in the order of the output (R382, R385, R392). -/
def Coll.outLanding (c : Coll) (l : CollLine) : Landing :=
  let u := if c.list.isEmpty then 256 else c.piece
  { runs := (cutAt u (l.1.length + 512) (c.landed * c.landLen) (c.landBytes l.1)).map fun x => (c.outAddr x.1, x.2)
    mark := l.2, output := true, after := { c with landed := c.landed + 1 } }

/-- The module sends rank g's edge to this one: its key, and the pieces it brings as (piece, slot). -/
def State.permEdges (s : State) (c : Coll) : List (Nat × List (Nat × Nat)) :=
  let me := s.groupRank c.axes c.origin
  (List.range (s.groupSize c.axes)).filterMap fun g =>
    if g == me then none else some (edgeKey (s.groupAddr c.axes c.origin g) 4 0 0, c.pieces g me)

/-- Has the piece of a slot been read: it stays, it moves within the module, or its lines have all gone (R398)? -/
def State.pieceRead (s : State) (c : Coll) (slot : Nat) : Bool :=
  let me := s.groupRank c.axes c.origin
  let d := bitsOf (c.list.getD (me * c.nlist + slot) 0) 0 16
  match lfind (fun p => p.1 == slot) (c.pieces me d) 0 with
  | some j => d == me || decide ((j + 1) * (c.piece / 256) ≤ kget 0 c.prog (edgeKey (s.groupAddr c.axes c.origin d) 4 0 0))
  | none => true

/-- The next write of a PERMUTE (R398): pieces that move within the module; then a piece that stands whole in the staging buffer into
its slot, once the slot's own piece is read; then received lines into the staging buffer, a piece at the lowest free place
(DESIGN CHOICE, notes/assumptions/78). -/
def State.permLanding (s : State) (c : Coll) : Option Landing :=
  let me := s.groupRank c.axes c.origin
  let lp := c.piece / 256
  let own := c.pieces me me
  let slotRun (slot i : Nat) (l : CollLine) : List (Nat × List Byte) := [(c.src + slot * c.piece + 256 * i, l.1)]
  let swap (x y : StagePiece) : List StagePiece := c.stage.map fun z => if z == x then y else z
  let stageLine (x : StagePiece) (c1 : Coll) : Option Landing := (c.line x.edge (x.first + x.staged)).map fun l =>
    { runs := [(c.dst + x.place * c.piece + 256 * x.staged, l.1)], mark := l.2, output := false, after := c1 }
  if c.landed < own.length * lp then
    let q := own.getD (c.landed / lp) (0, 0)
    (c.start[q.1 * lp + c.landed % lp]?).map fun l =>
      { runs := slotRun q.2 (c.landed % lp) l, mark := l.2, output := true, after := { c with landed := c.landed + 1 } }
  else
    match c.stage.find? fun x => x.staged == lp && s.pieceRead c x.slot with
    | some x => (c.line x.edge (x.first + x.written)).map fun l =>
      { runs := slotRun x.slot x.written l, mark := l.2, output := true
        after := { c with
          landed := c.landed + 1
          stage := if x.written + 1 == lp then c.stage.filter (· != x) else swap x { x with written := x.written + 1 } } }
    | none =>
      match c.stage.find? fun x => decide (x.staged < lp) && (c.line x.edge (x.first + x.staged)).isSome with
      | some x => stageLine x { c with stage := swap x { x with staged := x.staged + 1 } }
      | none =>
        let free := (List.range (c.aux2 / c.piece)).find? fun n => c.stage.all (·.place != n)
        let next := (s.permEdges c).find? fun e => (c.line e.1 (kget 0 c.taken e.1 * lp)).isSome
        match free, next with
        | some n, some e =>
          let j := kget 0 c.taken e.1
          let x : StagePiece := { place := n, slot := (e.2.getD j (0, 0)).2, edge := e.1, first := j * lp }
          stageLine x { c with stage := c.stage ++ [{ x with staged := 1 }], taken := kset 0 c.taken e.1 (j + 1) }
        | _, _ => none

/-- The lines that a collective lands as output in all. -/
def State.outputLines (s : State) (c : Coll) : Nat :=
  if c.op == opPM then
    let me := s.groupRank c.axes c.origin
    ((c.pieces me me).length + ((s.permEdges c).map fun e => e.2.length).foldl (· + ·) 0) * (c.piece / 256)
  else c.data.length

/-- The next landing of a collective: a PERMUTE's as pieces arrive, another's once its turns are over. -/
def State.nextLanding (s : State) (c : Coll) : Option Landing :=
  if c.op == opPM then s.permLanding c
  else if c.turn < c.turns then none else (c.data[c.landed]?).map c.outLanding

/-- A landing is held for the frame that runs; none where a hold buffer is full (R385, R428). -/
def State.holdLanding (s : State) (c : Coll) (ord : Nat) (x : Landing) : Option State :=
  x.runs.foldl (fun o r => o.bind fun s =>
    match s.key c.func r.1 with
    | some k => s.holdAsync c.part ord 0 x.mark k r.2
    | none => some s) (some s)

/-- Land lines from the next one on, as hold buffers allow; a landing that waits is counted once (R431). -/
def State.landLines (s : State) (id ord : Nat) : Nat → State
  | 0 => s
  | fuel + 1 =>
    match s.coll id with
    | none => s
    | some c =>
      match s.nextLanding c with
      | none => s
      | some x =>
        let a := (x.runs.head?.map (·.1)).getD 0
        match s.holdLanding c ord x with
        | none =>
          if c.waited then s else (s.setColl id (some { c with waited := true })).countWait 0 ((s.key c.func a).getD 0)
        | some s1 =>
          let s2 := s1.setColl id (some { x.after with waited := false })
          State.landLines
            (if x.mark && x.output then s2.modCmd id fun y => { y with umber := some (y.umber.getD a), nfail := y.nfail + 1 } else s2)
            id ord fuel

/-- What of a collective has come lands; with the last landing it is done in the frame that runs (R385); none while its partition is
stopped or in recovery, nor in an orderly power-down (R453). -/
def State.collLand (s : State) (id : Nat) : State :=
  match s.coll id with
  | none => s
  | some c =>
    if c.done || (s.part c.part).stopped || (s.part c.part).recov.isSome || s.cp.powerDown then s
    else if !s.lands c then s.collSettle id
    else
      let ord := (s.part c.part).ord
      let s1 := s.landLines id ord (2 * c.data.length + 2)
      match s1.coll id with
      | none => s1
      | some c1 =>
        if c1.turns ≤ c1.turn && s.outputLines c1 ≤ c1.landed then s1.setColl id (some { c1 with done := true, lastOrd := some ord })
        else s1

/-- COLL_LANDING (R385). -/
def execCollLanding (id : Nat) (s : State) : Host.Outcome State Fault Refusal :=
  if s.halted then .next s else .next (s.collLand id)

/-- A collective completes at the commit of the frame of its last landing; a VOTE stores its verdict (R385, R394). Lines that a peer
has not acknowledged stay to be repeated (R404). -/
def State.collDone (s : State) (id : Nat) (c : Coll) : State :=
  let s1 := (s.setColl id none).putColl id c
  if c.op == opVT then
    let v := ((c.data.head?.getD ([], false)).1.headD 0).toNat % 8
    let s2 := (s1.setReg (bar0 c.func 0xA104) c.step).setReg (bar0 c.func 0xA108) (1 + 2 * natOf (v != 0) + 4 * v)
    match s2.cmd id with
    | none => s2
    | some x => s2.complete id x.status (if x.status == 0 then 2 ^ 16 * v + 2 ^ 19 * natOf (v != 0) else x.detail)
  else s1.completeOwn id

/-! ### The engine in a restored partition (R387, R433, R438) -/

/-- The running collectives of partition p. -/
def State.partColls (s : State) (p : Nat) : KMap Coll :=
  s.colls.run.filterMap fun c => c.2.bind fun y => if y.part == p then some (c.1, y) else none

/-- A collective as its admission started it. -/
def Coll.fresh (c : Coll) : Coll :=
  { c with turn := 0, data := c.start, got := [], expected := [], prog := [], sent := [], acked := [], refused := [], landed := 0
           waited := false, done := false, lastOrd := none, stage := [], taken := [] }

/-- The collectives of partition p as a record holds them, those admitted since as at their admission; lines not acknowledged are
sent again (R387). -/
def State.putColls (s : State) (p : Nat) (k : KMap Coll) : State :=
  (s.partColls p).foldl (fun s x =>
    let c := ((k.find? fun y => y.1 == x.1).map (·.2)).getD x.2.fresh
    (c.sent.foldl State.sendColl (s.setColl x.1 (some c))).collRun x.1) s

/-- The collectives of partition p that are done by frame ord. -/
def State.collsCommit (s : State) (p ord : Nat) : State :=
  s.colls.run.foldl (fun s x => match x.2 with
    | some c =>
      match c.lastOrd with
      | some j => if c.part == p && c.done && decide (j ≤ ord) then s.collDone x.1 c else s
      | none => s
    | none => s) s

/-! ### Admission (R375–R377, R384, R386, R392, R394–R398) -/

/-- The collective that a command's payload asks for. -/
def Cmd.coll (c : Cmd) : Coll :=
  let nax := c.pay 0 1 % 8
  { func := c.func, op := c.opcode, axes := (List.range nax).map fun i => bitsOf (c.pay 1 1) (2 * i) 2
    fmt := c.pay 2 1 % 16, widen := bitOf (c.pay 3 1) 0, rotMinus := bitOf (c.pay 3 1) 2, tclass := c.pay 4 1 % 16
    origin := c.pay 6 2, ctag := c.pay 8 4, step := c.pay 0x0C 4, src := c.pay 0x10 8, dst := c.pay 0x18 8
    aux2 := c.pay 0x34 4, dist := c.pay 0x38 2, piece := c.pay 0x30 4, nlist := c.pay 0x3A 2 }

/-- LEN. -/
def Cmd.len (c : Cmd) : Nat := c.pay 0x20 8
/-- AUX. -/
def Cmd.aux (c : Cmd) : Nat := c.pay 0x28 8

/-- Does the output land in the pads of a core list (R376)? -/
def Cmd.toCores (c : Cmd) : Bool := (c.opcode == opAG || c.opcode == opBC || c.opcode == opRO) && c.pay 0x18 8 == 0 && c.aux != 0

/-- GROUP (R373, R375, R396). -/
def State.groupOk (s : State) (c : Cmd) (k : Coll) : Bool :=
  decide (1 ≤ c.pay 0 1) && decide (c.pay 0 1 ≤ 4) && decide k.axes.Nodup && c.pay 1 1 / 4 ^ (c.pay 0 1) == 0
    && (List.range 4).all (fun a =>
      if k.axes.contains a then decide (coordOf a k.origin < s.axisLen a) else coordOf a k.origin == 0)
    && (k.op != opRO || (k.axes.length == 1 && decide (1 ≤ k.dist) && decide (k.dist < s.axisLen (k.axis 0))))

/-- LENGTH (R377, R397). -/
def State.lengthOk (s : State) (c : Cmd) (k : Coll) : Bool :=
  let n := s.groupSize k.axes
  if k.op == opRS then c.len % (512 * n) == 0
  else if k.op == opAR then c.len % 512 == 0
  else if k.op == opAG || k.op == opBC then c.len % (if k.ss8 then 510 else 512) == 0
  else if k.op == opRO then c.len % 256 == 0
  else if k.op == opPM then
    k.piece % 256 == 0 && k.piece != 0 && decide (1 ≤ k.nlist) && decide (k.nlist ≤ 4096) && c.len == k.piece * k.nlist
  else c.len == 0

/-- FORMAT (R377). -/
def Coll.formatOk (k : Coll) : Bool :=
  if k.op == opRS || k.op == opAR then Fmt.ofCode k.fmt == some .fp32
  else if k.op == opVT then k.fmt == 0
  else (Fmt.ofCode k.fmt).isSome && (!k.widen || k.ss8)

/-- A buffer of function f: 256-byte aligned, all of it in its usable near pages or its own lines of the carve-out (R262, R376). -/
def State.bufOk (s : State) (f a n : Nat) : Bool :=
  a % 256 == 0 && ((decide (a + n ≤ 0x00C000000000) && s.mappedRange f a n) || s.ownsSpan f a n)

/-- Is this module the root of a BROADCAST? -/
def State.isBcRoot (s : State) (k : Coll) : Bool := k.op == opBC && k.axes.all fun a => coordOf a s.address == coordOf a k.origin

/-- Bytes of output at DST (R377). -/
def State.outBytes (s : State) (c : Cmd) (k : Coll) : Nat :=
  let w (x : Nat) : Nat := if k.widen then x * 32 / 17 else x
  if k.op == opRS then c.len / s.groupSize k.axes
  else if k.op == opAG then w (c.len * s.groupSize k.axes)
  else if k.op == opBC then (if s.isBcRoot k then 0 else w c.len)
  else if k.op == opPM || k.op == opVT then 0 else c.len

/-- Bytes of the list or table at AUX. -/
def State.auxBytes (s : State) (c : Cmd) (k : Coll) : Nat :=
  if k.op == opPM then 4 * s.groupSize k.axes * k.nlist else if c.toCores then 4 * k.nlist else 0

/-- The ranges of memory that a collective names (R290, R376). -/
def State.collRanges (s : State) (c : Cmd) : List (Nat × Nat) :=
  let k := c.coll
  [(k.src, if k.op == opBC && !s.isBcRoot k then 0 else c.len), (k.dst, if c.toCores then 0 else s.outBytes c k),
    (c.aux, s.auxBytes c k)].filter fun x => x.2 != 0

/-- The words at AUX. -/
def State.auxWords (s : State) (c : Cmd) (k : Coll) : List Nat :=
  let b := s.tenantBytes c.func c.aux (s.auxBytes c k)
  (List.range (b.length / 4)).map fun i => leNat ((b.drop (4 * i)).take 4)

/-- BUFFER (R376, R392, R398). -/
def State.buffersOk (s : State) (c : Cmd) (k : Coll) : Bool :=
  (s.collRanges c).all (fun r => s.bufOk c.func r.1 r.2)
    && (k.op != opPM || (s.ownsSpan c.func k.dst k.aux2 && k.dst % 256 == 0 && decide (2 * k.piece ≤ k.aux2)))
    && (!c.toCores || (k.piece % 32 == 0 && k.nlist * k.piece == s.outBytes c k
      && (s.auxWords c k).all (fun w => s.isCore w && (s.partOf w).isSome && s.partOf w == s.funcPart c.func)
      && (decide (k.aux2 + k.piece ≤ 0x18000) || (decide (0x18000 ≤ k.aux2) && decide (k.aux2 + k.piece ≤ 0x28000)))))

/-- TABLE: the entries are a permutation of the (rank, piece) pairs (R397). -/
def tableOk (n nlist : Nat) (t : List Nat) : Bool :=
  t.all (fun v => v / 2 ^ 28 == 0 && decide (bitsOf v 0 16 < n) && decide (bitsOf v 16 12 < nlist))
    && decide ((List.range t.length).map (permNext nlist t)).Nodup

/-- The first reason for which a collective is refused at admission (R403). -/
def State.checkColl (s : State) (c : Cmd) : Option Nat :=
  let k := c.coll
  firstFail [
    (s.groupOk c k, 0x20),
    (s.lengthOk c k, 0x21),
    (k.formatOk, 0x23),
    (s.buffersOk c k, 0x22),
    (k.op != opPM || tableOk (s.groupSize k.axes) k.nlist (s.auxWords c k), 0x24),
    ((s.collOf c.func k.ctag).isNone, 0x25)]

/-- Cut bytes into lines of n. -/
def toLines (n : Nat) : Nat → List Byte → List (List Byte)
  | 0, _ => []
  | fuel + 1, bs => if bs.isEmpty then [] else bs.take n :: toLines n fuel (bs.drop n)

/-- The committed lines at tenant address a of function f, with the marks of the memory they come from. -/
def State.tenantLines (s : State) (f a len n : Nat) : List CollLine :=
  (toLines n (len + 1) (s.tenantBytes f a len)).mapIdx fun i l =>
    (l, [a + i * n, a + i * n + l.length - 1].any fun x => ((s.key f x).map (s.seenMarked none)).getD false)

/-- PDIG (R374). -/
def Cmd.pdig (c : Cmd) (table : List Byte) : Nat :=
  let b := c.payload
  let cut (o n : Nat) : List Byte := (b.drop o).take n
  crc32c (cut 0 0x10 ++ cut 0x20 8 ++ cut 0x30 4 ++ cut 0x38 8 ++ table) % 2 ^ 16

/-- Start an admitted collective: its data is read, a VOTE takes and clears STEP_ACC, and its engine begins (R378, R394). -/
def State.startColl (s : State) (id p : Nat) (c : Cmd) : State :=
  let k := c.coll
  let acc := s.reg (bar0 c.func 0xA100)
  let v := acc &&& (if bitOf (c.pay 3 1) 1 then 7 else 3)
  let data : List CollLine :=
    if k.op == opVT then [(leBytes 32 v, false)]
    else if k.op == opBC && !s.isBcRoot k then List.replicate (c.len / k.lineLen) ([], false)
    else s.tenantLines c.func k.src c.len k.lineLen
  let table := if k.op == opPM then s.tenantBytes c.func c.aux (s.auxBytes c k) else []
  let k1 : Coll := { k with cmd := id, part := p, pdig := c.pdig table, list := s.auxWords c k, data := data, start := data }
  let s1 := if k.op == opVT then s.setReg (bar0 c.func 0xA100) 0 else s
  (s1.setColl id (some k1)).collRun id

/-! ### COMMIT_STEP (R395) -/

/-- STEP, GATE_Q and GATE_N of a COMMIT_STEP. -/
def Cmd.gate (c : Cmd) : Nat × Nat × Nat := (c.pay 0 4, c.pay 4 1 % 64, c.pay 6 2)

/-- Does a COMMIT_STEP wait for a VOTE of its step (R395)? -/
def State.voteWaits (s : State) (c : Cmd) : Bool :=
  s.cmds.any fun x => match x.2 with
    | some v => v.func == c.func && v.opcode == opVT && v.accepted.isSome && v.pay 0x0C 4 == c.gate.1
    | none => false

/-- The accepted commands of queue q of function f after command id, ascending. -/
def State.acceptedAfter (s : State) (f q id : Nat) : List Nat :=
  s.cmds.filterMap fun x => match x.2 with
    | some c => if c.func == f && c.q == q && c.accepted.isSome && decide (id < x.1) then some x.1 else none
    | none => none

/-- Is command id held by the gate of a COMMIT_STEP that has not completed (R395)? -/
def State.gated (s : State) (id : Nat) (c : Cmd) : Bool :=
  s.cmds.any fun x => match x.2 with
    | some g =>
      g.func == c.func && g.opcode == 0x19 && g.accepted.isSome && decide (x.1 < id) && g.gate.2.1 == c.q
        && ((s.acceptedAfter c.func c.q x.1).take g.gate.2.2).contains id
    | none => false

/-- COMMIT_STEP at its admission: with the verdict DIRTY the next GATE_N commands of GATE_Q are to be skipped, those not yet
accepted too (R395); none of them is considered before the next tick (R404). -/
def State.commitStep (s : State) (id : Nat) (c : Cmd) : State :=
  let g := c.gate
  let v := s.reg (bar0 c.func 0xA108)
  if !bitOf v 0 || s.reg (bar0 c.func 0xA104) != g.1 then s.deny id 0x26
  else if !bitOf v 1 then
    State.completeOwn { s with cp := { s.cp with heldNow := s.cp.heldNow ++ (s.acceptedAfter c.func g.2.1 id).take g.2.2 } } id
  else
    let l := (s.acceptedAfter c.func g.2.1 id).take g.2.2
    let s0 := { s with cp := { s.cp with heldNow := s.cp.heldNow ++ l } }
    let s1 := l.foldl (fun s i => s.modCmd i ({ · with skipped := true })) s0
    let s2 := { s1 with colls := { s1.colls with gates :=
      if l.length < g.2.2 then s1.colls.gates ++ [(c.func, g.2.1, g.2.2 - l.length)] else s1.colls.gates } }
    (s2.modCmd id ({ · with skipped := true })).completeOwn id

end Sys2Proof.Machine
end

