-- ==== Sys2Proof/Machine/Counters.lean ====
section
/-! DEFINITION. Performance counters as a tick sees them: the events a kind lists, which of them the commands show one by one, when
stall events count (R216, R465–R470). -/

namespace Sys2Proof.Machine

/-- OBS_PARTp. -/
def obsPart (p : Nat) : Nat := obsReg (0x600 + 4 * p)

/-- Instances of a kind (R465). -/
def instancesOf (kind : Nat) : Nat := [49152, 16, 96, 8, 10, 8, 16, 16, 4, 8, 8, 1].getD kind 0

/-- A stall event listed for a kind (R468–R470). -/
def eventStall (kind event : Nat) : Bool :=
  (kind == 0 && decide (0x40 ≤ event) && decide (event ≤ 0x47)) || (decide (1 ≤ kind) && decide (kind ≤ 4) && event == 0x40)

/-- Another event listed for a kind (R468, R469). -/
def eventListed (kind event : Nat) : Bool :=
  decide (1 ≤ event) && decide (event ≤ [0x0C, 6, 5, 6, 2, 3, 5, 5, 4, 2, 5, 6].getD kind 0)

/-- Does the model count every occurrence of an event? -/
def eventExact (kind event : Nat) : Bool :=
  ([[2, 3, 4, 6, 7, 8, 9, 0x0A, 0x0C], [3], [4], [2, 3, 4, 5], [], [], [], [], [], [], [], [1, 2, 3, 5, 6]].getD kind []).contains event

/-- Is the value of a counter under a configuration open: its event, not a stall, is one of timing, or it stopped while it was (bit 16;
notes/assumptions/36)? -/
def cfgOpen (kind c : Nat) : Bool :=
  bitOf c 16 || (bitsOf c 8 2 != 0 && eventListed kind (bitsOf c 0 8) && !(bitsOf c 8 2 == 1 && eventExact kind (bitsOf c 0 8)))

/-- The configuration in effect once a written one is taken: mode 0 keeps the value as it stands. -/
def nextCfg (kind old new : Nat) : Nat := if bitsOf new 8 2 == 0 && cfgOpen kind old then new + 2 ^ 16 else new

/-- Is a partition in test mode or in recovery? -/
def State.partStalls (s : State) (p : Nat) : Bool := s.bit (obsPart p) 2 || (s.part p).recov.isSome

/-- Do stall events of an instance count now (R470)? -/
def State.stallCounts (s : State) (kind inst : Nat) : Bool :=
  !s.obs.admitted
    || (if kind == 0 then ((s.partOf inst).map s.partStalls) == some true else (List.range 8).any s.partStalls)

/-- The counters, by key, that count a stall event now. -/
def State.stallKeys (s : State) : List Nat :=
  s.obs.cfg.flatMap fun x =>
    let kind := x.1 / 16
    if bitsOf x.2 8 2 != 0 && eventStall kind (bitsOf x.2 0 8) then
      ((List.range (instancesOf kind)).filter (s.stallCounts kind)).map fun n => kind * 2 ^ 24 + n * 16 + x.1 % 16
    else []

/-- Where stall events count, each counter of one gains an open number of them; elsewhere it holds its value (R216, R470;
notes/assumptions/36). -/
def State.countStalls (s : State) : State :=
  match s.stallKeys with
  | [] => s
  | keys => { s with
      free := s.free + 12 * 2 ^ 24
      obs := { s.obs with ctrs := keys.foldl (fun m k => kmod 0 m k fun v => (v + Config.freeNat (s.free + k)) % 2 ^ 48) s.obs.ctrs } }

end Sys2Proof.Machine
end

