-- ==== Sys2Proof/Machine/Pool.lean ====
section
/-! DEFINITION. The shared pool: page states, requests, quotas, eviction and refill; the die caches; the writes of the pool and
tiers registers that a rule checks: cache boundaries, carve-outs, shares, quotas, flash windows, bays (R259–R265, R275–R279,
R283, R287–R292, R301–R303). -/

namespace Sys2Proof.Machine

/-! ### What the pool holds (R287–R289) -/

/-- TIER_ERR bit i is set (R301). -/
def State.tierErr (s : State) (i : Nat) : State := s.setBit (tierReg 0x24) i

/-- TIER_STATUS.FAR_OK. -/
def State.farOk (s : State) : Bool := s.bit (tierReg 0) 7
/-- NEAR_PAGES. -/
def State.nearPages (s : State) : Nat := s.reg (tierReg 8)
/-- FAR_PAGES. -/
def State.farPages (s : State) : Nat := s.reg (tierReg 0x0C)

/-- The mapped pages of the module: function, far, virtual page, page. -/
def State.allPages (s : State) : List (Nat × Bool × Nat × Page) :=
  s.tiers.pages.filterMap fun x => x.2.map fun p => (x.1 / 2 ^ 32, bitOf x.1 31, x.1 % 2 ^ 31, p)

/-- Does a page hold a physical near page? -/
def Page.inNear (p : Page) : Bool := p.state == .resident || p.state == .pinned
/-- Does a near page hold a backing far page? -/
def Page.backed (p : Page) : Bool := p.state == .resident || p.state == .evicted

/-- Near pages of f in every state but UNMAPPED. -/
def State.nearUse (s : State) (f : Nat) : Nat := (s.allPages.filter fun x => x.1 == f && !x.2.1).length
/-- PINNED pages of f. -/
def State.pinUse (s : State) (f : Nat) : Nat := (s.allPages.filter fun x => x.1 == f && x.2.2.2.state == .pinned).length
/-- RESIDENT and PINNED near pages of f. -/
def State.nearResident (s : State) (f : Nat) : Nat := (s.allPages.filter fun x => x.1 == f && x.2.2.2.inNear).length
/-- MAPPED far pages of f plus its backing pages. -/
def State.farUse (s : State) (f : Nat) : Nat :=
  (s.allPages.filter fun x => x.1 == f && (x.2.2.2.state == .mapped || x.2.2.2.backed)).length

/-- Physical near pages in use. -/
def State.nearTaken (s : State) : List Nat := (s.allPages.filter fun x => x.2.2.2.inNear).map fun x => x.2.2.2.phys
/-- Physical far pages in use, mapped and backing. -/
def State.farTaken (s : State) : List Nat :=
  s.allPages.filterMap fun x =>
    if x.2.2.2.state == .mapped then some x.2.2.2.phys else if x.2.2.2.backed then some x.2.2.2.back else none

/-- The lowest number from i on that a list does not hold; the list's length bounds the search. -/
def firstFree (used : List Nat) : Nat → Nat → Nat
  | 0, i => i
  | n + 1, i => if used.contains i then firstFree used n (i + 1) else i

/-- The free physical far page with the lowest number (R292). -/
def State.freeFar (s : State) : Option Nat :=
  let i := firstFree s.farTaken (s.farTaken.length + 1) 0
  if i < s.farPages then some i else none

/-- The key under which a command names a page. -/
def pageKey (far : Bool) (v : Nat) : Nat := natOf far * 2 ^ 31 + v

/-- Is page v of f busy: named by an admitted command that has not completed, or by one of `more` (R290, R303)? -/
def State.busy (s : State) (more : List (Nat × Nat)) (f : Nat) (far : Bool) (v : Nat) : Bool :=
  more.contains (f, pageKey far v) || s.cmds.any fun x => match x.2 with
    | some c => c.func == f && c.admitted.isSome && c.pages.contains (pageKey far v)
    | none => false

/-! ### Contents of pages (R265, R288, R292, R303) -/

/-- Bytes in a page. -/
def pageBytes : Nat := 0x200000

/-- Committed entries that lie in a range are applied, before its page changes hands. -/
def State.settleRange (s : State) (a n : Nat) : State :=
  let mine (h : Held) : Bool := h.committed && decide (a ≤ h.base) && decide (h.base < a + n)
  let s1 := (s.held.filter mine).foldl State.applyEntry s
  { s1 with held := s.held.filter fun h => !mine h }

/-- The lines of a range leave every cache (R265). -/
def State.uncache (s : State) (a n : Nat) : State :=
  { s with tiers := { s.tiers with
      caches := (s.tiers.caches.map fun x => (x.1, x.2.filter fun t => !(decide (a ≤ 256 * t) && decide (256 * t < a + n)))).filter
        fun x => !x.2.isEmpty } }

/-- A range reads as zero, without marks (R261, R288). -/
def State.clearRange (s : State) (a n : Nat) : State :=
  let s1 := (s.settleRange a n).uncache a n
  { s1 with
    mem := Mem.zero s1.mem a n
    marks := s1.marks.filter fun x => !(decide (a ≤ x.1) && decide (x.1 < a + n)) }

/-- The lines of a range that cannot be had: marked ones, and those that a lost stack or DIMM holds (R267, R269, R270). -/
def State.badLinesIn (s : State) (a n : Nat) : List Nat :=
  ((s.marks.filter fun x => x.2 && decide (a ≤ x.1) && decide (x.1 < a + n)).map (·.1))
    ++ (if s.tiers.lost.isEmpty then [] else ((List.range (n / 256)).map fun i => a + 256 * i).filter fun k => s.unitLost (s.serving k))

/-- A range is copied to another; a line that cannot be had becomes zero bytes with the mark (R267, R292, R297, R303). -/
def State.moveRange (s : State) (src dst n : Nat) : State :=
  let s0 := s.settleRange src n
  let bad := s0.badLinesIn src n
  let bytes := (s0.mem.filter fun x => decide (src ≤ x.1) && decide (x.1 < src + n) && !bad.contains (x.1 / 256 * 256)).map
    fun x => (x.1 - src + dst, x.2)
  let s1 := s0.clearRange dst n
  { s1 with
    mem := Mem.writeCells s1.mem bytes
    marks := bad.foldl (fun m k => kset false m (k - src + dst) true) s1.marks }

/-- Evict page v of f: written back, EVICTED, counted (R292). -/
def State.evict (s : State) (f v : Nat) (p : Page) : State :=
  ((s.moveRange (p.phys * pageBytes) (farKey + p.back * pageBytes) pageBytes).setPage f false v
    (some { p with state := .evicted, phys := 0 })).count (tierReg 0x14) 1

/-- The RESIDENT page that may go: not busy, of the oldest age; ties to the lower function, then the lower page (R292). -/
def State.victim (s : State) (more : List (Nat × Nat)) : Option (Nat × Nat × Page) :=
  (s.allPages.filter fun x => x.2.2.2.state == .resident && !s.busy more x.1 false x.2.2.1).foldl (fun best x =>
    match best with
    | some b => if x.2.2.2.age < b.2.2.age then some (x.1, x.2.2) else best
    | none => some (x.1, x.2.2)) none

/-- Take a physical near page: the free one with the lowest number, else one freed by an eviction (R292). -/
def State.takeNear (s : State) (more : List (Nat × Nat)) : Option (State × Nat) :=
  let i := firstFree s.nearTaken (s.nearTaken.length + 1) 0
  if i < s.nearPages then some (s, i)
  else (s.victim more).map fun x => (s.evict x.1 x.2.1 x.2.2, x.2.2.phys)

/-! ### Requests (R288, R289) -/

/-- Is page v in the tier's range? -/
def pageInRange (far : Bool) (v : Nat) : Bool := decide (v < if far then 2 ^ 21 else 393216)

/-- Does an operation accept a page in this state (R288)? -/
def poolAccepts (far : Bool) (op : Nat) (p : Option Page) : Bool :=
  match op, p with
  | 0, none => true
  | 1, none => !far
  | 2, some _ => true
  | 3, some q => !far && (q.state == .resident || q.state == .evicted)
  | 4, some q => !far && q.state == .pinned
  | _, _ => false

/-- The whole check of a request: CODE of its first failure (R288, R289). -/
def State.poolCheck (s : State) (r : PoolReq) : Option Nat :=
  let near := (s.nearUse r.func + r.count ≤ s.field (tierReg (0x1000 + 16 * r.func)) 0 20 : Bool)
  let pin := (s.pinUse r.func + r.count ≤ s.field (tierReg (0x1004 + 16 * r.func)) 0 20 : Bool)
  let far := (s.farUse r.func + r.count ≤ s.field (tierReg (0x1008 + 16 * r.func)) 0 22 : Bool)
  let needsFar := r.op == 0 || r.op == 4
  firstFail [
    ((List.range r.count).all fun i => pageInRange r.far (r.vpage + i)
      && poolAccepts r.far r.op (s.page r.func r.far (r.vpage + i)), 2),
    (!needsFar || s.farOk, 3),
    ((r.far || !(r.op == 0 || r.op == 1) || near) && (!(r.op == 1 || r.op == 3) || pin) && (!needsFar || far), 1)]

/-- One page of a checked request; none where no physical page can be had (R288, R292). -/
def State.poolPage (s : State) (more : List (Nat × Nat)) (r : PoolReq) (v : Nat) : Option State :=
  let put (s : State) (p : Page) : State := s.setPage r.func r.far v (some { p with age := s.tick })
  match r.op, s.page r.func r.far v with
  | 0, _ =>
    s.freeFar.bind fun q =>
      if r.far then some (put (s.clearRange (farKey + q * pageBytes) pageBytes) { state := .mapped, phys := q })
      else (s.takeNear more).map fun x =>
        put (x.1.clearRange (x.2 * pageBytes) pageBytes) { state := .resident, phys := x.2, back := q }
  | 1, _ => (s.takeNear more).map fun x => put (x.1.clearRange (x.2 * pageBytes) pageBytes) { state := .pinned, phys := x.2 }
  | 2, _ => some (s.setPage r.func r.far v none)
  | 3, some p =>
    if p.state == .evicted then (s.takeNear more).map fun x =>
      (x.1.moveRange (farKey + p.back * pageBytes) (x.2 * pageBytes) pageBytes).setPage r.func r.far v
        (some { p with state := .pinned, phys := x.2, back := 0 })
    else some (s.setPage r.func r.far v (some { p with state := .pinned, back := 0 }))
  | 4, some p => s.freeFar.map fun q => s.setPage r.func r.far v (some { p with state := .resident, back := q })
  | _, _ => some s

/-- The pages of a checked request one after the other, until one finds no space: the state and the pages handled. -/
def State.poolPages (s : State) (more : List (Nat × Nat)) (r : PoolReq) : Nat → Nat → State × Nat
  | 0, i => (s, i)
  | n + 1, i =>
    match s.poolPage more r (r.vpage + i) with
    | some s1 => State.poolPages s1 more r n (i + 1)
    | none => (s, i)

/-- POOL_RESULT: BUSY cleared, CODE and the pages completed (R302). -/
def State.poolResult (s : State) (f code pages : Nat) : State := s.setReg (bar0 f 0x9010) (code * 2 ^ 4 + pages * 2 ^ 8)

/-- Does a request wait: an UNMAP that names a busy page (R288)? -/
def State.poolWaits (s : State) (r : PoolReq) : Bool :=
  r.op == 2 && (List.range r.count).any fun i => s.busy [] r.func r.far (r.vpage + i)

/-- A request is carried out (R288, R289, R292). -/
def State.poolRun (s : State) (more : List (Nat × Nat)) (r : PoolReq) : State :=
  match s.poolCheck r with
  | some code => s.poolResult r.func code 0
  | none =>
    let x := s.poolPages more r r.count 0
    x.1.poolResult r.func (if x.2 == r.count then 0 else 4) x.2

/-- The swap of the pool maps at a tick: every request that need not wait (R288, R451). -/
def State.poolSwap (s : State) (more : List (Nat × Nat)) : State :=
  let s0 := { s with tiers := { s.tiers with reqs := [] } }
  s.tiers.reqs.foldl (fun s r =>
    if s.poolWaits r then { s with tiers := { s.tiers with reqs := s.tiers.reqs ++ [r] } } else s.poolRun more r) s0

/-- POOL_GO of function f with the operation that its POOL_REQ names: ignored while BUSY, or with a COUNT out of range
(R288, R302; DESIGN CHOICE, notes/assumptions/14). -/
def State.poolGo (s : State) (f : Nat) : State :=
  let req := s.reg (bar0 f 0x9000)
  let n := s.reg (bar0 f 0x9008)
  if s.bit (bar0 f 0x9010) 0 || n == 0 || decide (2 ^ 21 < n) then s
  else
    let r : PoolReq := { func := f, far := bitOf req 0, op := bitsOf req 1 3, vpage := s.reg (bar0 f 0x9004), count := n }
    { s.setReg (bar0 f 0x9010) 1 with tiers := { s.tiers with reqs := s.tiers.reqs ++ [r] } }

/-- A pool command of function f: it starts the request in f's registers where that is of its kind. -/
def poolCommand (op f : Nat) (s : State) : Host.Outcome State Fault Refusal :=
  if 256 ≤ f then .fault .noSuchUnit
  else if s.vigil.frozen then .next (s.enqueueWrite f (bar0 f 0x900C) 1 15)
  else if s.halted || s.field (bar0 f 0x9000) 1 3 != op then .next s
  else .next (s.poolGo f)

/-- MAP (R288). -/
def execMap (f : Nat) (s : State) : Host.Outcome State Fault Refusal := poolCommand 0 f s
/-- MAP_PINNED (R288). -/
def execMapPinned (f : Nat) (s : State) : Host.Outcome State Fault Refusal := poolCommand 1 f s
/-- UNMAP (R288). -/
def execUnmap (f : Nat) (s : State) : Host.Outcome State Fault Refusal := poolCommand 2 f s
/-- PIN (R288). -/
def execPin (f : Nat) (s : State) : Host.Outcome State Fault Refusal := poolCommand 3 f s
/-- UNPIN (R288). -/
def execUnpin (f : Nat) (s : State) : Host.Outcome State Fault Refusal := poolCommand 4 f s

/-- An EVICTED page is refilled from its backing page; with no page to take it waits (R291, R292). -/
def State.refill (s : State) (f v : Nat) : State :=
  match s.page f false v with
  | some p =>
    if p.state == .evicted then
      match s.takeNear [] with
      | some x =>
        ((x.1.moveRange (farKey + p.back * pageBytes) (x.2 * pageBytes) pageBytes).setPage f false v
          (some { p with state := .resident, phys := x.2 })).count (tierReg 0x18) 1
      | none => s
    else s
  | none => s

/-! ### The die cache (R260, R264) -/

/-- CACHE_BASE of die d. -/
def State.cacheBase (s : State) (d : Nat) : Nat := s.field (tierReg (0x40 + 4 * d)) 0 9

/-- The cache key of a physical near or far line on die d, where the die has a cache (R264). -/
def State.cacheSet (s : State) (d k : Nat) : Option Nat :=
  let far := decide (farKey ≤ k)
  let p := if far then k - farKey else k
  let sets := 512 * (256 - s.cacheBase d)
  if sets == 0 then none else some (d * 2 ^ 40 + ((p / 2 ^ 8) ^^^ (p / 2 ^ 27) ^^^ (natOf far * 2 ^ 20)) % sets)

/-- A line is read through the cache of die d: a hit comes first in its set, a miss is installed unless it is marked, the
least recently used of 16 ways leaving (R264, R298). -/
def State.touch (s : State) (d k : Nat) (marked : Bool) : State :=
  match s.cacheSet d k with
  | none => s
  | some i =>
    let l := kget [] s.tiers.caches i
    let t := cacheTag k
    if l.contains t || !marked then
      { s with tiers := { s.tiers with caches := kset [] s.tiers.caches i ((t :: l.filter fun x => x != t).take 16) } }
    else s

/-- Does a partition hold an image placed onto die d (R260)? -/
def State.imageOn (s : State) (d : Nat) : Bool := (List.range 8).any fun p => (s.part p).hasDie d && !(s.part p).images.isEmpty

/-- CARVE of function f on die d as last written. -/
def State.carveReg (s : State) (f d : Nat) : Nat := s.reg (tierReg (0x2000 + 32 * f + 4 * d))

/-- A write of CACHE_BASE: not below a unit granted, as written or as still in effect (R260, R261, R526). -/
def State.writeCacheBase (s : State) (d value : Nat) : State :=
  let v := value % 512
  let top (f : Nat) : Nat :=
    let g := s.carveReg f d
    let now := s.grant f d
    max (if bitsOf g 8 9 == 0 then 0 else bitsOf g 0 8 + bitsOf g 8 9) (if now.2 == 0 then 0 else now.1 + now.2)
  if 256 < v then s
  else if s.imageOn d || !((List.range 256).all fun f => decide (top f ≤ v)) then s.tierErr 0
  else
    let s1 := s.setReg (tierReg (0x40 + 4 * d)) v
    { s1 with tiers := { s1.tiers with caches := s1.tiers.caches.filter fun x => x.1 / 2 ^ 40 != d } }

/-- CACHE_BASE_WRITE (R260). -/
def execCacheBaseWrite (d value : Nat) (s : State) : Host.Outcome State Fault Refusal :=
  if 8 ≤ d then .fault .noSuchUnit
  else if s.vigil.frozen then .next (s.enqueueWrite 0 (tierReg (0x40 + 4 * d)) value 15)
  else .next (s.writeCacheBase d value)

/-! ### Carve-outs (R261) -/

/-- Does function f hold a finalised image? -/
def State.holdsImage (s : State) (f : Nat) : Bool := (List.range 8).any fun p => (s.part p).images.any fun m => m.func == f

/-- Has function f an admitted command? -/
def State.hasAdmitted (s : State) (f : Nat) : Bool := s.cmds.any fun x => match x.2 with
  | some c => c.func == f && c.admitted.isSome
  | none => false

/-- A write of CARVE of function f on die d (R261, R526). -/
def State.writeCarve (s : State) (f d value : Nat) : State :=
  let v := value % 2 ^ 17
  let base := bitsOf v 0 8
  let size := bitsOf v 8 9
  let old := s.carveReg f d
  let meets (g : Nat) : Bool :=
    let o := s.carveReg g d
    decide (base < bitsOf o 0 8 + bitsOf o 8 9) && decide (bitsOf o 0 8 < base + size)
  if 256 < size then s
  else if (size != 0 && decide (s.cacheBase d < base + size)) || (size != 0 && (List.range 256).any fun g => g != f && meets g)
      || (v != old && bitsOf old 8 9 != 0 && (s.holdsImage f || s.hasAdmitted f)) then s.tierErr 1
  else s.setReg (tierReg (0x2000 + 32 * f + 4 * d)) v

/-- CARVE_WRITE (R261). -/
def execCarveWrite (f d value : Nat) (s : State) : Host.Outcome State Fault Refusal :=
  if 256 ≤ f || 8 ≤ d then .fault .noSuchUnit
  else if s.vigil.frozen then .next (s.enqueueWrite 0 (tierReg (0x2000 + 32 * f + 4 * d)) value 15)
  else .next (s.writeCarve f d value)

/-- At the tick the grant of f on die d takes effect; the units that f did not hold before are zero (R261). -/
def State.takeCarve (s : State) (f d : Nat) : State :=
  let old := s.grant f d
  let v := s.carveReg f d
  let fresh := (List.range (bitsOf v 8 9)).filterMap fun i =>
    let u := bitsOf v 0 8 + i
    if old.1 ≤ u && u < old.1 + old.2 then none else some u
  let s1 := fresh.foldl (fun s u => s.clearRange (storeKey + d * 0x20000000 + u * 0x200000) 0x200000) s
  { s1 with tiers := { s1.tiers with carve := kset 0 s1.tiers.carve (8 * f + d) v } }

/-- Every grant written since the last tick takes effect. -/
def State.takeCarves (s : State) : State :=
  let changed := (List.range 2048).filter fun i => s.carveReg (i / 8) (i % 8) != kget 0 s.tiers.carve i
  changed.foldl (fun s i => s.takeCarve (i / 8) (i % 8)) s

/-! ### Shares and quotas (R283, R289) -/

/-- FN_SHARES of function f for kind k: 0 near, 1 far, 2 flash and host. -/
def State.shares (s : State) (f k : Nat) : Nat := s.field (tierReg (0x100C + 16 * f)) (4 * k) 4

/-- A write of FN_SHARES (R283). -/
def State.writeShares (s : State) (f value : Nat) : State :=
  let v := value % 2 ^ 12
  let others (k : Nat) : Nat := (List.range 256).foldl (fun a g => if g == f then a else a + s.shares g k) 0
  if (List.range 3).any (fun k => decide (15 < others k + bitsOf v (4 * k) 4))
      || (v != s.field (tierReg (0x100C + 16 * f)) 0 12 && s.hasAdmitted f) then s.tierErr 4
  else s.setReg (tierReg (0x100C + 16 * f)) v

/-- SHARES_WRITE (R283). -/
def execSharesWrite (f value : Nat) (s : State) : Host.Outcome State Fault Refusal :=
  if 256 ≤ f then .fault .noSuchUnit
  else if s.vigil.frozen then .next (s.enqueueWrite 0 (tierReg (0x100C + 16 * f)) value 15)
  else .next (s.writeShares f value)

/-- A write of quota k of function f: 0 near, 1 pinned, 2 far (R289). -/
def State.writeQuota (s : State) (f k value : Nat) : State :=
  let v := value % 2 ^ (if k == 2 then 22 else 20)
  let used := if k == 0 then s.nearUse f else if k == 1 then s.pinUse f else s.farUse f
  let pins := (List.range 256).foldl (fun a g => if g == f then a else a + s.field (tierReg (0x1004 + 16 * g)) 0 20) v
  if decide (v < used) || (k == 1 && decide (s.nearPages < pins)) then s.tierErr 2
  else s.setReg (tierReg (0x1000 + 16 * f + 4 * k)) v

/-- QUOTA_WRITE (R289). -/
def execQuotaWrite (f kind value : Nat) (s : State) : Host.Outcome State Fault Refusal :=
  if 256 ≤ f || 3 ≤ kind then .fault .noSuchUnit
  else if s.vigil.frozen then .next (s.enqueueWrite 0 (tierReg (0x1000 + 16 * f + 4 * kind)) value 15)
  else .next (s.writeQuota f kind value)

/-! ### Flash windows and bays (R275, R276, R279) -/

/-- The windows a device range touches. -/
def windowsOf (lo hi : Nat) : List Nat :=
  (List.range 16).filter fun n =>
    decide (lo < 0x400000000000 + (n + 1) * 2 ^ 42) && decide (0x400000000000 + n * 2 ^ 42 ≤ hi)

/-- The blocks of a window's settings on its drive: first and one past the last, clipped where the bay has a usable namespace, whose
end is then known (R276; DESIGN CHOICE, notes/assumptions/72). -/
def State.windowBlocks (s : State) (ctrl lba : Nat) : Nat × Nat :=
  let d := bitsOf ctrl 1 2
  (lba, if s.bayUsable d then min (lba + 2 ^ 30) (kget 0 s.tiers.blocks d) else lba + 2 ^ 30)

/-- Window n's settings: armed, else in effect. -/
def State.windowNext (s : State) (n : Nat) : Option (Nat × Nat) :=
  match s.tiers.fwArmed.find? fun x => x.1 == n with
  | some x => some x.2
  | none => s.window n

/-- Do new settings of window n meet another owner's VALID window on the drive (R276)? -/
def State.windowMeets (s : State) (n ctrl lba : Nat) : Bool :=
  (List.range 16).any fun m => m != n && [s.window m, s.windowNext m].any fun y => match y with
    | some (c2, l2) =>
      let a := s.windowBlocks ctrl lba
      let b := s.windowBlocks c2 l2
      bitOf c2 0 && bitsOf c2 1 2 == bitsOf ctrl 1 2 && bitsOf c2 8 8 != bitsOf ctrl 8 8 && decide (a.1 < b.2) && decide (b.1 < a.2)
    | none => false

/-- The armed windows take effect at the tick (R276, R303). -/
def State.swapFlash (s : State) : State :=
  let on := s.tiers.fwArmed.foldl (fun m x => kset none m x.1 (some x.2)) s.tiers.fwOn
  { s with tiers := { s.tiers with fwOn := on, fwArmed := [] } }

/-- FLASH_BAY of bay b. -/
def bayReg (b : Nat) : Nat := tierReg (0x60 + 4 * b)

/-- USABLE of bay b, in its register and in TIER_STATUS. -/
def State.setUsable (s : State) (b : Nat) (on : Bool) : State :=
  (s.setField (bayReg b) 1 1 (natOf on)).setField (tierReg 0) (16 + b) 1 (natOf on)

/-- OFFLINE_REQ (R279). -/
def execOfflineReq (b : Nat) (s : State) : Host.Outcome State Fault Refusal :=
  if 4 ≤ b then .fault .noSuchUnit
  else if s.vigil.frozen then .next (s.enqueueWrite 0 (bayReg b) (putBits (s.reg (bayReg b)) 2 1 1) 15)
  else .next (s.setBit (bayReg b) 2)

/-- The bays that a device range touches, through function f's windows. -/
def State.baysOf (s : State) (lo hi : Nat) : List Nat :=
  (windowsOf lo hi).filterMap fun n => (s.window n).map fun x => bitsOf x.1 1 2

/-- A bay comes up with the result of its checks (R275): the REASON, or its namespace's blocks. -/
def State.bayUp (s : State) (b reason blocks : Nat) : State :=
  let s1 := (s.setField (bayReg b) 4 4 reason).setUsable b (reason % 16 == 0)
  { s1 with tiers := { s1.tiers with blocks := kset 0 s1.tiers.blocks b (if reason % 16 == 0 then blocks else 0) } }

/-- BAY_ONLINE (R279): OFFLINE_REQ is cleared; a bay that was OFFLINE, or that holds a drive not in use, comes up. -/
def execBayOnline (b reason blocks : Nat) (s : State) : Host.Outcome State Fault Refusal :=
  if 4 ≤ b then .fault .noSuchUnit
  else if s.halted then .next s
  else
    let s1 := (s.clearBit (bayReg b) 2).clearBit (bayReg b) 3
    if s.bit (bayReg b) 0 && !s.bayUsable b then .next (s1.bayUp b reason blocks) else .next s1

/-- DRIVE_PULL (R279): a drive leaves or enters its bay; pulled, the bay is not usable and its outstanding reads find no
block. -/
def execDrivePull (b : Nat) (present : Bool) (s : State) : Host.Outcome State Fault Refusal :=
  if 4 ≤ b then .fault .noSuchUnit
  else if present then .next (s.setBit (bayReg b) 0)
  else .next ((s.clearBit (bayReg b) 0).setUsable b false)

end Sys2Proof.Machine
end

