-- ==== Sys2Proof/Machine/Tiers.lean ====
section
/-! DEFINITION. Copies by the tier streamers: walks of level 0 and 1, linear copies, layer schedules; lines that arrive, fail
and are retried; asynchronous copies; the budgets of a frame (R231, R244, R245, R254, R277, R281, R285, R286, R293–R299, R354,
R452). -/

namespace Sys2Proof.Machine

/-! ### Uncorrectable lines of a stack (R426, R447) -/

/-- An uncorrectable line of near stack n: it counts over the last second, and past STACK_LIMIT the stack retires where parity covers
it (R269, R426, R447; notes/assumptions/73). -/
def State.stackError (s : State) (n : Nat) : State :=
  let recent := s.tiers.errs.filter fun x => decide (s.tick ≤ x.1 % 2 ^ 64 + s.ticksPerSecond)
  let errs := kmod 0 recent (n * 2 ^ 64 + s.tick % 2 ^ 64) (· + 1)
  let s1 := { s with tiers := { s.tiers with errs := errs } }
  let total := errs.foldl (fun a x => if x.1 / 2 ^ 64 == n then a + x.2 else a) 0
  if decide (s.field (storeReg (n / 2) 0x18) 0 16 < total) && s.stackCover then s1.retireStack n else s1

/-! ### Sources (R266, R270, R297) -/

/-- The CAUSE of a streamer's fault record for a source address (R480). -/
def failCause (poisoned : Bool) (a : Nat) : Nat :=
  if 0x800000000000 ≤ a then 4 else if 0x400000000000 ≤ a then 3 else if poisoned then 2 else 1

/-- Does a key lie in a die store, whose lines keep the mark beside good data (R298)? -/
def inStore (k : Nat) : Bool := decide (storeKey ≤ k) && decide (k < padKey)

/-- A source byte: its value and whether it is delivered marked; a failed line gives zero bytes (R297), a marked store line what it
holds (R298; DEDUCED, notes/assumptions/26). -/
def State.srcByte (s : State) (f : Nat) (v : Viewer) (ok fail : Bool) : ByteSrc → Byte × Bool
  | .value b => (b, false)
  | .addr a =>
    match (if ok then s.key f a.toNat else none) with
    | some k => if fail || s.lineBad v k && !inStore k then (0, true) else (s.seen v k, s.lineBad v k)
    | none => (0, true)

/-! ### Positions (R241, R244, R245, R281) -/

/-- The walk that a WALK copy runs, with its level: kept with the copy. -/
def CopyRun.blk (r : CopyRun) : Option (Nat × WalkBlk) :=
  match r.form with
  | .walk level block => some (level, parseWalk block)
  | .linear _ _ _ => none

/-- The reader that a copy's line acts for: its partition's frame, or no frame (R429). -/
def State.copyView (s : State) (r : CopyRun) : Viewer := if r.async then none else some (r.part, (s.part r.part).ord)

/-- The pointers of a run with the lines that item b needs read: its own and the next (R245). -/
def State.readPtrs (s : State) (r : CopyRun) (w : WalkBlk) (b : Nat) : CopyRun :=
  let start := w.ptrList / 256 * 256
  let lines := (w.ptrList % 256 + 8 * w.items + 255) / 256
  let want := 256 * min lines ((w.ptrList % 256 + 8 * b) / 256 + 2)
  if r.ptrs.length < want then
    { r with ptrs := r.ptrs ++ s.seenBytes (s.copyView r) (start + r.ptrs.length) (want - r.ptrs.length) }
  else r

/-- The run with item b's pointer at hand. -/
def State.enterItem (s : State) (r : CopyRun) (w : WalkBlk) : CopyRun :=
  if w.bmode != 2 then r
  else
    let r1 := s.readPtrs r w r.pos.item
    { r1 with pos := { r1.pos with ptr := some (leNat ((r1.ptrs.drop (w.ptrList % 256 + 8 * r1.pos.item)).take 8)) } }

/-- The base of the item at a position (R244). -/
def CopyPos.base (p : CopyPos) (w : WalkBlk) : Int :=
  match p.ptr with
  | some x => x
  | none => if w.bmode == 1 then w.base + p.item * (w.dim (w.ndim - 1)).stride else w.base

/-- Does the item's pointer keep R245? -/
def CopyPos.ok (p : CopyPos) (w : WalkBlk) (level : Nat) : Bool :=
  match p.ptr with
  | some x => w.pointerOk level x
  | none => true

/-- The cells of a 256 B unit at a position, by device address. -/
def CopyPos.unitCells (p : CopyPos) (w : WalkBlk) : List (Nat × ByteSrc) :=
  w.unitBytes 256 (w.bufOf p.item p.seq) (p.base w) (w.tile p.point) p.unit

/-- Move to the first unit at or after the position, tile by tile; with none left the run has asked for every line. -/
def State.settleCopy (s : State) (w : WalkBlk) : Nat → CopyRun → CopyRun
  | 0, r => { r with fin := true }
  | n + 1, r =>
    match w.unitFrom 256 (w.bufOf r.pos.item r.pos.seq) (r.pos.base w) (w.tile r.pos.point) r.pos.unit with
    | some u => { r with pos := { r.pos with unit := u } }
    | none =>
      match w.advance r.pos.item r.pos.point with
      | none => { r with fin := true }
      | some (b, j) =>
        let r1 := { r with pos := { r.pos with item := b, point := j, seq := r.pos.seq + 1, unit := 0 } }
        State.settleCopy s w n (if b == r.pos.item then r1 else s.enterItem r1 w)

/-- A bound of the tiles of a walk. -/
def WalkBlk.tilesBound (w : WalkBlk) : Nat := w.items * (w.span + 1) + 1

/-- The run at the line after its position. -/
def State.nextPos (s : State) (r : CopyRun) : CopyRun :=
  let r1 := { r with pos := { r.pos with unit := r.pos.unit + 1 } }
  match r.form with
  | .walk _ block => s.settleCopy (parseWalk block) (parseWalk block).tilesBound r1
  | .linear _ _ len => { r1 with fin := decide (len ≤ 256 * r1.pos.unit) }

/-- The run at its first line. -/
def State.firstPos (s : State) (r : CopyRun) : CopyRun :=
  match r.form with
  | .walk _ block =>
    let w := parseWalk block
    let r1 := { r with pos := { point := (w.nextPoint (w.span + 1) 0).getD 0 } }
    s.settleCopy w w.tilesBound (s.enterItem r1 w)
  | .linear _ _ len => { r with pos := {}, fin := len == 0 }

/-! ### One line (R281, R286, R295–R298) -/

/-- The cells of the line at a position: destination by device address and source. -/
def CopyRun.cellsAt (r : CopyRun) (p : CopyPos) : List (Nat × ByteSrc) :=
  match r.form with
  | .walk _ block => p.unitCells (parseWalk block)
  | .linear src dst _ => (List.range 256).map fun i => (dst + 256 * p.unit + i, .addr (src + 256 * p.unit + i : Nat))

/-- Does the item at a position have a good pointer? -/
def CopyRun.posOk (r : CopyRun) (p : CopyPos) : Bool :=
  match r.form with
  | .walk level block => p.ok (parseWalk block) level
  | .linear _ _ _ => true

/-- What a line delivers: its cells by key, its mark, whether zero bytes stand for what failed, and each failed or marked source
line: device address, unit, cause. -/
structure Line where
  cells : List (Nat × Byte)
  mark : Bool
  zeroed : Bool
  bad : List (Nat × Nat × Nat)
deriving DecidableEq, Repr

/-- Does a copy write to the tensor: a scattered walk (R240)? -/
def CopyRun.scatters (r : CopyRun) : Bool := r.blk.elim false (·.2.scatter)

/-- The line of a copy at a position; `fail`, the tier could not deliver it. A scattered line whose pointer breaks R245 has no
address to go to: it is counted as failed, and nothing is written. -/
def State.lineAt (s : State) (r : CopyRun) (p : CopyPos) (fail : Bool) : Line :=
  let v := s.copyView r
  let ok := r.posOk p
  let data := (r.cellsAt p).map fun c => (c.1, c.2, s.srcByte r.func v ok fail c.2)
  let bad := (data.filterMap fun c => match c.2.1 with
    | .addr a =>
      if c.2.2.2 then some (a.toNat / 256 * 256, s.serving ((s.key r.func a.toNat).getD a.toNat), failCause (!fail) a.toNat) else none
    | .value _ => none).eraseDups
  { cells := if ok || !r.scatters then data.filterMap fun c => (s.key r.func c.1).map fun k => (k, c.2.2.1) else []
    mark := !bad.isEmpty
    zeroed := fail || data.any fun c => c.2.2.2 && !(match c.2.1 with
      | .addr a => ok && ((s.key r.func a.toNat).map inStore).getD false
      | .value _ => false)
    bad := bad }

/-- The physical near and far lines that a line of a copy reads. -/
def State.sourceLines (s : State) (r : CopyRun) (p : CopyPos) : List Nat :=
  ((r.cellsAt p).filterMap fun c => match c.2 with
    | .addr a => (s.key r.func a.toNat).bind fun k => if k < storeKey then some (k / 256 * 256) else none
    | .value _ => none).eraseDups

/-- A copy by its number. -/
def State.copyRun (s : State) (id : Nat) : Option CopyRun := kget none s.tiers.copies id

/-- Replace a copy. -/
def State.setCopy (s : State) (id : Nat) (r : Option CopyRun) : State :=
  { s with tiers := { s.tiers with copies := kset none s.tiers.copies id r } }

/-- The streamer of the home die that evaluates a copy: its kind's first (R280, R281). -/
def CopyRun.streamer (r : CopyRun) : Nat :=
  match r.form with
  | .linear _ _ _ => 8
  | .walk level block => if (parseWalk block).tier == 4 then 8 else if level == 0 then 4 else 0

/-- A line delivered as zero bytes with the mark is counted (R297, R542). -/
def State.countUmber (s : State) (r : CopyRun) : State :=
  ((s.count (tierReg 0x20) 1).count (strmReg r.home (0x40 * r.streamer + 4)) 1).tally 2 (12 * r.home + r.streamer) 4 1

/-- The cells of a line written as held writes; none where a hold buffer has no room. -/
def State.holdLine (s : State) (r : CopyRun) (ord : Nat) (cells : List (Nat × Byte)) (mark : Bool) : Option State :=
  match cells with
  | [] => some s
  | (k, _) :: _ =>
    let base := markBase k
    if s.canHold r.home r.part ord base r.async then some (s.hold r.part ord r.home r.async mark base cells)
    else none

/-- The near and far lines that a walk reads pass its home die's cache; one delivered marked is not installed (R264, R298). -/
def State.cacheLines (s : State) (r : CopyRun) (p : CopyPos) (fail : Bool) : State :=
  if r.blk.isSome then (s.sourceLines r p).foldl (fun s k => s.touch r.home k (fail || s.lineBad (s.copyView r) k)) s else s

/-- Deliver the line at a position: in-frame it is held at once, asynchronous it waits for the next frame; none where it
must wait for a hold buffer (R281, R286, R431). -/
def State.deliver (s : State) (r : CopyRun) (p : CopyPos) (fail : Bool) : Option (State × CopyRun) :=
  let l := s.lineAt r p fail
  let ord := (s.part r.part).ord
  let r1 := { r with lastOrd := ord, waits := false, bad := r.bad ++ l.bad }
  let s1 := s.cacheLines r p fail
  let s2 := if l.zeroed then s1.countUmber r else s1
  if r.async then some (s2, { r1 with arrived := r1.arrived ++ [⟨ord, l.cells, l.mark, false⟩] })
  else (s2.holdLine r ord l.cells l.mark).map fun x => (x, r1)

/-- May the copies of partition p move lines now: a frame is open and no recovery or stop (R228, R284, R440)? -/
def State.copiesRun (s : State) (p : Nat) : Bool := (s.part p).frame.isSome && !s.partStill p && !s.halted

/-- May copy r move lines now: asynchronous, but not once the module powers down; in-frame, from cycle 16 of a frame (R284, R286,
R453)? -/
def State.copyMoves (s : State) (r : CopyRun) : Bool :=
  s.copiesRun r.part && (if r.async then !s.cp.powerDown else decide (16 ≤ s.subtick))

/-! ### Failed sub-ranges (R297, R299, R452) -/

/-- Put a failed line in its place by address. -/
def badInsert (x : Nat × Nat × Nat) : List (Nat × Nat × Nat) → List (Nat × Nat × Nat)
  | [] => [x]
  | y :: ys => if x.1 ≤ y.1 then x :: y :: ys else y :: badInsert x ys

/-- Maximal runs of adjacent lines of one unit: first address, cause, lines. -/
def subRanges : List (Nat × Nat × Nat) → List (Nat × Nat × Nat)
  | [] => []
  | (a, u, c) :: xs =>
    let rest := subRanges xs
    match xs.head?, rest with
    | some (b, v, _), (_, _, n) :: t =>
      if u != v then (a, c, 1) :: rest
      else if b == a then (a, c, n) :: t
      else if b == a + 256 then (a, c, n + 1) :: t
      else (a, c, 1) :: rest
    | _, _ => (a, c, 1) :: rest

/-- The sub-ranges of a copy. -/
def CopyRun.failed (r : CopyRun) : List (Nat × Nat × Nat) := subRanges (r.bad.foldl (fun l x => badInsert x l) [])

/-- A copy that has asked for its last line and delivered every one: each failed sub-range has a fault record, and the
command carries their number and the first address (R297, R299, R364). -/
def State.noteFailed (s : State) (r : CopyRun) : State :=
  let l := r.failed
  let s1 := l.foldl (fun s x => s.trace 4 r.func (3 + 2 ^ 8 * x.2.1 + 2 ^ 16 * min x.2.2 65535) x.1) s
  match l with
  | [] => s1
  | x :: _ => s1.modCmd r.cmd fun c => { c with
      umber := some (min (c.umber.getD x.1) x.1)
      nfail := c.nfail + l.length }

/-- Has the copy nothing left to do before its commit? -/
def CopyRun.over (r : CopyRun) : Bool := r.fin && r.retry.isEmpty && r.arrived.isEmpty

/-- Keep a copy's new state; where it is over its failures are noted. -/
def State.putCopy (s : State) (id : Nat) (r : CopyRun) : State :=
  let s1 := s.setCopy id (some r)
  if r.over then s1.noteFailed r else s1

/-! ### The rows (R277, R281, R286, R452) -/

/-- A command on a copy that can move lines now. -/
def onCopy (id : Nat) (f : CopyRun → State → State) (s : State) : Host.Outcome State Fault Refusal :=
  match s.copyRun id with
  | none => .next s
  | some r => if s.copyMoves r then .next (f r s) else .next s

/-- Is the copy's source flash? -/
def CopyRun.flash (r : CopyRun) : Bool := r.blk.elim false fun x => x.2.tier == 4

/-- A read of a line at a position was corrected: counted, unless every near or far line it reads carries the mark (R267, R270). -/
def State.countCorrected (s : State) (r : CopyRun) (p : CopyPos) : State :=
  if (s.sourceLines r p).any fun k => !s.lineBad (s.copyView r) k then s.count (tierReg 0x1C) 1 else s

/-- A read of a line at a position was uncorrectable: it counts against the near stacks that serve it (R447). -/
def State.countFailed (s : State) (r : CopyRun) (p : CopyPos) : State :=
  (s.sourceLines r p).foldl (fun s k => if decide (k < farKey) && !s.lineBad (s.copyView r) k then s.stackError (s.serving k) else s) s

/-- The next line of a copy arrives, or fails and is to be retried (R281, R452). -/
def copyLine (id : Nat) (ok corr : Bool) (r : CopyRun) (s : State) : State :=
  if r.fin || r.flash then s
  else if !ok then
    let r1 := { s.nextPos r with retry := r.retry ++ [(r.pos, s.tick)] }
    (s.countFailed r r.pos).putCopy id { r1 with lastOrd := (s.part r.part).ord }
  else
    match s.deliver r r.pos false with
    | none => s.setCopy id (some { r with waits := true })
    | some (s1, r1) => (if corr then s1.countCorrected r r.pos else s1).putCopy id (s.nextPos r1)

/-- TIER_LINE_ARRIVAL (R281). -/
def execTierLineArrival (id : Nat) (ok corr : Bool) (s : State) : Host.Outcome State Fault Refusal :=
  onCopy id (copyLine id ok corr) s

/-- The oldest failed line of an earlier frame is retried; failing again it is delivered marked (R452). -/
def copyRetry (id : Nat) (line : LineRead) (r : CopyRun) (s : State) : State :=
  match r.retry with
  | [] => s
  | (p, t) :: rest =>
    if s.tick ≤ t then s
    else
      match s.deliver { r with retry := rest } p (line == .failed) with
      | none => s
      | some (s1, r1) =>
        let s2 := match line with
          | .failed => s1.countFailed r p
          | .good => s1
          | .corrected => s1.countCorrected r p
        (s2.count (strmReg r.home (0x40 * r.streamer + 8)) 1).putCopy id r1

/-- LINE_RETRY (R452). -/
def execLineRetry (id : Nat) (line : LineRead) (s : State) : Host.Outcome State Fault Refusal := onCopy id (copyRetry id line) s

/-- The drive blocks that a line of a copy reads: keys in blocks, no two drives' adjacent. -/
def State.blocksAt (s : State) (r : CopyRun) (p : CopyPos) : List Nat :=
  (r.cellsAt p).filterMap fun c => match c.2 with
    | .addr a => (s.key r.func a.toNat).map fun k => k / 4096
    | .value _ => none

/-- The span of blocks that a Read of blocks lo to hi has when it serves more blocks too: still consecutive, at most 32; none
where it cannot (R277). -/
def joinBlocks (lo hi : Nat) : List Nat → Option (Nat × Nat)
  | [] => some (lo, hi)
  | b :: bs =>
    let l := min lo b
    let h := max hi b
    if decide (lo ≤ b + 1) && decide (b ≤ hi + 1) && decide (h < l + 32) then joinBlocks l h bs else none

/-- The blocks of the Read that a line starts; none where it reads no block. -/
def startBlocks : List Nat → Option (Nat × Nat)
  | [] => none
  | b :: bs => joinBlocks b b bs

/-- The further lines of the current tile that a Read of blocks lo to hi serves: those that follow in the tile's order as long as
their blocks join on, each handed to f (R277; notes/assumptions/72). -/
def State.readLines (s : State) (seq : Nat) (f : CopyRun → State → State × CopyRun) : Nat → Nat × Nat → CopyRun → State × CopyRun
  | 0, _, r => (s, r)
  | n + 1, span, r =>
    if r.fin || r.pos.seq != seq then (s, r)
    else
      match (if (s.blocksAt r r.pos).isEmpty then none else joinBlocks span.1 span.2 (s.blocksAt r r.pos)) with
      | none => (s, r)
      | some span1 =>
        let y := f r s
        State.readLines y.1 seq f n span1 (y.1.nextPos y.2)

/-- One Read of a flash copy ends: each of its lines is handed to f. -/
def State.readDone (s : State) (id : Nat) (f : CopyRun → State → State × CopyRun) (r : CopyRun) : State :=
  if r.fin || !r.flash then s
  else
    let y := f r s
    let r1 := y.1.nextPos y.2
    let n := ((r.blk.map fun x => x.2.unitCount 256 (x.2.bufOf r.pos.item r.pos.seq)).getD 0)
    let z := match startBlocks (s.blocksAt r r.pos) with
      | some span => y.1.readLines r.pos.seq f n span r1
      | none => (y.1, r1)
    z.1.putCopy id z.2

/-- A line of a Read is delivered, as it is or failed. -/
def readLine (fail : Bool) (r : CopyRun) (s : State) : State × CopyRun := (s.deliver r r.pos fail).getD (s, r)

/-- A line of a failed Read is to be retried (R452). -/
def readAgain (r : CopyRun) (s : State) : State × CopyRun := (s, { r with retry := r.retry ++ [(r.pos, s.tick)] })

/-- The oldest arrived line of an earlier frame is written to its destination, a held write of this frame; where it meets a full hold
buffer its wait is counted once (R286, R431). -/
def copyWrite (id : Nat) (r : CopyRun) (s : State) : State :=
  match r.arrived with
  | [] => s
  | a :: rest =>
    let ord := (s.part r.part).ord
    if ord ≤ a.ord then s
    else
      match s.holdLine r ord a.cells a.mark with
      | some s1 => s1.putCopy id { r with arrived := rest, lastOrd := ord }
      | none =>
        if a.waited then s
        else (s.setCopy id (some { r with arrived := { a with waited := true } :: rest })).countWait r.home
          ((a.cells.head?.map (·.1)).getD 0)

/-! ### Completion (R48, R286, R295, R299) -/

/-- Have the requests that in-frame copies of partition p issued reached their hold buffers: no line failed and still to be retried,
none that waits for room? Requests not yet issued go on in the next frame (R48, R284, R431, R452). -/
def State.copiesDone (s : State) (p : Nat) : Bool := s.tiers.copies.all fun x => match x.2 with
  | some r => r.part != p || r.async || (r.retry.isEmpty && !r.waits)
  | none => true

/-- At the commit of frame ord of partition p the copies that are over by then complete; a layer copy signals its event
(R286, R295, R299, R354). -/
def State.copiesCommit (s : State) (p ord : Nat) : State :=
  s.tiers.copies.foldl (fun s x => match x.2 with
    | some r =>
      if r.part == p && r.over && decide (r.lastOrd ≤ ord) then
        let s1 := s.setCopy x.1 none
        if r.layer then (match r.event with
          | some e => s1.signal e
          | none => s1)
        else s1.completeOwn r.cmd
      else s
    | none => s) s

/-! ### Checks of a walk (R245, R246, R254, R258, R259, R276, R281) -/

/-- The level of a copy's walk by its tensor tier; none where no copy moves it. -/
def WalkBlk.level (w : WalkBlk) : Option Nat := if w.tier == 1 || w.tier == 4 then some 0 else if w.tier == 0 then some 1 else none

/-- Is every byte of a flash range in windows that function f may use (R276)? -/
def State.flashRangeOk (s : State) (f lo hi : Nat) : Bool :=
  (windowsOf lo hi).all fun n =>
    let a := 0x400000000000 + n * 2 ^ 42
    (s.flashAt f (max lo a)).isSome && (s.flashAt f (min hi (a + 2 ^ 42 - 1))).isSome

/-- Are all element addresses of the walk usable by function f? -/
def State.tensorOk (s : State) (f : Nat) (w : WalkBlk) : Bool :=
  let lo := (w.tensorSpan w.base).1.toNat
  let hi := (w.tensorSpan w.base).2.toNat
  if w.tier == 4 then s.flashRangeOk f lo hi else w.bmode == 2 || s.mappedRange f lo (hi + 1 - lo)

/-- The home die of a walk: at level 1 the die whose store holds its ring buffers (R281). -/
def WalkBlk.homeDie (w : WalkBlk) (level named : Nat) : Nat := if level == 1 then (w.bufBase - storeKey) / 0x20000000 else named

/-- Every check of a walk of function f, its partition x and the named home die (R254). -/
def State.walkOk (s : State) (f : Nat) (x : Part) (w : WalkBlk) (level named : Nat) : Bool :=
  w.ok level && (level == 1 || x.hasDie named) && s.tensorOk f w
    && (if level == 1 then s.ownsStore f w.bufBase (w.ringEnd + 1 - w.bufBase)
        else s.mappedRange f w.bufBase (w.ringEnd + 1 - w.bufBase))
    && (w.bmode != 2 || (s.ownsStore f w.ptrList (8 * w.items)
      && (level != 1 || (w.ptrList - storeKey) / 0x20000000 == w.homeDie level named)))

/-- The pointers of a walk's list that keep R245, as the list stands. -/
def State.walkPtrs (s : State) (f : Nat) (w : WalkBlk) : List Nat :=
  let b := s.tenantBytes f w.ptrList (8 * w.items)
  ((List.range w.items).map fun i => leNat ((b.drop (8 * i)).take 8)).filter (w.pointerOk (w.level.getD 0))

/-- The address spans of a walk's tensor, lowest to highest: one, or one for each pointer (R244, R290). -/
def State.walkSpans (s : State) (f : Nat) (w : WalkBlk) : List (Nat × Nat) :=
  let span (b : Int) : Nat × Nat := ((w.tensorSpan b).1.toNat, (w.tensorSpan b).2.toNat)
  if w.bmode == 2 then (s.walkPtrs f w).map fun x => span x else [span w.base]

/-- The device ranges that a walk names: its tensor's spans, its ring buffers, its pointer list (R290). -/
def State.walkRanges (s : State) (f : Nat) (w : WalkBlk) : List (Nat × Nat) :=
  (s.walkSpans f w).map (fun x => (x.1, x.2 + 1 - x.1))
    ++ [(w.bufBase, w.ringEnd + 1 - w.bufBase)] ++ (if w.bmode == 2 then [(w.ptrList, 8 * w.items)] else [])

/-- The flash spans that a walk reads, lowest and highest address (R276, R277). -/
def State.walkFlash (s : State) (f : Nat) (w : WalkBlk) : List (Nat × Nat) := if w.tier == 4 then s.walkSpans f w else []

/-- Can function f read n bytes at device address a: mapped near or far pages, or its own store lines? -/
def State.readable (s : State) (f a n : Nat) : Bool := s.mappedRange f a n || s.ownsSpan f a n

/-! ### COPY (R354) -/

/-- SRC, DST and LEN of a COPY. -/
def Cmd.copySrc (c : Cmd) : Nat := c.pay 8 8
/-- DST. -/
def Cmd.copyDst (c : Cmd) : Nat := c.pay 0x10 8
/-- LEN. -/
def Cmd.copyLen (c : Cmd) : Nat := c.pay 0x18 8
/-- HOME. -/
def Cmd.copyHome (c : Cmd) : Nat := c.pay 1 1 % 8

/-- Does a device address lie in host memory? -/
def isHost (a : Nat) : Bool := decide (0x800000000000 ≤ a) && decide (a ≤ 0xFFFFFFFFFFFF)

/-- The rules of a LINEAR copy (R354). -/
def State.linearOk (s : State) (c : Cmd) : Bool :=
  let n := c.copyLen
  let host := if isHost c.copySrc then c.copySrc else c.copyDst
  let dev := if isHost c.copySrc then c.copyDst else c.copySrc
  n % 256 == 0 && decide (256 ≤ n) && decide (n ≤ 2 ^ 40) && c.copySrc % 256 == 0 && c.copyDst % 256 == 0
    && isHost c.copySrc != isHost c.copyDst && isHost (host + n - 1) && s.readable c.func dev n

/-- The walk of a WALK copy, its block read as it stands. -/
def State.copyWalk (s : State) (c : Cmd) : WalkBlk := parseWalk (s.tenantBytes c.func c.copySrc 128)

/-- Is a COPY of partition x refused (R354)? -/
def State.copyBad (s : State) (c : Cmd) (x : Part) : Option Nat :=
  let ok :=
    if c.pay 0 1 == 1 then x.hasDie c.copyHome && s.linearOk c
    else
      c.copySrc % 128 == 0 && s.readable c.func c.copySrc 128 && x.hasDie c.copyHome
        && match (s.copyWalk c).level with
          | some l => s.walkOk c.func x (s.copyWalk c) l c.copyHome
          | none => false
  if ok then none else some 0x19

/-- The ranges that a COPY names. -/
def State.copyRanges (s : State) (c : Cmd) : List (Nat × Nat) :=
  if c.pay 0 1 == 1 then [(c.copySrc, c.copyLen), (c.copyDst, c.copyLen)]
  else (c.copySrc, 128) :: s.walkRanges c.func (s.copyWalk c)

/-- The copy that an admitted COPY starts; `ord` the ordinal of the frame it starts in. -/
def State.startCopy (s : State) (id p ord : Nat) (c : Cmd) : State :=
  let w := s.copyWalk c
  let level := w.level.getD 0
  let r : CopyRun :=
    if c.pay 0 1 == 1 then
      { func := c.func, part := p, cmd := id, home := c.copyHome, form := .linear c.copySrc c.copyDst c.copyLen
        async := true, lastOrd := ord }
    else
      { func := c.func, part := p, cmd := id, home := w.homeDie level c.copyHome
        form := .walk level (s.tenantBytes c.func c.copySrc 128), async := w.tier == 4, lastOrd := ord }
  s.putCopy id (s.firstPos r)

/-! ### Layer schedules (R285, R293–R295) -/

/-- An entry of a layer schedule table (R293). -/
structure LayerEntry where
  frame : Nat
  level : Nat
  home : Nat
  slot : Option Nat
  walk : Nat
  lines : Nat
  reserved : Bool
deriving DecidableEq, Repr

/-- LST of a RUN_SPAN. -/
def Cmd.lst (c : Cmd) : Nat := if c.opcode == 0x01 then c.pay 0x18 8 else 0

/-- N_ENTRIES of the table of a command. -/
def State.layerCount (s : State) (c : Cmd) : Nat := if c.lst == 0 then 0 else leNat (s.tenantBytes c.func c.lst 4)

/-- The entries of the table of a command. -/
def State.layerEntries (s : State) (c : Cmd) : List LayerEntry :=
  let b := s.tenantBytes c.func c.lst (16 + 32 * s.layerCount c)
  (List.range (s.layerCount c)).map fun i =>
    let n (off k : Nat) : Nat := leNat ((b.drop (16 + 32 * i + off)).take k)
    let lh := n 6 1
    let ev := n 7 1
    { frame := n 0 4, level := lh % 2, home := bitsOf lh 1 3, slot := if bitOf ev 7 then some (ev % 16) else none
      walk := n 8 8, lines := n 0x10 4, reserved := lh / 16 != 0 || bitsOf ev 4 3 != 0 || n 0x14 12 != 0 }

/-- The physical die of a virtual die index of partition x's image (R198, R293). -/
def Part.physDie (x : Part) (v : Nat) : Nat := (x.orgRow + v / x.cols) * 4 + x.orgCol + v % x.cols

/-- The walk of an entry. -/
def State.layerWalk (s : State) (f : Nat) (e : LayerEntry) : WalkBlk := parseWalk (s.tenantBytes f e.walk 128)

/-- The lines that a walk of function f moves: the 256 B units of all its tiles (R294; DEDUCED, notes/assumptions/15). -/
def State.walkLines (s : State) (f : Nat) (w : WalkBlk) : Nat :=
  (List.range w.items).foldl (fun a b =>
    let ptr := if w.bmode == 2 then some (leNat (s.tenantBytes f (w.ptrList + 8 * b) 8)) else none
    let p0 : CopyPos := { item := b, ptr := ptr }
    (List.range w.span).foldl (fun a j =>
      if (w.tileAt j).isSome then
        a + ((List.range (w.unitCount 256 (w.bufOf b 0))).filter fun u => !({ p0 with point := j, unit := u }.unitCells w).isEmpty).length
      else a) a) 0

/-- The nominal rate of the far tier in bytes a second: 16 channels of 8 B (R272). -/
def State.farRate (s : State) : Nat :=
  128 * 1000000 * (match s.field (tierReg 0) 10 2 with
    | 0 => 6400 | 1 => 7200 | 2 => 8000 | _ => 8800)

/-- The budget of function f in one frame, in lines, of tier k: 0 near, 1 far (R285). -/
def State.budget (s : State) (f k : Nat) : Nat :=
  let rate := if k == 0 then 32800000000000 else s.farRate
  s.shares f k * rate * 15 * (latestEndOf s.rate - 16) / (16 * 16 * 1500000000 * 256)

/-- Lines of the entries of frame n that draw on tier k: a level-0 walk draws on far and near, a level-1 walk on near
(R285). -/
def drawn (l : List LayerEntry) (n k : Nat) : Nat :=
  (l.filter fun e => e.frame == n && (k == 0 || e.level == 0)).foldl (fun a e => a + e.lines) 0

/-- Are the entries in ascending FRAME? -/
def ascending : List LayerEntry → Bool
  | [] => true
  | e :: es => (match es with
    | [] => true
    | g :: _ => decide (e.frame ≤ g.frame)) && ascending es

/-- Does the table itself lie where it may (R293)? -/
def State.tableReadable (s : State) (c : Cmd) : Bool :=
  c.lst % 8 == 0 && s.readable c.func c.lst 16 && decide (1 ≤ s.layerCount c) && decide (s.layerCount c ≤ 65536)
    && s.readable c.func c.lst (16 + 32 * s.layerCount c)
    && (decide (c.lst < farKey) || decide (storeKey ≤ c.lst))

/-- Why a RUN_SPAN's layer schedule is refused, if it is (R294). -/
def State.layerBad (s : State) (c : Cmd) (x : Part) : Option Nat :=
  if c.lst == 0 then none
  else if !s.tableReadable c then some rReport
  else
    let l := s.layerEntries c
    let win := leNat (s.tenantBytes c.func (c.lst + 4) 2)
    let walk (e : LayerEntry) : WalkBlk := s.layerWalk c.func e
    firstFail [
      (ascending l && decide (1 ≤ win) && decide (win ≤ 256) && leNat (s.tenantBytes c.func (c.lst + 8) 8) == 0
        && l.all (fun e => !e.reserved && decide (e.walk < 0x400000000000)), rReport),
      (l.all fun e => e.walk % 128 == 0 && s.readable c.func e.walk 128, 0x19),
      (l.all fun e => (walk e).tier != 4, rReport),
      (l.all (fun e => decide (e.home < x.rows * x.cols) && (walk e).level == some e.level
        && s.walkOk c.func x (walk e) e.level (x.physDie e.home)), 0x19),
      (l.all (fun e => decide (s.walkLines c.func (walk e) ≤ e.lines)), rReport),
      (l.all (fun e => [0, 1].all fun k => decide (drawn l e.frame k ≤ s.budget c.func k)), rReport)]

/-- The ranges that a layer schedule names (R290). -/
def State.layerRanges (s : State) (c : Cmd) : List (Nat × Nat) :=
  if c.lst == 0 || !s.tableReadable c then []
  else (c.lst, 16 + 32 * s.layerCount c) :: (s.layerEntries c).flatMap fun e => (e.walk, 128) :: s.walkRanges c.func (s.layerWalk c.func e)

/-- The number of the copy that entry i of command id's table runs as. -/
def layerCopyId (id i : Nat) : Nat := id + 2 ^ 40 * (i + 1)

/-- Frame k of command id starts its layer copies (R295). -/
def State.startLayers (s : State) (p id k : Nat) : State :=
  match s.cmd id with
  | none => s
  | some c =>
    if c.lst == 0 then s
    else
      let x := s.part p
      let l := s.layerEntries c
      (List.range l.length).foldl (fun s i => match l[i]? with
        | some e =>
          if e.frame != k then s
          else
            let w := s.layerWalk c.func e
            let ev := e.slot.bind fun t => if bitOf (c.pay 0x40 2) t then some (c.pay (0x20 + 2 * t) 2) else none
            let r : CopyRun := {
              func := c.func, part := p, cmd := id, home := w.homeDie e.level (x.physDie e.home)
              form := .walk e.level (s.tenantBytes c.func e.walk 128), async := false, layer := true, event := ev
              lastOrd := x.ord }
            s.putCopy (layerCopyId id i) (s.firstPos r)
        | none => s) s

end Sys2Proof.Machine
end

