-- ==== Sys2Proof/Machine/Scan.lean ====
section
/-! DEFINITION. Carried state: scan images, the mirror engines and the slots they fill, what a seal captures, putting a
partition back to it; cores and pads by their place in the partition, for a stop and for a checkpoint (R107, R227, R433–R438). -/

namespace Sys2Proof.Machine

/-! ### Scan images (R107) -/

/-- The bytes of FIFO entries, n of them, at an offset of core k's image; an empty entry's are open. -/
def fifoBytes (k : Core) (at_ n : Nat) (l : List QEntry) : List Byte :=
  (List.range n).flatMap fun i => match l[i]? with
    | some e => leBytes 32 e.data.toNat
    | none => (List.range 32).map fun j => Config.scanByte k (at_ + 32 * i + j)

/-- The 272 B of thread t: g, a and v registers, 8 B of PC, state and predicates in an open form, TSTAT, 4 reserved bytes. -/
def threadBytes (k : Core) (t : Nat) : List Byte :=
  let th := k.thread t
  (List.range 32).flatMap (fun i => leBytes 4 (kget 0 th.g i).toNat) ++ (List.range 8).flatMap (fun i => leBytes 8 (kget 0 th.a i).toNat)
    ++ leBytes 32 th.v0.toNat ++ leBytes 32 th.v1.toNat ++ (List.range 8).map (fun j => Config.scanByte k (272 * t + 256 + j))
    ++ leBytes 4 th.tstat.toNat ++ (List.range 4).map fun j => Config.scanByte k (272 * t + 268 + j)

/-- The 6,144 B scan image of a core; what R107's table lists without a form is an open function of the core (notes/assumptions/16). -/
def Core.scanBytes (k : Core) : List Byte :=
  (List.range 16).flatMap (threadBytes k)
    ++ (List.range 4).flatMap (fun q => fifoBytes k (0x1100 + 256 * q) 8 (kget [] k.qin q))
    ++ (List.range 4).flatMap (fun q => fifoBytes k (0x1500 + 64 * q) 2 (kget [] k.qout q))
    ++ (List.range 384).map (fun j => Config.scanByte k (0x1600 + j))
    ++ (List.range 8).flatMap (fun i => leBytes 4 (kget 0 k.ctrs i).toNat)
    ++ (List.range 96).map (fun j => Config.scanByte k (0x17A0 + j))

/-- The core that a scan image not written here holds: registers, TSTAT, FIFO entries and counters by R107's places, what has no form
there free. -/
def parseScan (b : List Byte) : Core :=
  let k := Config.scanCore b
  let num (o n : Nat) : Nat := leNat ((b.drop o).take n)
  let fifo (at_ n : Nat) (l : List QEntry) : List QEntry :=
    (l.take n).mapIdx fun i e => { e with data := BitVec.ofNat 256 (num (at_ + 32 * i) 32) }
  { k with
    threads := (List.range 16).foldl (fun m t => kset {} m t { (k.thread t) with
      g := (List.range 32).foldl (fun g i => kset 0 g i (BitVec.ofNat 32 (num (272 * t + 4 * i) 4))) []
      a := (List.range 8).foldl (fun a i => kset 0 a i (BitVec.ofNat 64 (num (272 * t + 128 + 8 * i) 8))) []
      v0 := BitVec.ofNat 256 (num (272 * t + 192) 32)
      v1 := BitVec.ofNat 256 (num (272 * t + 224) 32)
      tstat := BitVec.ofNat 32 (num (272 * t + 264) 4) }) []
    qin := (List.range 4).foldl (fun m q => kset [] m q (fifo (0x1100 + 256 * q) 8 (kget [] k.qin q))) []
    qout := (List.range 4).foldl (fun m q => kset [] m q (fifo (0x1500 + 64 * q) 2 (kget [] k.qout q))) []
    ctrs := (List.range 8).foldl (fun m i => kset 0 m i (BitVec.ofNat 32 (num (0x1780 + 4 * i) 4))) [] }

/-! ### Mirror slots (R435–R437) -/

/-- Where slot s of a partition's mirror area on die d starts, for an image (R437). -/
def State.slotBase (s : State) (m : ImgHeld) (d slot : Nat) : Nat :=
  ((s.areaOf m.func d (m.mirrorArea.getD d 0)).map (·.1)).getD 0 + 512 + slot * s.mirrorSum m d

/-- Where the header of slot s on die d starts. -/
def State.slotHeader (s : State) (m : ImgHeld) (d slot : Nat) : Nat :=
  ((s.areaOf m.func d (m.mirrorArea.getD d 0)).map (·.1)).getD 0 + 256 * slot

/-- Where core c's carried state starts in its die's slot: after the cores before it (R437). -/
def State.slotCore (s : State) (m : ImgHeld) (slot c : Nat) : Nat :=
  ((s.coresOfDie (dieOf c)).filter fun x => decide (x < c)).foldl (fun a x => a + m.coreSize x) (s.slotBase m (dieOf c) slot)

/-- The carried bytes of core c: its snapshot, its MIRROR ranges as they stand, zeros to its mirror size (R433, R435). -/
def State.carriedBytes (s : State) (m : ImgHeld) (snap : Snap) (c : Nat) : List Byte :=
  let k := kget {} snap.cores c
  let b := k.scanBytes ++ (m.mirrorRanges c k).flatMap fun r => Mem.readBytes s.mem r.1 r.2
  b ++ List.replicate (m.coreSize c - b.length) 0#8

/-- Unit n of core c's carried state is written into the slot (R436). -/
def State.mirrorUnit (s : State) (m : ImgHeld) (snap : Snap) (c n : Nat) : State :=
  s.writeMarked (s.slotCore m (snap.ord % 2) c + 32 * n) (((s.carriedBytes m snap c).drop (32 * n)).take 32) false

/-- The mirror engine of core c takes a turn: the next 32 B of its carried state (R436). -/
def State.mirrorTurn (s : State) (c : Nat) : State :=
  match s.partOf c with
  | none => s
  | some p =>
    match (s.part p).mirroring, (s.part p).image with
    | some fr, some m =>
      let n := (s.core c).mirrored
      if m.coreSize c ≤ 32 * n then s
      else (s.mirrorUnit m ((s.part p).snap fr.ord) c n).modCore c fun k => { k with mirrored := n + 1 }
    | _, _ => s

/-- MIRROR_TURN (R436). -/
def execMirrorTurn (c : Nat) (s : State) : Host.Outcome State Fault Refusal :=
  if !s.isCore c then .fault .noSuchUnit
  else if !s.engineRuns c then .next s
  else .next (s.mirrorTurn c)

/-- What core c has not yet mirrored is written, and its engine is done. -/
def State.mirrorRest (s : State) (m : ImgHeld) (snap : Snap) (c : Nat) : State :=
  let n := (s.core c).mirrored
  let s1 := s.writeMarked (s.slotCore m (snap.ord % 2) c + 32 * n) ((s.carriedBytes m snap c).drop (32 * n)) false
  s1.modCore c fun k => { k with mirrored := m.coreSize c / 32 }

/-- The bytes of the slot of a die: those of its cores in ascending id. -/
def State.slotBytes (s : State) (m : ImgHeld) (d slot : Nat) : List Byte :=
  Mem.readBytes s.mem (s.slotBase m d slot) (s.mirrorSum m d)

/-- The header of a complete slot (R437). -/
def State.writeHeader (s : State) (m : ImgHeld) (fr : Frame) (d : Nat) : State :=
  let slot := fr.ord % 2
  let b := leBytes 8 fr.ord ++ leBytes 8 fr.sealTick ++ leBytes 4 (s.mirrorSum m d) ++ leBytes 4 (crc32c (s.slotBytes m d slot))
    ++ leBytes 4 0x5345414C ++ List.replicate 228 0#8
  s.writeMarked (s.slotHeader m d slot) b false

/-- The mirror of partition p's sealed frame completes: every engine done, every die's header written, the partition record
journaled (R437). -/
def State.mirrorComplete (s : State) (p : Nat) : State :=
  let x := s.part p
  match x.mirroring with
  | none => s
  | some fr =>
    let snap := x.snap fr.ord
    let s1 := match x.image with
      | none => s
      | some m => x.dies.foldl (fun s d => s.writeHeader m fr d)
          ((s.coresOf x).foldl (fun s c => s.mirrorRest m snap c) s)
    let ranges := match x.image with
      | none => []
      | some m => (s.coresOf x).flatMap fun c => m.mirrorRanges c (kget {} snap.cores c)
    let snap1 := { snap with
      valid := true
      ranges := ranges.foldl (fun t r => kset [] t r.1 (Mem.readBytes s.mem r.1 r.2)) []
      marks := (ranges.flatMap fun r => (List.range (r.2 / 32)).map fun i => r.1 + 32 * i).filter fun k => kget false s.marks k }
    s1.modPart p fun x => { x.setSnap fr.ord snap1 with sealed := some { fr with mirrored := true } }

/-- MIRROR_COMPLETE (R437). -/
def execMirrorComplete (p : Nat) (s : State) : Host.Outcome State Fault Refusal :=
  if 8 ≤ p then .fault .noSuchUnit
  else if s.halted || s.partStill p && !(s.part p).stopped then .next s
  else .next (s.mirrorComplete p)

/-! ### What a seal captures (R433) -/

/-- The functions whose commands run in partition p's frames. -/
def State.inPart (s : State) (p f : Nat) : Bool := s.funcPart f == some p

/-- The inbound stream records of partition p's windows (R328). -/
def State.partIsrs (s : State) (p : Nat) : KMap Isr :=
  s.links.isrs.filterMap fun x => x.2.bind fun r =>
    (s.win r.win).bind fun w => if s.inPart p w.func then some (x.1, r) else none

/-- The snapshot and partition record of partition p at the seal of a frame (R433). -/
def State.sealSnap (s : State) (p : Nat) (fr : Frame) : Snap :=
  let x := s.part p
  { ord := fr.ord
    cores := s.cores.filter fun c => s.partOf c.1 == some p
    run := x.run
    opened := (x.run.bind s.cmd).elim 0 (·.opened)
    fillerPos := s.cmds.filterMap fun c => c.2.bind fun y =>
      if y.opcode == 0x01 && y.admitted.isSome && s.fnFiller y.func && s.inPart p y.func then some (c.1, y.opened) else none
    stepAcc := s.reg (bar0 x.func 0xA100)
    isrs := s.partIsrs p
    colls := s.partColls p
    copies := s.tiers.copies.filterMap fun c => c.2.bind fun y => if y.part == p then some (c.1, y) else none
    seed := s.free }

/-! ### Restoring (R438, R439) -/

/-- Does the slot of an ordinal check on every die: MARK and SLOT_CRC (R438)? -/
def State.slotGood (s : State) (x : Part) (m : ImgHeld) (ord : Nat) : Bool :=
  x.dies.all fun d =>
    let h := s.slotHeader m d (ord % 2)
    Mem.readNat s.mem (h + 24) 4 == 0x5345414C && Mem.readNat s.mem h 8 == ord
      && Mem.readNat s.mem (h + 20) 4 == crc32c (s.slotBytes m d (ord % 2))

/-- The cores of partition p replaced by those of a table; their walks read their blocks again (R232). -/
def State.putCores (s : State) (p : Nat) (cores : KMap Core) : State :=
  let s1 := { s with cores := cores.foldl (fun m c => kset {} m c.1 c.2) (s.cores.filter fun c => s.partOf c.1 != some p) }
  (kkeys cores).foldl State.rereadWalks s1

/-- Bytes and marks put back into pads. -/
def State.putRanges (s : State) (ranges : KMap (List Byte)) (marks : List Nat) : State :=
  ranges.foldl (fun s r =>
    let m1 := (List.range (r.2.length / 32)).foldl (fun m i =>
      let k := r.1 + 32 * i
      if markBase k == k then kset false m k (marks.contains k) else m) s.marks
    { s with mem := Mem.writeBytes s.mem r.1 r.2, marks := m1 }) s

/-- Each SOURCE range of an image is read from its source, as the frame `v` sees it (R433, R438). -/
def State.readSources (s : State) (m : ImgHeld) (v : Viewer) : State :=
  ((Img.carries m.bytes).filter (·.source)).foldl (fun s e =>
    let c := Img.logical m.bytes m.orgRow m.orgCol e.vcore
    match s.resolveHeld m e.vcore e.symbol with
    | none => s
    | some a =>
      ((carryPieces (s.core c) e).foldl (fun (x : State × Nat) q =>
        let b := x.1.seenBytes v (a + e.addend + x.2) q.2
        let bad := x.1.seenMarked v (a + e.addend + x.2)
        (x.1.writeMarked (padWindow c + q.1) b bad, x.2 + q.2)) (s, 0)).1) s

/-- A command's progress as a record of the partition keeps it. -/
def State.putOpened (s : State) (id opened : Nat) : State :=
  s.modCmd id fun c => { c with opened := opened, endOrd := if opened < c.frames then none else c.endOrd }

/-- The copies of partition p as at the seal of an ordinal: those it holds that are not over by then; a later COPY starts
anew, a later layer copy waits for its frame; a checkpoint's manifest held since is held again (R440). -/
def State.putCopies (s : State) (p ord : Nat) (copies : KMap CopyRun) : State :=
  let old := copies.filter fun x => (s.cmd x.2.cmd).isSome && !(x.2.over && decide (x.2.lastOrd ≤ ord) && (s.copyRun x.1).isNone)
  let s1 := s.tiers.copies.foldl (fun s x => match x.2 with
    | some r =>
      if r.part != p then s
      else if r.layer then s.setCopy x.1 none
      else s.setCopy x.1 (some (s.firstPos { r with fin := false, retry := [], arrived := [], bad := [], ptrs := [], lastOrd := ord + 1 }))
    | none => s) s
  let again (r : Ckpt) : Ckpt := if r.part == p && !r.failed && r.endOrd.any fun j => decide (ord < j) then { r with endOrd := none } else r
  let s2 := { s1 with ckpts := s1.ckpts.map fun x => (x.1, x.2.map again) }
  old.foldl (fun s x => s.setCopy x.1 (some x.2)) s2

/-- The partition record of a snapshot: the command's position, STEP_ACC, the inbound stream records as they were, those made since
gone, collectives, copies (R433, R438). -/
def State.putRecord (s : State) (p : Nat) (k : Snap) : State :=
  let x := s.part p
  let s1 := match x.run with
    | some id => s.putOpened id (if k.run == some id then k.opened else 0)
    | none => s
  let fillers := s1.cmds.filterMap fun c => c.2.bind fun y =>
    if y.opcode == 0x01 && y.admitted.isSome && s1.fnFiller y.func && s1.inPart p y.func then some c.1 else none
  let s2 := fillers.foldl (fun s id => s.putOpened id (((k.fillerPos.find? fun y => y.1 == id).map (·.2)).getD 0)) s1
  let s3 := s2.setReg (bar0 x.func 0xA100) k.stepAcc
  let s3 := (s3.partIsrs p).foldl (fun s r => if k.isrs.any fun y => y.1 == r.1 then s else s.setIsr r.1 none) s3
  let s4 := k.isrs.foldl (fun s r =>
    let now := ((kget none s.links.isrs r.1).map fun y => (y.retLf, y.retNs)).getD (r.2.retLf, r.2.retNs)
    s.setIsr r.1 (some { r.2 with unacked := 0, retLf := now.1, retNs := now.2 })) s3
  (s4.putColls p k.colls).putCopies p k.ord k.copies

/-- Restore a partition to the seal of an ordinal: cores, MIRROR ranges, SOURCE ranges, record (R438). -/
def State.restoreSnap (s : State) (p : Nat) (k : Snap) : State :=
  let s1 := (s.putCores p k.cores).putRanges k.ranges k.marks
  let s2 := match (s.part p).image with
    | some m => s1.readSources m (some (p, k.ord + 1))
    | none => s1
  s2.putRecord p k

/-- Restore a partition to the start state of its image's load: code and records again, everything else at its start, the
partition record as at the admission of its command, which is at its first frame (R439). -/
def State.restoreStart (s : State) (p : Nat) (m : ImgHeld) : State :=
  let s1 := ((s.writeCode m fun _ k => k).writeDescs m (s.part p).dies).startPart p m
  let c := (s.part p).run.bind s.cmd
  s1.putRecord p {
    run := (s.part p).run
    stepAcc := c.elim (s.reg (bar0 m.func 0xA100)) (·.startAcc)
    isrs := c.elim (s.partIsrs p) (·.startIsrs)
    colls := c.elim [] (·.startColls)
    ord := (s.part p).loadOrd }

/-! ### Cores and pads by place (R199, R227–R229) -/

/-- The place of core c in partition x: its die's place, then its number on the die. -/
def Part.placeOf (x : Part) (c : Nat) : Nat :=
  ((dieOf c / 4 - x.orgRow) * x.cols + (dieOf c % 4 - x.orgCol)) * 6144 + c % 6144

/-- The core at a place. -/
def Part.coreOf (x : Part) (n : Nat) : Nat := x.physDie (n / 6144) * 6144 + n % 6144

/-- The pads of partition p by place, with their marks: each core's window bytes below its instruction store. -/
def State.padsOf (s : State) (p : Nat) : KMap Byte × List Nat :=
  let x := s.part p
  let mine (k : Nat) : Bool := isPadKey k && decide (k % 0x40000 < 0x30000) && s.partOf ((k - padKey) / 0x40000) == some p
  let move (k : Nat) : Nat := x.placeOf ((k - padKey) / 0x40000) * 0x40000 + k % 0x40000
  let put {α : Type} [DecidableEq α] (d : α) (l : List (Nat × α)) : KMap α := l.foldl (fun m y => kset d m (move y.1) y.2) []
  (put 0 (s.mem.filter fun y => mine y.1), ((put false (s.marks.filter fun y => mine y.1)).map (·.1)))

/-- An entry of a hold buffer moved with its pad granule: f maps pad addresses. -/
def Held.moved (h : Held) (f : Nat → Nat) : Held := { h with base := f h.base, cells := h.cells.map fun c => (f c.1, c.2) }

/-- Is it a held write of partition p into a pad of its own cores? -/
def State.ownPadHeld (s : State) (p : Nat) (h : Held) : Bool :=
  h.part == p && isPadKey h.base && s.partOf ((h.base - padKey) / 0x40000) == some p

/-- A partition's state saved by place (R227). -/
def State.savePart (s : State) (p area : Nat) : Saved :=
  let x := s.part p
  let pads := s.padsOf p
  { func := x.func, rows := x.rows, cols := x.cols, area := area
    cores := (s.cores.filter fun c => s.partOf c.1 == some p).foldl (fun m c => kset {} m (x.placeOf c.1) c.2) []
    pads := pads.1, marks := pads.2, image := x.image, fillers := x.fillers, ord := x.ord, run := x.run
    stepAcc := s.reg (bar0 x.func 0xA100)
    held := (s.held.filter (s.ownPadHeld p)).map fun h =>
      h.moved fun k => x.placeOf ((k - padKey) / 0x40000) * 0x40000 + (k - padKey) % 0x40000 }

/-- Every pad byte of partition p is +0 and unmarked. -/
def State.zeroPads (s : State) (p : Nat) : State :=
  let mine (k : Nat) : Bool := isPadKey k && decide (k % 0x40000 < 0x30000) && s.partOf ((k - padKey) / 0x40000) == some p
  { s with mem := s.mem.filter fun y => !mine y.1, marks := s.marks.filter fun y => !mine y.1 }

/-- Pads, the held writes into them, and cores put back by place into partition p (R229). -/
def State.putSaved (s : State) (p : Nat) (v : Saved) : State :=
  let x := s.part p
  let at_ (k : Nat) : Nat := padKey + x.coreOf (k / 0x40000) * 0x40000 + k % 0x40000
  let s1 := s.zeroPads p
  let s2 := { s1 with
    mem := v.pads.foldl (fun (m : Mem) (y : Nat × Byte) => Mem.write m (at_ y.1) y.2) s1.mem
    marks := v.marks.foldl (fun m k => kset false m (at_ k) true) s1.marks
    held := s1.held ++ v.held.map (Held.moved · at_) }
  s2.putCores p (v.cores.foldl (fun (m : KMap Core) (c : Nat × Core) => kset {} m (x.coreOf c.1) c.2) [])

end Sys2Proof.Machine
end

