-- ==== Sys2Proof/Machine/Replay.lean ====
section
/-! DEFINITION. CHECKPOINT and REPLAY: what a checkpoint writes and how its manifest reads, what a replay restores, its stream
checks and its results (R278, R418–R425, R455–R458). -/

namespace Sys2Proof.Machine

/-! ### Ranges and readings -/

/-- A range field of a payload: ADDR and LEN (R418, R455). -/
def Cmd.rangeAt (c : Cmd) (off : Nat) : Nat × Nat := (c.pay off 8, c.pay (off + 8) 5)

/-- The lines of a tenant range that carry the mark, by device address. -/
def State.markedLines (s : State) (f a n : Nat) : List Nat :=
  ((List.range ((n + 255) / 256)).map fun i => a + 256 * i).filter fun x =>
    ((s.key f x).map (s.lineBad none)).getD true

/-- A block of 4,096 B. -/
def toBlocks (n : Nat) : Nat := (n + 4095) / 4096 * 4096

/-- CRC-64 ECMA-182 of a list of bytes (R517). -/
def crc64 (bs : List Byte) : Nat := crcFeed (crcSel 3) 0 bs

/-! ### CHECKPOINT (R455–R457) -/

/-- The MANIFEST, FLASH and FLASH_LEN of a CHECKPOINT. -/
def Cmd.ckManifest (c : Cmd) : Nat := c.pay 0 8
/-- FLASH. -/
def Cmd.ckFlash (c : Cmd) : Nat := c.pay 8 8
/-- FLASH_LEN. -/
def Cmd.ckLen (c : Cmd) : Nat := c.pay 0x10 8
/-- The ranges of a CHECKPOINT. -/
def Cmd.ckRanges (c : Cmd) : List (Nat × Nat) := (List.range (c.pay 0x18 1)).map fun i => c.rangeAt (0x20 + 16 * i)
/-- PADS. -/
def Cmd.ckPads (c : Cmd) : Bool := bitOf (c.pay 0x19 1) 0

/-- The last complete mirror of a partition, if any frame has been sealed (R456). -/
def Part.lastMirror (x : Part) : Option Snap :=
  match x.snap0.valid, x.snap1.valid with
  | true, true => some (if x.snap0.ord < x.snap1.ord then x.snap1 else x.snap0)
  | true, false => some x.snap0
  | false, true => some x.snap1
  | false, false => none

/-- An entry of a manifest with its data and the marked source lines (R456, R457). -/
structure CkEntry where
  kind : Nat
  die : Nat := 0
  bad : List Nat := []
  src : Nat := 0
  data : List Byte
deriving DecidableEq, Repr

/-- The marked lines of n bytes of stores or pads, by device address, in 256 B. -/
def State.markedIn (s : State) (k n : Nat) : List Nat :=
  ((s.marks.filter fun x => x.2 && decide (k ≤ x.1) && decide (x.1 < k + n)).map fun x => x.1 / 256 * 256).eraseDups

/-- The mirror slot of a die as a checkpoint saves it: its header, then its core slots (R437, R456). -/
def State.ckSlot (s : State) (x : Part) (m : ImgHeld) (k : Snap) (v : Nat) : CkEntry :=
  let d := x.physDie v
  { kind := 1, die := v
    bad := s.markedIn (s.slotHeader m d (k.ord % 2)) 256 ++ s.markedIn (s.slotBase m d (k.ord % 2)) (s.mirrorSum m d)
    data := Mem.readBytes s.mem (s.slotHeader m d (k.ord % 2)) 256 ++ s.slotBytes m d (k.ord % 2) }

/-- The partition record as bytes: its form is open (notes/assumptions/16). -/
def recordBytes (seed : Nat) : List Byte := (List.range 4096).map fun i => Config.freeByte seed (0x2000 + i)

/-- The W- and A-pads of a die's cores in ascending id (R456). -/
def State.ckPadsOf (s : State) (x : Part) (v : Nat) : CkEntry :=
  let l := s.coresOfDie (x.physDie v)
  { kind := 2, die := v
    bad := l.flatMap fun c => s.markedIn (padWindow c) 0x28000
    data := l.flatMap fun c => Mem.readBytes s.mem (padWindow c) 0x28000 }

/-- A range of a checkpoint. -/
def State.ckRange (s : State) (f : Nat) (r : Nat × Nat) : CkEntry :=
  { kind := 3, bad := s.markedLines f r.1 r.2, src := r.1, data := s.tenantBytes f r.1 r.2 }

/-- The entries of a checkpoint in the order it copies them (R456). -/
def State.ckEntries (s : State) (c : Cmd) (x : Part) (k : Snap) : List CkEntry :=
  let dies := List.range (x.rows * x.cols)
  (match x.image with
    | some m => dies.map (s.ckSlot x m k)
    | none => dies.map fun v => { kind := 1, die := v, data := [] })
  ++ [{ kind := 4, data := recordBytes k.seed }]
  ++ (if c.ckPads then dies.map (s.ckPadsOf x) else [])
  ++ c.ckRanges.map (s.ckRange c.func)

/-- The offset of each entry from FLASH_BASE: whole blocks, one entry after the other. -/
def ckOffsets : Nat → List CkEntry → List Nat
  | _, [] => []
  | o, e :: es => o :: ckOffsets (o + toBlocks e.data.length) es

/-- Bytes of data of a checkpoint, in whole blocks. -/
def ckSize (l : List CkEntry) : Nat := l.foldl (fun a e => a + toBlocks e.data.length) 0

/-- FN_GEOM_DIGEST of an image (R424). -/
def Img.geomDigest (b : Img) : Nat := crc32c (b.slice 0x14 4 ++ b.slice (b.sec 13).off (b.sec 13).size)

/-- A manifest with its CHECK field as given (R457). -/
def manifestBytes (c : Cmd) (x : Part) (k : Snap) (l : List CkEntry) (check : Nat) : List Byte :=
  let crc := (x.image.map fun m => Img.crc m.bytes).getD 0
  let geom := (x.image.map fun m => Img.geomDigest m.bytes).getD 0
  leBytes 4 0x54504B43 ++ leBytes 2 1 ++ leBytes 2 l.length ++ leBytes 4 crc ++ leBytes 4 geom ++ leBytes 8 k.ord
    ++ leBytes 8 k.commitTick ++ leBytes 8 c.ckFlash ++ leBytes 1 c.func ++ leBytes 1 (x.rows - 1 + 2 * (x.cols - 1))
    ++ leBytes 6 0 ++ leBytes 8 check ++ leBytes 8 0
    ++ (l.zip (ckOffsets 0 l)).flatMap fun y =>
      leBytes 1 y.1.kind ++ leBytes 1 (y.1.die + 128 * natOf (!y.1.bad.isEmpty)) ++ leBytes 2 0 ++ leBytes 4 (crc32c y.1.data)
        ++ leBytes 8 y.1.src ++ leBytes 8 y.1.data.length ++ leBytes 8 y.2

/-- Entries of a CHECKPOINT's manifest (R457). -/
def Cmd.ckCount (c : Cmd) (x : Part) : Nat :=
  let n := x.rows * x.cols
  n + 1 + (if c.ckPads then n else 0) + c.ckRanges.length

/-- Bytes of flash that a CHECKPOINT of partition x writes: data and manifest, in whole blocks (R278, R456). -/
def State.ckNeed (s : State) (c : Cmd) (x : Part) : Nat :=
  let n := x.rows * x.cols
  let pads := if c.ckPads then (List.range n).foldl (fun a v => a + (s.coresOfDie (x.physDie v)).length * 0x28000) 0 else 0
  let slots := (x.image.map fun m => (List.range n).foldl (fun a v => a + toBlocks (256 + s.mirrorSum m (x.physDie v))) 0).getD 0
  slots + 4096 + pads + c.ckRanges.foldl (fun a r => a + toBlocks r.2) 0 + toBlocks (64 + 32 * c.ckCount x)

/-- Why a CHECKPOINT is refused at admission, if it is (R456). -/
def State.ckptBad (s : State) (c : Cmd) (x : Part) : Option Nat :=
  match x.lastMirror with
  | none => some 0x40
  | some _ =>
    firstFail [
      (c.ckFlash % 4096 == 0 && isFlash c.ckFlash && isFlash (c.ckFlash + c.ckLen - 1) && decide (0 < c.ckLen)
        && s.flashRangeOk c.func c.ckFlash (c.ckFlash + c.ckLen - 1), 0x41),
      (decide (s.ckNeed c x ≤ c.ckLen), 0x42),
      (c.ckRanges.all fun r => r.1 % 256 == 0 && r.2 % 256 == 0 && r.2 != 0 && s.readable c.func r.1 r.2, 0x43),
      (c.ckManifest % 256 == 0 && decide (c.ckManifest < 0x00C000000000) && s.mappedRange c.func c.ckManifest (64 + 32 * c.ckCount x), 0x44)]
where
  /-- Does a device address lie in the flash range? -/
  isFlash (a : Nat) : Bool := decide (0x400000000000 ≤ a) && decide (a ≤ 0x7FFFFFFFFFFF)

/-- The pieces of at most 32 blocks in which an entry is written. -/
def ckPieces (base : Nat) (l : List CkEntry) : List (Nat × List Byte) :=
  (l.zip (ckOffsets 0 l)).flatMap fun y =>
    let b := y.1.data ++ List.replicate (toBlocks y.1.data.length - y.1.data.length) 0#8
    (List.range ((b.length + 131071) / 131072)).map fun i => (base + y.2 + 131072 * i, (b.drop (131072 * i)).take 131072)

/-- A Flush for each drive that a flash range lies on: an address on it, and no bytes (R456). -/
def State.ckFlushes (s : State) (lo hi : Nat) : List (Nat × List Byte) :=
  ((windowsOf lo hi).foldl (fun (l : List (Nat × Nat)) n => match s.window n with
    | some x =>
      let d := bitsOf x.1 1 2
      if l.any fun y => y.1 == d then l else l ++ [(d, max lo (0x400000000000 + n * 2 ^ 42))]
    | none => l) []).map fun y => (y.2, [])

/-- What a checkpoint of mirror k stands for: cores and MIRROR ranges by place, with PADS every W- and A-pad (R456, R457). -/
def State.ckSaved (s : State) (c : Cmd) (p : Nat) (k : Snap) : Saved :=
  let x := s.part p
  let base : Saved := { func := c.func, rows := x.rows, cols := x.cols, ord := k.ord, run := none, stepAcc := k.stepAcc, isrs := k.isrs }
  let cores := k.cores.foldl (fun m y => kset {} m (x.placeOf y.1) y.2) []
  let place (a : Nat) : Nat := x.placeOf ((a - padKey) / 0x40000) * 0x40000 + a % 0x40000
  let pads0 : KMap Byte × List Nat := if c.ckPads then
      let q := s.padsOf p
      (q.1.filter fun y => decide (y.1 % 0x40000 < 0x28000), q.2.filter fun a => decide (a % 0x40000 < 0x28000))
    else ([], [])
  let pads := k.ranges.foldl (fun m r => Mem.writeBytes m (place r.1) r.2) pads0.1
  { base with cores := cores, pads := pads, marks := pads0.2 ++ k.marks.map place }

/-- An admitted CHECKPOINT starts (R456). -/
def State.startCkpt (s : State) (id p : Nat) (c : Cmd) : State :=
  let x := s.part p
  match x.lastMirror with
  | none => s
  | some k =>
    let l := s.ckEntries c x k
    let check := crc64 (manifestBytes c x k l 0)
    let man := manifestBytes c x k l check
    let bad := l.flatMap (·.bad)
    let runs := (subRanges (bad.foldl (fun l a => badInsert (a, 0, 1) l) [])).length
    let r : Ckpt := {
      cmd := id, func := c.func, part := p
      blob := ckPieces c.ckFlash l ++ s.ckFlushes c.ckFlash (c.ckFlash + ckSize l - 1)
        ++ [(c.ckFlash + ckSize l, man ++ List.replicate (toBlocks man.length - man.length) 0#8)]
      manifest := man, manifestAddr := c.ckManifest, check := check, umber := bad.head?, nfail := runs
      saved := s.ckSaved c p k }
    { s with ckpts := kset none s.ckpts id (some r) }

/-- The manifest of CHECKPOINT id, on flash, is held for MANIFEST; where it meets a full hold buffer its wait is counted once
(R286, R431, R456). -/
def State.ckptHold (s : State) (id : Nat) (r : Ckpt) : State :=
  let put (r : Ckpt) (s : State) : State := { s with ckpts := kset none s.ckpts id (some r) }
  let ord := (s.part r.part).ord
  let held := (cutUnits (r.manifest.length + 1) r.manifestAddr r.manifest).foldl (fun o u => o.bind fun s =>
    match s.key r.func u.1 with
    | some k => s.holdAsync r.part ord 0 false k (u.2.map (·.2))
    | none => some s) (some s)
  match held with
  | some s1 => put { r with endOrd := some ord } s1
  | none => if r.waited then put r s else (put { r with waited := true } s).countWait 0 ((s.key r.func r.manifestAddr).getD 0)

/-- A drive completes the next Write or Flush of CHECKPOINT id; after the last its manifest is held (R456). -/
def State.ckptWrite (s : State) (id : Nat) (r : Ckpt) (ok : Bool) : State :=
  let put (r : Ckpt) (s : State) : State := { s with ckpts := kset none s.ckpts id (some r) }
  let fail := put { r with failed := true, blob := [], endOrd := some (s.part r.part).ord } s
  if r.endOrd.isSome then s
  else
    match r.blob with
    | (a, b) :: rest =>
      if !ok then fail
      else
        match s.flashAt r.func a, s.flashAt r.func (a + (b.length - 1)) with
        | some k, some _ =>
          let s1 := { s with mem := Mem.writeBytes s.mem k b }
          if rest.isEmpty then s1.ckptHold id { r with blob := [] } else put { r with blob := rest } s1
        | _, _ => fail
    | [] => s

/-- May partition p's asynchronous work run: frames run and the module does not power down (R286, R453)? -/
def State.asyncRuns (s : State) (p : Nat) : Bool := s.copiesRun p && !s.cp.powerDown

/-- A checkpoint's write ends where its partition's work runs. -/
def State.ckptEnd (s : State) (id : Nat) (r : Ckpt) (ok : Bool) : State := if s.asyncRuns r.part then s.ckptWrite id r ok else s

/-- ASYNC_COPY_LINE (R286): of a copy, or the manifest of a checkpoint that waits for room. -/
def execAsyncCopyLine (id : Nat) (s : State) : Host.Outcome State Fault Refusal :=
  match kget none s.ckpts id with
  | some r => if s.asyncRuns r.part && r.blob.isEmpty && r.endOrd.isNone then .next (s.ckptHold id r) else .next s
  | none => onCopy id (copyWrite id) s

/-- NVME_COMPLETION (R277, R452, R456). -/
def execNvmeCompletion (id : Nat) (ok : Bool) (s : State) : Host.Outcome State Fault Refusal :=
  match kget none s.ckpts id with
  | some r => .next (s.ckptEnd id r ok)
  | none => onCopy id (fun r s => s.readDone id (if ok then readLine false else readAgain) r) s

/-- NVME_TIMEOUT (R277): the lines of the Read are delivered marked; a Write has failed. -/
def execNvmeTimeout (id : Nat) (s : State) : Host.Outcome State Fault Refusal :=
  match kget none s.ckpts id with
  | some r => .next (s.ckptEnd id r false)
  | none => onCopy id (fun r s => s.readDone id (readLine true) r) s

/-- At the commit of frame ord of partition p its checkpoints whose manifest is held by then complete (R456). -/
def State.ckptsCommit (s : State) (p ord : Nat) : State :=
  s.ckpts.foldl (fun s x => match x.2 with
    | some r =>
      match r.endOrd with
      | some j =>
        if r.part != p || decide (ord < j) then s
        else if r.failed then s.faultNow x.1 { reason := 0x45 }
        else
          let s1 := { s with saves := (r.check, r.saved) :: s.saves.filter fun y => y.1 != r.check }
          let s2 := s1.modCmd x.1 fun c => match r.umber with
            | some a => { c with umber := some (min (c.umber.getD a) a), nfail := c.nfail + r.nfail }
            | none => c
          s2.completeOwn x.1
      | none => s
    | none => s) s

/-! ### REPLAY (R418–R424) -/

/-- CKPT, STEP, HOME, PARAM of a REPLAY. -/
def Cmd.rpCkpt (c : Cmd) : Nat := c.pay 0x18 8
/-- Its check ranges. -/
def Cmd.rpRanges (c : Cmd) : List (Nat × Nat) := (List.range (c.pay 0x14 1)).map fun i => c.rangeAt (0x50 + 16 * i)
/-- HOME. -/
def Cmd.rpHome (c : Cmd) : Nat := c.pay 0x15 1 % 8
/-- The CARVE_BUF entry that PARAM names. -/
def State.rpParam (s : State) (c : Cmd) : Nat := s.wide (bar0 c.func (0x8000 + 8 * c.pay 0x16 1))

/-- NENTRY of the manifest at CKPT. -/
def State.manEntries (s : State) (c : Cmd) : Nat := leNat (s.tenantBytes c.func (c.rpCkpt + 6) 2)

/-- The manifest at CKPT. -/
def State.manBytes (s : State) (c : Cmd) : List Byte := s.tenantBytes c.func c.rpCkpt (64 + 32 * s.manEntries c)

/-- Does the manifest read as one, its CHECK good (R457, R458)? -/
def State.manifestGood (s : State) (c : Cmd) : Bool :=
  let b := s.manBytes c
  s.readable c.func c.rpCkpt 64 && decide (2 ≤ s.manEntries c) && decide (s.manEntries c ≤ 21)
    && s.readable c.func c.rpCkpt (64 + 32 * s.manEntries c) && leNat (b.take 4) == 0x54504B43 && leNat ((b.drop 4).take 2) == 1
    && leNat ((b.drop 0x30).take 8) == crc64 (b.take 0x30 ++ List.replicate 8 0#8 ++ b.drop 0x38)

/-- Why a REPLAY of image m is refused at admission, beside what refuses the image (R419). -/
def State.replayBad (s : State) (c : Cmd) (x : Part) (m : ImgHeld) : Option Nat :=
  let e := s.rpParam c
  firstFail [
    (c.rpCkpt == 0 || s.manifestGood c, 0x49),
    (c.rpCkpt == 0 || leNat (((s.manBytes c).drop 8).take 4) == Img.crc m.bytes, 0x48),
    (c.rpRanges.all (fun r => r.1 % 256 == 0 && r.2 % 256 == 0 && decide (256 ≤ r.2) && s.bufOk c.func r.1 r.2), 0x4A),
    (bitOf e 0 && s.areaInGrant c.func (bitsOf e 1 3) e && (s.areaOf c.func (bitsOf e 1 3) e).isSome, 0x4B),
    (x.hasDie c.rpHome, 0x16)]

/-- The flash spans that hold the data of the manifest's entries (R457). -/
def State.manSpans (s : State) (c : Cmd) : List (Nat × Nat) :=
  (List.range (s.manEntries c)).filterMap fun i =>
    let b := (s.manBytes c).drop (64 + 32 * i)
    let n := leNat ((b.drop 0x10).take 8)
    let base := leNat (((s.manBytes c).drop 0x20).take 8) + leNat ((b.drop 0x18).take 8)
    if n == 0 then none else some (base, base + n - 1)

/-- The data of an entry of the manifest, by its place in it; none where its flash cannot be read. -/
def State.manData (s : State) (c : Cmd) (i : Nat) : Option (List Byte) :=
  let b := (s.manBytes c).drop (64 + 32 * i)
  let n (o k : Nat) : Nat := leNat ((b.drop o).take k)
  let base := leNat (((s.manBytes c).drop 0x20).take 8) + n 0x18 8
  if n 0x10 8 == 0 then some []
  else if s.flashRangeOk c.func base (base + n 0x10 8 - 1) then
    some ((List.range (n 0x10 8)).map fun j => ((s.flashAt c.func (base + j)).map (s.seen none)).getD 0)
  else none

/-- Does every entry's data carry its DATA_CRC (R458)? -/
def State.manDataGood (s : State) (c : Cmd) : Bool :=
  (List.range (s.manEntries c)).all fun i =>
    match s.manData c i with
    | some b => crc32c b == leNat (((s.manBytes c).drop (64 + 32 * i + 4)).take 4)
    | none => false

/-- The core that a saved scan image holds; its records are the image's (R229). -/
def ImgHeld.scannedCore (m : ImgHeld) (c : Nat) (b : List Byte) : Core :=
  match m.vcore c with
  | some vi => { parseScan b with cfgs := [], edges := [] }.putRecords m vi
  | none => parseScan b

/-- A core slot of a saved mirror put back: its scan image, its MIRROR ranges (R435, R458). -/
def State.putSlotCore (s : State) (m : ImgHeld) (known : Option Core) (c : Nat) (b : List Byte) : State :=
  let k := known.getD (m.scannedCore c (b.take 6144))
  let s1 := s.setCore c k
  ((m.mirrorRanges c k).foldl (fun (y : State × Nat) r =>
    ({ y.1 with mem := Mem.writeBytes y.1.mem r.1 ((b.drop y.2).take r.2) }, y.2 + r.2)) (s1, 6144)).1

/-- The logical cores of a die on a grade of n columns, in ascending id. -/
def coresOfGrade (n d : Nat) : List Nat :=
  (List.range 128).flatMap fun hr => (List.range n).map fun j => coreAt d (hr / 64) (hr % 64) j

/-- The cores of a die in the order in which n bytes of saved state hold them, `size` bytes for each: those of the grade that saved
them, told by the length (R410, R458). -/
def savedCores (d n : Nat) (size : Nat → Nat) : List Nat :=
  let l := coresOfGrade 48 d
  if l.foldl (fun a c => a + size c) 0 == n then l else coresOfGrade 44 d

/-- The saved mirror slot of a die put back into the partition's own die of that place; a core that this grade lacks ran nothing and
is passed over (R410, R458). -/
def State.putSlot (s : State) (x : Part) (m : ImgHeld) (saved : Option Saved) (v : Nat) (b : List Byte) : State :=
  ((savedCores (x.physDie v) (b.length - 256) m.coreSize).foldl (fun (y : State × List Byte) c =>
    let known := saved.map fun z => kget {} z.cores (x.placeOf c)
    (if s.isCore c then y.1.putSlotCore m known c y.2 else y.1, y.2.drop (m.coreSize c))) (s, b.drop 256)).1

/-- Saved pads of a die put back. -/
def State.putPads (s : State) (x : Part) (v : Nat) (b : List Byte) : State :=
  ((savedCores (x.physDie v) b.length fun _ => 0x28000).foldl (fun (y : State × List Byte) c =>
    (if s.isCore c then y.1.writeMarked (padWindow c) (y.2.take 0x28000) false else y.1, y.2.drop 0x28000)) (s, b)).1

/-- A saved partition record put back: STEP_ACC and the inbound stream records of the partition's windows; what they are in a record
not written here is open (R420, R433; notes/assumptions/16). -/
def State.putSavedRecord (s : State) (p : Nat) (saved : Option Saved) (b : List Byte) : State :=
  let acc := match saved with
    | some z => z.stepAcc
    | none => Config.recordAcc b % 8
  let s1 := s.setReg (bar0 (s.part p).func 0xA100) acc
  match saved with
  | none => s1
  | some z =>
    let s2 := (s1.partIsrs p).foldl (fun s r => if z.isrs.any fun y => y.1 == r.1 then s else s.setIsr r.1 none) s1
    z.isrs.foldl (fun s r => if ((s.win r.2.win).map fun w => s.inPart p w.func) == some true then s.setIsr r.1 (some r.2) else s) s2

/-- The state that the manifest names, put into partition p (R420, R458). -/
def State.putManifest (s : State) (p : Nat) (c : Cmd) (m : ImgHeld) : State :=
  let x := s.part p
  let man := s.manBytes c
  let saved := (s.saves.find? fun y => y.1 == leNat ((man.drop 0x30).take 8)).map (·.2)
  let s1 := (List.range (s.manEntries c)).foldl (fun s' i =>
    let e := man.drop (64 + 32 * i)
    let kind := leNat (e.take 1)
    let v := leNat ((e.drop 1).take 1) % 8
    match s.manData c i with
    | some b => if kind == 1 then s'.putSlot x m saved v b else if kind == 2 then s'.putPads x v b
      else if kind == 4 then s'.putSavedRecord p saved b else s'
    | none => s') s
  let s2 := match saved with
    | some z => { s1 with marks := z.marks.foldl (fun t a =>
        kset false t (padKey + x.coreOf (a / 0x40000) * 0x40000 + a % 0x40000) true) s1.marks }
    | none => s1
  s2.readSources m none

/-- The parameter block of a REPLAY (R420). -/
def Cmd.paramBlock (c : Cmd) (m : ImgHeld) : List Byte :=
  (c.payload.drop 0x20).take 8 ++ (c.payload.drop 0x30).take 32 ++ leBytes 4 (Img.geomDigest m.bytes) ++ List.replicate 20 0#8

/-- An admitted REPLAY prepares its partition (R420); data that fails its DATA_CRC completes it FAULT (R458). -/
def State.startReplay (s : State) (id p : Nat) (c : Cmd) (m : ImgHeld) : State :=
  let r : Replay := {
    cmd := id, func := c.func, part := p, home := c.rpHome, ranges := c.rpRanges
    expect := (List.range 4).map fun i => s.reg (bar0 c.func (0xA210 + 4 * i)) }
  let s1 := { s with replays := kset none s.replays id (some r) }
  if c.rpCkpt != 0 && !s.manDataGood c then s1.faultNow id { reason := 0x4C }
  else
    let s2 := if c.rpCkpt == 0 then (s1.zeroPads p).startPart p m else (s1.startPart p m).putManifest p c m
    let e := s.rpParam c
    let a := ((s.areaOf c.func (bitsOf e 1 3) e).map (·.1)).getD 0
    (s2.settleRange (a / 256 * 256) 256).writeMarked a (c.paramBlock m) false

/-- The range that a replay checks now. -/
def Replay.range (r : Replay) : Option (Nat × Nat) := r.ranges[r.crcs.length]?

/-- The replay after one line of its present range: its bytes, whether it is marked. -/
def Replay.line (r : Replay) (a n ord : Nat) (b : List Byte) (bad : Bool) : Replay :=
  let crc := crcFeed (crcSel 0) (if r.off == 0 then 0xFFFFFFFF else r.crc) b
  let addr := a + r.off
  let r1 := { r with
    off := r.off + 256, crc := crc, marked := r.marked || bad, retryAt := none, endOrd := some ord, lastBad := bad
    umber := if bad then some (r.umber.getD addr) else r.umber
    nfail := if bad && !r.lastBad then r.nfail + 1 else r.nfail }
  if r1.off < n then r1
  else
    let v := crc ^^^ 0xFFFFFFFF
    let want := r.expect.getD r.crcs.length 0
    let miss := want != 0 && (want != v || r1.marked)
    { r1 with
      crcs := r.crcs ++ [v], off := 0, crc := 0, marked := false, lastBad := false
      mismatch := r.mismatch + natOf miss * 2 ^ r.crcs.length }

/-- A line of the stream check of REPLAY id arrives; one that fails is retried once in a later frame (R421, R452). -/
def State.streamLine (s : State) (id : Nat) (r : Replay) (ok : Bool) : State :=
  let put (r : Replay) : State := { s with replays := kset none s.replays id (some r) }
  let again := match r.retryAt with
    | some t => decide (s.tick ≤ t)
    | none => false
  match r.range with
  | none => s
  | some (a, n) =>
    if !r.checking || again then s
    else if !ok && r.retryAt.isNone then put { r with retryAt := some s.tick }
    else
      let k := s.key r.func (a + r.off)
      let bad := !ok || (match k with
        | some x => s.lineBad none x
        | none => true)
      let b := if ok then s.tenantBytes r.func (a + r.off) 256 else List.replicate 256 0#8
      let s1 := put (r.line a n (s.part r.part).ord b bad)
      let s2 := if bad then
          ((s1.count (tierReg 0x20) 1).count (strmReg r.home 4) 1).trace 4 r.func (3 + 2 ^ 8 * (if ok then 2 else 1) + 2 ^ 16) (a + r.off)
        else s1
      if r.retryAt.isSome then s2.count (strmReg r.home 8) 1 else s2

/-- STREAM_CHECK (R421). -/
def execStreamCheck (id : Nat) (ok : Bool) (s : State) : Host.Outcome State Fault Refusal :=
  match kget none s.replays id with
  | none => .next s
  | some r => if s.asyncRuns r.part then .next (s.streamLine id r ok) else .next s

/-- REPLAY id completes with its results in the registers and in DETAIL (R422, R424). -/
def State.replayDone (s : State) (id : Nat) (r : Replay) : State :=
  let n := r.crcs.length
  let s1 := (List.range n).foldl (fun s i => s.setReg (bar0 r.func (0xA220 + 4 * i)) (r.crcs.getD i 0)) s
  let set := (List.range 4).foldl (fun a i => a + natOf (r.expect.getD i 0 != 0) * 2 ^ i) 0
  let s2 := s1.modCmd id fun c => match r.umber with
    | some a => { c with umber := some (min (c.umber.getD a) a), nfail := c.nfail + r.nfail }
    | none => c
  match s2.cmd id with
  | none => s2
  | some c =>
    let bits := 2 ^ n - 1 + r.mismatch * 2 ^ 4
    let s3 := if c.fault.isSome then s2.completeOwn id else s2.complete id c.status (c.detail + bits)
    if c.fault.isSome then s3 else s3.setReg (bar0 r.func 0xA230) (bits + set * 2 ^ 8 + 2 ^ 12)

/-- At the commit of frame ord of partition p: a replay whose last frame commits starts its checks, or completes without
any; one whose last line was read by then completes (R420–R422). -/
def State.replaysCommit (s : State) (p ord : Nat) : State :=
  s.replays.foldl (fun s x => match x.2 with
    | some r =>
      if r.part != p then s
      else if r.checking then
        match r.endOrd with
        | some j => if r.range.isNone && decide (j ≤ ord) then s.replayDone x.1 r else s
        | none => s
      else
        match (s.cmd x.1).bind (·.endOrd) with
        | some j =>
          if decide (ord < j) then s
          else if r.ranges.isEmpty then s.replayDone x.1 r
          else { s with replays := kset none s.replays x.1 (some { r with checking := true }) }
        | none => s
    | none => s) s

end Sys2Proof.Machine
end

