-- ==== Sys2Proof/Machine/Admit.lean ====
section
/-! DEFINITION. Admission: which accepted command may be admitted, what its admission does, and the frame it then runs
(R46, R56, R57, R65, R211, R212, R219, R220, R278, R279, R290, R291, R295, R338, R340, R353–R356, R360, R420, R456). -/

namespace Sys2Proof.Machine

/-! ### What a command names (R278, R290, R353) -/

/-- RUN_SPAN or REPLAY. -/
def Cmd.isSpan (c : Cmd) : Bool := c.opcode == 0x01 || c.opcode == 0x31

/-- The near and far ranges that a command names. -/
def State.namedRanges (s : State) (c : Cmd) : List (Nat × Nat) :=
  if c.opcode == 0x01 then (c.image, c.imageSize) :: s.layerRanges c
  else if c.opcode == 0x31 then [(c.image, c.imageSize), (c.rpCkpt, 64 + 32 * s.manEntries c)] ++ c.rpRanges
  else if c.opcode == 0x02 then s.copyRanges c
  else if c.opcode == 0x30 then (c.ckManifest, 64 + 32 * 21) :: c.ckRanges
  else if isColl c.opcode then s.collRanges c
  else []

/-- The mapped pages among them, by key. -/
def State.namedPages (s : State) (c : Cmd) : List Nat :=
  ((s.namedRanges c).flatMap fun r => pagesOf r.1 r.2).filterMap fun p =>
    if (s.page c.func p.1 p.2).isSome then some (pageKey p.1 p.2) else none

/-- The blocks of each drive that a flash range of function f touches: drive, first, last (R276). -/
def State.driveBlocks (s : State) (lo hi : Nat) : List (Nat × Nat × Nat) :=
  (windowsOf lo hi).filterMap fun n => (s.window n).map fun x =>
    let a := 0x400000000000 + n * 2 ^ 42
    (bitsOf x.1 1 2, x.2 + (max lo a - a) / 4096, x.2 + (min hi (a + 2 ^ 42 - 1) - a) / 4096)

/-- The flash spans that a command reads: a COPY its tensor, a REPLAY the data of its manifest (R277, R278, R458). -/
def State.flashReads (s : State) (c : Cmd) : List (Nat × Nat) :=
  if c.opcode == 0x02 && c.pay 0 1 == 0 then s.walkFlash c.func (s.copyWalk c)
  else if c.opcode == 0x31 && c.rpCkpt != 0 then s.manSpans c
  else []

/-- The flash span that a CHECKPOINT writes: the blocks of its data and manifest (R278, R456). -/
def State.flashWrites (s : State) (c : Cmd) : List (Nat × Nat) :=
  if c.opcode != 0x30 then []
  else (s.funcPart c.func).toList.map fun p => (c.ckFlash, c.ckFlash + s.ckNeed c (s.part p) - 1)

/-- Do flash spans of two lists share a block? -/
def State.flashMeet (s : State) (a b : List (Nat × Nat)) : Bool :=
  let blocks (l : List (Nat × Nat)) : List (Nat × Nat × Nat) := l.flatMap fun x => s.driveBlocks x.1 x.2
  (blocks a).any fun u => (blocks b).any fun v => u.1 == v.1 && decide (u.2.1 ≤ v.2.2) && decide (v.2.1 ≤ u.2.2)

/-- Is there an accepted command, beside id, for which p holds? -/
def State.anyCmd (s : State) (id : Nat) (p : Nat → Cmd → Bool) : Bool := s.cmds.any fun x => match x.2 with
  | some c => x.1 != id && c.accepted.isSome && p x.1 c
  | none => false

/-- R278: a CHECKPOINT and a reader of the blocks it writes wait for each other. -/
def State.flashWaits (s : State) (id : Nat) (c : Cmd) : Bool :=
  s.anyCmd id fun _ y => y.admitted.isSome && 
    (s.flashMeet (s.flashWrites c) (s.flashReads y) || s.flashMeet (s.flashReads c) (s.flashWrites y))

/-- R279: no command that reads or writes a bay to be taken offline. -/
def State.bayWaits (s : State) (c : Cmd) : Bool :=
  (s.flashReads c ++ s.flashWrites c).any fun x => (s.baysOf x.1 x.2).any fun b => s.bit (bayReg b) 2

/-- R456: a CHECKPOINT waits for every earlier command of its function, and holds every later one. -/
def State.ckptWaits (s : State) (id : Nat) (c : Cmd) : Bool :=
  s.anyCmd id fun j y => y.func == c.func && decide (j < id) && (c.opcode == 0x30 || y.opcode == 0x30)

/-- R356: a FENCE waits for the earlier commands of its scope; while it has not completed it holds the later ones. -/
def State.fenceWaits (s : State) (id : Nat) (c : Cmd) : Bool :=
  s.anyCmd id fun j y => y.func == c.func && decide (j < id) &&
    ((c.opcode == 0x23 && (c.scope || y.q == c.q)) || (y.opcode == 0x23 && (y.scope || y.q == c.q)))

/-! ### Can the partition take admissions (R46, R219, R220, R360)? -/

/-- A partition admits in the tick window that opens its frame: not stopped or to be stopped, not in recovery, neither
slipping nor taking a fast or load frame. -/
def State.partAdmits (s : State) (p : Nat) : Bool :=
  let x := s.part p
  x.valid && !x.stopped && x.stopReq.isNone && x.recov.isNone && !x.fastNext &&
    match x.frame with
    | none => true
    | some fr => fr.opened == s.tick && !fr.fast && !fr.load

/-- The image that serves a span: the partition's, or one of its fillers (R220, R225). -/
def State.spanImage (s : State) (p : Nat) (c : Cmd) : Option ImgHeld :=
  if s.fnFiller c.func then (s.part p).fillers.find? (s.serves c) else (s.part p).image.filter (s.serves c)

/-- Does a RUN_SPAN or REPLAY wait: for the one that runs, or for its image (R219, R360)? -/
def State.spanWaits (s : State) (p id : Nat) (c : Cmd) : Bool :=
  (if s.fnFiller c.func then s.anyCmd id fun _ y => y.func == c.func && y.isSpan && y.admitted.isSome
    else (s.part p).run.isSome)
  || (s.spanImage p c).isNone

/-- Collectives admitted and not completed (R386). -/
def State.collsRunning (s : State) : Nat := (s.colls.run.filter fun x => x.2.isSome).length

/-- May accepted command id be admitted now (R56, R65, R360)? -/
def State.admissible (s : State) (id : Nat) (c : Cmd) : Bool :=
  s.alm.everLocked && decide (s.subtick ≤ 15) && !s.cp.powerDown && !s.cp.heldNow.contains id && (c.accepted.map fun t => decide (t < s.tick)) == some true && c.admitted.isNone
    && c.waits.all s.waitMet && !s.fenceWaits id c && (!c.calEn || (decide (c.calends ≤ s.tick) && s.locked))
    && !s.gated id c && !s.ckptWaits id c && !s.flashWaits id c && !s.bayWaits c
    && (if ((opcodeInfo c.opcode).map (·.2)).getD false then
          match s.funcPart c.func with
          | some p => s.partAdmits p && (!c.isSpan || !s.spanWaits p id c)
          | none => true
        else true)
    && (c.opcode != 0x19 || !s.voteWaits c) && (!isColl c.opcode || decide (s.collsRunning < 64))
    && (s.namedRanges c).all fun r => !s.evictedRange c.func r.1 r.2

/-! ### What admission does (R57, R290, R353–R356, R360, R395) -/

/-- Why an admissible command is refused before it is admitted, if it is: no partition, or a reason of the loader (R217–R220). -/
def State.loadBad (s : State) (c : Cmd) : Option Nat :=
  match s.funcPart c.func with
  | none => if ((opcodeInfo c.opcode).map (·.2)).getD false then some 0x17 else none
  | some p =>
    if !c.isSpan then none
    else
      match s.spanImage p c with
      | none => none
      | some m =>
        if c.opcode == 0x31 && s.fnFiller c.func then some rFiller
        else if !s.fnFiller c.func && (s.part p).hopRefused == some (m.addr, Img.crc m.bytes) then some rHop
        else if (s.spanBad c).isSome then s.spanBad c
        else if c.imageSize != m.bytes.length then some rHeader
        else if Img.rate m.bytes != s.rate then some rHeader
        else if decide (Img.seqLen m.bytes < c.first + c.frames) then some rFold
        else none

/-- Why a command is refused at its admission, if it is (R254, R294, R354, R376, R403, R419, R456). -/
def State.startBad (s : State) (c : Cmd) : Option Nat :=
  match s.funcPart c.func with
  | none => none
  | some p =>
    let x := s.part p
    if c.isSpan then
      match s.spanImage p c with
      | none => none
      | some m => if c.opcode == 0x31 then s.replayBad c x m else s.layerBad c x
    else if c.opcode == 0x02 then s.copyBad c x
    else if c.opcode == 0x30 then s.ckptBad c x
    else if isColl c.opcode then s.checkColl c
    else none

/-- Why an admissible command is refused, if it is. -/
def State.admitBad (s : State) (c : Cmd) : Option Nat :=
  match s.loadBad c with
  | some r => some r
  | none => s.startBad c

/-- The marks of an admission, the first of which ends the start-up's count of stalls (R470): count, age of the pages it names, trace (R290, R360, R367, R480). -/
def State.noteAdmitted (s : State) (id : Nat) (c : Cmd) : State :=
  let pages := s.namedPages c
  let p := (s.funcPart c.func).filter fun _ => c.isSpan
  let s1 := s.modCmd id fun c => { c with
    admitted := some s.tick, late := c.calEn && decide (c.calends < s.tick), pages := pages
    startAcc := if p.isSome then s.reg (bar0 c.func 0xA100) else 0
    startIsrs := p.elim [] s.partIsrs
    startColls := p.elim [] s.partColls }
  let s2 := pages.foldl (fun s k =>
    match s.page c.func (bitOf k 31) (k % 2 ^ 31) with
    | some p => s.setPage c.func (bitOf k 31) (k % 2 ^ 31) (some { p with age := s.tick })
    | none => s) s1
  let s2 := if s2.obs.admitted then s2 else s2.countStalls
  let s3 := { s2 with cp := { s2.cp with admittedNow := s2.cp.admittedNow + 1 }, obs := { s2.obs with admitted := true } }
  ((s3.tally 11 0 2 1).count (cpReg 0x14) 1).trace 1 c.func (c.q % 64 + 2 ^ 6 * c.opcode) c.hseq

/-- The event operation of an EVENT (R356); a SET stands against the window's other signals (R372). -/
def State.eventOp (s : State) (c : Cmd) : State :=
  let e := c.pay 4 2
  let v := c.pay 8 4
  let set := c.pay 0 1 == 1
  { s with
    events := kset 0 s.events e (if set then v else (kget 0 s.events e + v) % 2 ^ 32)
    cp := { s.cp with setNow := if set then e :: s.cp.setNow else s.cp.setNow } }

/-- An admitted RUN_SPAN or REPLAY runs its partition's frames, its cores' CSTAT cleared (R73); a filler's runs in its host's
(R340, R360, R420). -/
def State.startSpan (s : State) (id p : Nat) (c : Cmd) : State :=
  let clear (x : Nat × Core) : Nat × Core := if (s.part p).hasDie (dieOf x.1) then (x.1, { x.2 with cstat := 0 }) else x
  let s1 := if s.fnFiller c.func then s else
    let s2 := s.modPart p fun x => { x with run := some id }
    { s2 with cores := (s2.cores.map clear).filter fun x => x.2 != {} }
  if c.opcode != 0x31 then s1
  else
    match s1.spanImage p c with
    | some m => s1.startReplay id p c m
    | none => s1

/-- What an admitted command does at its admission. -/
def State.startCmd (s : State) (id : Nat) (c : Cmd) : State :=
  match c.opcode with
  | 0x22 => (s.eventOp c).completeOwn id
  | 0x23 => s.completeOwn id
  | 0x19 => s.commitStep id c
  | 0x20 => s.openWindow id c
  | 0x21 => s.closeWindow id c
  | _ =>
    match s.funcPart c.func with
    | none => s
    | some p =>
      if c.isSpan then s.startSpan id p c
      else if c.opcode == 0x02 then s.startCopy id p (s.part p).ord c
      else if c.opcode == 0x30 then s.startCkpt id p c
      else s.startColl id p c

/-- Admit an admissible command: refused before or at its admission, skipped or started; one refused at its admission counts as
admitted (R360, R362, R395; DEDUCED, notes/assumptions/62). -/
def State.admitCmd (s : State) (id : Nat) (c : Cmd) : State :=
  match if c.skipped then none else s.loadBad c with
  | some r => s.deny id r
  | none =>
    let s1 := s.noteAdmitted id c
    match s1.cmd id with
    | none => s1
    | some c1 =>
      if c1.skipped then s1.completeOwn id
      else
        match s.startBad c with
        | some r => s1.deny id r
        | none => s1.startCmd id c1

/-! ### Candidates (R360) -/

/-- The next command of each queue to be considered: accepted, not admitted, the earliest of its queue. -/
def queueHeads : List (Nat × Nat) → List (Nat × Option Cmd) → List (Nat × Cmd)
  | _, [] => []
  | seen, (id, some c) :: t =>
    if c.accepted.isSome && c.admitted.isNone && !seen.contains (c.func, c.q) then
      (id, c) :: queueHeads ((c.func, c.q) :: seen) t
    else queueHeads seen t
  | seen, (_, none) :: t => queueHeads seen t

/-- Does candidate a come before b: a Calends equal to the count first, then by function and queue? -/
def State.candBefore (s : State) (a b : Nat × Cmd) : Bool :=
  let k (c : Cmd) : Nat := (natOf (!(c.calEn && c.calends == s.tick)) * 256 + c.func) * 64 + c.q
  decide (k a.2 < k b.2)

/-- The candidate for admission next among those an opcode test allows. -/
def State.candidate (s : State) (allow : Cmd → Bool) : Option (Nat × Cmd) :=
  ((queueHeads [] s.cmds).filter fun x => allow x.2 && s.admissible x.1 x.2).foldl (fun best x =>
    match best with
    | some b => if s.candBefore x b then some x else best
    | none => some x) none

/-- Admit candidates one after the other; at most 1,024 in a tick window, fewer where the active CP fails in it (R360, R454). -/
def State.admitAll (s : State) (allow : Cmd → Bool) : Nat → State
  | 0 => s
  | n + 1 =>
    if s.cp.admitLimit ≤ s.cp.admittedNow then s
    else
      match s.candidate allow with
      | some x => State.admitAll (s.admitCmd x.1 x.2) allow n
      | none => s

/-- The admissions of a tick window: event operations first, then the rest (R356, R360). -/
def State.admissions (s : State) : State :=
  let n := s.cmds.length
  (s.admitAll (fun c => c.opcode == 0x22) n).admitAll (fun _ => true) n

/-! ### The frame that opens (R47, R211, R212, R295, R340, R353) -/

/-- The pattern of frame k of a span that runs image m. -/
def ImgHeld.patternOf (m : ImgHeld) (c : Cmd) (k : Nat) : Nat := Img.nat m.bytes ((Img.sec m.bytes 11).off + 4 * (c.first + k)) 1

/-- The fillers' running spans of partition p: command, function, image. -/
def State.fillerSpans (s : State) (p : Nat) : List (Nat × Cmd × ImgHeld) :=
  s.cmds.filterMap fun x => x.2.bind fun c =>
    if c.opcode == 0x01 && c.admitted.isSome && s.fnFiller c.func && s.inPart p c.func && c.opened < c.frames then
      ((s.part p).fillers.find? fun m => m.func == c.func).map fun m => (x.1, c, m)
    else none

/-- A command's next frame opens as frame ordinal ord. -/
def State.openedBy (s : State) (id ord : Nat) : State :=
  s.modCmd id fun c => { c with
    opened := c.opened + 1
    launchOrd := if c.opened == 0 then ord else c.launchOrd
    endOrd := if c.opened + 1 == c.frames then some ord else c.endOrd }

/-- The open frame of partition p takes up the span that runs: its index, its pattern, the fillers whose pattern is the same,
its layer copies and theirs (R295). -/
def State.dressFrame (s : State) (p : Nat) : State :=
  let x := s.part p
  match x.frame, x.run, x.image with
  | some fr, some id, some m =>
    if fr.cmd.isSome || fr.fast || fr.load then s
    else
      match s.cmd id with
      | none => s
      | some c =>
        if c.frames ≤ c.opened then s
        else
          let pat := m.patternOf c c.opened
          let fs := if c.opcode == 0x31 then [] else
            (s.fillerSpans p).filter fun y => y.2.2.patternOf y.2.1 y.2.1.opened == pat
          let fr1 := { fr with
            cmd := some id
            k := c.opened
            pattern := some pat
            fillers := fs.map fun y => (y.2.1.func, pat)
            fillerRuns := fs.map fun y => (y.1, y.2.1.opened) }
          let s1 := (s.modPart p fun x => { x with frame := some fr1 }).openedBy id fr.ord
          fs.foldl (fun s y => (s.openedBy y.1 fr.ord).startLayers p y.1 y.2.1.opened) (s1.startLayers p id c.opened)
  | _, _, _ => s

/-- A frame of partition p opens at this tick: each core takes its slot list from the start, its mirror engine the state just
sealed. -/
def State.openFrame (s : State) (p : Nat) (fast load : Bool) : State :=
  let fr : Frame := { ord := (s.part p).ord, opened := s.tick, fast := fast, load := load }
  let s1 := s.modPart p fun x => { x with frame := some fr, fastNext := false, loading := false }
  let fresh (c : Nat × Core) : Nat × Core :=
    if s.partOf c.1 == some p then (c.1, { c.2 with slotIndex := 0, slotOpen := none, mirrored := 0 }) else c
  ({ s1 with cores := s1.cores.map fresh }).dressFrame p

/-! ### The rows -/

/-- The command at the head of queue q of function f, of one opcode, is considered for admission in this tick window; the open
frame then takes up a span so admitted (R360). -/
def considerCommand (op f q : Nat) (s : State) : Host.Outcome State Fault Refusal :=
  if !(decide (f < 256) && decide (q < 64)) then .fault .noSuchUnit
  else if s.halted then .next s
  else
    match (queueHeads [] s.cmds).find? fun x => x.2.func == f && x.2.q == q with
    | none => .next s
    | some x =>
      if x.2.opcode == op && decide (s.cp.admittedNow < s.cp.admitLimit) && s.admissible x.1 x.2 then
        .next ((List.range 8).foldl State.dressFrame (s.admitCmd x.1 x.2))
      else .next s

/-- RUN_SPAN (R353). -/
def execRunSpan (f q : Nat) (s : State) : Host.Outcome State Fault Refusal := considerCommand 0x01 f q s
/-- COPY (R354). -/
def execCopy (f q : Nat) (s : State) : Host.Outcome State Fault Refusal := considerCommand 0x02 f q s
/-- REDUCE_SCATTER (R381). -/
def execReduceScatter (f q : Nat) (s : State) : Host.Outcome State Fault Refusal := considerCommand opRS f q s
/-- ALL_GATHER (R381). -/
def execAllGather (f q : Nat) (s : State) : Host.Outcome State Fault Refusal := considerCommand opAG f q s
/-- ALL_REDUCE (R381). -/
def execAllReduce (f q : Nat) (s : State) : Host.Outcome State Fault Refusal := considerCommand opAR f q s
/-- BROADCAST (R381). -/
def execBroadcast (f q : Nat) (s : State) : Host.Outcome State Fault Refusal := considerCommand opBC f q s
/-- PERMUTE (R398). -/
def execPermute (f q : Nat) (s : State) : Host.Outcome State Fault Refusal := considerCommand opPM f q s
/-- ROTATE (R396). -/
def execRotate (f q : Nat) (s : State) : Host.Outcome State Fault Refusal := considerCommand opRO f q s
/-- VOTE (R394). -/
def execVote (f q : Nat) (s : State) : Host.Outcome State Fault Refusal := considerCommand opVT f q s
/-- COMMIT_STEP (R395). -/
def execCommitStep (f q : Nat) (s : State) : Host.Outcome State Fault Refusal := considerCommand 0x19 f q s
/-- WINDOW_OPEN (R355). -/
def execWindowOpen (f q : Nat) (s : State) : Host.Outcome State Fault Refusal := considerCommand 0x20 f q s
/-- WINDOW_CLOSE (R355). -/
def execWindowClose (f q : Nat) (s : State) : Host.Outcome State Fault Refusal := considerCommand 0x21 f q s
/-- EVENT (R356). -/
def execEvent (f q : Nat) (s : State) : Host.Outcome State Fault Refusal := considerCommand 0x22 f q s
/-- FENCE (R356). -/
def execFence (f q : Nat) (s : State) : Host.Outcome State Fault Refusal := considerCommand 0x23 f q s
/-- CHECKPOINT (R456). -/
def execCheckpoint (f q : Nat) (s : State) : Host.Outcome State Fault Refusal := considerCommand 0x30 f q s
/-- REPLAY (R420). -/
def execReplay (f q : Nat) (s : State) : Host.Outcome State Fault Refusal := considerCommand 0x31 f q s

end Sys2Proof.Machine
end

