-- ==== Sys2Proof/Machine/Media.lean ====
section
/-! DEFINITION. Tier resources that commands in progress hold: flash windows, bays, pages to be refilled (R276, R279, R291). -/

namespace Sys2Proof.Machine

/-- The flash spans that admitted commands read, with their functions: copies by their own blocks, a REPLAY by its manifest (R276,
R279). -/
def State.spansRead (s : State) : List (Nat × Nat × Nat) :=
  (s.tiers.copies.flatMap fun x => match x.2.bind fun r => r.blk.map fun b => (r, b.2) with
    | some (r, w) => (s.walkFlash r.func w).map fun y => (r.func, y)
    | none => [])
  ++ s.cmds.flatMap fun x => match x.2 with
    | some c => if c.opcode == 0x31 && c.admitted.isSome then (s.flashReads c).map fun y => (c.func, y) else []
    | none => []

/-- Does an admitted command of function f read through window n? -/
def State.readsWindow (s : State) (f n : Nat) : Bool := s.spansRead.any fun x => x.1 == f && (windowsOf x.2.1 x.2.2).contains n

/-- A write of FW_LBA_HI of window n arms the settings of its registers, or is ignored and flagged (R276). -/
def State.armWindow (s : State) (n value : Nat) : State :=
  let ctrl := s.reg (tierReg (0x100 + 16 * n))
  let lba := s.staged 0 (tierReg (0x104 + 16 * n)) + value % 2 ^ 16 * 2 ^ 32
  let owners := [bitsOf ctrl 8 8] ++ ((s.windowNext n).map fun x => bitsOf x.1 8 8).toList
  if owners.any fun f => s.readsWindow f n then s.tierErr 3
  else if bitOf ctrl 0 && s.windowMeets n ctrl lba then s.tierErr 5
  else
    let s1 := s.commitWide 0 (tierReg (0x104 + 16 * n)) (value % 2 ^ 16)
    { s1 with tiers := { s1.tiers with fwArmed := (s1.tiers.fwArmed.filter fun x => x.1 != n) ++ [(n, ctrl, lba)] } }

/-- FLASH_WINDOW_ARM (R276). -/
def execFlashWindowArm (n value : Nat) (s : State) : Host.Outcome State Fault Refusal :=
  if 16 ≤ n then .fault .noSuchUnit
  else if s.vigil.frozen then .next (s.enqueueWrite 0 (tierReg (0x108 + 16 * n)) value 15)
  else .next (s.armWindow n value)

/-- Does an admitted command read or write bay b (R279)? -/
def State.usesBay (s : State) (b : Nat) : Bool :=
  (s.spansRead.any fun x => (s.baysOf x.2.1 x.2.2).contains b)
  || s.cmds.any fun x => match x.2 with
    | some c => c.admitted.isSome && (s.flashWrites c).any fun y => (s.baysOf y.1 y.2).contains b
    | none => false

/-- BAY_OFFLINE (R279). -/
def execBayOffline (b : Nat) (s : State) : Host.Outcome State Fault Refusal :=
  if 4 ≤ b then .fault .noSuchUnit
  else if s.halted || !s.bit (bayReg b) 2 || s.bit (bayReg b) 3 || s.usesBay b then .next s
  else .next ((s.setBit (bayReg b) 3).setUsable b false)

/-- Does an accepted command of function f that is not yet admitted name near page v (R291)? -/
def State.pageWanted (s : State) (f v : Nat) : Bool := s.cmds.any fun x => match x.2 with
  | some c => c.func == f && c.accepted.isSome && c.admitted.isNone && (s.namedPages c).contains (pageKey false v)
  | none => false

/-- REFILL (R291): of an EVICTED page that a waiting command needs. -/
def execRefill (f vpage : Nat) (s : State) : Host.Outcome State Fault Refusal :=
  if 256 ≤ f then .fault .noSuchUnit
  else if s.halted || !s.pageWanted f vpage then .next s
  else .next (s.refill f vpage)

end Sys2Proof.Machine
end

