-- ==== Sys2Proof/Machine/Power.lean ====
section
/-! DEFINITION. The power manager: the cap, the coolant limit, the excess of each frame, the choice of fast frames, sensors
(R492, R494–R498). -/

namespace Sys2Proof.Machine

/-! ### The cap in force (R495, R497) -/

/-- The coolant limit in W/60,000, from the measured flow (0.01 L/min) and inlet (0.01 °C): flow · 4.18 · (55 − inlet). -/
def State.coolantLimit (s : State) : Nat := s.field (mgmtReg 0x228) 0 16 * (5500 - s.field (mgmtReg 0x22C) 0 16) * 418

/-- Is the coolant limit in force: COOL_WARN? -/
def State.coolWarn (s : State) : Bool := s.bit (mgmtReg 0x208) 4

/-- Percent of cap_eff that the heat of the hottest die leaves: 5 % less for each °C above THERM_WARN, at least half. -/
def State.thermPercent (s : State) : Nat := max 50 (100 - 5 * (s.field (mgmtReg 0x224) 0 8 - s.field (mgmtReg 0x220) 0 8))

/-- SLOT_POWER of the carrier record in 10 W units, where it lies below 7,500 W (R507). -/
def State.slotPower (s : State) : Option Nat := (s.mgmt.carrier.map fun b => leNat ((b.drop 0x0C).take 2)).filter fun w => decide (w < 750)

/-- The cap enforced, in 10 W units: PWR_CAP, 0 for none, with SLOT_POWER as its ceiling (R507). -/
def State.cap (s : State) : Option Nat :=
  let c := s.field (mgmtReg 0x200) 0 12
  match s.slotPower with
  | none => if c == 0 then none else some c
  | some w => if c == 0 then some w else some (min c w)

/-- cap_eff in W/6,000,000; none with no cap and no coolant limit. -/
def State.capEff (s : State) : Option Nat :=
  let lim := match s.cap.map (· * 10 * 60000), s.coolWarn with
    | none, false => none
    | none, true => some s.coolantLimit
    | some cap, false => some cap
    | some cap, true => some (min cap s.coolantLimit)
  lim.map fun w => w * s.thermPercent

/-- cap_eff · frame_time in microjoules: a frame of C cycles at 1.5 GHz, rounded down (notes/assumptions/31). -/
def State.capEnergy (s : State) : Option Nat := s.capEff.map fun w => w * s.cycles / (6000000 * 1500)

/-! ### The excess (R495) -/

/-- E after a frame that took `energy` microjoules. -/
def nextExcess (e : Int) (energy : Nat) (cap : Option Nat) : Int :=
  match cap with
  | none => 0
  | some c => min (e + energy - c) c

/-- The measurements of the frame that ends: E, PWR_IN, CAP_ACTIVE, and each partition's energy, kept apart for running and
fast frames; `ended` are the frames that ran. -/
def State.takeEnergy (s : State) (energy : Nat) (parts : List Nat) (ended : Nat → Option Frame) : State :=
  let s1 := { s with mgmt := { s.mgmt with
    energy := nextExcess s.mgmt.energy energy s.capEnergy
    frameEnergy := (List.range 8).foldl (fun m p => kset 0 m p (parts.getD p 0)) []
    runEnergy := (List.range 8).foldl (fun m p => match ended p with
      | some fr => if fr.cmd.isSome then kset 0 m p (parts.getD p 0 + 1) else m
      | none => m) s.mgmt.runEnergy
    fastEnergy := (List.range 8).foldl (fun m p => match ended p with
      | some fr => if fr.fast then kset 0 m p (parts.getD p 0 + 1) else m
      | none => m) s.mgmt.fastEnergy } }
  (s1.setField (mgmtReg 0x204) 0 16 (energy * 1500 / s.cycles)).setField (mgmtReg 0x208) 0 1 (natOf s.capEff.isSome)

/-! ### Fast frames (R37, R51, R496) -/

/-- S_p of partition p: energies are kept plus one, 0 standing for none measured. -/
def State.saving (s : State) (p : Nat) : Int :=
  let r := kget 0 s.mgmt.runEnergy p
  let f := kget 0 s.mgmt.fastEnergy p
  if f == 0 then ((r - 1) / 2 : Nat) else (r : Int) - f

/-- Fast frames among the last 16 frames of partition p: its history is a number of 16 bits. -/
def State.fastCount (s : State) (p : Nat) : Nat := ((List.range 16).filter fun i => bitOf (kget 0 s.mgmt.fastHist p) i).length

/-- PWR_FAST_MAX, 0 taken as 1. -/
def State.fastMax (s : State) : Nat := max 1 (s.field (mgmtReg 0x20C) 0 5)

/-- Does a Calends fall due for partition p at this tick? -/
def State.calendsDue (s : State) (p : Nat) : Bool := s.anyCmd 0 fun _ c =>
  c.admitted.isNone && c.calEn && c.calends == s.tick && s.funcPart c.func == some p

/-- May partition p take a fast frame at this tick: its frame has just been sealed? -/
def State.fastEligible (s : State) (p : Nat) : Bool :=
  let x := s.part p
  x.valid && !s.partStill p && x.frame.isNone && x.stopReq.isNone && x.run.isSome && !s.calendsDue p
    && (s.bit (mgmtReg 0x208) 2 || decide (s.fastCount p < s.fastMax))

/-- Insert a partition by descending energy of its last frame; ties to the lower index. -/
def byEnergy (e : Nat → Nat) (p : Nat) : List Nat → List Nat
  | [] => [p]
  | q :: l => if decide (e q < e p) then p :: q :: l else q :: byEnergy e p l

/-- Select partitions of a list while the working copy of E stays above 0. -/
def State.selectFast (s : State) : Int → List Nat → State
  | _, [] => s
  | w, p :: l =>
    if 0 < w then State.selectFast (s.modPart p fun x => { x with fastNext := true }) (w - s.saving p) l else s

/-- The selection of a tick (R496). -/
def State.chooseFast (s : State) : State :=
  let s0 := s.clearBit (mgmtReg 0x208) 1
  if s.mgmt.energy ≤ 0 then s0
  else
    let l := ((List.range 8).filter s.fastEligible).foldl (fun l p => byEnergy (kget 0 s.mgmt.frameEnergy) p l) []
    if l.isEmpty then (s0.setBit (mgmtReg 0x208) 1).count (mgmtReg 0x210) 1
    else s0.selectFast s.mgmt.energy l

/-- A partition's history gains the frame that opens. -/
def State.noteFast (s : State) (p : Nat) (fast : Bool) : State :=
  { s with mgmt := { s.mgmt with fastHist := kmod 0 s.mgmt.fastHist p fun h => (2 * h + natOf fast) % 2 ^ 16 } }

/-! ### Sensors (R492, R496, R497) -/

/-- POWER_LIMIT (R496): HW_LIMIT above 7.5 kW, until the average falls below 7.2 kW. -/
def execPowerLimit (watts : Nat) (s : State) : Host.Outcome State Fault Refusal :=
  if s.mgmt.dark then .next s
  else if 7500 < watts then .next (s.setBit (mgmtReg 0x208) 2)
  else if watts < 7200 then .next (s.clearBit (mgmtReg 0x208) 2)
  else .next s

/-- COOLANT_WARN (R497): the power manager's measurements set COOL_WARN and THERM_WARN. -/
def execCoolantWarn (flow inlet temp : Nat) (s : State) : Host.Outcome State Fault Refusal :=
  if s.mgmt.dark then .next s
  else
    let s1 := ((s.setField (mgmtReg 0x224) 0 8 temp).setField (mgmtReg 0x228) 0 16 flow).setField (mgmtReg 0x22C) 0 16 inlet
    let s2 := s1.setField (mgmtReg 0x208) 4 1 (natOf (decide (4000 < inlet) || decide (flow < 720)))
    .next (s2.setField (mgmtReg 0x208) 3 1 (natOf (decide (s.field (mgmtReg 0x220) 0 8 ≤ temp))))

end Sys2Proof.Machine
end

