-- ==== Sys2Proof/Machine/Recovery.lean ====
section
/-! DEFINITION. Faults and recovery: what a detected fault does, remap substitutions and their records, slices and stacks, the
scrubber's vote, failover of the command processor, device reset (R7, R18, R20, R35, R220, R269, R359, R369, R426, R432,
R438–R450, R453, R454, R460–R464). -/

namespace Sys2Proof.Machine

/-! ### A partition is struck (R432, R439, R440) -/

/-- The admitted commands whose frames run in partition p. -/
def State.runsIn (s : State) (p : Nat) : List Nat :=
  s.cmds.filterMap fun x => x.2.bind fun c => if c.admitted.isSome && s.inPart p c.func then some x.1 else none

/-- The RUN_SPANs and REPLAY that partition p runs, its fillers' too. -/
def State.spansOf (s : State) (p : Nat) : List Nat :=
  (s.runsIn p).filter fun id => ((s.cmd id).map Cmd.isSpan).getD false

/-- The running commands of partition p complete FAULT (R426). -/
def State.stopSpans (s : State) (p reason source unit : Nat) : State :=
  (s.spansOf p).foldl (fun s id => s.faultCmd id { reason := reason, source := source, unit := unit }) s

/-- The loader's re-check of hops and mesh paths against the table that becomes active (R217, R220): an image that fails it
is refused, and its running command completes FAULT. -/
def State.recheck (s : State) (p : Nat) : State :=
  match (s.part p).image with
  | none => s
  | some m =>
    if (s.checkHops m.bytes m.orgRow m.orgCol).isNone then s.modPart p ({ · with hopRefused := none })
    else
      let s1 := s.modPart p ({ · with hopRefused := some (m.addr, Img.crc m.bytes) })
      match (s.part p).run with
      | some id => s1.faultCmd id { reason := rHop, source := 5, unit := p }
      | none => s1

/-- Writes and messages of the frames from an ordinal on are discarded (R432). -/
def State.discardFrom (s : State) (p ord : Nat) : State :=
  let s1 := s.discardHeld p ord
  s1.setRing (s1.links.ring.filter fun m => !(m.part == p && decide (ord ≤ m.ord) && m.seq.isNone))

/-- The slips already counted while partition p ran the frames that a recovery discards, and the tick that opened the first of
them (R442). -/
def Part.discarded (x : Part) (tick : Nat) (caseB : Bool) : Nat :=
  match x.sealed, x.frame with
  | some a, some b => if caseB then a.opened + (a.sealTick - a.opened - 1) + x.slips else b.opened + x.slips
  | _, some b => b.opened + x.slips
  | _, none => tick

/-- A covered fault strikes partition p (R439–R442): it stops, its windows are parked, its uncommitted frames are discarded; a
second fault before it reopens is outside cover. KIND is that of the substitution, or 6; `first` the first 8 B of its record. -/
def State.strike (s : State) (p kind first : Nat) : State :=
  let x := s.part p
  if !x.valid || x.stopped then s
  else if x.recov.isSome then s.stopSpans p 0x33 5 p
  else
    let caseB := (x.sealed.map fun f => !f.mirrored).getD false
    let firstOrd := if caseB then x.ord - 1 else x.ord
    let r : Recov := { caseB := caseB, restoreOrd := if firstOrd == 0 then none else some (firstOrd - 1), firstOrd := firstOrd
                       kind := kind, began := x.discarded s.tick caseB }
    let s1 := (s.modPart p fun x => { x with
      recov := some r, frame := none, slips := 0, fastNext := false
      sealed := if caseB then none else x.sealed }).discardFrom p firstOrd
    let s2 := s1.count (bar0 x.func 0xA340) 1
    let s3 := (s2.setWide (bar0 x.func 0xA344) (s.tick + 1)).setReg (bar0 x.func 0xA34C) (kind % 8 + 8 * natOf caseB)
    let s4 := { s3 with obs := { s3.obs with partCnt := kmod 0 s3.obs.partCnt (4 * p + 2) (· + 1) } }
    ((s4.park p true).trace 4 x.func (5 + 2 ^ 8 * kind) first).recheck p

/-- RECOVERY's restore (R438–R440): from the slot of R439, checked, or from the start state of the load; a slot that does
not check is outside cover. -/
def State.restorePart (s : State) (p : Nat) (r : Recov) : State :=
  let x := s.part p
  let done (s : State) : State := s.modPart p ({ · with recov := some { r with restored := true }, ord := r.firstOrd })
  match x.image, r.restoreOrd with
  | none, some j => if (x.snap j).valid && (x.snap j).ord == j then done (s.restoreSnap p (x.snap j)) else done s
  | none, none => done s
  | some m, none => done (s.restoreStart p m)
  | some m, some j =>
    if j < x.loadOrd then done (s.restoreStart p m)
    else if (x.snap j).ord == j && s.slotGood x m j then done (s.restoreSnap p (x.snap j))
    else done (s.stopSpans p 0x33 5 p)

/-- RECOVERY of partition p (R440). -/
def execRecovery (p : Nat) (s : State) : Host.Outcome State Fault Refusal :=
  if 8 ≤ p then .fault .noSuchUnit
  else if s.halted then .next s
  else
    match (s.part p).recov with
    | none => .next s
    | some r => if r.restored then .next s else .next (s.restorePart p r)

/-! ### Remap records (R35, R448, R462, R492) -/

/-- A write of REMAP_REC_POP: bit 0 set removes the oldest record (R462). -/
def execRemapRecPop (d : Nat) (s : State) : Host.Outcome State Fault Refusal :=
  if 8 ≤ d then .fault .noSuchUnit
  else if s.vigil.frozen then .next (s.enqueueWrite 0 (remapReg d 0x30) 1 15)
  else .next (s.popRecord d)

/-- MC_REMAP_RECORD_REMOVAL (R492): the MC appends the oldest record to the remap history; while the MC restarts, records wait
(R35). -/
def execMcRemapRecordRemoval (d : Nat) (s : State) : Host.Outcome State Fault Refusal :=
  if 8 ≤ d then .fault .noSuchUnit
  else if s.mgmt.dark || s.mgmt.mcRestart then .next s
  else
    match kget [] s.remap.records d with
    | [] => .next s
    | r :: _ => .next (({ s with remap := { s.remap with history := s.remap.history ++ [(d, r)] } }).popRecord d)

/-! ### Sites (R7, R18, R444, R445) -/

/-- REMAP_ROW of a half-row. -/
def rowReg (d h r : Nat) : Nat := remapReg d (0x400 + 4 * (64 * h + r))

/-- The logical column that a physical column serves under the table that becomes active. -/
def State.logicalAt (s : State) (d h r col : Nat) : Option Nat :=
  (List.range s.perRow).find? fun j => physColumn (s.retiredNext d h r) j == col

/-- Is a half-row full (R445)? -/
def State.rowFull (s : State) (d h r : Nat) : Bool := decide (s.rowSpares ≤ (s.retiredNext d h r).length)

/-- The lowest unused site at or above a column. -/
def State.spareSite (s : State) (d h r col : Nat) : Option Nat :=
  (List.range 50).find? fun x => decide (col ≤ x) && !(s.retiredNext d h r).contains x && (s.logicalAt d h r x).isNone

/-- The partitions that hold a die. -/
def State.partsOn (s : State) (d : Nat) : List Nat :=
  (List.range 8).filter fun p => (s.part p).hasDie d && !(s.part p).stopped

/-- Each of a list of partitions is struck. -/
def State.strikeAll (s : State) (kind first : Nat) (l : List Nat) : State := l.foldl (fun s p => s.strike p kind first) s

/-- A further failure strikes a full row (R445): the command stops, the row shows EXHAUSTED, a record of KIND 5 is queued. -/
def State.exhaustRow (s : State) (d h r : Nat) : State :=
  let s1 := (s.setBit (rowReg d h r) 4).queueRecord d (remapRecord s.tick 5 false h r 0 false 0)
  (s.partsOn d).foldl (fun s p => s.stopSpans p 0x33 5 p) s1

/-- A site is retired in the shadow bank (R444): where it served a logical core, the columns up to the lowest unused site
shift east, and the die's partition recovers. -/
def State.retireSite (s : State) (d h r col : Nat) (software : Bool) : State :=
  let serves := (s.logicalAt d h r col).isSome
  let spare := if serves then (s.spareSite d h r col).getD 0 else 0
  let l := s.retiredNext d h r ++ [col]
  let s1 := { s with remap := { s.remap with
    nextSites := (s.remap.nextSites.filter fun (x : Nat × List Nat) => x.1 != 64 * (2 * d + h) + r) ++ [(64 * (2 * d + h) + r, l)] } }
  let s2 := (s1.setReg (rowReg d h r) (min l.length 7 + 8 * natOf (decide (s.rowSpares ≤ l.length)) + 16 * natOf (s.bit (rowReg d h r) 4)))
  let s3 := (s2.setBit (remapReg d 0) 1).dueRecord d (remapRecord 0 0 software h r col false spare)
  if serves then s3.strikeAll 0 (s.tick + 1) (s.partsOn d) else s3

/-- A failed site (R444, R445). -/
def State.failSite (s : State) (d h r col : Nat) : State :=
  if 50 ≤ col || (s.retiredNext d h r).contains col then s
  else if s.rowFull d h r then s.exhaustRow d h r
  else s.retireSite d h r col false

/-! ### Seam tracks (R20, R444) -/

/-- Retired wires of a row and direction under the table that becomes active. -/
def State.tracksNext (s : State) (d r : Nat) (dir : Bool) : List Nat :=
  let k := 128 * d + 2 * r + natOf dir
  match s.remap.nextTracks.find? fun x => x.1 == k with
  | some x => x.2
  | none => kget [] s.remap.tracks k

/-- The spare tracks (512–527) that serve once the tracks of a list have been retired one after the other: each retirement of a
track in service brings in the lowest spare that neither serves nor is retired (R20, R444). -/
def servingSpares : List Nat → List Nat → List Nat → List Nat
  | _, on, [] => on
  | gone, on, i :: rest =>
    let gone1 := i :: gone
    if 512 ≤ i && !on.contains i then servingSpares gone1 on rest
    else
      let on1 := on.erase i
      let spare := ((List.range 16).map (· + 512)).find? fun x => !on1.contains x && !gone1.contains x
      servingSpares gone1 (spare.toList ++ on1) rest

/-- The spare that the next retirement of a track in service brings in. -/
def nextSpare (l : List Nat) : Option Nat :=
  ((List.range 16).map (· + 512)).find? fun x => !(servingSpares [] [] l).contains x && !l.contains x

/-- Does a track serve: a wire of the row, or a spare brought in? -/
def trackServes (l : List Nat) (i : Nat) : Bool := !l.contains i && (decide (i < 512) || (servingSpares [] [] l).contains i)

/-- A track is retired: one that serves is replaced by the lowest spare of its row and direction, and the die's partitions
recover; a spare not in use only goes out of use (R444, R459). -/
def State.retireTrack (s : State) (d r index : Nat) (dir software : Bool) : State :=
  let l := s.tracksNext d r dir
  let s1 := { s with remap := { s.remap with
    nextTracks := (s.remap.nextTracks.filter fun (x : Nat × List Nat) => x.1 != 128 * d + 2 * r + natOf dir) ++ [(128 * d + 2 * r + natOf dir, l ++ [index])] } }
  let spare := if trackServes l index then (nextSpare l).getD 0 else 0
  let s2 := (s1.setBit (remapReg d 0) 1).dueRecord d (remapRecord 0 1 software 0 r index dir spare)
  if trackServes l index then s2.strikeAll 1 (s.tick + 1) (s.partsOn d) else s2

/-- A failed track (R444); with no spare left it is outside cover. -/
def State.failTrack (s : State) (d r index : Nat) (dir : Bool) : State :=
  let l := s.tracksNext d r dir
  if 528 ≤ index || l.contains index then s
  else if trackServes l index && (nextSpare l).isNone then (s.partsOn d).foldl (fun s p => s.stopSpans p 0x33 5 p) s
  else s.retireTrack d r index dir false

/-! ### Store slices (R444, R446) -/

/-- Is slice parity in service on a half (STORE_STATUS)? -/
def State.sliceParity (s : State) (d h : Nat) : Bool := s.bit (storeReg d 0) h

/-- Does a range of keys touch the store of die d? -/
def touchesStore (d a n : Nat) : Bool :=
  n != 0 && decide (a < storeKey + (d + 1) * 0x20000000) && decide (storeKey + d * 0x20000000 < a + n)

/-- The partitions that hold an image on die d, or whose admitted command names a line of its store (R444). -/
def State.partsOnStore (s : State) (d : Nat) : List Nat :=
  (List.range 8).filter fun p =>
    let x := s.part p
    !x.stopped && ((x.hasDie d && x.image.isSome) || (s.runsIn p).any fun id => match s.cmd id with
      | some c => (s.namedRanges c).any fun r => touchesStore d r.1 r.2
      | none => false)

/-- The first keys of the lines of logical slice l of half h of die d. -/
def sliceLines (d h l : Nat) : List Nat :=
  (List.range 16384).map fun line =>
    storeKey + d * 0x20000000 + 2 ^ 15 * line + 2 ^ 8 * (((64 * h + l) ^^^ line) % 128)

/-- Mark a list of lines. -/
def State.markLines (s : State) (l : List Nat) : State := { s with marks := l.foldl (fun m k => kset false m k true) s.marks }

/-- Slices whose lines are lost, outside cover: marked and counted, and the affected commands stop (R446). -/
def State.loseSlices (s : State) (d h : Nat) (l : List Nat) : State :=
  let s1 := l.foldl (fun s x => (s.markLines (sliceLines d h x)).count (storeReg d 0x14) 16384) s
  (s.partsOnStore d).foldl (fun s p => s.stopSpans p 0x33 5 p) s1

/-- The logical slice that the spare of half h serves, or will serve from the next tick. -/
def State.spareServes (s : State) (d h : Nat) : Option Nat :=
  (kget none s.remap.nextSlices (2 * d + h)).orElse fun _ => kget none s.remap.slices (2 * d + h)

/-- The rebuild of half h of die d ends, done or not: nothing is busy, and parity is out of service. -/
def State.endRebuild (s : State) (d h : Nat) : State :=
  let s1 := { s with remap := { s.remap with failedSlice := kset none s.remap.failedSlice (2 * d + h) none } }
  ((s1.clearBit (storeReg d 0) h).setField (storeReg d 0) 2 8 0).clearBit (remapReg d 0) 0

/-- The spare slice of a half fails (R446): unused it takes parity out of service; in service, or under rebuild, the lines it was to
serve are lost. -/
def State.failSpareSlice (s : State) (d h : Nat) : State :=
  match s.spareServes d h, kget none s.remap.failedSlice (2 * d + h) with
  | some l, _ => s.loseSlices d h [l]
  | none, some l => (s.endRebuild d h).loseSlices d h [l]
  | none, none =>
    if s.sliceParity d h then (s.clearBit (storeReg d 0) h).dueRecord d (remapRecord 0 2 false h 0 64 false 0) else s

/-- A slice fails, or is given up: with parity its rebuild begins and every affected partition recovers; without, or while another
slice of its half is rebuilt from it, the lines that are lost are marked and the failure is outside cover (R444, R446). A slice that
the spare has replaced is out of service (what a second failure meets: DESIGN CHOICE, notes/assumptions/82). -/
def State.failSlice (s : State) (d h slice : Nat) (software : Bool) : State :=
  if 64 < slice then s
  else if slice == 64 then s.failSpareSlice d h
  else if s.spareServes d h == some slice || kget none s.remap.failedSlice (2 * d + h) == some slice then s
  else
    match kget none s.remap.failedSlice (2 * d + h) with
    | some l => s.loseSlices d h [l, slice]
    | none =>
      if s.sliceParity d h then
        let s1 := { s with remap := { s.remap with failedSlice := kset none s.remap.failedSlice (2 * d + h) (some slice)
                                                   software := software } }
        let s2 := ((s1.setBit (storeReg d 0) 2).setField (storeReg d 0) 3 7 slice).setBit (remapReg d 0) 0
        s2.strikeAll 2 (s.tick + 1) (s.partsOnStore d)
      else s.loseSlices d h [slice]

/-- SLICE_REBUILD (R37, R446): the rebuild ends, the half runs without parity from then on, and the spare takes the failed slice's
number at the next tick. -/
def execSliceRebuild (d half : Nat) (s : State) : Host.Outcome State Fault Refusal :=
  if 8 ≤ d || 2 ≤ half then .fault .noSuchUnit
  else if s.halted then .next s
  else
    match kget none s.remap.failedSlice (2 * d + half) with
    | none => .next s
    | some l =>
      let s1 := { s with remap := { s.remap with nextSlices := kset none s.remap.nextSlices (2 * d + half) (some l) } }
      .next (((s1.endRebuild d half).setBit (remapReg d 0) 1).dueRecord d (remapRecord 0 2 s.remap.software half 0 l false 64))

/-- One more uncorrectable line of a slice in this frame: the fourth is a failure of the slice that serves it (R426). -/
def State.countBadLine (s : State) (sl : Nat) : State :=
  let n := kget 0 s.remap.badLines sl + 1
  let s1 := { s with remap := { s.remap with badLines := kset 0 s.remap.badLines sl n } }
  let d := sl / 128
  let h := sl % 128 / 64
  if n == 4 then s1.failSlice d h (if s.spareServes d h == some (sl % 64) then 64 else sl % 64) false else s1

/-- An uncorrectable line of a healthy slice: rebuilt from parity and written back, or marked; the fourth of one slice within a frame
is a slice failure (R426, R446). -/
def State.badStoreLine (s : State) (base : Nat) (rebuilt : Bool) : State :=
  let o := base - storeKey
  let d := o / 0x20000000
  let sl := s.sliceOf 0 base
  if base < storeKey || 8 ≤ d then s
  else
    let s1 := if rebuilt && s.sliceParity d (sl % 128 / 64) then s.count (storeReg d 0x10) 1
      else (s.markLines [base / 256 * 256]).count (storeReg d 0x14) 1
    s1.countBadLine sl

/-- LINE_PARITY_REBUILD (R446). -/
def execLineParityRebuild (base : Nat) (s : State) : Host.Outcome State Fault Refusal :=
  if s.halted then .next s else .next (s.badStoreLine base true)

/-! ### Stacks (R269, R447) -/

/-- A stack's controller fails, its error rate passes STACK_LIMIT, or a DIMM is lost (n from 16 on): a stack retires where parity is on
and none has; else its lines are lost, outside cover (R269, R270, R370, R447). -/
def State.failStack (s : State) (n : Nat) : State :=
  if decide (n < 16) && s.stackCover then s.retireStack n
  else if decide (n < 16) && s.bit (tierReg 0) 2 && s.field (tierReg 0) 3 4 == n then s
  else
    let s1 := { s with tiers := { s.tiers with lost := if s.tiers.lost.contains n then s.tiers.lost else s.tiers.lost ++ [n] } }
    (List.range 8).foldl (fun s p => s.stopSpans p 0x33 5 n) s1

/-- STACK_RETIRE (R447). -/
def execStackRetire (stack : Nat) (s : State) : Host.Outcome State Fault Refusal :=
  if 16 ≤ stack then .fault .noSuchUnit else if s.halted then .next s else .next (s.failStack stack)

/-! ### Pads and instruction stores (R426, R449) -/

/-- The partition whose RUN_SPAN runs on a core. -/
def State.runningOn (s : State) (c : Nat) : Option Nat := (s.partOf c).filter fun p => (s.part p).run.isSome

/-- An uncorrectable pad word: recovery where a RUN_SPAN runs, else its unit is marked. -/
def State.badPad (s : State) (k : Nat) : State :=
  let c := (k - padKey) / 0x40000
  let s1 := s.count (scrubReg (dieOf c) 8) 1
  match s.runningOn c with
  | some p => s1.strike p 6 s.tick
  | none => s1.markLines [markBase k]

/-- The code of core c is written again from the images held on it, its fillers' too (R426). -/
def State.reloadCode (s : State) (c : Nat) : State :=
  match s.partOf c with
  | none => s
  | some p =>
    let write (index : ImgHeld → Nat → Nat → Nat) (s : State) (m : ImgHeld) : State :=
      match m.vcore c with
      | none => s
      | some vi => (Img.configsOf m.bytes vi).foldl (fun s k => s.writeConfig m vi k (index m vi k)) s
    (s.part p).fillers.foldl (write ImgHeld.fillerIndex) ((s.part p).image.toList.foldl (write fun _ _ k => k) s)

/-- The thread of core k that fetches word n of configuration i: ready in the open slot, its PC at the word. -/
def Core.fetcher (k : Core) (i n : Nat) : Option Nat :=
  if k.slotOpen != some (BitVec.ofNat 3 i) then none
  else (List.range 16).find? fun t => (k.thread t).state == .ready && (k.thread t).pc.toNat == n

/-- An uncorrectable instruction-store word of core c (R106, R426): the FAULT record names the thread that fetches it, if one does,
and that thread stops. A running partition recovers, its code written again from the held images; else the command that the
fault ends completes FAULT, and the word is written at the next load (R449). -/
def State.badCode (s : State) (c word : Nat) : State :=
  let i := word / 256 % 8
  let t := (s.core c).fetcher i (word % 256)
  let s1 := s.count (scrubReg (dieOf c) 8) 1
  match s.runningOn c with
  | some p =>
    let place := c / 6144 + 2 ^ 3 * (c / 3072 % 2) + 2 ^ 4 * (c / 48 % 64) + 2 ^ 10 * s.physOf c + 2 ^ 16 * t.getD 0
      + 2 ^ 20 * (word % 256) + 2 ^ 28 * i + 2 ^ 32 * c
    let s2 := s1.trace 4 (cfgTenant ((s.core c).cfg i)) (1 + 2 ^ 8 * Cause.code .ecc) place
    let s3 := t.elim s2 fun t => s2.modCore c fun k => k.modThread t ({ · with state := .faulted })
    (s3.reloadCode c).strike p 6 s.tick
  | none => t.elim s1 fun t => s1.coreFault c t i (BitVec.ofNat 8 word) .ecc

/-- Core c has failed: its site is replaced (R426). -/
def State.failCore (s : State) (c : Nat) : State := s.failSite (c / 6144) (c / 3072 % 2) (c / 48 % 64) (s.physOf c)

/-- WATCHDOG_EXPIRY (R426). -/
def execWatchdogExpiry (c : Nat) (s : State) : Host.Outcome State Fault Refusal :=
  if !s.isCore c then .fault .noSuchUnit else if s.halted then .next s else .next (s.failCore c)

/-! ### The command processors (R359, R454) -/

/-- Fetched commands not journaled as consumed are fetched again from the same entries (R359). -/
def State.unfetch (s : State) : State :=
  s.cmds.foldl (fun s x => match x.2 with
    | some c =>
      if c.accepted.isSome then s
      else
        let a := queueReg c.func c.q 0x10
        let n := s.sqSize c.func c.q
        ((s.setCmd x.1 none).setReg a ((s.field a 0 16 + n - 1) % n)).modQueue c.func c.q fun u => { u with reserved := u.reserved - 2 }
    | none => s) s

/-- The active command processor fails: the other one continues from the journal, without a standby; with no standby it is
outside cover (R426, R454). -/
def State.failCp (s : State) : State :=
  if s.cp.standby then
    let s1 := { s with cp := { s.cp with cpB := !s.cp.cpB, standby := false } }
    let s2 := (s1.setField (cpReg 0) 0 1 (natOf s1.cp.cpB)).clearBit (cpReg 0) 1
    (s2.count (cpReg 0x18) 1).unfetch
  else (List.range 8).foldl (fun s p => s.stopSpans p 0x33 5 p) s

/-- CP-A fails now; a failure in a tick window leaves that window's further admissions to the next tick (R454). -/
def State.failCpNow (s : State) : State :=
  State.failCp { s with cp := { s.cp with
    admitLimit := if s.subtick ≤ 15 then min s.cp.admitLimit s.cp.admittedNow else s.cp.admitLimit } }

/-- CP_FAILOVER (R454). -/
def execCpFailover (s : State) : Host.Outcome State Fault Refusal :=
  if s.halted then .next s else .next s.failCpNow

/-! ### Detection (R426) -/

/-- What a detected fault does. -/
def State.detect (s : State) : Detected → State
  | .correctable d store scrub =>
    let s1 := if store then s.count (storeReg d 0x0C) 1 else s
    if scrub || !store then s1.count (scrubReg d 4) 1 else s1
  | .padWord k => if isPadKey k then s.badPad k else s
  | .instructionWord c w => if s.isCore c then s.badCode c w else s
  | .coreLogic c => if s.isCore c then s.failCore c else s
  | .seamTrack d r i east => s.failTrack d r i (!east)
  | .storeSlice d h l => s.failSlice d h l false
  | .storeLine b rebuilt => s.badStoreLine b rebuilt
  | .portFault p => if s.portState p == 2 then s.portDown p 1 else s
  | .stackFault n => s.failStack n
  | .tierCorrected => s.count (tierReg 0x1C) 1
  | .tierUncorrectable n => s.stackError n
  | .cpFault none => s.failCpNow
  | .cpFault (some n) => { s with cp := { s.cp with failAfter := some n } }
  | .outsideCover p => s.stopSpans p 0x33 5 p

/-- Does the fault name units the module has? -/
def detectedReal : Detected → Bool
  | .correctable d _ _ => decide (d < 8)
  | .padWord k => isPadKey k
  | .instructionWord c w => decide (c < 49152) && decide (w < 2048)
  | .coreLogic c => decide (c < 49152)
  | .seamTrack d r i _ => decide (d < 8) && decide (r < 64) && decide (i < 528)
  | .storeSlice d h l => decide (d < 8) && decide (h < 2) && decide (l < 65)
  | .storeLine b _ => decide (storeKey ≤ b) && decide (b < storeKey + 0x100000000)
  | .portFault p => decide (p < 8)
  | .stackFault n => decide (n < 32)
  | .tierCorrected => true
  | .tierUncorrectable n => decide (n < 16)
  | .cpFault _ => true
  | .outsideCover p => decide (p < 8)

/-- FAULT_DETECTION (R426). -/
def execFaultDetection (what : Detected) (s : State) : Host.Outcome State Fault Refusal :=
  if !detectedReal what then .fault .noSuchUnit else if s.halted then .next s else .next (s.detect what)

/-- The substitution of a kind: 0 site, 1 track, 2 slice. -/
def State.substitute (s : State) (d kind half row index : Nat) (dir software : Bool) : State :=
  match kind with
  | 0 =>
    if !software then s.failSite d half row index
    else if s.rowFull d half row || (s.retiredNext d half row).contains index then s
    else s.retireSite d half row index true
  | 1 =>
    if !software then s.failTrack d row index dir
    else if decide (512 ≤ index) || (s.tracksNext d row dir).contains index || (nextSpare (s.tracksNext d row dir)).isNone then s
    else s.retireTrack d row index dir true
  | 2 => if software && (!s.sliceParity d half || decide (64 ≤ index)) then s else s.failSlice d half index software
  | _ => s

/-- REMAP_SUBSTITUTION (R444). -/
def execRemapSubstitution (d kind half row index : Nat) (dir software : Bool) (s : State) : Host.Outcome State Fault Refusal :=
  if 8 ≤ d || 3 ≤ kind || 2 ≤ half || 64 ≤ row || (if kind == 0 then 50 else if kind == 1 then 528 else 65) ≤ index then
    .fault .noSuchUnit
  else if s.halted then .next s
  else .next (s.substitute d kind half row index dir software)

/-- ROW_EXHAUSTED (R445): only a full row. -/
def execRowExhausted (d half row : Nat) (s : State) : Host.Outcome State Fault Refusal :=
  if 8 ≤ d || 2 ≤ half || 64 ≤ row then .fault .noSuchUnit
  else if s.halted || !s.rowFull d half row then .next s
  else .next (s.exhaustRow d half row)

/-! ### Software requests (R462) -/

/-- Is REMAP_TARGET not an unretired part of its kind? -/
def State.remapInvalid (s : State) (d kind half row index : Nat) (dir : Bool) : Bool :=
  match kind with
  | 0 => decide (50 ≤ index) || (s.retiredNext d half row).contains index || dir
  | 1 => decide (512 ≤ index) || (s.tracksNext d row dir).contains index
  | 2 => row != 0 || decide (64 ≤ index) || s.spareServes d half == some index || dir
  | _ => true

/-- Is there no spare for it? -/
def State.noSpare (s : State) (d kind half row : Nat) (dir : Bool) : Bool :=
  match kind with
  | 0 => s.rowFull d half row
  | 1 => (nextSpare (s.tracksNext d row dir)).isNone
  | _ => !s.sliceParity d half

/-- REMAP_RESULT: DONE and CODE. -/
def State.remapResult (s : State) (d code : Nat) : State := s.setReg (remapReg d 0x0C) (1 + 2 * code)

/-- REMAP_CTRL.GO of die d with the target of its registers (R462). -/
def State.remapRequest (s : State) (d kind : Nat) : State :=
  let v := s.reg (remapReg d 8)
  let half := bitsOf v 0 1
  let row := bitsOf v 1 6
  let index := bitsOf v 7 10
  let dir := bitOf v 17
  if s.bit (remapReg d 0) 0 then s.setField (remapReg d 0x0C) 1 3 2
  else if s.remapInvalid d kind half row index dir then s.remapResult d 3
  else if s.noSpare d kind half row dir then s.remapResult d 1
  else (s.substitute d kind half row index dir true).remapResult d 0

/-- A write of REMAP_CTRL: ignored while BUSY; KIND is kept, GO clears itself. -/
def State.writeRemapCtrl (s : State) (d v : Nat) : State :=
  if s.bit (remapReg d 0) 0 then s.setField (remapReg d 0x0C) 1 3 2
  else
    let s1 := if 3 ≤ bitsOf v 1 3 then s else s.setReg (remapReg d 4) (2 * bitsOf v 1 3)
    if bitOf v 0 && bitsOf v 1 3 < 3 then s1.remapRequest d (bitsOf v 1 3) else s1

/-- REMAP_GO (R462). -/
def execRemapGo (d : Nat) (s : State) : Host.Outcome State Fault Refusal :=
  if 8 ≤ d then .fault .noSuchUnit
  else if s.vigil.frozen then .next (s.enqueueWrite 0 (remapReg d 4) (s.reg (remapReg d 4) + 1) 15)
  else .next (s.writeRemapCtrl d (s.reg (remapReg d 4) / 2 * 2 + 1))

/-! ### The scrubber (R449, R450) -/

/-- The majority of three values. -/
def vote (a b c : Nat) : Nat := if a == b || a == c then a else b

/-- The three copies of SCRUB_CTRL of die d, as kept beside its register. -/
def State.scrubCopies (s : State) (d : Nat) : Nat × Nat × Nat := kget (1, 1, 1) s.remap.scrub d

/-- Three copies, one of which comes to hold `bad`. -/
def strikeCopy (c : Nat × Nat × Nat) (copy bad : Nat) : Nat × Nat × Nat :=
  if copy == 0 then (bad, c.2.1, c.2.2) else if copy == 1 then (c.1, bad, c.2.2) else (c.1, c.2.1, bad)

/-- Do three copies agree? -/
def agree (x : Nat × Nat × Nat) : Bool := x.1 == x.2.1 && x.2.1 == x.2.2

/-- SCRUB_VOTE_CORRECT (R450): one copy of SCRUB_CTRL, or of the walk pointer, comes to hold `bad`; the vote rewrites it from the
majority and counts. -/
def execScrubVoteCorrect (d : Nat) (copy : ScrubCopy) (bad : Nat) (s : State) : Host.Outcome State Fault Refusal :=
  if 8 ≤ d || !copy.real then .fault .noSuchUnit
  else if s.halted then .next s
  else
    let x := match copy with
      | .control n => strikeCopy (s.scrubCopies d) n bad
      | .pointer n => strikeCopy (kget (0, 0, 0) s.remap.scrubPtr d) n bad
    let v := vote x.1 x.2.1 x.2.2
    let s1 := if agree x then s else s.count (scrubReg d 0x0C) 1
    match copy with
    | .control _ => .next { s1.setReg (scrubReg d 0) v with remap := { s1.remap with scrub := kset (1, 1, 1) s.remap.scrub d (v, v, v) } }
    | .pointer _ => .next { s1 with remap := { s1.remap with scrubPtr := kset (0, 0, 0) s.remap.scrubPtr d (v, v, v) } }

/-- A software write of SCRUB_CTRL sets all three copies. -/
def State.writeScrub (s : State) (d v : Nat) : State :=
  let v := v % 4
  { s.setReg (scrubReg d 0) v with remap := { s.remap with scrub := kset (1, 1, 1) s.remap.scrub d (v, v, v) } }

/-- Guaranteed scrub units in a pass over all arrays of a die, in tick windows: the store slice's 16,384 lines, four in each. -/
def scrubPass : Nat := 4096

/-- The scrubber of each die takes its guaranteed cycles in a tick window, and a pass ends with the longest array (R449). The
three copies of the walk pointer are voted and move together. -/
def State.scrubWindow (s : State) : State :=
  (List.range 8).foldl (fun s d =>
    if !s.bit (scrubReg d 0) 0 then s
    else
      let c := kget (0, 0, 0) s.remap.scrubPtr d
      let n := vote c.1 c.2.1 c.2.2 + 1
      let p := if n == scrubPass then 0 else n
      let s1 := { s with remap := { s.remap with scrubPtr := kset (0, 0, 0) s.remap.scrubPtr d (p, p, p) } }
      if n == scrubPass then s1.count (scrubReg d 0x10) 1 else s1) s

/-! ### Resets (R369, R453, R536, R537) -/

/-- Device reset (R369, R453): every partition is struck, latches and stages clear, a scan or a dump under way is abandoned. A
partition in recovery goes on from the slot it chose (R464). -/
def State.deviceReset (s : State) : State :=
  let s1 := (List.range 8).foldl (fun s p => if (s.part p).recov.isSome then s else s.strike p 6 s.tick) s
  let s2 := { s1 with
    latches := [], stages := []
    obs := { s1.obs with dumpBusy := false }
    vigil := { s1.vigil with scanBusy := false } }
  (s2.setReg (obsReg 0x74C) 0).unfetch

end Sys2Proof.Machine
end

