-- ==== Sys2Proof/Machine/Debug.lean ====
section
/-! DEFINITION. Debug mode's reads of accumulators from outside a core (R193). -/

namespace Sys2Proof.Machine

/-- The partition in debug mode whose rectangle holds core c, stopped or not. -/
def State.debugPart (s : State) (c : Nat) : Option Nat :=
  (List.range 8).find? fun p => (s.part p).hasDie (dieOf c) && s.bit (obsPart p) 3

/-- Is a range of n units at window offset off wholly in the P-pad? -/
def accRange (off n : Nat) : Bool := decide (0x28000 ≤ off) && off % 32 == 0 && decide (off + 32 * n ≤ 0x30000)

/-- Consent bit i of function f as sampled: COUNTERS, SAMPLE, TEST, DEBUG (R474). -/
def State.consents (s : State) (f i : Nat) : Bool := bitOf (kget 0 s.obs.consent f) i

/-- Is the unit at a window offset of core c within the bounds of a filler that does not consent to DEBUG (R475)? -/
def State.unitWithheld (s : State) (c off : Nat) : Bool :=
  let k := s.core c
  (List.range 8).any fun i =>
    let r := k.cfg i
    let g : Pad × Nat := if off < 0x28000 then threadGranule r k.frontW k.frontA off else (.p, (off - 0x28000) % 0x4000 / 64)
    cfgFiller r && inBounds r g.1 g.2 && !s.consents (cfgTenant r) 3

/-- The data and marks of n units from window offset off of core c on, at this cycle; a withheld unit is not returned. -/
def State.accUnits (s : State) (c off n : Nat) : List (Nat × BitVec 256 × Bool) :=
  (List.range n).filterMap fun i =>
    let k := padWindow c + off + 32 * i
    if s.unitWithheld c (off + 32 * i) then none else some (k, ofNat256 (Mem.readNat s.mem k 32), kget false s.marks (markBase k))

/-- May a core serve without limit: under Vigil, or with its partition stopped? -/
def State.accFree (s : State) (c : Nat) : Bool :=
  s.vigil.frozen || ((s.debugPart c).map fun p => (s.part p).stopped) == some true

/-- A read of n units of core c: what may be served now is, at most eight units of a core in one tick window; the rest waits. -/
def State.serveAcc (s : State) (c off n : Nat) : State :=
  if (s.debugPart c).isNone then s
  else
    let used := kget 0 s.obs.accServed c
    let k := if s.accFree c then n else if s.subtick ≤ 15 then min n (8 - used) else 0
    { s with obs := { s.obs with
      accOut := s.obs.accOut ++ s.accUnits c off k
      accServed := if s.accFree c then s.obs.accServed else kset 0 s.obs.accServed c (used + k)
      accWait := if k < n then s.obs.accWait ++ [(c, off + 32 * k, n - k)] else s.obs.accWait } }

/-- Reads that wait are served as far as this window, a freeze or a stop allows. -/
def State.serveWaiting (s : State) : State :=
  s.obs.accWait.foldl (fun s x => s.serveAcc x.1 x.2.1 x.2.2) { s with obs := { s.obs with accWait := [] } }

/-- A new tick window: each core may serve eight units again. -/
def State.serveReads (s : State) : State := ({ s with obs := { s.obs with accServed := [] } }).serveWaiting

/-- DEBUG_ACC_READ (R193) by function f; a range that is not the P-pad's is not read. -/
def execDebugAccRead (f c off n : Nat) (s : State) : Host.Outcome State Fault Refusal :=
  if 256 ≤ f || !s.isCore c then .fault .noSuchUnit
  else if s.mgmt.dark || !accRange off n then .next s
  else .next (s.serveAcc c off n)

end Sys2Proof.Machine
end

