-- ==== Sys2Proof/Machine/Tick.lean ====
section
/-! DEFINITION. The tick: the latch, the completeness check, slips, seals and commits, bank swaps, fast frames, admission, the
frames that open; stops, resumes and power-down as they meet it (R36, R37, R46–R51, R67, R212, R217–R230, R326, R339, R340,
R358, R360, R361, R371, R393, R427–R433, R440–R443, R449, R451, R453, R465, R471, R474–R476). -/

namespace Sys2Proof.Machine

/-! ### The count (R44, R46, R486) -/

/-- The count goes up and the sub-tick count returns to 0; STRETCH_MAX shows the cycles that the frame lost (R46, R498). While the
module is frozen its frame has not ended, keeps the cycles it has lost, and adds no sampled ones (R39, R476, R483). -/
def State.newTick (s : State) : State :=
  { (s.setField (mgmtReg 0x218) 0 16 (min s.alm.stretch 65535)) with
    tick := s.tick + 1
    subtick := 0
    alm := { s.alm with stretch := if s.vigil.frozen then s.alm.stretch else 0 }
    remap := { s.remap with badLines := if s.vigil.frozen then s.remap.badLines else [] }
    obs := { s.obs with sampleCount := if s.vigil.frozen then s.obs.sampleCount else s.obs.sampleCount + (s.cycles - 16 - s.alm.stretch) }
    cp := { s.cp with admittedNow := 0, admitLimit := min 1024 (s.cp.failAfter.getD 1024), setNow := [], heldNow := [] } }

/-- A tick that passes while the module is frozen: counted in VIGIL_FRAMES; the time of every frame in progress moves with it,
as for a fast frame (R483, R486). -/
def State.frozenTick (s : State) : State :=
  let later (f : Frame) : Frame := { f with opened := f.opened + 1, sealTick := f.sealTick + 1 }
  let move (x : Part) : Part :=
    { x with
      frame := x.frame.map later
      sealed := x.sealed.map later
      recov := x.recov.map fun r => { r with began := r.began + 1 } }
  let s1 := s.takeRate
  let s2 := { s1 with
    vigil := { s1.vigil with rateChanged := s1.vigil.rateChanged || s1.rate != s.rate }
    parts := s1.parts.map fun (x : Nat × Part) => (x.1, move x.2) }
  (s2.count (obsReg 0x720) 1).rootFrame.chooseParent

/-! ### Latch, consent, modes (R466, R471, R474–R476) -/

/-- DUMP_CTRL.INTERVAL, 0 taken as 1. -/
def State.dumpInterval (s : State) : Nat := max 1 (s.field (obsReg 0) 16 16)

/-- Is a dump due at this tick? The first at the tick that takes up ENABLE or a new INTERVAL, then every N-th (R471, R534). -/
def State.dumpDue (s : State) : Bool :=
  s.bit (obsReg 0) 0 && match s.obs.dumpSince with
    | none => true
    | some (n, k) => n != s.dumpInterval || decide (n ≤ k + 1)

/-- A dump tick latches every counter; new configurations count from 0; a dump falls due or is missed. -/
def State.latch (s : State) : State :=
  let due := s.dumpDue
  let fresh := s.obs.ctrs.filter fun x =>
    !(s.obs.armed.any fun y => y.1 == x.1 / 2 ^ 24 * 16 + x.1 % 16 && bitsOf y.2 8 2 != 0)
  let s1 := if due && s.obs.dumpBusy then s.count (obsReg 0x14) 1 else s
  let o := s1.obs
  let o1 := if due && !o.dumpBusy then { o with
      latched := o.ctrs
      latchTick := s1.tick
      latchCfg := o.cfg
      latchConsent := o.consent
      latchMissed := (s1.reg (obsReg 0x14), o.dumpMissed)
      dumpMissed := false }
    else { o with dumpMissed := o.dumpMissed || due }
  { s1 with obs := { o1 with
    ctrs := fresh
    cfg := o.armed.foldl (fun m x => kset 0 m x.1 (nextCfg (x.1 / 16) (kget 0 o.cfg x.1) x.2)) o.cfg
    armed := []
    dumpBusy := o.dumpBusy || due
    dumpSince := if !s1.bit (obsReg 0) 0 then none
      else if due then some (s1.dumpInterval, 0) else s1.obs.dumpSince.map fun x => (x.1, x.2 + 1) } }

/-- OBS_CONSENT of every function is sampled; sampling begins or ends, and counts from 0 where it begins (R474, R476). -/
def State.sampleConsent (s : State) : State :=
  let c := (s.regs.filterMap fun x =>
    if bar0 0 0xA400 ≤ x.1 && (x.1 - bar0 0 0xA400) % 0x10000 == 0 && x.2 % 16 != 0 then some ((x.1 - bar0 0 0xA400) / 0x10000, x.2 % 16) else none)
  let goesOn := s.obs.sampleOn && s.bit (obsReg 0x400) 0
  { s with obs := { s.obs with
    consent := c
    sampleOn := s.bit (obsReg 0x400) 0
    sampleNo := if goesOn then s.obs.sampleNo else []
    sampleCount := if goesOn then s.obs.sampleCount else 0
    sampleLast := if goesOn then s.obs.sampleLast else [] } }

/-- TEST_ON and DEBUG_ON of each partition (R475). -/
def State.takeModes (s : State) : State :=
  (List.range 8).foldl (fun s p =>
    let a := obsReg (0x600 + 4 * p)
    let f := (s.part p).func
    let on (i : Nat) : Nat := natOf ((s.part p).valid && s.bit a i && s.consents f (i + 2))
    s.setField a 2 2 (on 0 + 2 * on 1)) s

/-! ### The completeness check (R48) -/

/-- Has core c passed the end of its work in this frame: its last slot closed, and nothing left of what it issued? What a
filler left does not count (R105). -/
def State.coreDone (s : State) (fr : Frame) (m : Option ImgHeld) (c : Nat) : Bool :=
  let k := s.core c
  let slots := match m, fr.pattern with
    | some m, some pat => (m.vcore c).elim 0 fun vi => (Img.slots m.bytes (Img.slotListAt m.bytes pat vi)).length
    | _, _ => 0
  let filler (i : Nat) : Bool := cfgFiller (k.cfg i)
  let ofFiller (t : BitVec 4) : Bool := (List.range 8).any fun i => filler i && bitOf (cfgField (k.cfg i) 0 16) t.toNat
  decide (slots ≤ k.slotIndex) && (k.slotDone || k.fillerOpen)
    && (List.range 8).all (fun i => match kget none k.slots i with
      | some d => filler d.cfg.toNat
      | none => true)
    && (match k.drain with
      | some d => filler d.cfg.toNat
      | none => true)
    && k.gens.all fun g => ofFiller g.thread

/-- Have all cores of partition p passed the end of their work? -/
def State.workDone (s : State) (p : Nat) (fr : Frame) : Bool :=
  let x := s.part p
  fr.fast || (s.coresOf x).all (s.coreDone fr (if fr.load then none else x.image))

/-- The check of the frame that ends (R39, R48): work, copies, the mirror of the frame sealed before. -/
def State.complete? (s : State) (p : Nat) (fr : Frame) (late : Bool) : Bool :=
  !late && ((s.part p).sealed.map (·.mirrored)).getD true && s.workDone p fr && s.copiesDone p

/-! ### Slips (R49, R50, R443) -/

/-- n slips of partition p are counted, and on its running commands. -/
def State.countSlips (s : State) (p n : Nat) : State :=
  let s1 := (s.runsIn p).foldl (fun s id => s.modCmd id fun c => { c with slips := c.slips + n }) s
  let s2 := { s1 with obs := { s1.obs with partCnt := kmod 0 s1.obs.partCnt (4 * p) fun v => (v + n) % 2 ^ 32 } }
  (s2.count (almReg 0x44) n).tally 11 0 5 n

/-- SLIP_LIMIT, 0 taken as 1. -/
def State.slipLimit (s : State) : Nat := max 1 (s.field (almReg 0x40) 0 8)

/-- A partition whose dies are given up, or that stalled: it opens no further frame (R228, R443). -/
def State.halt (s : State) (p : Nat) : State :=
  (s.park p true).modPart p fun x => { x with frame := none, stopped := true, stopReq := none, slips := 0, fastNext := false }

/-- The check fails after SLIP_LIMIT slips in a row (R50, R443): recovery; the second time for one ordinal FAULT, STALL and a
stop. -/
def State.limitReached (s : State) (p : Nat) : State :=
  let x := s.part p
  if x.stalled == some x.ord then (s.stopSpans p 0x32 5 p).halt p
  else (s.modPart p ({ · with stalled := some x.ord })).strike p 6 s.tick

/-- A frame slips (R49). -/
def State.slip (s : State) (p : Nat) : State :=
  let x := s.part p
  if s.slipLimit ≤ x.slips then s.limitReached p
  else
    let cause := if (x.sealed.map (·.mirrored)).getD true then 0 else 1
    ((s.modPart p fun x => { x with slips := x.slips + 1 }).countSlips p 1).trace 3 x.func (p + 8 * cause) x.ord

/-- Does the check of partition p's frame fail at the tick that is due: the frame's last cycle is reached and it is not complete
(R48)? -/
def State.checkFails (s : State) (p : Nat) : Bool :=
  decide (s.cycles ≤ s.subtick + 1) && match (s.part p).frame with
    | some fr => !s.complete? p fr s.overStretched
    | none => false

/-- SLIP_LIMIT_REACHED (R50): the check that fails after SLIP_LIMIT slips in a row. -/
def execSlipLimitReached (p : Nat) (s : State) : Host.Outcome State Fault Refusal :=
  if 8 ≤ p then .fault .noSuchUnit
  else if s.halted || s.partStill p || !s.checkFails p || decide ((s.part p).slips < s.slipLimit) then .next s
  else .next (s.limitReached p)

/-! ### Sealing (R47, R219, R433, R461) -/

/-- The end of a load frame: the image is held, the partition starts, its fillers' commands end (R219, R225, R230). -/
def State.endLoad (s : State) (p : Nat) (fr : Frame) : State :=
  let x := s.part p
  match x.finalised with
  | none => s
  | some m =>
    let gone := (s.spansOf p).filter fun id => ((s.cmd id).map fun c => s.fnFiller c.func).getD false
    let s1 := gone.foldl (fun s id => s.faultNow id { reason := rHostChanged }) (if x.loading then s else s.writeLoad p m)
    ((s1.startPart p m).modPart p fun x => { x with
      image := some m, finalised := none, loading := false, loadOrd := fr.ord, fillers := [], fillerNext := [] }).recheck p

/-- Filler slots still open end with the frame (R105). -/
def State.endFillers (s : State) (p : Nat) : State :=
  { s with cores := s.cores.map fun c =>
      (c.1, if c.2.fillerOpen && s.partOf c.1 == some p then c.2.endFiller else c.2) }

/-- HOLD_INFRAME_MAX of every die (R461). -/
def State.noteHolds (s : State) (p ord : Nat) : State :=
  let counts := s.held.foldl (fun (m : KMap Nat) h =>
    if h.part == p && h.ord == ord && !h.async then kmod 0 m (s.sliceOf h.home h.base) (· + 1) else m) []
  (List.range 8).foldl (fun s d =>
    s.setReg (storeReg d 4) (counts.foldl (fun a x => if x.1 / 128 == d then max a x.2 else a) 0)) s

/-- Seal the frame of partition p: its state is captured; the ordinal advances. -/
def State.seal (s : State) (p : Nat) (fr : Frame) : State :=
  let s1 := if fr.load then s.endLoad p fr else s.endFillers p
  let snap := s1.sealSnap p fr
  let s2 := (s1.noteHolds p fr.ord).modPart p fun x => { x.setSnap fr.ord snap with
    sealed := some { fr with sealTick := s.tick, mirrored := false }
    frame := none, slips := 0, ord := x.ord + 1 }
  { s2 with free := s2.free + 49153 }

/-! ### Commits (R47, R223, R299, R361, R393) -/

/-- The device address of a module key as function f names it. -/
def State.deviceOf (s : State) (f k : Nat) : Nat :=
  let back (far : Bool) (phys : Nat) : Nat :=
    ((s.allPages.find? fun x => x.1 == f && x.2.1 == far && x.2.2.2.phys == phys && (far || x.2.2.2.inNear)).map (·.2.2.1)).getD 0
  if k < farKey then back false (k / pageBytes) * pageBytes + k % pageBytes
  else if k < storeKey then farKey + back true ((k - farKey) / pageBytes) * pageBytes + (k - farKey) % pageBytes
  else if 2 ^ 64 ≤ k then 0x800000000000 + (k - 2 ^ 64)
  else k

/-- The marked outputs that the cores of function f's span wrote in frame fr: device address, serving unit (R299). -/
def State.markedOutputs (s : State) (p : Nat) (fr : Frame) (f : Nat) : List (Nat × Nat × Nat) :=
  ((s.held.filter fun h => h.part == p && h.ord == fr.ord && h.mark && !h.async && h.outs.contains f).map fun h =>
    (s.deviceOf f h.base, s.serving h.base, 0))
  ++ (s.links.ring.filter fun m => m.part == p && m.ord == fr.ord && m.mark
      && ((kget none s.links.streams m.stream).any fun st => st.func == f)).map fun m => (m.place / 256 * 256, s.serving m.place, 0)

/-- The marked outputs of a committed frame make the command whose cores wrote them UMBER, a filler's its own (R299, R364). -/
def State.noteMarks (s : State) (p : Nat) (fr : Frame) : State :=
  (fr.cmd.toList ++ fr.fillerRuns.map (·.1)).foldl (fun s id =>
    let f := ((s.cmd id).map (·.func)).getD 0
    let runs := subRanges ((s.markedOutputs p fr f).foldl (fun l x => badInsert x l) [])
    match runs with
    | [] => s
    | r :: _ => s.modCmd id fun c => { c with umber := some (min (c.umber.getD r.1) r.1), nfail := c.nfail + runs.length }) s

/-- The span events of image m at frame k of command c (R223). -/
def State.spanEvents (s : State) (m : ImgHeld) (c : Cmd) (k : Nat) : State :=
  (List.range (Img.sec m.bytes 16).count).foldl (fun s i =>
    let o := (Img.sec m.bytes 16).off + 8 * i
    let slot := Img.nat m.bytes (o + 4) 1
    if Img.nat m.bytes o 4 == c.first + k && bitOf (c.pay 0x40 2) slot then s.signal (c.pay (0x20 + 2 * slot) 2) else s) s

/-- STEP_ACC bits of CSTAT: NONFINITE, UMBER, SATURATE (R73, R393). -/
def stepBits (c : Nat) : Nat := natOf (bitOf c 7) + 2 * natOf (bitOf c 6) + 4 * natOf (bitOf c 5)

/-- A committed frame of one command: span events, and STEP_ACC from CSTAT as the frame's seal captured it (R393; DEDUCED,
notes/assumptions/33: the next command may have begun since). -/
def State.commitRun (s : State) (p id ord k : Nat) (m : Option ImgHeld) : State :=
  match s.cmd id with
  | none => s
  | some c =>
    let bits := ((s.part p).snap ord).cores.foldl (fun a x => a ||| stepBits x.2.cstat.toNat) 0
    let s1 := if bits == 0 then s else s.orStep c.func bits
    match m with
    | some m => if c.opcode == 0x01 then s1.spanEvents m c k else s1
    | none => s1

/-- The RUN_SPANs of partition p whose last frame commits complete, and those that have faulted (R329, R353, R361). -/
def State.endSpans (s : State) (p ord : Nat) : State :=
  (s.spansOf p).foldl (fun s id => match s.cmd id with
    | some c => if c.fault.isSome || c.opcode == 0x01 && c.endOrd == some ord then s.completeOwn id else s
    | none => s) s

/-- Frame fr of partition p commits. -/
def State.commit (s : State) (p : Nat) (fr : Frame) : State :=
  let x := s.part p
  let s1 := ((s.noteMarks p fr).commitHeld p fr.ord).trace 2 x.func p fr.ord
  let s2 := match fr.cmd with
    | some id => s1.commitRun p id fr.ord fr.k x.image
    | none => s1
  let s3 := fr.fillerRuns.foldl (fun s y =>
    s.commitRun p y.1 fr.ord y.2 (x.fillers.find? fun m => some m.func == (s.cmd y.1).map (·.func))) s2
  let s4 := ((((s3.sequence p fr.ord).copiesCommit p fr.ord).collsCommit p fr.ord).ckptsCommit p fr.ord).replaysCommit p fr.ord
  let s5 := (s4.endSpans p fr.ord).sendRetires p (x.snap fr.ord).isrs
  s5.modPart p fun x => { x.setSnap fr.ord { x.snap fr.ord with commitTick := s.tick } with
    sealed := if (x.sealed.map (·.ord)) == some fr.ord then none else x.sealed }

/-! ### Cycle 0 to 8 of one partition -/

/-- The check of the frame that ends and the commit of the frame sealed before it. -/
def State.checkPart (late : Bool) (s : State) (p : Nat) : State :=
  let x := s.part p
  if x.recov.isSome then s.trace 3 x.func (p + 8 * 2) x.ord
  else
    let due := x.sealed.filter (·.mirrored)
    let s1 := match x.frame with
      | none => s
      | some fr => if s.complete? p fr late then s.seal p fr else s.slip p
    match due with
    | some fr => if (s1.part p).recov.isSome then s1 else s1.commit p fr
    | none => s1

/-- A partition restored leaves recovery (R440, R442): the delay is counted, it commits the sealed frame it kept, its windows unpark,
senders are asked to rewind. -/
def State.reopen (s : State) (p : Nat) : State :=
  match (s.part p).recov with
  | none => s
  | some r =>
    if !r.restored then s
    else
      let s0 := s.countSlips p (s.tick - r.began)
      let s1 := match (s.part p).sealed with
        | some fr => if fr.mirrored then s0.commit p fr else s0
        | none => s0
      let s2 := (s1.modPart p ({ · with recov := none })).park p false
      (s2.partIsrs p).foldl (fun s i => s.answer 5 i.2.src i.2.stream i.2.lf.toNat i.2.ns false 0) s2

/-! ### Cycle 9: bank swaps (R225, R230, R339, R358, R451) -/

/-- The record that CP_PARTp holds. -/
def partRecord (v : Nat) : Part :=
  { valid := bitOf v 0, func := bitsOf v 8 8, orgRow := bitsOf v 16 1, orgCol := bitsOf v 17 2, rows := bitsOf v 19 1 + 1
    cols := bitsOf v 20 2 + 1 }

/-- A partition record written since the last tick takes effect (R326, R339); a stopped partition only changes its place. -/
def State.takePart (s : State) (p : Nat) : State :=
  let v := s.reg (cpReg (0x100 + 8 * p))
  let x := s.part p
  let y := partRecord v
  if x.valid == y.valid && (!y.valid || (x.func == y.func && x.orgRow == y.orgRow && x.orgCol == y.orgCol && x.rows == y.rows && x.cols == y.cols))
  then s
  else if x.stopped then
    s.modPart p fun x => if y.valid then
        { x with valid := true, func := y.func, orgRow := y.orgRow, orgCol := y.orgCol, rows := y.rows, cols := y.cols }
      else { x with valid := false }
  else
    let s1 := s.modPart p fun _ => if y.valid then y else {}
    { s1 with obs := { s1.obs with partCnt := s1.obs.partCnt.filter fun z => z.1 / 4 != p } }

/-- The remap tables' shadow banks become active, their records are queued, and images are checked again against them (R37, R230,
R448). -/
def State.swapRemap (s0 : State) : State :=
  let s := s0.queueDue
  let moved := !(s.remap.nextSites.isEmpty && s.remap.nextTracks.isEmpty)
  if !moved && s.remap.nextSlices.isEmpty then
    (List.range 8).foldl (fun s d => s.clearBit (remapReg d 0) 1) s
  else
    let s1 := { s with remap := { s.remap with
      slices := s.remap.nextSlices.foldl (fun m x => kset none m x.1 x.2) s.remap.slices
      nextSlices := []
      sites := s.remap.nextSites.foldl (fun m x => kset [] m x.1 x.2) s.remap.sites
      tracks := s.remap.nextTracks.foldl (fun m x => kset [] m x.1 x.2) s.remap.tracks
      nextSites := []
      nextTracks := [] } }
    let s2 := (List.range 8).foldl (fun s d => s.clearBit (remapReg d 0) 1) s1
    if moved then (List.range 8).foldl State.recheck s2 else s2

/-- A filler image whose code is written takes its place: its records are written (R225). -/
def State.swapFillers (s : State) (p : Nat) : State :=
  let x := s.part p
  let busy (m : ImgHeld) : Bool := (s.fillerSpans p).any fun y => y.2.1.func == m.func
  let ready := x.fillerNext.filter fun m => m.coded && !busy m
  ready.foldl (fun s m =>
    let s1 := (List.range (Img.cores m.bytes)).foldl (fun s vi =>
      s.modCore (Img.logical m.bytes m.orgRow m.orgCol vi) fun k => k.putRecords m vi) s
    s1.modPart p fun x => { x with
      fillers := (x.fillers.filter fun o => o.func != m.func) ++ [m]
      fillerNext := x.fillerNext.filter fun o => o.func != m.func }) s

/-- The host's consumption of records is journaled (R358). -/
def State.journalReads (s : State) : State :=
  { s with queues := s.queues.map fun x =>
      let f := x.1 / 64
      let q := x.1 % 64
      let n := 2 ^ x.2.cqLog
      let left := (s.field (queueReg f q 0x24) 0 17 + n - s.field (queueReg f q 0x20) 0 17) % n
      (x.1, { x.2 with unread := x.2.unread.drop (x.2.unread.length - left) }) }

/-- Pages of the commands that this tick's admissions would take, one after the other (R303). -/
def State.wantedPages (s : State) : List (Nat × Nat) :=
  s.admissions.cmds.flatMap fun x => match x.2 with
    | some c => if c.admitted == some s.tick then c.pages.map fun k => (c.func, k) else []
    | none => []

/-- The swaps of cycle 9. -/
def State.swapBanks (s : State) : State :=
  let s1 := (s.swapRoutes.swapWindows.closeStreams.swapRemap.takeCarves).swapFlash
  let s2 := (List.range 8).foldl State.takePart s1
  let s3 := (List.range 8).foldl State.swapFillers s2
  (s3.poolSwap s3.wantedPages).journalReads

/-! ### Stopping and resuming (R227–R229, R330, R368) -/

/-- Bytes of a partition's save area: scan image and pads of every core. -/
def State.saveSize (s : State) (x : Part) : Nat := (s.coresOf x).length * (6144 + 0x30000)

/-- The pads and scan images go to the save area at tenant address a; the order in which they lie there is open
(notes/assumptions/17). -/
def State.writeSave (s : State) (f a n : Nat) : State :=
  { s.writeTenant f a ((List.range n).map fun i => Config.freeByte s.free i) with free := s.free + 1 }

/-- Partition p, whose frame has just been sealed, stops (R228, R368): what is due is applied first, and its committed writes into its own
pads that are not yet due go with its pads (R229, R430). -/
def State.stopPart (s : State) (p area : Nat) : State :=
  let x := s.part p
  let s1 := s.applyDue.mirrorComplete p
  let s2 := { s1.modPart p fun x => { x with saved := some (s1.savePart p area) } with
    held := s1.held.filter fun h => !s1.ownPadHeld p h }
  (s2.writeSave x.func area (s.saveSize x)).halt p

/-- Does a partition's rectangle meet no die of another that holds it? -/
def State.diesFree (s : State) (p : Nat) : Bool :=
  (List.range 8).all fun d => !(s.part p).hasDie d || (List.range 8).all fun q => q == p || !(s.part q).hasDie d || (s.part q).stopped

/-- A stopped partition whose resume waits is restored where its record allows it: code, pads and cores by place (R229,
R368); one that stalled goes on as it stands. -/
def State.resumePart (s : State) (p : Nat) : State :=
  let x := s.part p
  if !(x.resumeReq && x.stopped && x.valid && s.diesFree p) then s
  else
    let go (s : State) : State := (s.modPart p ({ · with stopped := false, resumeReq := false, saved := none })).park p false
    match x.saved with
    | none => go s
    | some v =>
      if v.rows != x.rows || v.cols != x.cols || v.func != x.func then s
      else
        let place (m : ImgHeld) : ImgHeld := { m with orgRow := x.orgRow, orgCol := x.orgCol }
        let s1 := go (s.modPart p fun x => { x with
          image := x.image.map place, fillers := x.fillers.map place, finalised := x.finalised.map place
          fillerNext := x.fillerNext.map fun m => { place m with coded := false } })
        let x1 := s1.part p
        let s2 := match x1.image with
          | some m => (s1.writeCode m fun _ k => k).writeDescs m x1.dies
          | none => s1
        let s3 := x1.fillers.foldl (fun s m => (s.writeCode m m.fillerIndex).writeDescs m x1.dies) s2
        (s3.putSaved p v).recheck p

/-! ### Cycles 10 to 15: the frames that open (R47, R51, R219) -/

/-- Is partition p between frames: it may open one at this tick? -/
def State.between (s : State) (p : Nat) : Bool :=
  let x := s.part p
  x.valid && !s.partStill p && x.frame.isNone

/-- A partition asked to stop stops; one to be loaded, or to take a fast frame, opens that frame before admission, but not while
an orderly power-down runs (R453). -/
def State.openEarly (s : State) (p : Nat) : State :=
  let x := s.part p
  if !s.between p then s
  else
    match x.stopReq with
    | some a => s.stopPart p a
    | none =>
      if x.fastNext && !s.cp.powerDown then
        let s1 := ((s.openFrame p true false).count (almReg 0x48) 1).noteFast p true
        { s1 with obs := { s1.obs with partCnt := kmod 0 s1.obs.partCnt (4 * p + 1) fun v => (v + 1) % 2 ^ 32 } }
      else if x.finalised.isSome && x.run.isNone && s.finalWanted p && !s.cp.powerDown then
        ((s.openFrame p false true).trace 3 x.func (p + 8 * 3) x.ord).noteFast p false
      else s

/-- After admission the others open their frames; while an orderly power-down runs none opens (R453). -/
def State.openLate (s : State) (p : Nat) : State :=
  if s.between p && !s.cp.powerDown then (s.openFrame p false false).noteFast p false else s

/-! ### Power-down (R371, R453, R499) -/

/-- FAULT reason ORDERLY (R464). -/
def rOrderly : Nat := 0x34

/-- Commands accepted and not completed are reported at their queues' next ENABLE, with DETAIL the reason (R371). -/
def State.abandon (s : State) (reason : Nat) : State :=
  s.cmds.foldl (fun s x => match x.2 with
    | some c =>
      if c.accepted.isNone then s
      else s.modQueue c.func c.q fun u => { u with abandoned := u.abandoned ++ [{
        type := 1, status := 0x12, opcode := c.opcode, hseq := c.hseq, tick := c.admitted.getD 0, endTick := s.tick, detail := reason }] }
    | none => s) s

/-- Power leaves everything but the control tile and the journal: what is lost is lost, what the journal holds is kept. Records
written whose consumption is not journaled are held (R347, R369, R371, R453). -/
def State.powerOff (s : State) (reason : Nat) : State :=
  let s1 := (List.range 8).foldl (fun s p => s.setPortState p 0) ((s.abandon reason).clearBit (mgmtReg 0) 4)
  { s1 with
    mem := s1.mem.filter fun x => decide (flashKey 0 0 ≤ x.1)
    marks := s1.marks.filter fun x => decide (flashKey 0 0 ≤ x.1)
    held := [], cores := [], events := [], cmds := [], parts := [], tiers := {}, colls := {}, vigil := {}
    links := { ports := s1.links.ports.map fun x => (x.1, { wire := x.2.wire }) }
    ckpts := [], replays := []
    queues := s1.queues.map fun x => (x.1, { x.2 with
      on := false, held := x.2.unread ++ x.2.held, unread := [], reserved := 0 })
    cp := { s1.cp with powerDown := false, standby := false }
    mgmt := { s1.mgmt with dark := true, pdTicks := 0, pdWait := 0, powered := false, mbox := none } }

/-- An orderly power-down begins (R453): fetching and admission stop. -/
def State.beginPowerDown (s : State) : State := { s with cp := { s.cp with powerDown := true } }

/-- A removal begins (R512); under Vigil it waits for resume (R523). -/
def State.beginRemoval (s : State) : State :=
  if s.vigil.frozen then { s with mgmt := { s.mgmt with attnPending := true } }
  else ({ s with mgmt := { s.mgmt with attnPending := false } }.setBit (mgmtReg 0) 7).beginPowerDown

/-- What a removal does once the power-down has drained: LINK_STATE for every port in service, ports DOWN, power off, SAFE and the
indicator (R512). -/
def State.takeOut (s : State) : State :=
  let up := (List.range 8).filter fun p => s.portState p == 2
  let s1 := up.foldl (fun s p => s.sendLinkState (portAxis p) (s.portLink p) false) s
  let s2 := (s1.powerOff rOrderly).setBit (mgmtReg 0) 8
  { s2 with mgmt := { s2.mgmt with safeLed := true } }

/-- An orderly power-down waits for recoveries to end, at most 1 ms (R523); then it takes at most three ticks, or ends once
nothing is left to commit. -/
def State.drainDown (s : State) : State :=
  if !s.cp.powerDown then s
  else
    let busy := (List.range 8).any fun p => (s.part p).recov.isSome
    if busy && decide (s.mgmt.pdWait < 1500000 / s.cycles) then { s with mgmt := { s.mgmt with pdWait := s.mgmt.pdWait + 1 } }
    else
      let s1 := { s with mgmt := { s.mgmt with pdTicks := s.mgmt.pdTicks + 1 } }
      if 3 ≤ s1.mgmt.pdTicks || (List.range 8).all fun p => (s1.part p).frame.isNone && (s1.part p).sealed.isNone then
        if s1.bit (mgmtReg 0) 7 then s1.takeOut else s1.powerOff rOrderly
      else s1

/-- The active command processor fails in the window where it was to fail in it, its admissions made (R454). -/
def State.endCp (s : State) : State :=
  if s.cp.failAfter.isSome then State.failCp { s with cp := { s.cp with failAfter := none } } else s

/-! ### Test mode and debug reads at a tick (R193, R216) -/

/-- The comparators start anew in the frames that this tick opened. -/
def State.startTests (s : State) : State :=
  { s with obs := { s.obs with
      testHit := s.obs.testHit.filter fun p => ((s.part p).frame.map fun f => decide (f.opened < s.tick)) == some true } }

/-! ### The tick -/

/-- The tick window (R46): energies of the frame that ends; `late` whether it passed the stretch limit. -/
def State.tickWindow (s : State) (late : Bool) (energy : Nat) (parts : List Nat) : State :=
  let ended (p : Nat) : Option Frame := (s.part p).frame
  let s1 := (s.countStalls.sampleConsent.latch.takeModes).rootFrame.chooseParent
  let s2 := (List.range 8).foldl (State.checkPart late) s1
  let s3 := ((List.range 8).foldl State.reopen s2).completeEnding
  let s4 := ((List.range 8).foldl State.resumePart s3.swapBanks).completeEnding
  let s5 := ((s4.takeEnergy energy parts ended).chooseFast).takeRate
  let s6 := (List.range 8).foldl State.openEarly s5
  let s7 := s6.admissions.endCp
  let s8 := (List.range 8).foldl State.openLate s7
  let s9 := s8.applyDue.scrubWindow
  (s9.startTests.serveReads).drainDown

/-- TICK (R46); without power beyond the control tile only the count goes on (R497). -/
def execTick (energy : Nat) (parts : List Nat) (s : State) : Host.Outcome State Fault Refusal :=
  if s.mgmt.dark then .next s.newTick
  else if s.vigil.frozen then .next s.newTick.frozenTick
  else .next (s.newTick.tickWindow s.overStretched energy parts)

end Sys2Proof.Machine
end

