-- ==== Sys2Proof/Machine/Control.lean ====
section
/-! DEFINITION. The command processor's registers that a rule checks, partition records, function records, preemption, release;
resets, power-down, loss and dip; the PF's power state (R337, R339, R342, R367–R371, R453, R499, R536, R537). -/

namespace Sys2Proof.Machine

/-- CP_ERR bit i: PART, FN, RELEASE, PREEMPT. -/
def State.cpErr (s : State) (i : Nat) : State := s.setBit (cpReg 8) i

/-! ### Partition records (R17, R339) -/

/-- CP_PARTp. -/
def partReg (p : Nat) : Nat := cpReg (0x100 + 8 * p)

/-- The record that CP_PARTp holds, as written. -/
def State.partWritten (s : State) (p : Nat) : Part := partRecord (s.reg (partReg p))

/-- Does partition p still hold its dies: its record valid and not stopped (R368)? -/
def State.holdsDies (s : State) (p : Nat) : Bool := (s.partWritten p).valid && !(s.part p).stopped

/-- Is partition p's record in use: an image held, a command admitted or running? -/
def State.partInUse (s : State) (p : Nat) : Bool :=
  let x := s.part p
  x.valid && (!x.images.isEmpty || !(s.runsIn p).isEmpty || x.run.isSome)

/-- Is a new record y of partition p refused (R339)? A stopped partition's record may be given up, or changed for the same
function (R368). -/
def State.partRefused (s : State) (p : Nat) (y : Part) : Bool :=
  let x := s.part p
  (y.valid && (decide (2 < y.orgRow + y.rows) || decide (4 < y.orgCol + y.cols)
    || (List.range 8).any (fun q => q != p && s.holdsDies q && (List.range 8).any fun d => y.hasDie d && (s.partWritten q).hasDie d)
    || !(s.fnEnabled y.func) || s.fnFiller y.func
    || (List.range 8).any fun q => q != p && (s.partWritten q).valid && (s.partWritten q).func == y.func))
  || (if x.stopped then y.valid && y.func != x.func else s.partInUse p)

/-- A write of CP_PARTp. -/
def State.writePart (s : State) (p value : Nat) : State :=
  let v := value &&& 0x3FFF01
  if s.partRefused p (partRecord v) then s.cpErr 0 else s.setReg (partReg p) v

/-- CP_PART_WRITE (R339). -/
def execCpPartWrite (p value : Nat) (s : State) : Host.Outcome State Fault Refusal :=
  if 8 ≤ p then .fault .noSuchUnit
  else if s.vigil.frozen then .next (s.enqueueWrite 0 (partReg p) value 15)
  else .next (s.writePart p value)

/-! ### Function records (R342, R356) -/

/-- Has function f an accepted command that has not completed? -/
def State.hasAccepted (s : State) (f : Nat) : Bool := s.cmds.any fun x => match x.2 with
  | some c => c.func == f && c.accepted.isSome
  | none => false

/-- Is any write of f's records refused: a command accepted and not completed, or an image held? -/
def State.fnBusy (s : State) (f : Nat) : Bool := s.hasAccepted f || s.holdsImage f

/-- A write of FN_CFGf: QUEUES over all functions stay within 4,096. An accepted write lets f be fetched from again after a
release (DEDUCED, notes/assumptions/34). -/
def State.writeFnCfg (s : State) (f value : Nat) : State :=
  let v := value &&& 0x7F1F
  let others := (List.range 256).foldl (fun a g => if g == f then a else a + s.fnQueues g) 0
  if 64 < bitsOf v 8 7 then s
  else if s.fnBusy f || decide (4096 < others + bitsOf v 8 7) then s.cpErr 1
  else { s.setReg (cpReg (0x1000 + 16 * f)) v with cp := { s.cp with released := s.cp.released.filter fun g => g != f } }

/-- A write of FN_EVENTSf: ranges stay apart and below 65,536; newly granted events are 0. -/
def State.writeFnEvents (s : State) (f value : Nat) : State :=
  let v := value &&& 0x1FFFFFFF
  let b := bitsOf v 0 16
  let n := bitsOf v 16 13
  let meets (g : Nat) : Bool := decide (b < s.evBase g + s.evCount g) && decide (s.evBase g < b + n)
  if s.fnBusy f || decide (4096 < n) || decide (65536 < b + n) || (n != 0 && (List.range 256).any fun g => g != f && s.evCount g != 0 && meets g) then
    s.cpErr 1
  else
    let s1 := { s with events := s.events.filter fun x => !(decide (b ≤ x.1) && decide (x.1 < b + n)) || s.ownsEvent f x.1 }
    s1.setReg (cpReg (0x1004 + 16 * f)) v

/-- FN_CFG_WRITE (R342). -/
def execFnCfgWrite (f : Nat) (events : Bool) (value : Nat) (s : State) : Host.Outcome State Fault Refusal :=
  if 256 ≤ f then .fault .noSuchUnit
  else if s.vigil.frozen then .next (s.enqueueWrite 0 (cpReg (0x1000 + 16 * f + 4 * natOf events)) value 15)
  else .next (if events then s.writeFnEvents f value else s.writeFnCfg f value)

/-! ### Preemption (R228, R229, R368) -/

/-- Are the bytes of the save area pinned pages of the function? -/
def State.pinnedArea (s : State) (f a n : Nat) : Bool :=
  decide (a + n ≤ farKey) && (pagesOf a n).all fun p => !p.1 && ((s.page f false p.2).map (·.state)) == some .pinned

/-- PREEMPT with STOP on partition p: the stop is asked for. -/
def State.preemptStop (s : State) (p : Nat) : State :=
  let x := s.part p
  let a := s.wide (cpReg 0x28)
  if !x.valid || x.stopped || x.stopReq.isSome || !s.pinnedArea x.func a (s.saveSize x) then s.cpErr 3
  else s.modPart p fun x => { x with stopReq := some a }

/-- PREEMPT with RESUME on partition p: the resume is asked for. -/
def State.preemptResume (s : State) (p : Nat) : State :=
  let x := s.part p
  if !(s.partWritten p).valid || !x.stopped || x.resumeReq then s.cpErr 3 else s.modPart p fun x => { x with resumeReq := true }

/-- PREEMPT_STOP (R368). -/
def execPreemptStop (p : Nat) (s : State) : Host.Outcome State Fault Refusal :=
  if 8 ≤ p then .fault .noSuchUnit
  else if s.vigil.frozen then .next (s.enqueueWrite 0 (cpReg 0x20) (p + 8) 15)
  else .next (s.preemptStop p)

/-- PREEMPT_RESUME (R229, R368). -/
def execPreemptResume (p : Nat) (s : State) : Host.Outcome State Fault Refusal :=
  if 8 ≤ p then .fault .noSuchUnit
  else if s.vigil.frozen then .next (s.enqueueWrite 0 (cpReg 0x20) (p + 16) 15)
  else .next (s.preemptResume p)

/-! ### Release (R368) -/

/-- FN_RELEASE of f: fetching for f stops; its commands accepted and not admitted complete DENIED with reason RELEASED. A function
that is not enabled sets CP_ERR.RELEASE (DEDUCED, notes/assumptions/34). -/
def State.release (s : State) (f : Nat) : State :=
  if !s.fnEnabled f then s.cpErr 2
  else
    let s1 := { s with cp := { s.cp with released := s.cp.released.filter (fun g => g != f) ++ [f] } }
    let l := s1.cmds.filterMap fun x => x.2.bind fun c =>
      if c.func == f && c.accepted.isSome && c.admitted.isNone then some x.1 else none
    l.foldl (fun s id => s.deny id 0x1A) s1

/-- FN_RELEASE (R368). -/
def execFnRelease (f : Nat) (s : State) : Host.Outcome State Fault Refusal :=
  if 256 ≤ f then .fault .noSuchUnit
  else if s.vigil.frozen then .next (s.enqueueWrite 0 (cpReg 0x1C) (f + 0x100) 15)
  else .next (s.release f)

/-! ### Resets (R369, R453, R536, R537) -/

/-- Is an offset of BAR0 kept by a function reset: Q_HSEQ_NEXT, FN_WIN_MAX, and what reports the module's state (R536)? The
ring indices go back with their rings (DEDUCED, notes/assumptions/35). -/
def keptByFlr (off : Nat) : Bool :=
  if off < 0x1000 then off % 64 == 0x30 || off % 64 == 0x34
  else decide (0xA040 ≤ off) && decide (off < 0xA210) || decide (0xA220 ≤ off) && decide (off < 0xA300)
    || decide (0xA344 ≤ off) && decide (off < 0xA350) || off == 0x9010

/-- A function reset of f (R369): its BAR0 registers return to reset, latches and stages of the requester go; its queues stop and
hold their records, those written and not journaled as read too (R347, R372). -/
def State.functionReset (s : State) (f : Nat) : State :=
  let mine (a : Nat) : Bool := decide (bar0 f 0 ≤ a) && decide (a < bar0 f 0x10000)
  let own (k : Nat) : Bool := k / 2 ^ 32 == f
  let s1 := { s with
    regs := s.regs.filter fun x => !mine x.1 || keptByFlr (x.1 - bar0 f 0)
    latches := s.latches.filter fun x => !own x.1
    stages := s.stages.filter fun x => !own x.1
    queues := s.queues.map fun x => if x.1 / 64 == f then (x.1, { x.2 with
        on := false, phase := true, held := x.2.unread ++ x.2.held, unread := [], last := none }) else x }
  (List.range 64).foldl (fun s q => s.markHeld f q) s1

/-- FUNCTION_RESET (R369). -/
def execFunctionReset (f : Nat) (s : State) : Host.Outcome State Fault Refusal :=
  if 256 ≤ f then .fault .noSuchUnit else .next (s.functionReset f)

/-- DEVICE_RESET (R369, R453); under Vigil the write of DEV_RESET waits (R535). -/
def execDeviceReset (s : State) : Host.Outcome State Fault Refusal :=
  if s.mgmt.dark then .next s
  else if s.vigil.frozen then .next (s.enqueueWrite 0 (cpReg 4) 1 15)
  else .next s.deviceReset

/-! ### Power (R453, R499) -/

/-- ORDERLY_POWER_DOWN (R453): frames drain at the following ticks, under Vigil after resume. -/
def execOrderlyPowerDown (s : State) : Host.Outcome State Fault Refusal :=
  if s.mgmt.dark then .next s else .next s.beginPowerDown

/-- INPUT_LOSS (R499): PWR_FAIL, then a surprise power loss. -/
def execInputLoss (s : State) : Host.Outcome State Fault Refusal :=
  if s.mgmt.dark then .next (s.setBit (mgmtReg 0x208) 5) else .next ((s.setBit (mgmtReg 0x208) 5).powerOff 0)

/-- POWER_DIP (R499). -/
def execPowerDip (s : State) : Host.Outcome State Fault Refusal := .next (s.count (mgmtReg 0x21C) 1)

/-! ### D3hot (R337) -/

/-- Every enabled queue writes the records it holds. -/
def State.flushQueues (s : State) : State :=
  s.queues.foldl (fun s x => if x.2.on then s.flushHeld (x.1 / 64) (x.1 % 64) x.2.held.length else s) s

/-- HOST_POWER_STATE (R337). -/
def execHostPowerState (d3hot : Bool) (s : State) : Host.Outcome State Fault Refusal :=
  let s1 := { s with cp := { s.cp with d3hot := d3hot } }
  .next (if d3hot || s.halted then s1 else s1.flushQueues)

end Sys2Proof.Machine
end

