-- ==== Sys2Proof/Machine/Observe.lean ====
section
/-! DEFINITION. Observation: counter configurations and dumps, consent, test mode, samples, the trace's sinks, the Vigil freeze and
its floods, the circular scan (R216, R465–R491). -/

namespace Sys2Proof.Machine

/-! ### Counter configurations (R465, R466, R526) -/

/-- CNT_CFG_kind_k. -/
def cntCfgReg (kind k : Nat) : Nat := obsReg (0x100 + 32 * kind + 4 * k)

/-- A write of CNT_CFG: mode 3 is reserved; the configuration is taken at the next tick. -/
def State.writeCntCfg (s : State) (kind k value : Nat) : State :=
  let v := value % 1024
  if bitsOf v 8 2 == 3 then s
  else
    let s1 := s.setReg (cntCfgReg kind k) v
    { s1 with obs := { s1.obs with armed := s1.obs.armed.filter (fun x => x.1 != 16 * kind + k) ++ [(16 * kind + k, v)] } }

/-- CNT_CFG_WRITE (R466). -/
def execCntCfgWrite (kind k value : Nat) (s : State) : Host.Outcome State Fault Refusal :=
  if 12 ≤ kind || countersOf kind ≤ k then .fault .noSuchUnit
  else if s.vigil.frozen then .next (s.enqueueWrite 0 (cntCfgReg kind k) value 15)
  else .next (s.writeCntCfg kind k value)

/-! ### The dump (R471–R474) -/

/-- A counter entry (R473): value, event, mode, WITHHELD, ABSENT. An open value is a free number. -/
def entryOf (o : Obs) (seed kind inst k : Nat) (withheld absent : Bool) : Nat :=
  let c := kget 0 o.latchCfg (16 * kind + k)
  let v := if cfgOpen kind c then Config.freeNat (seed + kind * 2 ^ 24 + inst * 16 + k) else kget 0 o.latched (kind * 2 ^ 24 + inst * 16 + k)
  (if withheld || absent then 0 else v % 2 ^ 48) + 2 ^ 48 * bitsOf c 0 10 + 2 ^ 58 * natOf withheld + 2 ^ 59 * natOf absent

/-- The non-core section: kinds 1–11 in order. -/
def State.noncoreEntries (s : State) : List Nat :=
  (List.range 11).flatMap fun i => (List.range (instancesOf (i + 1))).flatMap fun n =>
    (List.range (countersOf (i + 1))).map fun k => entryOf s.obs s.free (i + 1) n k false false

/-- Is the COUNTERS consent of core c's function missing at the latch? A core of no partition is written. -/
def State.counterWithheld (s : State) (c : Nat) : Bool :=
  match (List.range 8).find? fun p => (s.part p).hasDie (dieOf c) with
  | some p => !bitOf (kget 0 s.obs.latchConsent (s.part p).func) 0
  | none => false

/-- The core section. -/
def State.coreEntries (s : State) : List Nat :=
  (List.range 49152).flatMap fun c => (List.range 4).map fun k => entryOf s.obs s.free 0 c k (s.isCore c && s.counterWithheld c) (!s.isCore c)

/-- The PARTp field of a dump (R472). -/
def State.dumpPart (s : State) (p : Nat) : List Byte :=
  let x := s.part p
  let n (i : Nat) : Nat := kget 0 s.obs.partCnt (4 * p + i) % 2 ^ 32
  leBytes 4 (x.func + 2 ^ 8 * natOf x.valid + 2 ^ 9 * natOf (s.bit (obsPart p) 2) + 2 ^ 10 * natOf (s.bit (obsPart p) 3)
    + 2 ^ 11 * natOf x.recov.isSome) ++ leBytes 4 (n 0) ++ leBytes 4 (n 1) ++ leBytes 4 (n 2)

/-- The bytes of a dump (R472). -/
def State.dumpBytes (s : State) : List Byte :=
  let body := (s.noncoreEntries ++ s.coreEntries).flatMap (leBytes 8)
  leBytes 4 0x504D4443 ++ leBytes 2 1 ++ leBytes 2 (natOf s.gradeB44 + 2 * natOf s.obs.latchMissed.2) ++ leBytes 8 s.obs.dumpNext
    ++ leBytes 8 s.obs.latchTick ++ leBytes 2 s.dumpInterval ++ leBytes 1 s.rate ++ leBytes 5 0 ++ leBytes 4 s.obs.latchMissed.1
    ++ leBytes 28 0 ++ (List.range 8).flatMap s.dumpPart ++ leBytes 56 0 ++ leBytes 4 (crc32c body) ++ leBytes 4 0x454E4F44 ++ body

/-- Bytes written to a sink: host memory, or the near tier as the PF's addresses name it; an address with no page takes
nothing. -/
def State.writeSink (s : State) (near : Bool) (a : Nat) (b : List Byte) : State :=
  if near then s.writeTenant 0 a (b.take (farKey - a)) else s.writeMarked (hostKey a) b false

/-- The latched dump is written to its slot. -/
def State.writeDump (s : State) : State :=
  let slots := max 1 (s.field (obsReg 0x0C) 0 16)
  let a := s.wide (obsReg 4) / 256 * 256 + s.obs.dumpNext % slots * 0x182D00
  let s1 := (s.writeSink (s.bit (obsReg 0) 1) a s.dumpBytes).setReg (obsReg 0x10) s.obs.dumpNext
  { s1 with
    free := s1.free + 12 * 2 ^ 24
    obs := { s1.obs with dumpBusy := false, dumpNext := s1.obs.dumpNext + 1 } }

/-- DUMP (R471): the dump that the last dump tick latched; under Vigil writing stops (R491). -/
def execDump (s : State) : Host.Outcome State Fault Refusal :=
  if s.halted || !s.obs.dumpBusy then .next s else .next s.writeDump

/-! ### Consent, test mode, debug mode (R216, R474, R475) -/

/-- OBS_CONSENT_WRITE (R474): only function f's own BAR0. -/
def execObsConsentWrite (f value : Nat) (s : State) : Host.Outcome State Fault Refusal :=
  if 256 ≤ f then .fault .noSuchUnit
  else if s.vigil.frozen then .next (s.enqueueWrite f (bar0 f 0xA400) value 15)
  else .next (s.setReg (bar0 f 0xA400) (value % 16))

/-- A write of OBS_PARTp: TEST and DEBUG; TEST_ON and DEBUG_ON stay. -/
def State.writeObsPart (s : State) (p value : Nat) : State := s.setField (obsPart p) 0 2 value

/-- OBS_PART_WRITE (R475). -/
def execObsPartWrite (p value : Nat) (s : State) : Host.Outcome State Fault Refusal :=
  if 8 ≤ p then .fault .noSuchUnit
  else if s.vigil.frozen then .next (s.enqueueWrite 0 (obsPart p) value 15)
  else .next (s.writeObsPart p value)

/-- Has the image that partition p holds an ISSUE record for a PC and a cycle, in a frame that runs a pattern? Which pattern and core a
group of records is for, the section does not say (notes/assumptions/79). -/
def State.issueRecord (s : State) (p pc cycle : Nat) : Bool :=
  match (s.part p).image, (s.part p).frame.bind (·.pattern) with
  | some m, some _ => (List.range (Img.sec m.bytes 17).count).any fun i =>
    let w := Img.nat m.bytes ((Img.sec m.bytes 17).off + 8 * i) 8
    bitsOf w 0 8 == pc && bitsOf w 16 20 == cycle
  | _, _ => false

/-- TEST_MISMATCH (R216): the comparator of a partition in test mode writes one record in a frame, where an issue differs from its ISSUE
record. -/
def execTestMismatch (c : Nat) (pc : BitVec 8) (expected actual : BitVec 20) (s : State) : Host.Outcome State Fault Refusal :=
  if !s.isCore c then .fault .noSuchUnit
  else
    match s.partOf c with
    | none => .next s
    | some p =>
      if s.halted || !s.bit (obsPart p) 2 || s.obs.testHit.contains p || expected == actual || !s.issueRecord p pc.toNat expected.toNat then
        .next s
      else
        let s1 := s.trace 7 (s.part p).func c (expected.toNat + 2 ^ 20 * actual.toNat + 2 ^ 40 * pc.toNat)
        .next { s1 with obs := { s1.obs with testHit := s1.obs.testHit ++ [p] } }

/-! ### Samples (R476, R477) -/

/-- The code of a thread state, in the order of R75. -/
def ThreadState.code : ThreadState → Nat
  | .idle => 0 | .ready => 1 | .waitOperand => 2 | .waitQueue => 3 | .waitCounter => 4 | .waitDma => 5 | .waitArray => 6
  | .yielded => 7 | .suspended => 8 | .faulted => 9

/-- SAMPLE_CTRL.STRIDE, 0 taken as 1. -/
def State.sampleStride (s : State) : Nat := max 1 (s.field (obsReg 0x400) 16 16)

/-- Is core c selected for sampling? -/
def State.sampled (s : State) (c : Nat) : Bool :=
  s.obs.sampleOn && s.isCore c && c % s.sampleStride == s.field (obsReg 0x404) 0 16 % s.sampleStride

/-- The function under whose consent core c is observed now: a filler's while its slot is open, else its partition's. -/
def State.observer (s : State) (c : Nat) : Option Nat :=
  if (s.core c).fillerOpen then some (cfgTenant (s.core c).activeCfg) else (s.partOf c).map fun p => (s.part p).func

/-- The count of sampled cycles: core cycles outside tick windows (R476). -/
def State.sampleCycle (s : State) : Nat := s.obs.sampleCount + (s.subtick - 16 - s.alm.stretch)

/-- SAMPLE_CTRL.P: 10 to 24, others taken as 24. -/
def State.samplePeriod (s : State) : Nat :=
  let p := s.field (obsReg 0x400) 1 5
  if 10 ≤ p && p ≤ 24 then 2 ^ p else 2 ^ 24

/-- Is core c selected, and due in this cycle, a multiple of the period in which it has not been sampled yet? -/
def State.sampleDue (s : State) (c : Nat) : Bool :=
  s.sampled c && s.sampleCycle % s.samplePeriod == 0 && kget 0 s.obs.sampleLast c != s.sampleCycle + 1

/-- A sample of core c: thread m mod 16 of sample m, the PC that the skid reports. -/
def State.takeSample (s : State) (c skid : Nat) (pc : BitVec 8) : State :=
  let m := kget 0 s.obs.sampleNo c
  let s1 := { s with obs := { s.obs with
    sampleNo := kset 0 s.obs.sampleNo c (m + 1)
    sampleLast := kset 0 s.obs.sampleLast c (s.sampleCycle + 1) } }
  let k := s.core c
  let th := k.thread (m % 16)
  let at_ := if skid == 0 then th.pc else pc
  match (s.observer c).filter fun f => s.consents f 1 with
  | none => s1.count (obsReg 0x40C) 1
  | some f => s1.trace 5 f c (at_.toNat + 2 ^ 8 * (m % 16) + 2 ^ 12 * (k.slotOpen.getD 0).toNat + 2 ^ 15 * th.state.code
      + 2 ^ 19 * natOf k.fillerOpen)

/-- THREAD_SAMPLE (R476, R477): none in a tick window or under Vigil, none of a core not due, no skid above 6. -/
def execThreadSample (c skid : Nat) (pc : BitVec 8) (s : State) : Host.Outcome State Fault Refusal :=
  if !s.isCore c then .fault .noSuchUnit
  else if s.halted || s.subtick ≤ 15 || !s.sampleDue c || 6 < skid then .next s
  else .next (s.takeSample c skid pc)

/-! ### Sinks of the trace (R478–R481) -/

/-- The 32 bytes of a record (R479). -/
def Sepia.bytes (r : Sepia) (phase : Bool) (rseq : Nat) : List Byte :=
  leBytes 1 r.type ++ leBytes 1 r.func ++ leBytes 2 (natOf phase) ++ leBytes 4 rseq ++ leBytes 8 r.tick ++ leBytes 4 (r.sub % 2 ^ 20)
    ++ leBytes 4 r.arg0 ++ leBytes 8 r.arg1

/-- SEPIA_CTRL.SINK. -/
def State.sepiaSink (s : State) : Nat := s.field (obsReg 0x500) 0 2

/-- Records of the host ring. -/
def State.sepiaRing (s : State) : Nat := 2 ^ s.field (obsReg 0x50C) 0 5

/-- The oldest record leaves the buffer for the host ring, one slot of which stays unused (DEDUCED from R345,
notes/assumptions/37). -/
def State.drainSepia (s : State) : State :=
  let tail := s.field (obsReg 0x514) 0 24
  let n := s.sepiaRing
  match s.obs.buf with
  | [] => s
  | r :: rest =>
    if s.sepiaSink != 1 || (tail + 1) % n == s.field (obsReg 0x510) 0 24 % n then s
    else
      let a := s.wide (obsReg 0x504) / 4096 * 4096 + 32 * (tail % n)
      let s1 := { s with mem := Mem.writeBytes s.mem (hostKey a) (r.bytes s.obs.phase s.obs.rseq) }
      { s1.setReg (obsReg 0x514) ((tail + 1) % n) with obs := { s1.obs with
        buf := rest
        rseq := (s1.obs.rseq + 1) % 2 ^ 32
        phase := s1.obs.phase != decide ((tail + 1) % n = 0) } }

/-- SEPIA_RECORD (R478). -/
def execSepiaRecord (s : State) : Host.Outcome State Fault Refusal := .next s.drainSepia

/-- LOST (R481): room has returned after drops. -/
def execLost (s : State) : Host.Outcome State Fault Refusal :=
  if (s.obs.lost == 0 && s.obs.lostSamples == 0) || 32768 ≤ s.obs.buf.length then .next s
  else .next (({ s with obs := { s.obs with lost := 0, lostSamples := 0 } }).trace 9 0 s.obs.lost s.obs.lostSamples)

/-- SEPIA_HEAD_WRITE (R478). -/
def execSepiaHeadWrite (head : Nat) (s : State) : Host.Outcome State Fault Refusal :=
  if s.vigil.frozen then .next (s.enqueueWrite 0 (obsReg 0x510) head 15) else .next (s.setReg (obsReg 0x510) (head % 2 ^ 24))

/-! ### The Vigil freeze (R37, R309, R482–R487) -/

/-- VIGIL_STATUS. -/
def vigilStatus : Nat := obsReg 0x714

/-- The module freezes: at once, or at the end of a tick window that runs. A freeze while frozen is ignored (R37, R485, R491). -/
def State.freeze (s : State) (source : Nat) (scheduled : Bool) : State :=
  if s.halted then s
  else
    let sub := if s.subtick ≤ 15 then 16 else s.subtick
    let s1 := (s.setReg vigilStatus (1 + 4 * natOf (s.bit vigilStatus 2) + 8 * source + 2 ^ 5 * sub)).setWide (obsReg 0x718) s.tick
    ({ s1 with
      subtick := sub
      vigil := { s1.vigil with
        frozen := true, source := source, scheduled := scheduled, armed := none, resumeAt := none, rateChanged := false
        frozeTick := s.tick, frozeSub := sub } }).serveWaiting

/-- The 16 bytes of a FLOOD symbol, whose form is open (R309, R482). -/
def floodSymbol (kind count : Nat) : List Byte := (List.range 16).map fun i => Config.freeByte (2 ^ 80 + 2 ^ 64 * kind + count) i

/-- A FLOOD symbol leaves on every port in service but one, in three CONTROL blocks in a row: kind 0 VIGIL_NOW, 1 VIGIL_SCHED, 2
VIGIL_RESUME (R309). -/
def State.flood (s : State) (but : Option Nat) (kind count : Nat) : State :=
  let ports := (List.range 8).filter fun p => s.portState p == 2 && some p != but
  let s1 := { s with vigil := { s.vigil with
    floods := s.vigil.floods ++ ports.map fun p => (p, kind, count)
    heard := kset none s.vigil.heard kind (some count) } }
  let x := floodSymbol kind count
  ports.foldl (fun s p => ((s.sendControl p x).sendControl p x).sendControl p x) s1

/-- A scheduled freeze is armed at a count; one that is not later than the present count is LATE and falls at the next tick
window's end (R484). -/
def State.armFreeze (s : State) (at_ source : Nat) : State :=
  let late := decide (at_ ≤ s.tick)
  let s1 := (if late then s.setBit vigilStatus 2 else s).setBit vigilStatus 1
  { s1 with vigil := { s1.vigil with
      armed := some (if late then s.tick + 1 else at_), armedSource := source, heard := kset none s1.vigil.heard 1 none } }

/-- A resume is armed on a frozen module, at least two ticks ahead (R486). -/
def State.armResume (s : State) (at_ : Nat) : State :=
  if !s.vigil.frozen then s
  else if at_ < s.tick + 2 then s.setBit vigilStatus 2
  else { s with vigil := { s.vigil with resumeAt := some at_ } }

/-- VIGIL_PIN (R482): PIN_MODE 0 ignored, 1 local, 2 system; ignored while frozen (R491). -/
def execVigilPin (s : State) : Host.Outcome State Fault Refusal :=
  if s.halted then .next s
  else
    match s.field (obsReg 0x700) 4 2 with
    | 1 => .next (s.freeze 0 false)
    | 2 => .next ((s.freeze 0 false).flood none 0 0)
    | _ => .next s

/-- NOW (R482). -/
def execNow (s : State) : Host.Outcome State Fault Refusal := .next (s.freeze 1 false)
/-- NOW_SYS (R482). -/
def execNowSys (s : State) : Host.Outcome State Fault Refusal := .next ((s.freeze 1 false).flood none 0 0)
/-- VIGIL_AT. -/
def State.vigilAt (s : State) : Nat := s.wide (obsReg 0x704)
/-- VIGIL_RESUME_AT. -/
def State.vigilResumeAt (s : State) : Nat := s.wide (obsReg 0x70C)
/-- SCHED (R484). -/
def execSched (s : State) : Host.Outcome State Fault Refusal := .next (s.armFreeze s.vigilAt 1)
/-- SCHED_SYS (R484). -/
def execSchedSys (s : State) : Host.Outcome State Fault Refusal := .next ((s.armFreeze s.vigilAt 1).flood none 1 s.vigilAt)
/-- RESUME (R486). -/
def execResume (s : State) : Host.Outcome State Fault Refusal := .next (s.armResume s.vigilResumeAt)
/-- RESUME_SYS (R486). -/
def execResumeSys (s : State) : Host.Outcome State Fault Refusal := .next ((s.armResume s.vigilResumeAt).flood none 2 s.vigilResumeAt)

/-- SCHEDULED_FREEZE (R484): the armed count is reached. -/
def execScheduledFreeze (s : State) : Host.Outcome State Fault Refusal :=
  match s.vigil.armed with
  | some n => if n ≤ s.tick then .next (s.freeze s.vigil.armedSource true) else .next s
  | none => .next s

/-- FLOOD_RECEIVE (R309, R482): of the first good copy the module acts as its own register would direct, and forwards the symbol;
a copy of the flood of its kind heard or sent last since the last resume does nothing (notes/assumptions/77). -/
def execFloodReceive (p kind count : Nat) (s : State) : Host.Outcome State Fault Refusal :=
  if !isPort p then .fault .noSuchUnit
  else if s.mgmt.dark || s.portState p != 2 || kget none s.vigil.heard kind == some (if kind == 0 then 0 else count) then .next s
  else
    match kind with
    | 0 => .next ((s.freeze 2 false).flood (some p) 0 0)
    | 1 => .next ((s.armFreeze count 2).flood (some p) 1 count)
    | 2 => .next ((s.armResume count).flood (some p) 2 count)
    | _ => .next s

/-- A write of VIGIL_CTRL: PIN_MODE 3 is reserved; of several actions the arming comes before the freeze, and a resume last
(DESIGN CHOICE, notes/assumptions/38). -/
def State.writeVigil (s : State) (v : Nat) : State :=
  if bitsOf v 4 2 == 3 then s
  else
    let on (i : Nat) (f : State → State) (s : State) : State := if bitOf v i then f s else s
    let s1 := s.setReg (obsReg 0x700) (16 * bitsOf v 4 2)
    let s2 := on 3 (fun s => (s.armFreeze s.vigilAt 1).flood none 1 s.vigilAt) (on 2 (fun s => s.armFreeze s.vigilAt 1) s1)
    let s3 := on 1 (fun s => (s.freeze 1 false).flood none 0 0) (on 0 (·.freeze 1 false) s2)
    on 7 (fun s => (s.armResume s.vigilResumeAt).flood none 2 s.vigilResumeAt) (on 6 (fun s => s.armResume s.vigilResumeAt) s3)

/-! ### Circular scan (R474, R488, R489) -/

/-- Has the Almanac passed the armed resume point (R, s) (R486)? -/
def State.resumePassed (s : State) : Bool :=
  s.vigil.resumeAt.any fun r => decide (r < s.tick)
    || (r == s.tick && decide ((if s.vigil.rateChanged then 16 else s.vigil.frozeSub) ≤ s.subtick))

/-- SCAN_STATUS. -/
def scanStatus : Nat := obsReg 0x74C

/-- SCAN_CTRL.GO: only while frozen, and not while a scan runs. -/
def State.startScan (s : State) : State :=
  if !s.vigil.frozen || s.vigil.scanBusy then s
  else { s.setReg scanStatus 1 with vigil := { s.vigil with scanBusy := true } }

/-- SCAN_GO (R488). -/
def execScanGo (s : State) : Host.Outcome State Fault Refusal := .next s.startScan

/-- Core c as a scan shows it: threads of a filler without DEBUG consent are withheld (R475). -/
def State.scanView (s : State) (c : Nat) : Core :=
  let k := s.core c
  let hidden (t : Nat) : Bool := (List.range 8).any fun i =>
    cfgFiller (k.cfg i) && bitOf (cfgField (k.cfg i) 0 16) t && !s.consents (cfgTenant (k.cfg i)) 3
  { k with threads := k.threads.filter fun x => !hidden x.1 }

/-- The scan image of core c, zeros where its partition is not in debug mode. -/
def State.scanImage (s : State) (c : Nat) : List Byte :=
  if (s.debugPart c).isSome then (s.scanView c).scanBytes else List.replicate 0x1800 0#8

/-- The pads of core c, zeros where its partition is not in debug mode and in the units withheld (R475). -/
def State.scanPads (s : State) (c : Nat) : List Byte :=
  if (s.debugPart c).isSome then
    (List.range 0x1800).flatMap fun i =>
      if s.unitWithheld c (32 * i) then List.replicate 32 0#8 else Mem.readBytes s.mem (padWindow c + 32 * i) 32
  else List.replicate 0x30000 0#8

/-- One core's part of the scan buffer. -/
def State.scanOne (s : State) (base : Nat) (pads : Bool) (m : Mem) (c : Nat) : Mem :=
  let m1 := Mem.writeBytes m (hostKey (base + c * 0x1800)) (s.scanImage c)
  if pads then Mem.writeBytes m1 (hostKey (base + 0x12000000 + c * 0x30000)) (s.scanPads c) else m1

/-- The scan's last write is posted: the buffer is whole, DONE. Where the resume point passed meanwhile, resume moves to the first tick
after the scan, LATE (R486). -/
def State.endScan (s : State) : State :=
  let base := s.wide (obsReg 0x744) / 256 * 256
  let cores := (List.range 49152).filter s.isCore
  let s1 := s.count (obsReg 0x750) (cores.filter fun c => (s.debugPart c).isNone).length
  let s2 := if s.resumePassed then s1.setBit vigilStatus 2 else s1
  { s2.setReg scanStatus 2 with
    mem := cores.foldl (s.scanOne base (s.bit (obsReg 0x740) 1)) s.mem
    vigil := { s.vigil with
      scanBusy := false
      resumeAt := if s.resumePassed then some (s.tick + 1) else s.vigil.resumeAt } }

/-- SCAN_DONE (R489). -/
def execScanDone (s : State) : Host.Outcome State Fault Refusal :=
  if s.vigil.scanBusy then .next s.endScan else .next s

end Sys2Proof.Machine
end

