-- ==== Sys2Proof/Machine/Startup.lean ====
section
/-! DEFINITION. Start-up: the identity records, secure boot and measurement, the steps from power good to READY, straps and cables
(R266, R271, R272, R275, R499–R511, R536, R553, R555, R560, R561). -/

namespace Sys2Proof.Machine

/-! ### Identity records (R504, R506, R507) -/

/-- Are the bytes from a to b − 1 of a record zero? -/
def zeroBytes (r : List Byte) (a b : Nat) : Bool := ((r.drop a).take (b - a)).all fun x => x == 0#8

/-- What both records share: length, MAGIC, VERSION, CRC-32C. -/
def recordOk (magic : Nat) (r : List Byte) : Bool :=
  r.length == 64 && leNat (r.take 4) == magic && leNat ((r.drop 4).take 2) == 1 && leNat (r.drop 0x3C) == crc32c (r.take 0x3C)

/-- Is a start-up configuration record valid? One that sets a reserved bit or holds a reserved value is not (DEDUCED,
notes/assumptions/39). -/
def sucOk (r : List Byte) : Bool :=
  recordOk 0x43465553 r && leNat ((r.drop 6).take 2) % 4 != 3 && bitsOf (leNat ((r.drop 8).take 2)) 14 2 == 0
    && bitsOf (leNat ((r.drop 0x0A).take 1)) 1 2 != 3 && bitsOf (leNat ((r.drop 0x0A).take 1)) 4 4 == 0 && zeroBytes r 0x0B 0x3C

/-- Is a carrier record valid? -/
def carrierOk (r : List Byte) : Bool :=
  let w := leNat ((r.drop 8).take 2)
  recordOk 0x52435243 r && w % 4 != 3 && bitsOf w 2 6 == 0 && bitsOf w 12 4 == 0 && zeroBytes r 0x0A 0x0C && zeroBytes r 0x0E 0x3C

/-- The record with PARITY_NEXT as written to NEAR_CFG, which the module keeps in it (R507). -/
def withParity (r : List Byte) (on : Bool) : List Byte :=
  let b := putBits (leNat ((r.drop 0x0A).take 1)) 3 1 (natOf on)
  let body := r.take 0x0A ++ leBytes 1 b ++ (r.drop 0x0B).take 0x31
  body ++ leBytes 4 (crc32c body)

/-- A write of NEAR_CFG (R266, R507). -/
def State.writeNearCfg (s : State) (v : Nat) : State :=
  let s1 := s.setReg (tierReg 4) (v % 2)
  { s1 with mgmt := { s1.mgmt with suc := s1.mgmt.suc.map fun r => withParity r (bitOf v 0) } }

/-! ### MOD_STATE (R508, R522) -/

/-- STAGE. -/
def State.stage (s : State) : Nat := s.field (mgmtReg 0) 0 4
/-- A step begins. -/
def State.atStage (s : State) (n : Nat) : State := s.setField (mgmtReg 0) 0 4 n
/-- READY. -/
def State.isReady (s : State) : Bool := s.bit (mgmtReg 0) 4
/-- FAIL. -/
def State.hasFailed (s : State) : Bool := s.bit (mgmtReg 0) 5
/-- FAIL with its reason; the module stays at the step. -/
def State.failStart (s : State) (reason : Nat) : State := (s.setBit (mgmtReg 0) 5).setField (mgmtReg 0) 12 4 reason

/-! ### Slot straps and cables (R504, R505, R553, R555, R560, R561) -/

/-- Are the three pins of odd parity? -/
def strapParity (pins : Nat) : Bool := (pins % 2 + pins / 2 % 2 + pins / 4 % 2) % 2 == 1

/-- SLOT_ID shows the pins. -/
def State.showStraps (s : State) (pins : Nat) : State := s.setField (mgmtReg 0x10) 0 3 (pins % 4 + 4 * natOf (strapParity pins))

/-- SLOT_ID_STRAP_CHANGE (R561): TOR_ADDR keeps its W. -/
def execSlotIdStrapChange (pins : Nat) (s : State) : Host.Outcome State Fault Refusal := .next (s.showStraps pins)

/-- PRSNT_CHANGE (R560): the host's slot controller sees it. -/
def execPrsntChange (made : Bool) (s : State) : Host.Outcome State Fault Refusal :=
  .next { s with mgmt := { s.mgmt with prsnt := made } }

/-- A cable of port p changes: a port whose cable leaves fails, one that trains stops, one that is asked for trains. -/
def State.changeCable (s : State) (p : Nat) (fit : Bool) : State :=
  let s1 := { s with mgmt := { s.mgmt with cables := kset false s.mgmt.cables p fit } }
  if s.mgmt.dark then s1
  else if fit then
    if s1.bit (linkReg 8) p && s1.portState p != 2 && s1.portFitted p then s1.setPortState p 1 else s1
  else if s.portState p == 2 then s1.portDown p 2
  else if s.portState p == 1 then s1.setPortState p 0
  else s1

/-- CABLE_CHANGE (R505, R555). -/
def execCableChange (p : Nat) (inserted qualified : Bool) (s : State) : Host.Outcome State Fault Refusal :=
  if 6 ≤ p then .fault .noSuchUnit else .next (s.changeCable p (inserted && qualified))

/-! ### Firmware banks (R10, R501, R502) -/

/-- Bank b of kind k: 0 MC, 1 CP, 2 power manager. -/
def State.fwBank (s : State) (k b : Nat) : FwBank := kget {} s.mgmt.banks (2 * k + b)
/-- SVN_MIN of kind k. -/
def State.svnMin (s : State) (k : Nat) : Nat := kget 0 s.mgmt.svnMin k
/-- The bank marked active. -/
def State.activeBank (s : State) (k : Nat) : Nat := kget 0 s.mgmt.active k

/-- Is a bank acceptable? -/
def State.acceptable (s : State) (k b : Nat) : Bool :=
  let x := s.fwBank k b
  (x.delivered || Config.signatureOk x.image) && decide (s.svnMin k ≤ x.svn) && bitOf x.steppings (natOf s.stepB0)

/-- The bank that boots. -/
def State.bootBank (s : State) (k : Nat) : Option Nat :=
  let a := s.activeBank k
  if s.acceptable k a then some a else if s.acceptable k (1 - a) then some (1 - a) else none

/-- The image of a bank. -/
def FwBank.bytes (x : FwBank) (k : Nat) : List Byte := if x.delivered then Config.deliveredFw k else x.image

/-- Put a measurement. -/
def State.measure (s : State) (i : Nat) (b : List Byte) : State :=
  { s with mgmt := { s.mgmt with measured := kset [] s.mgmt.measured i (Config.sha384 b) } }

/-- Verify, measure and report kind k; its state where a bank is acceptable. -/
def State.bootKind (s : State) (k : Nat) : Option State :=
  (s.bootBank k).map fun b => ((s.measure (k + 2) ((s.fwBank k b).bytes k)).setField (mgmtReg 0x300) k 1 b).setField (mgmtReg 0x300) (8 + 8 * k) 8 (s.svnMin k)

/-- At READY a booted bank raises SVN_MIN to its own SVN (R502). -/
def State.raiseSvn (s : State) (k : Nat) : State :=
  let v := (s.fwBank k (s.field (mgmtReg 0x300) k 1)).svn
  if v ≤ s.svnMin k then s
  else ({ s with mgmt := { s.mgmt with svnMin := kset 0 s.mgmt.svnMin k v } }).setField (mgmtReg 0x300) (8 + 8 * k) 8 v

/-- MC_STATUS: cores running, SATURATED and load are open numbers within their bounds (notes/assumptions/40). -/
def State.showLoad (s : State) : State :=
  let n := Config.freeNat s.free
  { s.setReg (mgmtReg 4) (n % 5 + 16 * (n / 5 % 2) + 256 * (n / 10 % 101)) with free := s.free + 1 }

/-! ### Step 4: settings applied (R504, R507, R313) -/

/-- The settings of a valid record: TOR_DIM, X, Y and Z, ROOT_EN, rate, parity. -/
def State.applyRecord (s : State) (r : List Byte) : State :=
  let xyz := leNat ((r.drop 8).take 2)
  let o := leNat ((r.drop 0x0A).take 1)
  let s1 := s.setReg (linkReg 4) (leNat ((r.drop 6).take 2))
  let s2 := s1.setField (linkReg 0) 0 14 (bitsOf xyz 10 4 + 2 ^ 4 * bitsOf xyz 5 5 + 2 ^ 9 * bitsOf xyz 0 5)
  ((s2.setField (almReg 0x10) 0 1 o).setField (almReg 0x0C) 0 2 (bitsOf o 1 2)).setReg (tierReg 4) (bitsOf o 3 1)

/-- Without a valid record: standalone. -/
def State.standalone (s : State) : State := (s.setBit (mgmtReg 0) 6).setField (almReg 0x10) 0 1 1

/-- Straps and carrier record: pins of bad parity count as absent and leave W at 0 (DEDUCED, notes/assumptions/41). -/
def State.readCarrier (s : State) (pins : Nat) (rec : List Byte) : State :=
  let s1 := s.showStraps pins
  let s2 := if strapParity pins then s1.setField (linkReg 0) 14 2 pins else s1
  if carrierOk rec then
    ({ s2 with mgmt := { s2.mgmt with carrier := some rec } }).setField (mgmtReg 0x10) 3 3 (1 + 2 * (leNat ((rec.drop 8).take 2) % 4))
  else s2

/-- Step 4 whole, and measurement 5 (R503). -/
def State.applySettings (s : State) (env : StartEnv) : State :=
  let s1 := match s.mgmt.suc.filter sucOk with
    | some r => s.applyRecord r
    | none => s.standalone
  (s1.readCarrier env.slotPins env.carrier).measure 5
    (Config.settingsText ((s.mgmt.suc.filter sucOk).getD []) s.gradeB44 s.stepB0 ((List.range 3).map s.svnMin))

/-! ### Step 6: dies (R5–R7, R18, R20, R445, R510) -/

/-- A defective site enters the remap table; a full row is exhausted. No record is queued (DEDUCED, notes/assumptions/42). -/
def State.bistSite (s : State) (d h r col : Nat) : State :=
  let k := 64 * (2 * d + h) + r
  let l := kget [] s.remap.sites k
  if 8 ≤ d || 2 ≤ h || 64 ≤ r || 50 ≤ col || l.contains col then s
  else if s.rowSpares ≤ l.length then s.setBit (rowReg d h r) 4
  else
    let n := l.length + 1
    ({ s with remap := { s.remap with sites := kset [] s.remap.sites k (l ++ [col]) } }).setField (rowReg d h r) 0 4
      (min n 7 + 8 * natOf (decide (s.rowSpares ≤ n)))

/-- One record of the remap history. -/
def State.applyHistory (s : State) (x : Nat × Nat) : State :=
  let d := x.1
  let h := bitsOf x.2 68 1
  let r := bitsOf x.2 69 6
  let i := bitsOf x.2 75 10
  let m := s.remap
  match bitsOf x.2 64 3 with
  | 0 => s.bistSite d h r i
  | 1 =>
    let k := 128 * d + 2 * r + bitsOf x.2 85 1
    { s with remap := { m with tracks := kset [] m.tracks k (kget [] m.tracks k ++ [i]) } }
  | 2 => { s with remap := { m with slices := kset none m.slices (2 * d + h) (some i) } }
  | 5 => s.setBit (rowReg d h r) 4
  | _ => s

/-- Slice parity is in service on every half whose spare is unused. -/
def State.startParity (s : State) : State :=
  (List.range 8).foldl (fun s d =>
    s.setField (storeReg d 0) 0 2 (natOf (kget none s.remap.slices (2 * d)).isNone + 2 * natOf (kget none s.remap.slices (2 * d + 1)).isNone)) s

/-- The BIST of step 6: history, then what it finds; DIE_OK. -/
def State.testDies (s : State) (env : StartEnv) : State :=
  let s1 := s.remap.history.foldl State.applyHistory s
  let s2 := (env.sites.foldl (fun s x => s.bistSite x.1 x.2.1 x.2.2.1 x.2.2.2) s1).startParity
  (List.range 8).foldl (fun s d => s.setField (mgmtReg 0) (16 + d) 1
    (natOf (bitOf env.dieOk d && !(List.range 128).any fun i => s2.bit (remapReg d (0x400 + 4 * i)) 4))) s2

/-! ### Step 7: tiers (R266, R271, R272, R275, R510) -/

/-- The near tier; none where it fails: a stack that does not train without parity, or two with it. -/
def State.startNear (s : State) (env : StartEnv) : Option State :=
  let parity := s.bit (tierReg 4) 0
  let bad := (List.range 16).filter fun n => !bitOf env.stacksOk n
  let ok (s : State) : State := ((s.setBit (tierReg 0) 0).setField (tierReg 0) 1 1 (natOf parity)).setReg (tierReg 8) (if parity then 368640 else 393216)
  match bad with
  | [] => some (ok s)
  | [n] => if parity then some ((ok s).setField (tierReg 0) 2 5 (1 + 2 * n)) else none
  | _ => none

/-- The transfer rates of the far tier, highest first, with their codes. -/
def farRates : List (Nat × Nat) := [(8800, 3), (8000, 2), (7200, 1), (6400, 0)]

/-- The far tier of 16 DIMMs: the reason it is off, or the codes of D and of the rate. A block whose CRC fails counts before what it
says (DEDUCED, notes/assumptions/43). -/
def farOutcome (l : List Dimm) (trained : Bool) : Nat ⊕ (Nat × Nat) :=
  let least := l.foldl (fun a x => min a x.gib) (2 ^ 32)
  if l.length != 16 || !l.all (·.fitted) then .inl 1
  else if !l.all (·.crcOk) then .inl 4
  else if !l.all (·.mrdimm) then .inl 2
  else if least < 64 then .inl 3
  else
    match farRates.find? fun r => l.all fun x => decide (r.1 ≤ x.rate) with
    | none => .inl 6
    | some r => if trained then .inr (if least < 128 then 0 else if least < 256 then 1 else 2, r.2) else .inl 5

/-- The far tier. -/
def State.startFar (s : State) (env : StartEnv) : State :=
  match farOutcome env.dimms env.farTrained with
  | .inl reason => s.setField (tierReg 0) 7 9 (2 ^ 5 * reason)
  | .inr (d, rate) => (s.setField (tierReg 0) 7 9 (1 + 2 * d + 2 ^ 3 * rate)).setReg (tierReg 0x0C) (2 ^ d * 0x80000)

/-- The flash bays. -/
def State.startBays (s : State) (env : StartEnv) : State :=
  (List.range 4).foldl (fun s b => match env.bays.getD b none with
    | some x => (s.setBit (bayReg b) 0).bayUp b x.1 x.2
    | none => s) s

/-! ### Steps 8 to 11 (R357, R371, R502, R505, R508) -/

/-- Every fitted port begins to train (DEDUCED, notes/assumptions/44: LINK_CTRL stays as it is). -/
def State.startPorts (s : State) : State := (List.range 8).foldl (fun s p => if s.portFitted p then s.setPortState p 1 else s) s

/-- Step 11. -/
def State.becomeReady (s : State) : State := (List.range 3).foldl State.raiseSvn ((s.atStage 11).setBit (mgmtReg 0) 4)

/-- Step 10: the command processors start and read the journal; then READY. -/
def State.startCp (s : State) (env : StartEnv) : State :=
  let s1 := s.atStage 10
  if !env.journalOk then s1
  else
    let s2 := (s1.setReg (cpReg 0) 6).abandonPending
    ({ s2 with cp := { s2.cp with cpB := false, standby := true, journalOk := true } }).becomeReady

/-- Step 7, and what follows it. -/
def State.startTiers (s : State) (env : StartEnv) : State :=
  let s1 := s.atStage 7
  match s1.startNear env with
  | none => s1.failStart 5
  | some s2 => ((((s2.startFar env).startBays env).atStage 8).startPorts.atStage 9).startCp env

/-- Step 6 once the coolant check has passed. -/
def State.startDies (s : State) (env : StartEnv) : State :=
  let s1 := (s.clearBit (mgmtReg 0x208) 6).testDies env
  if s1.field (mgmtReg 0) 16 8 == 0 then s1.failStart 4 else s1.startTiers env

/-- COOLANT_CHECK_PASS (R511). -/
def execCoolantCheckPass (s : State) : Host.Outcome State Fault Refusal :=
  if s.mgmt.powered && s.stage == 6 && !s.hasFailed && s.bit (mgmtReg 0x208) 6 then .next (s.startDies s.mgmt.env) else .next s

/-- Steps 2 to 6: firmware, settings, host port; then the coolant check is waited for. -/
def State.startFirmware (s : State) (env : StartEnv) : State :=
  let s2 := s.atStage 2
  if !env.romOk then s2.failStart 2
  else
    match (s2.measure 1 Config.romImage).bootKind 0 with
    | none => s2.failStart 2
    | some s3 =>
      match ((s3.showLoad.atStage 3).bootKind 1).bind (State.bootKind · 2) with
      | none => (s3.showLoad.atStage 3).failStart 2
      | some s4 => ((((s4.atStage 4).applySettings env).atStage 5).atStage 6).setBit (mgmtReg 0x208) 6

/-- The module as power returns: registers at reset, what flash, journal and fuses hold kept (R369, R536). -/
def State.powerOn (s : State) (env : StartEnv) : State :=
  let r := State.reset
  { r with
    pending := s.pending
    gradeB44 := s.gradeB44
    stepB0 := s.stepB0
    farFill := s.farFill
    flashFill := s.flashFill
    serial := s.serial
    free := s.free
    regs := s.regs.filter fun x => decide (bar0 0 0 ≤ x.1) && decide (x.1 % 0x10000 < 0x1000) && x.1 % 64 == 0x30
    mem := s.mem.filter fun x => decide (flashKey 0 0 ≤ x.1)
    marks := s.marks.filter fun x => decide (flashKey 0 0 ≤ x.1)
    queues := s.queues.map fun x => (x.1, { x.2 with
      on := false, held := x.2.unread ++ x.2.held, unread := [], reserved := 0, phase := true })
    cp := { r.cp with nextId := s.cp.nextId }
    remap := { r.remap with history := s.remap.history }
    saves := s.saves
    mgmt := { r.mgmt with
      suc := s.mgmt.suc
      banks := s.mgmt.banks
      active := s.mgmt.active
      svnMin := s.mgmt.svnMin
      prsnt := s.mgmt.prsnt
      powered := true
      cables := (List.range 6).foldl (fun m p => kset false m p (bitOf env.cablesOk p)) []
      env := env } }

/-- STARTUP (R508): power is good after the module was without it; a supply that does not reach its level waits at step 1, where it may
still reach it. -/
def execStartup (env : StartEnv) (s : State) : Host.Outcome State Fault Refusal :=
  if s.mgmt.powered && (s.stage != 1 || s.hasFailed) then .next s
  else
    let s1 := (s.powerOn env).atStage 1
    .next (if env.supplyOk then s1.startFirmware env else s1)

/-- FAIL_REASON of a step that passes its bound (R508). -/
def timeoutReason (s : State) : Option Nat :=
  match s.stage with
  | 1 => some 1
  | 2 => some 2
  | 3 => some 2
  | 6 => some (if s.bit (mgmtReg 0x208) 6 then 3 else 4)
  | 7 => some 5
  | 10 => some 6
  | _ => none

/-- STARTUP_STEP_TIMEOUT (R508). -/
def execStartupStepTimeout (s : State) : Host.Outcome State Fault Refusal :=
  if !s.mgmt.powered || s.hasFailed then .next s
  else
    match timeoutReason s with
    | some r => .next (s.failStart r)
    | none => .next s

end Sys2Proof.Machine
end

