-- ==== Sys2Proof/Machine/Mgmt.lean ====
section
/-! DEFINITION. The management plane at work: heartbeat and sensors, trips and removal, the mailbox, SPDM, the UART, the check-value
unit (R492, R493, R497, R502, R503, R507, R512, R514–R521, R523, R554). -/

namespace Sys2Proof.Machine

/-! ### The MC (R492, R493) -/

/-- MC_HEARTBEAT_MISS (R493): the security block resets the MC, which restarts until its next sample (DESIGN CHOICE,
notes/assumptions/45). -/
def execMcHeartbeatMiss (s : State) : Host.Outcome State Fault Refusal :=
  .next { s.count (mgmtReg 0x0C) 1 with mgmt := { s.mgmt with mcRestart := true } }

/-- A telemetry period: the MC is back; SATURATED is open; the sample is dropped, or published, and the console takes an open
number of received characters (R492; notes/assumptions/40, 46). -/
def State.telemetry (s : State) (temp flow inlet : Nat) : State :=
  let s1 := ({ s with mgmt := { s.mgmt with mcRestart := false } }).showLoad
  if s1.bit (mgmtReg 4) 4 then s1.count (mgmtReg 8) 1
  else
    let u := s1.mgmt.uart
    { s1 with
      free := s1.free + 1
      mgmt := { s1.mgmt with
        telem := [temp, flow, inlet]
        uart := { u with rx := u.rx.drop (Config.freeNat s1.free % (u.rx.length + 1)) } } }

/-- TELEMETRY_SAMPLE (R492). -/
def execTelemetrySample (temp flow inlet : Nat) (s : State) : Host.Outcome State Fault Refusal := .next (s.telemetry temp flow inlet)

/-! ### Trips, removal (R497, R512, R523, R554) -/

/-- THERMAL_TRIP (R497): the power manager acts, under Vigil too (R523). -/
def execThermalTrip (s : State) : Host.Outcome State Fault Refusal := if s.mgmt.dark then .next s else .next (s.powerOff 0)

/-- An orderly power-down is asked for. -/
def State.requestPowerDown (s : State) : State := if s.mgmt.dark then s else s.beginPowerDown

/-- A removal is asked for; without power nothing has to drain. -/
def State.requestRemoval (s : State) : State := if s.mgmt.dark then (s.setBit (mgmtReg 0) 7).takeOut else s.beginRemoval

/-- COOLANT_FAILURE (R497). -/
def execCoolantFailure (s : State) : Host.Outcome State Fault Refusal := .next s.requestPowerDown

/-- REFCLK_LOSS (R554): the internal oscillator takes over. -/
def execRefclkLoss (s : State) : Host.Outcome State Fault Refusal :=
  .next ({ s with mgmt := { s.mgmt with refclkLost := true } }).requestPowerDown

/-- ATTN_N (R512). -/
def execAttnN (s : State) : Host.Outcome State Fault Refusal := .next s.requestRemoval

/-! ### The mailbox (R521) -/

/-- Does the MC work: a command waits while it restarts (R493)? -/
def State.mcBusy (s : State) : Bool := s.mgmt.mbox.isSome || s.mgmt.mcRestart

/-- Is a code a command? -/
def mboxKnown (code : Nat) : Bool := decide (1 ≤ code) && decide (code ≤ 6)

/-- The MC finishes with a reply code. -/
def State.mboxReply (s : State) (code : Nat) : State :=
  { s.setReg (mgmtReg 0x118) (16 * code) with mgmt := { s.mgmt with mbox := none } }

/-- A write of MBOX_GO with bit 0 set: ignored while BUSY; an unknown command is refused. -/
def State.mboxGo (s : State) : State :=
  let code := s.field (mgmtReg 0x100) 0 8
  if s.mcBusy then s
  else if mboxKnown code then { s with mgmt := { s.mgmt with mbox := some code } }
  else s.mboxReply 1

/-- The buffer that an argument names: an entry of the PF's CARVE_BUF, within its grant, of at least n bytes (R263). -/
def State.mboxBuffer (s : State) (i n : Nat) : Option Nat :=
  let v := s.wide (bar0 0 (0x8000 + 8 * i))
  let d := bitsOf v 1 3
  if s.mgmt.dark || decide (256 ≤ i) || !s.areaInGrant 0 d v then none
  else ((s.areaOf 0 d v).filter fun a => decide (n ≤ a.2)).map (·.1)

/-- MBOX_ARG0 and MBOX_ARG1. -/
def State.mboxArg (s : State) (i : Nat) : Nat := s.reg (mgmtReg (0x104 + 4 * i))

/-- Mailbox command `code` runs: it is the one started, or, none being started, the one that MBOX_CMD names and MBOX_GO starts
(DESIGN CHOICE, notes/assumptions/47). -/
def onMailbox (code : Nat) (f : State → State) (s : State) : Host.Outcome State Fault Refusal :=
  if s.mgmt.mcRestart then .next s
  else if s.mgmt.mbox == some code || s.mgmt.mbox.isNone && s.field (mgmtReg 0x100) 0 8 == code then .next (f s)
  else .next s

/-- A record is checked and stored. -/
def State.sucStore (s : State) : State :=
  match s.mboxBuffer (s.mboxArg 0) 64 with
  | none => s.mboxReply 2
  | some a =>
    let r := s.seenBytes none a 64
    if sucOk r then ({ s with mgmt := { s.mgmt with suc := some r } }).mboxReply 0 else s.mboxReply 6

/-- SUC_WRITE (R507, R521). -/
def execSucWrite (s : State) : Host.Outcome State Fault Refusal := onMailbox 1 State.sucStore s

/-- The stored record is written; with none stored nothing is (DESIGN CHOICE, notes/assumptions/48). -/
def State.sucLoad (s : State) : State :=
  match s.mboxBuffer (s.mboxArg 0) 64 with
  | none => s.mboxReply 2
  | some a => (match s.mgmt.suc with
    | some r => s.writeMarked a r false
    | none => s).mboxReply 0

/-- SUC_READ (R521). -/
def execSucRead (s : State) : Host.Outcome State Fault Refusal := onMailbox 2 State.sucLoad s

/-- The first check of R501 that an image fails, as a reply code: signature (or a kind that is none), SVN, stepping. -/
def State.imageRefused (s : State) (b : List Byte) : Option Nat :=
  let h := Config.fwHeader b
  firstFail [(Config.signatureOk b && decide (h.1 < 3), 3), (decide (s.svnMin h.1 ≤ h.2.2), 4), (bitOf h.2.1 (natOf s.stepB0), 5)]

/-- A verified image goes to the inactive bank, which is marked active (R502). -/
def State.stageImage (s : State) (b : List Byte) : State :=
  let h := Config.fwHeader b
  let k := 1 - s.activeBank h.1
  { s with mgmt := { s.mgmt with
    banks := kset {} s.mgmt.banks (2 * h.1 + k) { steppings := h.2.1, svn := h.2.2, image := b, delivered := false }
    active := kset 0 s.mgmt.active h.1 k } }

/-- FW_STAGE's work. -/
def State.fwStage (s : State) : State :=
  let n := s.mboxArg 1
  match s.mboxBuffer (s.mboxArg 0) n with
  | none => s.mboxReply 2
  | some a =>
    let b := s.seenBytes none a n
    match s.imageRefused b with
    | some code => s.mboxReply code
    | none => (s.stageImage b).mboxReply 0

/-- FW_STAGE (R502). -/
def execFwStage (s : State) : Host.Outcome State Fault Refusal := onMailbox 3 State.fwStage s

/-- Identity data and remap history are written, in records whose form is not given (notes/assumptions/49). -/
def State.writeInventory (s : State) : State :=
  let n := s.mboxArg 1
  match s.mboxBuffer (s.mboxArg 0) n with
  | none => s.mboxReply 2
  | some a => ({ s.writeMarked a ((List.range n).map (Config.freeByte s.free)) false with free := s.free + 1 }).mboxReply 0

/-- INVENTORY (R521). -/
def execInventory (s : State) : Host.Outcome State Fault Refusal := onMailbox 4 State.writeInventory s

/-- REMOVE (R512). -/
def execRemove (s : State) : Host.Outcome State Fault Refusal := onMailbox 5 (fun s => (s.mboxReply 0).requestRemoval) s

/-- POWER_DOWN (R521). -/
def execPowerDown (s : State) : Host.Outcome State Fault Refusal := onMailbox 6 (fun s => (s.mboxReply 0).requestPowerDown) s

/-! ### Attestation (R503) -/

/-- The DOE mailbox of function f. -/
def State.doe (s : State) (f : Nat) : Doe := kget {} s.mgmt.doe f
/-- Replace it. -/
def State.setDoe (s : State) (f : Nat) (d : Doe) : State := { s with mgmt := { s.mgmt with doe := kset {} s.mgmt.doe f d } }

/-- The request codes answered (PRESUMED: their values are SPDM 1.2's, notes/assumptions/50). -/
def spdmCodes : List Nat := [0x84, 0xE1, 0xE3, 0x81, 0x82, 0x83, 0xE0, 0xE4, 0xE5, 0xE8, 0xEC]

/-- The measurements 1–5. -/
def State.measurements (s : State) : List (List Byte) := (List.range 5).map fun i => kget [] s.mgmt.measured (i + 1)

/-- A request that is answered: the reply, the transcript, the session it opens, finishes or ends. -/
def State.spdmAnswer (s : State) (f code : Nat) (req : List Byte) : State :=
  let d := s.doe f
  let d := if code == 0x84 then ({} : Doe) else d
  let reply := Config.spdmReply req d.transcript s.measurements
  let d1 := { d with reply := reply, transcript := d.transcript ++ req ++ reply }
  let d2 := match code with
    | 0xE4 => { d1 with session := some (Config.freeNat s.free), finished := false }
    | 0xE5 => { d1 with finished := d.session.isSome && Config.spdmFinish req d.transcript }
    | 0xEC => { d1 with session := none, finished := false }
    | _ => d1
  ({ s with free := s.free + 1 }).setDoe f d2

/-- SPDM_REQUEST (R503): SPDM requests carry their version first; any other that is SPDM gets UnsupportedRequest; IDE_KM is accepted
only within a session held on the PF's mailbox. -/
def execSpdmRequest (f : Nat) (bytes : List (BitVec 8)) (s : State) : Host.Outcome State Fault Refusal :=
  if 256 ≤ f then .fault .noSuchUnit
  else
    let d := s.doe f
    match bytes with
    | v :: c :: _ =>
      if v == 0x10#8 || v == 0x12#8 then
        if spdmCodes.contains c.toNat then .next (s.spdmAnswer f c.toNat bytes)
        else .next (s.setDoe f { d with reply := [0x12#8, 0x7F#8, 0x07#8, c] })
      else if f == 0 && d.finished then .next (s.setDoe f { d with ide := d.ide ++ [bytes] })
      else .next s
    | _ => .next s

/-! ### The UART (R514–R516) -/

/-- Change the UART. -/
def State.setUart (s : State) (u : Uart) : State := { s with mgmt := { s.mgmt with uart := u } }

/-- UART_RECEIVE_CHARACTER (R515): break, framing error, overrun. -/
def execUartReceiveCharacter (data : BitVec 8) (stop : Bool) (s : State) : Host.Outcome State Fault Refusal :=
  if !stop && data == 0#8 then .next (s.count (mgmtReg 0x408) 1)
  else
    let s1 := if stop then s else s.count (mgmtReg 0x404) 1
    let u := s1.mgmt.uart
    if 64 ≤ u.rx.length then .next (s1.count (mgmtReg 0x40C) 1)
    else .next (s1.setUart { u with rx := u.rx ++ [(data, !stop)] })

/-- UART_TRANSMIT_CHARACTER (R514). -/
def execUartTransmitCharacter (s : State) : Host.Outcome State Fault Refusal :=
  let u := s.mgmt.uart
  match u.tx with
  | [] => .next s
  | b :: rest => .next (s.setUart { u with tx := rest, line := u.line ++ [b] })

/-- A byte as a frame carries it. -/
def escapeByte (b : Byte) : List Byte := if b == 0x7E#8 || b == 0x7D#8 then [0x7D#8, b ^^^ 0x20#8] else [b]

/-- The frame of a record's bytes. -/
def uartFrame (r : List Byte) : List Byte :=
  [0x7E#8] ++ (r ++ leBytes 2 (crcFeed (crcSel 2) 0xFFFF r)).flatMap escapeByte ++ [0x7E#8]

/-- UART_SEPIA_FRAME (R516): with the service connector as sink, the oldest record goes to the transmitter. -/
def execUartSepiaFrame (s : State) : Host.Outcome State Fault Refusal :=
  match s.obs.buf with
  | [] => .next s
  | r :: rest =>
    if s.sepiaSink != 2 then .next s
    else
      let u := s.mgmt.uart
      .next { s.setUart { u with tx := u.tx ++ uartFrame (r.bytes s.obs.phase s.obs.rseq) } with
        obs := { s.obs with buf := rest, rseq := (s.obs.rseq + 1) % 2 ^ 32 } }

/-! ### The check-value unit (R517–R520, R530) -/

/-- The control register of context c; 16 is the direct interface. -/
def cvuCtrl (c : Nat) : Nat := if c < 16 then mgmtReg (0x1000 + 32 * c) else mgmtReg 0x1200
/-- The low word of its running value. -/
def cvuLo (c : Nat) : Nat := cvuCtrl c + 4
/-- Context c. -/
def State.cvu (s : State) (c : Nat) : CvuCh := kget {} s.mgmt.cvu c
/-- Replace it. -/
def State.setCvu (s : State) (c : Nat) (x : CvuCh) : State := { s with mgmt := { s.mgmt with cvu := kset {} s.mgmt.cvu c x } }
/-- Its selection. -/
def State.cvuSel (s : State) (c : Nat) : CrcSel := crcSel (s.field (cvuCtrl c) 0 2)

/-- Is requester `who` a unit that reaches BAR2 (R539): the PF or the MC? -/
def reachesBar2 (who : Nat) : Bool := who == 0 || who == 256

/-- May it write context c: 0–7 belong to the firmware, 8–15 to the PF (R519), 16 to both? -/
def cvuWritable (who c : Nat) : Bool := if c < 8 then who == 256 else if c < 16 then who == 0 else reachesBar2 who

/-- The core takes the oldest feed write of a context. -/
def CvuCh.take (x : CvuCh) (sel : CrcSel) : CvuCh :=
  match x.queue with
  | [] => x
  | f :: rest => { value := crcFeed sel (x.value % 2 ^ sel.width) f, queue := rest }

/-- Every feed written before has been taken. -/
def CvuCh.settle (x : CvuCh) (sel : CrcSel) : CvuCh :=
  { value := x.queue.foldl (fun v f => crcFeed sel (v % 2 ^ sel.width) f) x.value, queue := [] }

/-- Context c with its feeds taken. -/
def State.cvuSettle (s : State) (c : Nat) : State := s.setCvu c ((s.cvu c).settle (s.cvuSel c))

/-- VALUE as it reads: upper bits of a narrower selection are zero. -/
def State.cvuValue (s : State) (c : Nat) : Nat := ((s.cvu c).settle (s.cvuSel c)).value % 2 ^ (s.cvuSel c).width

/-- RESULT. -/
def State.cvuResult (s : State) (c : Nat) : Nat := s.cvuValue c ^^^ (s.cvuSel c).xorOut

/-- A feed write; a full queue first gives up its oldest. -/
def State.feed (s : State) (who c bytes value : Nat) : State :=
  if !cvuWritable who c then s
  else
    let x := s.cvu c
    let y := if 8 ≤ x.queue.length then x.take (s.cvuSel c) else x
    s.setCvu c { y with queue := y.queue ++ [leBytes bytes value] }

/-- CVU_FEED (R518). -/
def execCvuFeed (who ch bytes value : Nat) (s : State) : Host.Outcome State Fault Refusal :=
  if !reachesBar2 who || 16 < ch || !(bytes == 1 || bytes == 2 || bytes == 4) then .fault .noSuchUnit
  else .next (s.feed who ch bytes value)

/-- The initial value is loaded, after the feeds before it. -/
def State.initCvu (s : State) (c : Nat) : State := s.setCvu c { value := (s.cvuSel c).init, queue := [] }

/-- CVU_INIT (R519). -/
def execCvuInit (who ch : Nat) (s : State) : Host.Outcome State Fault Refusal :=
  if !reachesBar2 who || 16 ≤ ch then .fault .noSuchUnit
  else if cvuWritable who ch then .next (s.initCvu ch) else .next s

/-- A write of a control register: SEL after the feeds before it, then INIT. -/
def State.writeCvuCtrl (s : State) (who c v : Nat) : State :=
  if !cvuWritable who c then s
  else
    let s1 := (s.cvuSettle c).setReg (cvuCtrl c) (v % 4)
    if c < 16 && bitOf v 2 then s1.initCvu c else s1

/-- A write of the running value, after the feeds before it: with selection 3 the low word is staged and the high word commits; a
narrower selection takes the low word at once and ignores the high (R519, R530). -/
def State.writeCvuValue (s : State) (who c : Nat) (high : Bool) (value : Nat) : State :=
  let w := (s.cvuSel c).width
  if !cvuWritable who c then s
  else if w == 64 then
    if high then
      let lo := (kget none s.stages (requesterKey who (cvuLo c))).getD (s.cvuValue c % 2 ^ 32)
      { s.setCvu c { value := lo + value % 2 ^ 32 * 2 ^ 32, queue := [] } with
        stages := kset none s.stages (requesterKey who (cvuLo c)) none }
    else s.stageLow who (cvuLo c) value
  else if high then s
  else s.setCvu c { value := value % 2 ^ w, queue := [] }

/-- CVU_VALUE_WRITE (R519, R530). -/
def execCvuValueWrite (who ch : Nat) (high : Bool) (value : Nat) (s : State) : Host.Outcome State Fault Refusal :=
  if !reachesBar2 who || 16 < ch then .fault .noSuchUnit else .next (s.writeCvuValue who ch high value)

/-- A read of one word of a 64-bit value whose low word is at lo: the low word loads the requester's latch, the high word is the
latch (R528). -/
def State.readWide (s : State) (who lo : Nat) (high : Bool) (v : Nat) : State :=
  if high then { s with rdata := kget 0 s.latches (requesterKey who (lo + 4)) }
  else { s with rdata := v % 2 ^ 32, latches := kset 0 s.latches (requesterKey who (lo + 4)) (v / 2 ^ 32 % 2 ^ 32) }

/-- CVU_VALUE_READ (R519). -/
def execCvuValueRead (who ch : Nat) (high : Bool) (s : State) : Host.Outcome State Fault Refusal :=
  if !reachesBar2 who || 16 < ch then .fault .noSuchUnit
  else .next ((s.cvuSettle ch).readWide who (cvuLo ch) high (s.cvuValue ch))

/-- CVU_RESULT_READ (R519). -/
def execCvuResultRead (who ch : Nat) (high : Bool) (s : State) : Host.Outcome State Fault Refusal :=
  if !reachesBar2 who || 16 ≤ ch then .fault .noSuchUnit
  else .next ((s.cvuSettle ch).readWide who (cvuCtrl ch + 0x0C) high (s.cvuResult ch))

end Sys2Proof.Machine
end

