-- ==== Sys2Proof/Machine/RegView.lean ====
section
/-! DEFINITION. What a read of a register returns: the registers that report the module's state, both register spaces, wide
registers and their latches (R66, R319, R322, R343, R365, R367, R401, R402, R424, R460, R490, R522, R524–R528, R535, R541–R544). -/

namespace Sys2Proof.Machine

/-! ### Blocks of BAR2 -/

/-- GLB_ERR_SUMMARY (R543). -/
def State.errSummary (s : State) : Nat :=
  natOf (s.reg (almReg 0x50) != 0) + 2 * natOf (s.reg (cpReg 8) != 0) + 4 * natOf (s.reg (tierReg 0x24) != 0)
    + 8 * natOf (s.reg (linkReg 0x0C) != 0) + 16 * natOf (s.reg (collReg 0x14) != 0) + 32 * natOf (s.reg (gidReg 0x20) != 0)
    + 64 * natOf s.hasFailed
    + (List.range 8).foldl (fun a d => a + 2 ^ (8 + d) * natOf (s.reg (remapReg d 0x14) != 0)) 0

/-- The ID / global block (R543). -/
def State.viewGid (s : State) (a : Nat) : Nat :=
  match a with
  | 0 => 0x0F08 + 2 ^ 16 * natOf s.gradeB44 + 2 ^ 18 * natOf s.stepB0
  | 4 => s.farFill % 4 + 4 * (s.flashFill % 4)
  | 0x0C => s.serial % 2 ^ 32
  | 0x10 => s.serial / 2 ^ 32 % 2 ^ 32
  | 0x14 => s.perRow
  | 0x24 => s.errSummary
  | 0x28 => s.vigil.writes.length
  | _ => s.reg a

/-- The count as the Almanac block shows it, a word each; the Almanac runs under Vigil (R66, R535). -/
def State.viewAlm (s : State) (a : Nat) : Nat :=
  if a == almReg 0 then s.tick % 2 ^ 32
  else if a == almReg 4 then s.tick / 2 ^ 32 % 2 ^ 32
  else if a == almReg 8 then s.subtick
  else s.reg a

/-- FN_STATE of function f (R365). CP_FAILOVER reads 1 while the module runs without a standby (DEDUCED, notes/assumptions/51). -/
def State.fnState (s : State) (f : Nat) : Nat :=
  let p := s.funcPart f
  let on (g : Part → Bool) : Nat := natOf ((p.map fun p => g (s.part p)).getD false)
  let span := s.cmds.any fun x => match x.2 with
    | some c => c.func == f && c.opcode == 0x01 && c.admitted.isSome
    | none => false
  natOf span + 2 * on (·.stopped) + 4 * on (·.recov.isSome) + 8 * natOf (s.holdsImage f) + 16 * natOf (s.cp.journalOk && !s.cp.standby)

/-- The command processor block (R367). -/
def State.viewCp (s : State) (a : Nat) : Nat :=
  let o := a - cpReg 0x1000
  if cpReg 0x1000 ≤ a && a < cpReg 0x2000 && o % 16 == 8 then s.fnState (o / 16) else s.reg a

/-- The pool and tiers block (R301). -/
def State.viewTier (s : State) (a : Nat) : Nat := if a == tierReg 0x10 then s.nearPages - s.nearTaken.length else s.reg a

/-- A word of a window entry (R319). -/
def Window.word (w : Window) (i : Nat) : Nat :=
  match i with
  | 0 => 1 + 2 * natOf w.store + 4 * natOf w.parked + 2 ^ 8 * w.func + 2 ^ 16 * w.notifyCore
  | 1 => w.ctr + 2 ^ 8 * w.peerFunc + 2 ^ 16 * natOf w.peerAny
  | 2 => w.base % 2 ^ 32
  | 3 => w.base / 2 ^ 32
  | 4 => w.size % 2 ^ 24
  | 5 => w.srcMatch + 2 ^ 16 * w.srcMask
  | 6 => w.accepted % 2 ^ 32
  | _ => 0

/-- A word of a stream record (R322); `held` its messages in the hold ring. -/
def Stream.word (x : Stream) (held i : Nat) : Nat :=
  match i with
  | 0 => 1 + 2 * natOf x.fault + 4 * natOf x.paused + 2 ^ 8 * x.func + 2 ^ 16 * x.tclass
  | 1 => x.dst + 2 ^ 16 * x.dstWin
  | 2 => x.retSframe % 2 ^ 32
  | 3 => x.retSframe / 2 ^ 32 % 2 ^ 16
  | 4 => x.retSeq % 2 ^ 32
  | 5 => x.resends % 2 ^ 32
  | 6 => held
  | _ => 0

/-- Entries of a table that are in use. -/
def usedIn {α : Type} (m : KMap (Option α)) : Nat := (m.filter fun x => x.2.isSome).length

/-- The links block and the collective registers (R333, R402). -/
def State.viewLink (s : State) (a : Nat) : Nat :=
  let o := a - linkReg 0
  if o == 0x10 then usedIn s.links.windows
  else if o == 0x14 then usedIn s.links.streams
  else if o == 0x18 then usedIn s.links.isrs
  else if 0x200 ≤ o && o < 0x400 then s.route ((o - 0x200) / 128) (o % 128 / 4)
  else if 0x10000 ≤ o && o < 0x30000 then
    ((kget none s.links.windows ((o - 0x10000) / 32)).map fun w => w.word (o % 32 / 4)).getD 0
  else if 0x30000 ≤ o && o < 0x50000 then
    let n := (o - 0x30000) / 32
    ((kget none s.links.streams n).map fun x => x.word (s.links.ring.filter fun m => m.stream == n).length (o % 32 / 4)).getD 0
  else if o == 0x50004 then usedIn s.colls.run
  else s.reg a

/-- The MC, power and security block: BUSY, and the check-value unit (R521, R522). -/
def State.viewMgmt (s : State) (a : Nat) : Nat :=
  let o := a - mgmtReg 0
  if o == 0x118 then s.reg a + natOf s.mcBusy
  else if 0x1000 ≤ o && o < 0x1200 then
    let c := (o - 0x1000) / 32
    match o % 32 with
    | 0 => s.reg a + 8 * natOf (decide (8 ≤ c))
    | 4 => s.cvuValue c % 2 ^ 32
    | 8 => s.cvuValue c / 2 ^ 32
    | 0x0C => s.cvuResult c % 2 ^ 32
    | 0x10 => s.cvuResult c / 2 ^ 32
    | _ => 0
  else if o == 0x1204 then s.cvuValue 16 % 2 ^ 32
  else if o == 0x1208 then s.cvuValue 16 / 2 ^ 32
  else s.reg a

/-- STRM_STATUS of a die's streamers (R542): ACTIVE while a copy, a walk or, on the first near one, a stream check runs (R421;
notes/assumptions/86); OUTSTANDING of an active one is an open number (notes/assumptions/40). -/
def State.viewDie (s : State) (a : Nat) : Nat :=
  let d := (a - 0x2000000) / 0x1000000
  let o := a % 0x1000000
  if o < 0x300 && o % 64 == 0 then
    let busy := s.tiers.copies.any fun x => match x.2 with
      | some r => r.home == d && r.streamer == o / 64
      | none => false
    let checks := o == 0 && s.replays.any fun x => match x.2 with
      | some r => r.home == d && r.checking
      | none => false
    if busy || checks then 1 + 2 * (Config.freeNat s.free % 4097) else 0
  else s.reg a

/-! ### BAR0 (R343, R365, R401, R424, R544) -/

/-- FN_ID (R365). -/
def State.fnId (s : State) (f : Nat) : Nat := f + 2 ^ 8 * (s.funcPart f).getD 15 + 2 ^ 12 * natOf (s.fnFiller f)

/-- The owner image that function f holds. -/
def State.ownImage (s : State) (f : Nat) : Option ImgHeld := (s.ownerPart f).bind fun p => (s.part p).image

/-- Function f's BAR0; a queue it does not have reads as zero. -/
def State.viewBar0 (s : State) (f o : Nat) : Nat :=
  let t := if s.vigil.frozen then s.vigil.frozeTick else s.tick
  let coll := (s.colls.run.filter fun x => ((x.2.map fun c => c.func == f).getD false)).length
  if o < 0x1000 then (if o / 64 < s.fnQueues f then s.reg (bar0 f o) else 0)
  else if 0x4000 ≤ o && o < 0x8000 then
    (if (o - 0x4000) / 4 < s.evCount f then kget 0 s.events (s.evBase f + (o - 0x4000) / 4) else 0)
  else
    match o with
    | 0x1000 => s.fnId f
    | 0x1004 => s.fnState f
    | 0x1010 => t % 2 ^ 32
    | 0x1014 => t / 2 ^ 32 % 2 ^ 32
    | 0x1018 => s.reg (cpReg (0x1004 + 16 * f))
    | 0x101C => s.fnQueues f
    | 0x9014 => s.nearResident f
    | 0x9018 => s.pinUse f
    | 0x901C => s.farUse f
    | 0xA10C => coll
    | 0xA200 => ((s.ownImage f).map fun m => Img.geomDigest m.bytes).getD 0
    | 0xA204 => ((s.ownImage f).map fun m => Img.cores m.bytes).getD 0
    | 0xA208 => ((s.ownImage f).map fun m => Img.crc m.bytes).getD 0
    | _ => s.reg (bar0 f o)

/-! ### Both spaces -/

/-- The live word at a BAR2 address, an address of the alias range standing for function f's BAR0; unmapped and write-only words
read as zero (R525, R526). -/
def State.live (s : State) (a : Nat) : Nat :=
  if a < 0x100000 then s.viewGid a
  else if a < 0x200000 then s.viewAlm a
  else if a < 0x400000 then s.viewCp a
  else if a < 0x800000 then s.viewTier a
  else if a < 0xC00000 then s.viewLink a
  else if a < 0x1000000 then s.reg a
  else if a < 0x2000000 then s.viewMgmt a
  else if a < 0xA000000 then s.viewDie a
  else if a < 0xB000000 then s.viewBar0 ((a - 0xA000000) / 0x10000) (a % 0x10000)
  else 0

/-- Is the address a function's alias for the PF, and that function not enabled (R541)? -/
def State.deadAlias (s : State) (who a : Nat) : Bool :=
  let f := (a - 0xA000000) / 0x10000
  decide (0xA000000 ≤ a) && decide (a < 0xB000000) && who == 0 && f != 0 && !s.fnEnabled f

/-- The low word of a 64-bit register (R528). -/
def wideLow (a : Nat) : Bool :=
  if a < 0xA000000 then
    [gidReg 0x0C, almReg 0, almReg 0x58, cpReg 0x28, obsReg 4, obsReg 0x504, obsReg 0x704, obsReg 0x70C, obsReg 0x718, obsReg 0x744,
      mgmtReg 0x1204].contains a
      || (decide (tierReg 0x100 ≤ a) && decide (a < tierReg 0x200) && a % 16 == 4)
      || (decide (mgmtReg 0x1000 ≤ a) && decide (a < mgmtReg 0x1200) && (a % 32 == 4 || a % 32 == 0x0C))
  else if a < 0xB000000 then
    let o := a % 0x10000
    (decide (o < 0x1000) && (o % 64 == 0 || o % 64 == 0x14)) || o == 0x1010 || (decide (0x8000 ≤ o) && decide (o < 0x8800) && o % 8 == 0)
      || (decide (0xA000 ≤ o) && decide (o < 0xA040) && o % 8 == 0) || (decide (0xA300 ≤ o) && decide (o < 0xA340) && o % 8 == 0)
      || o == 0xA344
  else false

/-- The high word of one. -/
def wideHigh (a : Nat) : Bool := decide (4 ≤ a) && wideLow (a - 4)

/-- A word as requester `who` reads it: high words, and ALM_SUBTICK, come from its latch (R66, R528; ALM_SUBTICK at every read:
DEDUCED, notes/assumptions/52). -/
def State.readWord (s : State) (who a : Nat) : Nat :=
  if s.deadAlias who a then 0
  else if wideHigh a || a == almReg 8 then kget 0 s.latches (requesterKey who a)
  else s.live a

/-- A 4-byte read of the low word of a wide register: it returns the live word and loads the latch of the high word, ALM_TICK_LO also
that of ALM_SUBTICK. Feeds of the check-value unit are taken first (R519). -/
def State.readLow (s : State) (who a : Nat) : State :=
  let dead := s.deadAlias who a
  let v := if dead then 0 else s.live (a + 4)
  let l := kset 0 s.latches (requesterKey who (a + 4)) v
  { s with
    rdata := s.readWord who a
    latches := if a == almReg 0 then kset 0 l (requesterKey who (almReg 8)) s.subtick else l }

/-- Does requester `who` (0 the PF, 257 the PF through an alias, f the VF f, 256 the MC) reach a word at a BAR2 address: a BAR0 is the
function's own or, for the PF, its alias; the rest is the PF's, and of it the management block the MC's too (R539, R541)? -/
def reaches (who a : Nat) : Bool :=
  a % 4 == 0 && decide (a < 0x10000000)
    && (if 0xA000000 ≤ a && a < 0xB000000 then who == 0 || who == 257 || who == (a - 0xA000000) / 0x10000
      else who == 0 || (who == 256 && decide (0x1000000 ≤ a) && decide (a < 0x2000000)))

/-- WIDE_LOW_READ (R528). -/
def execWideLowRead (who addr : Nat) (s : State) : Host.Outcome State Fault Refusal :=
  if !reaches who addr then .fault .noSuchUnit
  else if wideLow addr then .next (s.readLow who addr)
  else .next { s with rdata := s.readWord who addr }

end Sys2Proof.Machine
end

