-- ==== Sys2Proof/Machine/RegAccess.lean ====
section
/-! DEFINITION. What a write of a register does: byte enables, access types, reserved values, staged wide registers, each block's own
rules; writes under Vigil, writes through an alias; the resume that applies what was queued (R14, R66, R313, R332, R343, R347, R424,
R460–R463, R486, R490, R522–R526, R529–R535, R541–R544). -/

namespace Sys2Proof.Machine

/-! ### Access types (R14, R524, R526) -/

/-- The bits of the bytes that a mask of four enables. -/
def enabledBits (mask : Nat) : Nat :=
  (List.range 4).foldl (fun a i => a + natOf (bitOf mask i) * 0xFF * 256 ^ i) 0

/-- The value with disabled bytes as zeros: what W1C, SC and WO fields see. -/
def enabledValue (value mask : Nat) : Nat := value &&& enabledBits mask

/-- The value with disabled bytes as they were: what RW fields see. -/
def mergeBytes (old value mask : Nat) : Nat := enabledValue value mask + (old &&& (0xFFFFFFFF ^^^ enabledBits mask))

/-- An RW register whose fields are the bits of `fields`. -/
def State.writeRw (s : State) (a fields v : Nat) : State := s.setReg a (v &&& fields)

/-- A W1C register. -/
def State.writeW1c (s : State) (a fields v : Nat) : State := s.setReg a (s.reg a &&& (0xFFFFFFFF ^^^ (v &&& fields)))

/-- The same where a condition says that the write is not ignored. -/
def State.writeIf (s : State) (ok : Bool) (f : State → State) : State := if ok then f s else s

/-! ### Wide registers (R529) -/

/-- Which words of a wide RW register a write finds: the fields of both words; whether its own rule ignores writes now. -/
structure WideReg where
  low : Nat := 0xFFFFFFFF
  high : Nat := 0xFFFFFFFF
  ignored : Bool := false
  valid : Nat → Bool := fun _ => true

/-- A write of the low word stages it. -/
def State.stageWide (s : State) (who lo : Nat) (r : WideReg) (v : Nat) : State :=
  if r.ignored then s else s.stageLow who lo (v &&& r.low)

/-- A write of the high word commits, unless the register's own rule ignores it or a field holds a reserved value. -/
def State.commitReg (s : State) (who lo : Nat) (r : WideReg) (v : Nat) : State :=
  if r.ignored || !r.valid (s.staged who lo + (v &&& r.high) * 2 ^ 32) then s else s.commitWide who lo (v &&& r.high)

/-- A write of either word. -/
def State.writeWide (s : State) (who lo : Nat) (high : Bool) (r : WideReg) (v : Nat) : State :=
  if high then s.commitReg who lo r v else s.stageWide who lo r v

/-! ### ID / global and Almanac (R66, R543) -/

/-- The ID / global block. -/
def State.writeGid (s : State) (a v w : Nat) : State :=
  if a == gidReg 0x20 then s.writeW1c a 3 w
  else if gidReg 0x40 ≤ a && a < gidReg 0x50 then s.writeRw a 0xFFFFFFFF v
  else s

/-- The Almanac block. Rate 3 is reserved. -/
def State.writeAlm (s : State) (who a v w : Nat) : State :=
  match a - almReg 0 with
  | 0x10 => let s1 := s.writeRw a 1 v
            if bitOf w 1 then s1.acquire else s1
  | 0x40 => s.writeRw a 0xFF v
  | 0x50 => s.writeW1c a 0xF w
  | 0x54 => if s.anyImage then s.setBit (almReg 0x50) 2 else s.writeIf (v % 4 != 3) (·.writeRw a 3 v)
  | 0x58 => if s.anyImage then s.setBit (almReg 0x50) 2 else s.stageWide who a {} v
  | 0x5C => s.armRate who v
  | _ => s

/-! ### Command processor (R339, R342, R367, R368) -/

/-- PREEMPT: STOP and RESUME together are reserved (R534). -/
def State.writePreempt (s : State) (w : Nat) : State :=
  match bitOf w 3, bitOf w 4 with
  | true, false => s.preemptStop (w % 8)
  | false, true => s.preemptResume (w % 8)
  | _, _ => s

/-- The command processor block. -/
def State.writeCp (s : State) (who a v w : Nat) : State :=
  let o := a - cpReg 0
  if 0x1000 ≤ o && o < 0x2000 then
    match o % 16 with
    | 0 => s.writeFnCfg ((o - 0x1000) / 16) v
    | 4 => s.writeFnEvents ((o - 0x1000) / 16) v
    | _ => s
  else if 0x100 ≤ o && o < 0x140 then (if o % 8 == 0 then s.writePart ((o - 0x100) / 8) v else s)
  else
    match o with
    | 4 => if bitOf w 0 then s.deviceReset else s
    | 8 => s.writeW1c a 0xF w
    | 0x1C => if bitOf w 8 then s.release (w % 256) else s
    | 0x20 => s.writePreempt w
    | 0x28 => s.stageWide who a {} v
    | 0x2C => s.commitReg who (a - 4) {} v
    | _ => s

/-! ### Pool and tiers (R260, R261, R276, R279, R283, R289, R301) -/

/-- Is a write to window n ignored: a command reads through it (R276)? -/
def State.windowBusy (s : State) (n : Nat) : Bool :=
  let owners := [s.field (tierReg (0x100 + 16 * n)) 8 8] ++ ((s.windowNext n).map fun x => bitsOf x.1 8 8).toList
  owners.any fun f => s.readsWindow f n

/-- The pool and tiers block. -/
def State.writeTier (s : State) (who a v w : Nat) : State :=
  let o := a - tierReg 0
  if o == 4 then s.writeNearCfg v
  else if o == 0x24 then s.writeW1c a 0x3F w
  else if 0x40 ≤ o && o < 0x60 then s.writeCacheBase ((o - 0x40) / 4) v
  else if 0x60 ≤ o && o < 0x70 then s.setField a 2 1 (v / 4)
  else if 0x100 ≤ o && o < 0x200 then
    let n := (o - 0x100) / 16
    match o % 16 with
    | 0 => s.writeRw a 0xFF07 v
    | 4 => s.stageWide who a { ignored := s.windowBusy n } v
    | 8 => s.armWindow n v
    | _ => s
  else if 0x1000 ≤ o && o < 0x2000 then
    let f := (o - 0x1000) / 16
    if o % 16 == 0x0C then s.writeShares f v else s.writeQuota f (o % 16 / 4) v
  else if 0x2000 ≤ o && o < 0x4000 then s.writeCarve ((o - 0x2000) / 32) (o % 32 / 4) v
  else s

/-! ### Links and collectives (R313, R332, R333, R402, R534) -/

/-- TOR_ADDR and TOR_DIM: only while every port is DOWN (R313). -/
def State.writeTor (s : State) (a keep v : Nat) : State :=
  if (List.range 8).all fun p => s.portState p == 0 then s.setReg a (v % keep + s.reg a / keep * keep) else s.setBit (linkReg 0x0C) 0

/-- LINK_CTRL: each enabled UP_REQ. -/
def State.writeLinkCtrl (s : State) (v mask : Nat) : State :=
  if bitOf mask 0 then (List.range 8).foldl (fun s p => s.portRequest p (bitOf v p)) s else s

/-- LINK_SHARE of a class: the classes' shares stay within 15 (R332). -/
def State.writeShare (s : State) (a v : Nat) : State :=
  let others := (List.range 16).foldl (fun n c => if linkReg (0x100 + 4 * c) == a then n else n + s.field (linkReg (0x100 + 4 * c)) 0 4) 0
  if 15 < others + v % 16 then s.setBit (linkReg 0x0C) 3 else s.writeRw a 0xF v

/-- The links block. -/
def State.writeLink (s : State) (a v w mask : Nat) : State :=
  let o := a - linkReg 0
  if 0x100 ≤ o && o < 0x140 then s.writeShare a v
  else
    match o with
    | 0 => s.writeTor a (2 ^ 14) v
    | 4 => s.writeIf (v % 4 != 3) (·.writeTor a (2 ^ 16) v)
    | 8 => s.writeLinkCtrl v mask
    | 0x0C => s.writeW1c a 0x1F w
    | 0x50000 => s.writeRw a 0xFFFF v
    | 0x50014 => s.writeW1c a 3 w
    | _ => s

/-! ### Counters, trace, Vigil, scan (R465–R490) -/

/-- SCAN_CTRL: ignored while a scan runs; PADS is kept, GO starts one. -/
def State.writeScanCtrl (s : State) (v w : Nat) : State :=
  if s.vigil.scanBusy then s
  else
    let s1 := s.writeRw (obsReg 0x740) 2 v
    if bitOf w 0 then s1.startScan else s1

/-- The counters block. Sink 3, and ring sizes outside 8–24, are reserved. -/
def State.writeObs (s : State) (who a v w : Nat) : State :=
  let o := a - obsReg 0
  if 0x100 ≤ o && o < 0x280 then
    let kind := (o - 0x100) / 32
    let k := o % 32 / 4
    s.writeIf (decide (k < countersOf kind)) (·.writeCntCfg kind k v)
  else if 0x600 ≤ o && o < 0x620 then s.writeObsPart ((o - 0x600) / 4) v
  else
    match o with
    | 0 => s.writeRw a 0xFFFF0003 v
    | 4 => s.stageWide who a { low := 0xFFFFFF00 } v
    | 8 => s.commitReg who (a - 4) { low := 0xFFFFFF00 } v
    | 0x0C => s.writeRw a 0xFFFF v
    | 0x400 => s.writeRw a 0xFFFF003F v
    | 0x404 => s.writeRw a 0xFFFF v
    | 0x500 => s.writeIf (v % 4 != 3) (·.writeRw a 0x03FE0003 v)
    | 0x504 => s.stageWide who a { low := 0xFFFFF000 } v
    | 0x508 => s.commitReg who (a - 4) {} v
    | 0x50C => s.writeIf (decide (8 ≤ v % 32) && decide (v % 32 ≤ 24)) (·.writeRw a 0x1F v)
    | 0x510 => s.writeRw a 0xFFFFFF v
    | 0x700 => s.writeVigil (bitsOf v 4 2 * 16 + (w &&& 0xCF))
    | 0x704 => s.stageWide who a {} v
    | 0x708 => s.commitReg who (a - 4) {} v
    | 0x70C => s.stageWide who a {} v
    | 0x710 => s.commitReg who (a - 4) {} v
    | 0x740 => s.writeScanCtrl v w
    | 0x744 => s.stageWide who a { low := 0xFFFFFF00 } v
    | 0x748 => s.commitReg who (a - 4) {} v
    | _ => s

/-! ### MC, power and security (R514–R522) -/

/-- A write in a context of the check-value unit. -/
def State.writeCvu (s : State) (who c off v w : Nat) : State :=
  match off with
  | 0 => s.writeCvuCtrl who c (v % 4 + (w &&& 4))
  | 4 => s.writeCvuValue who c false v
  | 8 => s.writeCvuValue who c true v
  | 0x14 => s.feed who c 1 w
  | 0x18 => s.feed who c 2 w
  | 0x1C => s.feed who c 4 w
  | _ => s

/-- The MC, power and security block. DIV_INT 0, and PWR_FAST_MAX above 16, are reserved. -/
def State.writeMgmt (s : State) (who a v w : Nat) : State :=
  let o := a - mgmtReg 0
  if 0x1000 ≤ o && o < 0x1200 then s.writeCvu who ((o - 0x1000) / 32) (o % 32) v w
  else if 0x1200 ≤ o && o < 0x120C then s.writeCvu who 16 (o - 0x1200) v w
  else if 0x120C ≤ o && o < 0x1218 then s.writeCvu who 16 (o - 0x1200 + 8) v w
  else if 0x104 ≤ o && o < 0x114 then s.writeRw a 0xFFFFFFFF v
  else
    match o with
    | 0x100 => s.writeRw a 0xFF v
    | 0x114 => if bitOf w 0 then s.mboxGo else s
    | 0x200 => s.writeRw a 0xFFF v
    | 0x20C => s.writeIf (decide (v % 32 ≤ 16)) (·.writeRw a 0x1F v)
    | 0x220 => s.writeRw a 0xFF v
    | 0x400 => s.writeIf (v % 4096 != 0) (·.writeRw a 0xF0FFF v)
    | _ => s

/-! ### The dies' blocks (R461–R463) -/

/-- The blocks of die d; o the offset from its base. -/
def State.writeDie (s : State) (d o v w : Nat) : State :=
  match o with
  | 0x400018 => s.writeRw (storeReg d 0x18) 0xFFFF v
  | 0x800004 => s.writeRemapCtrl d (v % 16 / 2 * 2 + w % 2)
  | 0x800008 => s.writeRw (remapReg d 8) 0x3FFFF v
  | 0x800030 => if bitOf w 0 then s.popRecord d else s
  | 0xC00000 => s.writeScrub d v
  | _ => s

/-! ### BAR0 (R263, R302, R343, R347, R424, R460, R474) -/

/-- Does an area entry hold a reserved SIZE (R263)? -/
def areaSizeOk (v : Nat) : Bool := decide (1 ≤ bitsOf v 21 14) && decide (bitsOf v 21 14 ≤ 8192)

/-- Queue q of function f, word off. -/
def State.writeQueue (s : State) (f q off v w : Nat) : State :=
  let on := (s.queue f q).on
  let base : WideReg := { low := 0xFFFFF000, ignored := on }
  let a := queueReg f q off
  let size (lo hi : Nat) : Bool := !on && decide (lo ≤ v % 32) && decide (v % 32 ≤ hi)
  match off with
  | 0x00 => s.stageWide f a base v
  | 0x04 => s.commitReg f (a - 4) base v
  | 0x08 => s.writeIf (size 1 16) (·.writeRw a 0x1F v)
  | 0x0C => s.writeTail f q v
  | 0x14 => s.stageWide f a base v
  | 0x18 => s.commitReg f (a - 4) base v
  | 0x1C => s.writeIf (size 2 17) (·.writeRw a 0x1F v)
  | 0x20 => s.writeCqHead f q v
  | 0x28 => if bitOf v 0 then s.enableQueue f q else s.disableQueue f q
  | 0x2C => s.writeW1c a 6 w
  | 0x30 => s.writeIf (!on && s.reg (queueReg f q 0x34) == 0) (·.writeRw a 0xFFFFFFFF v)
  | _ => s

/-- Has function f a REPLAY accepted and not completed (R424)? In a tick window that may still admit it, a write lands in time for
the copy taken at the admission (R425; DEDUCED, notes/assumptions/83). -/
def State.replayOpen (s : State) (f : Nat) : Bool := s.cmds.any fun x => match x.2 with
  | some c => c.func == f && c.opcode == 0x31 && c.accepted.isSome && (c.admitted.isSome || decide (15 < s.subtick))
  | none => false

/-- Function f's BAR0, written by f. -/
def State.writeBar0 (s : State) (f o v w : Nat) : State :=
  let a := bar0 f o
  let lo := bar0 f (o / 8 * 8)
  let high := o % 8 == 4
  if o < 0x1000 then (if o / 64 < s.fnQueues f then s.writeQueue f (o / 64) (o % 64) v w else s)
  else if 0x8000 ≤ o && o < 0x8800 then s.writeWide f lo high { low := 0xFFFFFF0F, high := 7, valid := areaSizeOk } v
  else if (0xA000 ≤ o && o < 0xA040) || (0xA300 ≤ o && o < 0xA340) then
    s.writeWide f lo high { low := 0xFFFFFF01, high := 7, valid := areaSizeOk } v
  else if 0xA210 ≤ o && o < 0xA220 then s.writeIf (!s.replayOpen f) (·.writeRw a 0xFFFFFFFF v)
  else
    match o with
    | 0x9000 => s.writeIf (decide (v / 2 % 8 < 5)) (·.writeRw a 0xF v)
    | 0x9004 => s.writeRw a 0xFFFFFFFF v
    | 0x9008 => s.writeIf (decide (1 ≤ v) && decide (v ≤ 2 ^ 21)) (·.writeRw a 0xFFFFFFFF v)
    | 0x900C => if bitOf w 0 then s.poolGo f else s
    | 0xA400 => s.writeRw a 0xF v
    | _ => s

/-- A write through the alias of function f: only FN_WIN_MAX, up to 4,096 (R541, R544). -/
def State.writeAlias (s : State) (f o v : Nat) : State :=
  if o == 0xA040 then s.writeIf (decide (v % 8192 ≤ 4096)) (·.writeRw (bar0 f o) 0x1FFF v) else s.setBit (gidReg 0x20) 1

/-! ### A write (R524, R535, R539) -/

/-- Does a block run while the module is frozen: ID / global, Almanac, the Vigil and scan registers, MC, power and security? -/
def runsFrozen (a : Nat) : Bool :=
  decide (a < 0x200000) || (decide (obsReg 0x700 ≤ a) && decide (a < obsReg 0x760)) || (decide (0x1000000 ≤ a) && decide (a < 0x2000000))

/-- The word that RW fields not written keep: of a wide register's low word, the requester's stage (DEDUCED,
notes/assumptions/66). -/
def State.keptWord (s : State) (who a : Nat) : Nat := if wideLow a then s.staged who a else s.reg a

/-- A write that lands: `who` 257 is the PF writing through an alias. -/
def State.land (s : State) (who a value mask : Nat) : State :=
  let v := mergeBytes (s.keptWord who a) value mask
  let w := enabledValue value mask
  let f := (a - 0xA000000) / 0x10000
  if a < 0x100000 then s.writeGid a v w
  else if a < 0x200000 then s.writeAlm who a v w
  else if a < 0x400000 then s.writeCp who a v w
  else if a < 0x800000 then s.writeTier who a v w
  else if a < 0xC00000 then s.writeLink a v w mask
  else if a < 0x1000000 then s.writeObs who a v w
  else if a < 0x2000000 then s.writeMgmt who a v w
  else if a < 0xA000000 then s.writeDie ((a - 0x2000000) / 0x1000000) (a % 0x1000000) v w
  else if a < 0xB000000 then (if who == f then s.writeBar0 f (a % 0x10000) v w else s.writeAlias f (a % 0x10000) v)
  else s

/-- A write of a word: under Vigil one to a stopped block waits (R535). -/
def State.writeReg (s : State) (who a value mask : Nat) : State :=
  if s.vigil.frozen && !runsFrozen a then s.enqueueWrite who a (value % 2 ^ 32) (mask % 16) else s.land who a (value % 2 ^ 32) (mask % 16)

/-- A write by a requester that reaches the word. -/
def onWrite (who a value mask : Nat) (s : State) : Host.Outcome State Fault Refusal :=
  if 256 < who || !reaches who a then .fault .noSuchUnit else .next (s.writeReg who a value mask)

/-- REGISTER_WRITE (R532). -/
def execRegisterWrite (who addr value mask : Nat) (s : State) : Host.Outcome State Fault Refusal := onWrite who addr value mask s

/-- FROZEN_WRITE (R535). -/
def execFrozenWrite (who addr value mask : Nat) (s : State) : Host.Outcome State Fault Refusal := onWrite who addr value mask s

/-- WIDE_LOW_WRITE (R529). -/
def execWideLowWrite (who addr value : Nat) (s : State) : Host.Outcome State Fault Refusal := onWrite who addr value 15 s

/-- WIDE_HIGH_WRITE (R529). -/
def execWideHighWrite (who addr value : Nat) (s : State) : Host.Outcome State Fault Refusal := onWrite who addr value 15 s

/-- ALIAS_WRITE (R541). -/
def execAliasWrite (f off value : Nat) (s : State) : Host.Outcome State Fault Refusal :=
  if 256 ≤ f || 0x10000 ≤ off || off % 4 != 0 then .fault .noSuchUnit else .next (s.writeReg 257 (bar0 f off) value 15)

/-! ### Resume (R486, R491, R535) -/

/-- The module resumes: a VIGIL record, LATE cleared, the sub-tick of the freeze (16 after a rate change), the queued writes in the
order of their arrival, a removal that waited. -/
def State.unfreeze (s : State) : State :=
  let v := s.vigil
  let late := s.bit vigilStatus 2
  let s1 := s.setReg vigilStatus (s.reg vigilStatus / 8 * 8)
  let s2 := { s1 with
    subtick := if v.rateChanged then 16 else v.frozeSub
    vigil := { v with frozen := false, resumeAt := none, writes := [], rateChanged := false, heard := [] } }
  let s3 := s2.trace 8 0 (v.source + 4 * natOf v.scheduled + 8 * natOf late + 16 * v.frozeSub) v.frozeTick
  let s4 := v.writes.foldl (fun s w => s.land w.who w.addr w.value w.mask) ((List.range 8).foldl State.pumpPort s3)
  if s4.mgmt.attnPending then s4.beginRemoval else s4

/-- VIGIL_RESUME_POINT (R486): the count is reached; a scan still busy moves the resume past its end and sets LATE. -/
def execVigilResumePoint (s : State) : Host.Outcome State Fault Refusal :=
  match s.vigil.resumeAt with
  | none => .next s
  | some r =>
    if !s.vigil.frozen || decide (s.tick < r) then .next s
    else if s.vigil.scanBusy then .next (s.setBit vigilStatus 2)
    else .next s.unfreeze

end Sys2Proof.Machine
end

