-- ==== Sys2Proof/Machine/Dispatch.lean ====
section
/-! DEFINITION. One arm per command: each calls its meaning. -/

namespace Sys2Proof.Machine

/-- The effect of a command on everything but the queue of waiting commands. -/
def exec (i : Instr) (s : State) : Host.Outcome State Fault Refusal :=
  match i with
  | .alu c t rd rs1 rs2 func ext => Sys2Proof.Machine.execAlu c t rd rs1 rs2 func ext s
  | .addi c t rd rs1 imm => Sys2Proof.Machine.execAddi c t rd rs1 imm s
  | .andi c t rd rs1 imm => Sys2Proof.Machine.execAndi c t rd rs1 imm s
  | .ori c t rd rs1 imm => Sys2Proof.Machine.execOri c t rd rs1 imm s
  | .xori c t rd rs1 imm => Sys2Proof.Machine.execXori c t rd rs1 imm s
  | .lui c t rd imm => Sys2Proof.Machine.execLui c t rd imm s
  | .shi c t rd rs1 kind sh => Sys2Proof.Machine.execShi c t rd rs1 kind sh s
  | .b c t p neg target => Sys2Proof.Machine.execB c t p neg target s
  | .loop c t g target => Sys2Proof.Machine.execLoop c t g target s
  | .ld c t rd rs1 size pad sign off => Sys2Proof.Machine.execLd c t rd rs1 size pad sign off s
  | .st c t rs2 rs1 size pad off => Sys2Proof.Machine.execSt c t rs2 rs1 size pad off s
  | .areg c t a func field g imm => Sys2Proof.Machine.execAreg c t a func field g imm s
  | .movv c t g v lane word dir => Sys2Proof.Machine.execMovv c t g v lane word dir s
  | .fstat c t rd clr mode => Sys2Proof.Machine.execFstat c t rd clr mode s
  | .yield c t => Sys2Proof.Machine.execYield c t s
  | .tmma c t aw aa ap left nm1 wf af zero => Sys2Proof.Machine.execTmma c t aw aa ap left nm1 wf af zero s
  | .tmmaI8 c t aw aa ap left nm1 wf af zero => Sys2Proof.Machine.execTmmaI8 c t aw aa ap left nm1 wf af zero s
  | .tdrain c t ap cm1 dest ad dfmt rnd gb cinc ctr acc => Sys2Proof.Machine.execTdrain c t ap cm1 dest ad dfmt rnd gb cinc ctr acc s
  | .vop c t func fp64 va src2 vb areg pad dst vd hi lmask => Sys2Proof.Machine.execVop c t func fp64 va src2 vb areg pad dst vd hi lmask s
  | .cvt c t sfmt dfmt rnd src as_ spad dst ad dpad part gb => Sys2Proof.Machine.execCvt c t sfmt dfmt rnd src as_ spad dst ad dpad part gb s
  | .split c t ve j k src as_ spad ad dpad part => Sys2Proof.Machine.execSplit c t ve j k src as_ spad ad dpad part s
  | .merge c t vd vs as_ spad hi gs => Sys2Proof.Machine.execMerge c t vd vs as_ spad hi gs s
  | .sspk c t ga as_ spad dpad sfmt rnd gb => Sys2Proof.Machine.execSspk c t ga as_ spad dpad sfmt rnd gb s
  | .ssup c t ga ad dpad spad => Sys2Proof.Machine.execSsup c t ga ad dpad spad s
  | .rng c t gb vd half inc => Sys2Proof.Machine.execRng c t gb vd half inc s
  | .qpush c t q areg pad nm1 => Sys2Proof.Machine.execQpush c t q areg pad nm1 s
  | .qpop c t q areg pad nm1 => Sys2Proof.Machine.execQpop c t q areg pad nm1 s
  | .walk c t gd ctr cpt => Sys2Proof.Machine.execWalk c t gd ctr cpt s
  | .dma c t gs gd gl ctr => Sys2Proof.Machine.execDma c t gs gd gl ctr s
  | .waitc c t ctr gt imm => Sys2Proof.Machine.execWaitc c t ctr gt imm s
  | .cntadd c t ctr g imm => Sys2Proof.Machine.execCntadd c t ctr g imm s
  | .cntrd c t ctr g => Sys2Proof.Machine.execCntrd c t ctr g s
  | .swap c t sw sa => Sys2Proof.Machine.execSwap c t sw sa s
  | .illegalEncoding c t word => Sys2Proof.Machine.execIllegalEncoding c t word s
  | .drainBlock c => Sys2Proof.Machine.execDrainBlock c s
  | .generatorRequest c => Sys2Proof.Machine.execGeneratorRequest c s
  | .queueEntryMove c q => Sys2Proof.Machine.execQueueEntryMove c q s
  | .storePortTurn c => Sys2Proof.Machine.execStorePortTurn c s
  | .dmaArrival c slot => Sys2Proof.Machine.execDmaArrival c slot s
  | .walkerStart c slot => Sys2Proof.Machine.execWalkerStart c slot s
  | .walkerUnit c slot => Sys2Proof.Machine.execWalkerUnit c slot s
  | .walkerReleaseWaitEnd c slot => Sys2Proof.Machine.execWalkerReleaseWaitEnd c slot s
  | .tileArrival c slot => Sys2Proof.Machine.execTileArrival c slot s
  | .foldSlotOpen c => Sys2Proof.Machine.execFoldSlotOpen c s
  | .fillerSlotEnd c => Sys2Proof.Machine.execFillerSlotEnd c s
  | .fillerPortCutoff c => Sys2Proof.Machine.execFillerPortCutoff c s
  | .debugAccRead f c off n => Sys2Proof.Machine.execDebugAccRead f c off n s
  | .tick energy parts => Sys2Proof.Machine.execTick energy parts s
  | .slipLimitReached p => Sys2Proof.Machine.execSlipLimitReached p s
  | .rateChange => Sys2Proof.Machine.execRateChange s
  | .rateArm who value => Sys2Proof.Machine.execRateArm who value s
  | .mirrorComplete p => Sys2Proof.Machine.execMirrorComplete p s
  | .mirrorTurn c => Sys2Proof.Machine.execMirrorTurn c s
  | .supplyDroop n => Sys2Proof.Machine.execSupplyDroop n s
  | .syncSymbolSend p frac => Sys2Proof.Machine.execSyncSymbolSend p frac s
  | .syncSymbolReceive p sym frac => Sys2Proof.Machine.execSyncSymbolReceive p sym frac s
  | .lockAcquired => Sys2Proof.Machine.execLockAcquired s
  | .parentChange => Sys2Proof.Machine.execParentChange s
  | .holdover => Sys2Proof.Machine.execHoldover s
  | .lostLock => Sys2Proof.Machine.execLostLock s
  | .acquire => Sys2Proof.Machine.execAcquire s
  | .doorbell f q tail => Sys2Proof.Machine.execDoorbell f q tail s
  | .cqHeadWrite f q head => Sys2Proof.Machine.execCqHeadWrite f q head s
  | .fetchRound cells => Sys2Proof.Machine.execFetchRound cells s
  | .commandAccept f q => Sys2Proof.Machine.execCommandAccept f q s
  | .hostAccessFail f q write => Sys2Proof.Machine.execHostAccessFail f q write s
  | .queueEnable f q => Sys2Proof.Machine.execQueueEnable f q s
  | .queueDisable f q => Sys2Proof.Machine.execQueueDisable f q s
  | .runSpan f q => Sys2Proof.Machine.execRunSpan f q s
  | .copy f q => Sys2Proof.Machine.execCopy f q s
  | .reduceScatter f q => Sys2Proof.Machine.execReduceScatter f q s
  | .allGather f q => Sys2Proof.Machine.execAllGather f q s
  | .allReduce f q => Sys2Proof.Machine.execAllReduce f q s
  | .broadcast f q => Sys2Proof.Machine.execBroadcast f q s
  | .permute f q => Sys2Proof.Machine.execPermute f q s
  | .rotate f q => Sys2Proof.Machine.execRotate f q s
  | .vote f q => Sys2Proof.Machine.execVote f q s
  | .commitStep f q => Sys2Proof.Machine.execCommitStep f q s
  | .windowOpen f q => Sys2Proof.Machine.execWindowOpen f q s
  | .windowClose f q => Sys2Proof.Machine.execWindowClose f q s
  | .event f q => Sys2Proof.Machine.execEvent f q s
  | .fence f q => Sys2Proof.Machine.execFence f q s
  | .checkpoint f q => Sys2Proof.Machine.execCheckpoint f q s
  | .replay f q => Sys2Proof.Machine.execReplay f q s
  | .streamCheck id ok => Sys2Proof.Machine.execStreamCheck id ok s
  | .finalisation p => Sys2Proof.Machine.execFinalisation p s
  | .loadFrame p => Sys2Proof.Machine.execLoadFrame p s
  | .fillerLoad p => Sys2Proof.Machine.execFillerLoad p s
  | .tierLineArrival id ok corr => Sys2Proof.Machine.execTierLineArrival id ok corr s
  | .lineRetry id line => Sys2Proof.Machine.execLineRetry id line s
  | .nvmeCompletion id ok => Sys2Proof.Machine.execNvmeCompletion id ok s
  | .nvmeTimeout id => Sys2Proof.Machine.execNvmeTimeout id s
  | .asyncCopyLine id => Sys2Proof.Machine.execAsyncCopyLine id s
  | .map f => Sys2Proof.Machine.execMap f s
  | .mapPinned f => Sys2Proof.Machine.execMapPinned f s
  | .unmap f => Sys2Proof.Machine.execUnmap f s
  | .pin f => Sys2Proof.Machine.execPin f s
  | .unpin f => Sys2Proof.Machine.execUnpin f s
  | .refill f vpage => Sys2Proof.Machine.execRefill f vpage s
  | .cacheBaseWrite d value => Sys2Proof.Machine.execCacheBaseWrite d value s
  | .carveWrite f d value => Sys2Proof.Machine.execCarveWrite f d value s
  | .sharesWrite f value => Sys2Proof.Machine.execSharesWrite f value s
  | .quotaWrite f kind value => Sys2Proof.Machine.execQuotaWrite f kind value s
  | .flashWindowArm n value => Sys2Proof.Machine.execFlashWindowArm n value s
  | .offlineReq b => Sys2Proof.Machine.execOfflineReq b s
  | .bayOffline b => Sys2Proof.Machine.execBayOffline b s
  | .bayOnline b reason blocks => Sys2Proof.Machine.execBayOnline b reason blocks s
  | .stackRetire stack => Sys2Proof.Machine.execStackRetire stack s
  | .linkBlockReceive p good corr blk => Sys2Proof.Machine.execLinkBlockReceive p good corr blk s
  | .linkReplay p acked => Sys2Proof.Machine.execLinkReplay p acked s
  | .portFail p cause => Sys2Proof.Machine.execPortFail p cause s
  | .portUpRequest p up => Sys2Proof.Machine.execPortUpRequest p up s
  | .portUp p neighbour delay => Sys2Proof.Machine.execPortUp p neighbour delay s
  | .floodReceive p kind count => Sys2Proof.Machine.execFloodReceive p kind count s
  | .linkState p src link up => Sys2Proof.Machine.execLinkState p src link up s
  | .writeMessageReceive p hdr payload => Sys2Proof.Machine.execWriteMessageReceive p hdr payload s
  | .messageForward p hdr payload => Sys2Proof.Machine.execMessageForward p hdr payload s
  | .ack hdr => Sys2Proof.Machine.execAck hdr s
  | .retire hdr => Sys2Proof.Machine.execRetire hdr s
  | .nak hdr => Sys2Proof.Machine.execNak hdr s
  | .rewind hdr => Sys2Proof.Machine.execRewind hdr s
  | .ackTimer src stream => Sys2Proof.Machine.execAckTimer src stream s
  | .resendTimeout stream => Sys2Proof.Machine.execResendTimeout stream s
  | .parkedRepeat stream => Sys2Proof.Machine.execParkedRepeat stream s
  | .messageTransmit stream => Sys2Proof.Machine.execMessageTransmit stream s
  | .collMessageReceive p hdr payload => Sys2Proof.Machine.execCollMessageReceive p hdr payload s
  | .collNotreadyRepeat id => Sys2Proof.Machine.execCollNotreadyRepeat id s
  | .collTimeout id => Sys2Proof.Machine.execCollTimeout id s
  | .collLanding id => Sys2Proof.Machine.execCollLanding id s
  | .watchdogExpiry c => Sys2Proof.Machine.execWatchdogExpiry c s
  | .faultDetection what => Sys2Proof.Machine.execFaultDetection what s
  | .recovery p => Sys2Proof.Machine.execRecovery p s
  | .remapSubstitution d kind half row index dir software => Sys2Proof.Machine.execRemapSubstitution d kind half row index dir software s
  | .rowExhausted d half row => Sys2Proof.Machine.execRowExhausted d half row s
  | .sliceRebuild d half => Sys2Proof.Machine.execSliceRebuild d half s
  | .lineParityRebuild base => Sys2Proof.Machine.execLineParityRebuild base s
  | .remapGo d => Sys2Proof.Machine.execRemapGo d s
  | .remapRecPop d => Sys2Proof.Machine.execRemapRecPop d s
  | .scrubVoteCorrect d copy bad => Sys2Proof.Machine.execScrubVoteCorrect d copy bad s
  | .cpFailover => Sys2Proof.Machine.execCpFailover s
  | .functionReset f => Sys2Proof.Machine.execFunctionReset f s
  | .deviceReset => Sys2Proof.Machine.execDeviceReset s
  | .orderlyPowerDown => Sys2Proof.Machine.execOrderlyPowerDown s
  | .inputLoss => Sys2Proof.Machine.execInputLoss s
  | .powerDip => Sys2Proof.Machine.execPowerDip s
  | .preemptStop p => Sys2Proof.Machine.execPreemptStop p s
  | .preemptResume p => Sys2Proof.Machine.execPreemptResume p s
  | .fnRelease f => Sys2Proof.Machine.execFnRelease f s
  | .cpPartWrite p value => Sys2Proof.Machine.execCpPartWrite p value s
  | .fnCfgWrite f events value => Sys2Proof.Machine.execFnCfgWrite f events value s
  | .hostPowerState d3hot => Sys2Proof.Machine.execHostPowerState d3hot s
  | .dump => Sys2Proof.Machine.execDump s
  | .cntCfgWrite kind k value => Sys2Proof.Machine.execCntCfgWrite kind k value s
  | .threadSample c skid pc => Sys2Proof.Machine.execThreadSample c skid pc s
  | .sepiaRecord => Sys2Proof.Machine.execSepiaRecord s
  | .lost => Sys2Proof.Machine.execLost s
  | .sepiaHeadWrite head => Sys2Proof.Machine.execSepiaHeadWrite head s
  | .testMismatch c pc expected actual => Sys2Proof.Machine.execTestMismatch c pc expected actual s
  | .obsConsentWrite f value => Sys2Proof.Machine.execObsConsentWrite f value s
  | .obsPartWrite p value => Sys2Proof.Machine.execObsPartWrite p value s
  | .vigilPin => Sys2Proof.Machine.execVigilPin s
  | .now => Sys2Proof.Machine.execNow s
  | .nowSys => Sys2Proof.Machine.execNowSys s
  | .sched => Sys2Proof.Machine.execSched s
  | .schedSys => Sys2Proof.Machine.execSchedSys s
  | .resume => Sys2Proof.Machine.execResume s
  | .resumeSys => Sys2Proof.Machine.execResumeSys s
  | .scheduledFreeze => Sys2Proof.Machine.execScheduledFreeze s
  | .vigilResumePoint => Sys2Proof.Machine.execVigilResumePoint s
  | .scanGo => Sys2Proof.Machine.execScanGo s
  | .scanDone => Sys2Proof.Machine.execScanDone s
  | .mcHeartbeatMiss => Sys2Proof.Machine.execMcHeartbeatMiss s
  | .telemetrySample temp flow inlet => Sys2Proof.Machine.execTelemetrySample temp flow inlet s
  | .thermalTrip => Sys2Proof.Machine.execThermalTrip s
  | .coolantFailure => Sys2Proof.Machine.execCoolantFailure s
  | .coolantWarn flow inlet temp => Sys2Proof.Machine.execCoolantWarn flow inlet temp s
  | .powerLimit watts => Sys2Proof.Machine.execPowerLimit watts s
  | .startup env => Sys2Proof.Machine.execStartup env s
  | .startupStepTimeout => Sys2Proof.Machine.execStartupStepTimeout s
  | .coolantCheckPass => Sys2Proof.Machine.execCoolantCheckPass s
  | .attnN => Sys2Proof.Machine.execAttnN s
  | .refclkLoss => Sys2Proof.Machine.execRefclkLoss s
  | .cableChange p inserted qualified => Sys2Proof.Machine.execCableChange p inserted qualified s
  | .prsntChange made => Sys2Proof.Machine.execPrsntChange made s
  | .sucWrite => Sys2Proof.Machine.execSucWrite s
  | .sucRead => Sys2Proof.Machine.execSucRead s
  | .fwStage => Sys2Proof.Machine.execFwStage s
  | .inventory => Sys2Proof.Machine.execInventory s
  | .remove => Sys2Proof.Machine.execRemove s
  | .powerDown => Sys2Proof.Machine.execPowerDown s
  | .spdmRequest f bytes => Sys2Proof.Machine.execSpdmRequest f bytes s
  | .uartReceiveCharacter data stop => Sys2Proof.Machine.execUartReceiveCharacter data stop s
  | .uartTransmitCharacter => Sys2Proof.Machine.execUartTransmitCharacter s
  | .uartSepiaFrame => Sys2Proof.Machine.execUartSepiaFrame s
  | .cvuFeed who ch bytes value => Sys2Proof.Machine.execCvuFeed who ch bytes value s
  | .cvuInit who ch => Sys2Proof.Machine.execCvuInit who ch s
  | .cvuValueWrite who ch high value => Sys2Proof.Machine.execCvuValueWrite who ch high value s
  | .cvuValueRead who ch high => Sys2Proof.Machine.execCvuValueRead who ch high s
  | .cvuResultRead who ch high => Sys2Proof.Machine.execCvuResultRead who ch high s
  | .wideLowRead who addr => Sys2Proof.Machine.execWideLowRead who addr s
  | .wideLowWrite who addr value => Sys2Proof.Machine.execWideLowWrite who addr value s
  | .wideHighWrite who addr value => Sys2Proof.Machine.execWideHighWrite who addr value s
  | .frozenWrite who addr value mask => Sys2Proof.Machine.execFrozenWrite who addr value mask s
  | .aliasWrite f off value => Sys2Proof.Machine.execAliasWrite f off value s
  | .registerWrite who addr value mask => Sys2Proof.Machine.execRegisterWrite who addr value mask s
  | .drivePull b present => Sys2Proof.Machine.execDrivePull b present s
  | .slotIdStrapChange pins => Sys2Proof.Machine.execSlotIdStrapChange pins s
  | .portTrainingRepeat p => Sys2Proof.Machine.execPortTrainingRepeat p s
  | .mcRemapRecordRemoval d => Sys2Proof.Machine.execMcRemapRecordRemoval d s

end Sys2Proof.Machine
end

