-- ==== Sys2Proof/Machine/Step.lean ====
section
/-! DEFINITION. One step: the command at the front of the queue, with the queue's rest; an empty queue lets time pass. -/

namespace Sys2Proof.Machine

/-- The state with another queue. -/
def State.withPending (s : State) (l : List Instr) : State := { s with pending := l }

/-- One step. On an empty queue the block idles: one time-base cycle passes, the sub-tick count stopping at the frame's
last cycle, where a TICK is due (R44; DESIGN CHOICE, notes/assumptions/2). -/
def step (s : State) : Host.Outcome State Fault Refusal :=
  match s.pending with
  | [] => .next s.idle
  | i :: rest => exec i (s.withPending rest)

/-- The state with the command that a table word spells at the front of its queue; unchanged where it spells none. -/
def State.withFetchWord (s : State) (nbits w : Nat) : State :=
  match decodeTableWord nbits w with
  | none => s
  | some i => s.withPending (i :: s.pending)

end Sys2Proof.Machine
end

