-- ==== Sys2Proof/Safety.lean ====
section
/-! DEFINITION. What counts as a safe step and as a well-kept state. -/

namespace Sys2Proof.Safety

open Sys2Proof.Machine

/-- The step gives a next state. -/
def Runs (s : State) : Prop := ∃ t, step s = .next t

/-- Every command waiting is well formed. -/
def QueueWellFormed (s : State) : Prop := ∀ i ∈ s.pending, i.wellFormed = true

/-- Memory keeps its canonical form. -/
def MemoryKept (s : State) : Prop := Memory.wf s.mem = true

end Sys2Proof.Safety
end

