-- ==== Sys2Proof/Claims.lean ====
section
/-! DEFINITION. The notions that the statements share: when a command runs, and what it leaves as it was. -/

namespace Sys2Proof.Claims

open Sys2Proof.Machine

/-! ### Notions of the core statements -/

/-- Thread t of core c has the turn of a slot, the array slot or the general one: the core exists, power and clocks run, the tick window is
over, a fold slot is open, the thread is READY and the first of the slot's ready threads from its pointer on, its partition runs (R36,
R75, R76). -/
abbrev HasTurn (s : State) (c : Nat) (t : BitVec 4) (array : Bool) : Prop :=
  s.isCore c = true ∧ s.canIssue c t.toNat = true ∧ s.turnOf c t.toNat array = true

/-- It issues now in the general slot, and its instruction is not the last of its store: PC is below 255 (R102). -/
abbrev Issues (s : State) (c : Nat) (t : BitVec 4) : Prop :=
  HasTurn s c t false ∧ ((s.core c).thread t.toNat).pc ≠ 255#8

/-- The same in the array slot. -/
abbrev IssuesArray (s : State) (c : Nat) (t : BitVec 4) : Prop :=
  HasTurn s c t true ∧ ((s.core c).thread t.toNat).pc ≠ 255#8

/-- No request of the thread at the generator unit is still to write what an instruction needs (R113). -/
abbrev HasOperands (s : State) (c : Nat) (t : BitVec 4) (n : Needs) : Prop := (s.core c).awaits t.toNat n = false

/-- The state in which thread t of core c waits and nothing else has changed: it did not issue (R75). -/
def waiting (s : State) (c : Nat) (t : BitVec 4) (st : ThreadState) : State :=
  s.modCore c fun k => k.modThread t.toNat fun th => { th with state := st }

/-- Nothing but core c, memory with its marks, and the performance counters may differ. -/
def OneCore (c : Nat) (s u : State) : Prop :=
  u = { s with cores := u.cores, mem := u.mem, marks := u.marks, obs := { s.obs with ctrs := u.obs.ctrs } } ∧
    ∀ d, d ≠ c → u.core d = s.core d

/-- Memory and marks are as before, every byte of it. -/
def SameMemory (s u : State) : Prop :=
  u.mem = s.mem ∧ u.marks = s.marks ∧ ∀ a, Mem.read u.mem a = Mem.read s.mem a

/-- The threads of core c but t are as before. -/
def OtherThreads (c t : Nat) (s u : State) : Prop :=
  ∀ r, r ≠ t → (u.core c).thread r = (s.core c).thread r

/-- The frame of an instruction of the general slot that touches its thread alone: the thread becomes `th`, CSTAT `cs`,
the slot's pointer t; every other thread, register, counter, queue, slot and byte is as before. -/
def ThreadOnly (c : Nat) (t : BitVec 4) (s u : State) (th : Thread) (cs : BitVec 8) : Prop :=
  OneCore c s u ∧ SameMemory s u ∧ OtherThreads c t.toNat s u ∧ (u.core c).thread t.toNat = th ∧
    u.core c = { s.core c with threads := (u.core c).threads, generalPtr := t, cstat := cs }

/-- The thread one instruction on. -/
def pcNext (th : Thread) : Thread := { th with pc := th.pc + 1 }

/-- The thread with sticky bits of TSTAT set. -/
def withFlags (th : Thread) (bits : Nat) : Thread := { th with tstat := th.tstat ||| BitVec.ofNat 32 (bits % 256) }

/-- CSTAT after the bits: SATURATE, UMBER and NONFINITE enter it (R73). -/
def statAfter (cs : BitVec 8) (bits : Nat) : BitVec 8 := cs ||| (BitVec.ofNat 8 bits &&& 0xE0#8)

/-- The bits that reading the granule at a key raises: UMBER where it is marked (R74). -/
def readBits (s : State) (key : Nat) : Nat := if kget false s.marks (key / 32 * 32) then 64 else 0

/-- The thread after one use of a pad-address register (R71). -/
def usedA (th : Thread) (r : Nat) : Thread := th.setA r (aregAdvance (th.getA r))

/-- The granule or block that a[r] of thread t of core c names in a pad now, where it is in bounds. -/
abbrev named (s : State) (c : Nat) (t : BitVec 4) (r : Nat) (pad : Pad) : Option Nat :=
  (s.view c).granule pad (aregGranule (((s.core c).thread t.toNat).getA r))

/-- The flags of the enabled ones of four lanes, joined. -/
def laneFlags (lmask : Nat) (fl : Nat → Flags) : Flags :=
  (List.range 4).foldl (fun a i => if bitOf lmask i then a.join (fl i) else a) {}

/-- Every byte outside n bytes from k on is as before. -/
def SameOutside (s u : State) (k n : Nat) : Prop :=
  ∀ a, a < k ∨ k + n ≤ a → Mem.read u.mem a = Mem.read s.mem a

/-- n blocks of a TMMA one after the other; none where one is out of bounds. -/
def runBlocks (op : TmmaOp) (t : Nat) : Nat → CoreView → Option CoreView
  | 0, v => some v
  | n + 1, v => (tmmaOne op t v).bind (runBlocks op t n)

/-- The granule of the A-pad that output n of a drain of core c goes to, from where its thread's a[AD] stands (R183). -/
def drainGranule (s : State) (c : Nat) (d : Drain) (n : Nat) : Nat :=
  aregGranule (aregAdvance^[n] (((s.core c).thread d.thread.toNat).getA d.ad.toNat))

/-- Its key. -/
def drainKey (s : State) (c : Nat) (d : Drain) (n : Nat) : Nat :=
  let k := s.core c
  let r := k.cfg d.cfg.toNat
  padWindow c + granuleOffset (bitOf r.toNat 206) (bitOf r.toNat 207) k.frontW k.frontA k.roles .a (drainGranule s c d n)

/-- Memory and marks after the outputs of a drain from number n on, whole granules or the first half of one: a mark marks the granule, a
whole unmarked one clears it, a half leaves it (R74, R182). -/
def drainStored (s : State) (c : Nat) (d : Drain) : Nat → List (QEntry × Bool) → Mem × KMap Bool → Mem × KMap Bool
  | _, [], m => m
  | n, (e, half) :: es, m =>
    let key := drainKey s c d n
    drainStored s c d (n + 1) es (Mem.writeBytes m.1 key (leBytes (if half then 16 else 32) e.data.toNat),
      if e.mark then kset false m.2 key true else if half then m.2 else kset false m.2 key false)

/-! ### Notions of the register statements -/

/-- Every register word but the one at a is as before. -/
def OtherRegs (a : Nat) (s u : State) : Prop := ∀ b, b ≠ a → u.reg b = s.reg b

/-- Every register word outside a list of addresses is as before. -/
def RegsBut (l : List Nat) (s u : State) : Prop := ∀ b, b ∉ l → u.reg b = s.reg b

/-- Nothing but the registers may differ. -/
def RegsOnly (s u : State) : Prop := u = { s with regs := u.regs }

/-- The Almanac's part: nothing but registers, the sync state and a trace record may differ. -/
def AlmanacOnly (s u : State) : Prop :=
  u = { s with regs := u.regs, alm := u.alm, obs := { s.obs with buf := u.obs.buf, lost := u.obs.lost, lostSamples := u.obs.lostSamples } }

/-- Times in sixteenths of a cycle (R59). -/
def time16 (c : Nat) (tick : Int) (sub frac : Nat) : Int := (tick * c + sub) * 16 + frac

/-! ### Notions of the queue statements -/

/-- The row of the opcode table for a host command's opcode (R349, R375, R395, R418, R455). -/
def commandRow (op f q : Nat) : Option Instr :=
  match op with
  | 0x01 => some (.runSpan f q)
  | 0x02 => some (.copy f q)
  | 0x10 => some (.reduceScatter f q)
  | 0x11 => some (.allGather f q)
  | 0x12 => some (.allReduce f q)
  | 0x13 => some (.broadcast f q)
  | 0x14 => some (.permute f q)
  | 0x15 => some (.rotate f q)
  | 0x18 => some (.vote f q)
  | 0x19 => some (.commitStep f q)
  | 0x20 => some (.windowOpen f q)
  | 0x21 => some (.windowClose f q)
  | 0x22 => some (.event f q)
  | 0x23 => some (.fence f q)
  | 0x30 => some (.checkpoint f q)
  | 0x31 => some (.replay f q)
  | _ => none

/-- Command id, c, is the one that its queue considers next, may be admitted in this tick window and is not refused, and
`i` is its row (R360). -/
abbrev Admits (s : State) (f q id : Nat) (c : Cmd) (i : Instr) : Prop :=
  f < 256 ∧ q < 64 ∧ s.halted = false ∧ commandRow c.opcode f q = some i ∧
    (queueHeads [] s.cmds).find? (fun x => x.2.func == f && x.2.q == q) = some (id, c) ∧ s.cmd id = some c ∧
    s.cp.admittedNow < s.cp.admitLimit ∧ s.admissible id c = true

/-- What an admission leaves as it was: memory and held writes. -/
abbrev SameData (s u : State) : Prop := u.mem = s.mem ∧ u.held = s.held

/-- Memory with one more completion record of queue q of function f, at its tail (R346). -/
def recorded (s : State) (f q : Nat) (r : Rec) : Mem :=
  Mem.writeBytes s.mem (hostKey ((s.queue f q).cqBase + 32 * s.field (queueReg f q 0x24) 0 17)) (r.bytes (s.queue f q).phase q)

end Sys2Proof.Claims
end

