-- ==== Sys2Proof/Certificates/Slice0/Obligations.lean ====
section
/-! DEFINITION. The statements for the provers, from the numbered rules of the manual. -/

open Sys2Proof Sys2Proof.Machine Sys2Proof.Claims

/-! ### The machine as a whole -/

/-- R536, R66, R301, R333, R402, R461, R463, R490, R522, R543: right after reset every register word holds the reset value of its
table: ALM_STATUS 0xFF00, SLIP_LIMIT 8, CACHE_BASE 0x80 and the others named here, and 0 in every other word; nothing waits, nothing is
mapped, no core has a thread running, memory lists no byte. Values that the manual does not give are the model's (log 3). -/
def Obligations.ResetValues : Prop :=
  let r := State.reset
  let named (a : Nat) : Prop :=
    a ∈ [almReg 0x14, almReg 0x40, collReg 0, obsReg 0, obsReg 0x0C, obsReg 0x500, obsReg 0x50C, mgmtReg 0x200, mgmtReg 0x20C, mgmtReg 0x220,
      mgmtReg 0x400, gidReg 8] ∨ ∃ d, d < 8 ∧ (a = tierReg (0x40 + 4 * d) ∨ a = storeReg d 0x18 ∨ a = scrubReg d 0)
  r.reg (almReg 0x14) = 0xFF00 ∧ r.reg (almReg 0x40) = 8 ∧ r.reg (collReg 0) = 100 ∧ r.reg (obsReg 0) = 0x10000 ∧
    r.reg (obsReg 0x0C) = 1 ∧ r.reg (obsReg 0x500) = 0x03FE0000 ∧ r.reg (obsReg 0x50C) = 8 ∧ r.reg (mgmtReg 0x200) = 0x2EE ∧
    r.reg (mgmtReg 0x20C) = 8 ∧ r.reg (mgmtReg 0x220) = 0x5F ∧ r.reg (mgmtReg 0x400) = 0x1001A ∧ r.reg (gidReg 8) = 0x102 ∧
    (∀ d, d < 8 → r.reg (tierReg (0x40 + 4 * d)) = 0x80 ∧ r.reg (storeReg d 0x18) = 0x400 ∧ r.reg (scrubReg d 0) = 1) ∧
    (∀ a, a % 4 = 0 → ¬ named a → r.reg a = 0) ∧
    r.pending = [] ∧ (∀ id, r.cmd id = none) ∧ (∀ p, (r.part p).valid = false) ∧
    (∀ c t, ((r.core c).thread t).state = .idle) ∧ ∀ a, Mem.read r.mem a = 0#8

/-- Memory has its canonical form right after reset. -/
def Obligations.ResetMemoryKept : Prop := Safety.MemoryKept State.reset

/-- A step takes the command at the front of the queue and runs it with the queue's rest. -/
def Obligations.StepRunsFront : Prop :=
  ∀ (s : State) (i : Instr) (rest : List Instr), step (s.withPending (i :: rest)) = exec i (s.withPending rest)

/-- With no command waiting a step always answers, and only the sub-tick moves: one cycle on, never past the frame's last
(R44; that an empty queue lets a cycle pass is the model's choice, DESIGN CHOICE, log 2). -/
def Obligations.IdleStep : Prop :=
  ∀ s : State, s.pending = [] → s.subtick < s.cycles →
    ∃ u, step s = .next u ∧ u = { s with subtick := u.subtick } ∧ u.subtick < s.cycles ∧
      u.subtick = if s.subtick + 1 < s.cycles then s.subtick + 1 else s.subtick

/-- Every step keeps the canonical form of memory: addresses strictly rising, no byte listed that reads as unlisted. -/
def Obligations.StepKeepsMemory : Prop :=
  ∀ s u : State, Safety.MemoryKept s → step s = .next u → Safety.MemoryKept u

/-- No command changes the queue of waiting commands, nor which part was ordered: grade, stepping, fill codes, serial
number (R3, R4). -/
def Obligations.ExecKeepsQueueAndPart : Prop :=
  ∀ (s u : State) (i : Instr), exec i s = .next u → u.pending = s.pending ∧ u.gradeB44 = s.gradeB44 ∧
    u.stepB0 = s.stepB0 ∧ u.farFill = s.farFill ∧ u.flashFill = s.flashFill ∧ u.serial = s.serial

/-- Every legal core instruction decodes from its own word, on its own core and thread, with every operand at every value
its field admits (R109–R139). -/
def Obligations.DecodeOfEncode : Prop :=
  ∀ (i : Instr) (w : Word), encodeCore i = some w → i.legal = true → (∀ c t w, i ≠ .illegalEncoding c t w) →
    ∃ c t, decodeCore c t w = some i

/-- A few words written out from the encoding tables: ORI g0, g0, 0 is 0x1000_0000, YIELD 0x3C00_0000, B with P = 0 and
NEG = 0 to PC 5, ADDI g1, g0, −1, a SWAP of both pads, a copying TDRAIN; 0 and MAJOR 0x3F spell nothing. -/
def Obligations.WordsOfTheTables : Prop :=
  ∀ (c : Nat) (t : BitVec 4),
    decodeCore c t 0x10000000#32 = some (.ori c t 0 0 0) ∧
    decodeCore c t 0x3C000000#32 = some (.yield c t) ∧
    decodeCore c t 0x20000005#32 = some (.b c t 0 false 5) ∧
    decodeCore c t 0x0820FFFF#32 = some (.addi c t 1 0 0xFFFF) ∧
    decodeCore c t 0x9B000000#32 = some (.swap c t true true) ∧
    decodeCore c t 0x49000000#32 = some (.tdrain c t 2 0 false 0 0 0 0 false 0 false) ∧
    decodeCore c t 0#32 = none ∧ decodeCore c t 0xFC000000#32 = none

/-! ### Scalar instructions -/

/-- R116: each immediate form writes its result to g[RD] and goes on: ADDI the sum with the sign-extended IMM, ANDI, ORI and
XORI with the zero-extended one, LUI IMM << 16, SHI the shift of its kind. A write to g0 is discarded (R69). Every other
register, flag, counter, queue, thread and byte is as before. -/
def Obligations.ImmediateResults : Prop :=
  ∀ (s : State) (c : Nat) (t : BitVec 4) (rd rs1 : BitVec 5) (imm : BitVec 16) (kind : BitVec 2) (sh : BitVec 5),
    Issues s c t →
    let th := (s.core c).thread t.toNat
    let a := th.getG rs1.toNat
    let writes (i : Instr) (w : Word) : Prop :=
      ∃ u, exec i s = .next u ∧ ThreadOnly c t s u (pcNext (th.setG rd.toNat w)) (s.core c).cstat
    writes (.addi c t rd rs1 imm) (a + imm.signExtend 32) ∧
    writes (.andi c t rd rs1 imm) (a &&& imm.setWidth 32) ∧
    writes (.ori c t rd rs1 imm) (a ||| imm.setWidth 32) ∧
    writes (.xori c t rd rs1 imm) (a ^^^ imm.setWidth 32) ∧
    writes (.lui c t rd imm) (imm ++ 0#16) ∧
    (kind ≠ 3 → writes (.shi c t rd rs1 kind sh)
      (if kind = 0 then a <<< sh.toNat else if kind = 1 then a >>> sh.toNat else a.sshiftRight sh.toNat))

/-- R69: g0 reads as zero and p0 as one, whatever was written to them; any other register reads as last written, and a write
leaves every other register alone.
R70, R71: one use of a pad-address register counts RCOUNT up to REPEAT; the use that finds it there clears it and steps OFFSET
by STRIDE, once round WRAP where WRAP is not 0; BASE, STRIDE, WRAP and REPEAT stand. -/
def Obligations.RegisterFile : Prop :=
  (
    ∀ (th : Thread) (r q : Nat) (w : Word) (b : Bool),
      (th.setG r w).getG 0 = 0 ∧ (th.setP r b).getP 0 = true ∧
      (r ≠ 0 → (th.setG r w).getG r = w) ∧ (q ≠ r → (th.setG r w).getG q = th.getG q) ∧
      (r ≠ 0 → r < 8 → (th.setP r b).getP r = b) ∧ (q ≠ r → q < 8 → r < 8 → (th.setP r b).getP q = th.getP q) ∧
      th.setG 0 w = th ∧ th.setP 0 b = th)
  ∧
  (
    ∀ a : DWord,
      let n := a.toNat
      let m := (aregAdvance a).toNat
      let off : Int := bitsOf n 12 12 + (BitVec.ofNat 12 (bitsOf n 24 12)).toInt
      let wrap : Int := bitsOf n 36 12
      bitsOf m 0 12 = bitsOf n 0 12 ∧ bitsOf m 24 12 = bitsOf n 24 12 ∧ bitsOf m 36 12 = bitsOf n 36 12 ∧
      bitsOf m 48 8 = bitsOf n 48 8 ∧
      (bitsOf n 56 8 ≠ bitsOf n 48 8 → bitsOf m 56 8 = (bitsOf n 56 8 + 1) % 256 ∧ bitsOf m 12 12 = bitsOf n 12 12) ∧
      (bitsOf n 56 8 = bitsOf n 48 8 → bitsOf m 56 8 = 0 ∧
        (bitsOf m 12 12 : Int) =
          (if wrap = 0 then off else if wrap ≤ off then off - wrap else if off < 0 then off + wrap else off) % 4096))

/-- R115: the integer functions of ALU write g[RD], the comparisons and predicate functions p[RD]; none raises a flag.
R115, R72: FADD.S to FMAX.S write g[RD] and FCMPEQ.S to FCMPLE.S p[RD], by the FP32 operations of the model under the
thread's subnormal mode, and set the flags they raise; none of these flags enters CSTAT. The operations are the model's own
functions; that they round as R148–R158 say is not stated here. -/
def Obligations.AluResults : Prop :=
  (
    ∀ (s : State) (c : Nat) (t : BitVec 4) (rd rs1 rs2 func : BitVec 5) (ext : BitVec 6),
      Issues s c t → aluLegal rd rs1 rs2 func ext = true → ¬ (19 ≤ func.toNat ∧ func.toNat ≤ 26) →
      let th := (s.core c).thread t.toNat
      let a := th.getG rs1.toNat
      let b := th.getG rs2.toNat
      let p := th.getP rs1.toNat
      let q := th.getP rs2.toNat
      ∃ u, exec (.alu c t rd rs1 rs2 func ext) s = .next u ∧
        ThreadOnly c t s u (pcNext (match func.toNat with
          | 0 => th.setG rd.toNat (a + b)
          | 1 => th.setG rd.toNat (a - b)
          | 2 => th.setG rd.toNat (a &&& b)
          | 3 => th.setG rd.toNat (a ||| b)
          | 4 => th.setG rd.toNat (a ^^^ b)
          | 5 => th.setG rd.toNat (a <<< (b.toNat % 32))
          | 6 => th.setG rd.toNat (a >>> (b.toNat % 32))
          | 7 => th.setG rd.toNat (a.sshiftRight (b.toNat % 32))
          | 8 => th.setG rd.toNat (a * b)
          | 9 => th.setG rd.toNat (BitVec.ofInt 32 (a.toInt * b.toInt / 2 ^ 32))
          | 10 => th.setG rd.toNat (BitVec.ofNat 32 (a.toNat * b.toNat / 2 ^ 32))
          | 11 => th.setG rd.toNat (if a.toInt < b.toInt then a else b)
          | 12 => th.setG rd.toNat (if a.toInt < b.toInt then b else a)
          | 13 => th.setG rd.toNat (if a.toNat < b.toNat then a else b)
          | 14 => th.setG rd.toNat (if a.toNat < b.toNat then b else a)
          | 15 => th.setG rd.toNat (if th.getP (ext.toNat / 8) then a else b)
          | 16 => th.setP rd.toNat (decide (a = b))
          | 17 => th.setP rd.toNat (decide (a.toInt < b.toInt))
          | 18 => th.setP rd.toNat (decide (a.toNat < b.toNat))
          | 27 => th.setP rd.toNat (p && q)
          | 28 => th.setP rd.toNat (p || q)
          | _ => th.setP rd.toNat (p != q))) (s.core c).cstat)
  ∧
  (
    ∀ (s : State) (c : Nat) (t : BitVec 4) (rd rs1 rs2 func : BitVec 5),
      Issues s c t → 19 ≤ func.toNat → func.toNat ≤ 26 → (24 ≤ func.toNat → rd.toNat < 8) →
      let th := (s.core c).thread t.toNat
      let a := (th.getG rs1.toNat).toNat
      let b := (th.getG rs2.toNat).toNat
      let r := aluFp func.toNat th.ftz a b
      let k := fpCompare .fp32 th.ftz (func.toNat - 24) a b
      ∃ u, exec (.alu c t rd rs1 rs2 func 0) s = .next u ∧
        (func.toNat ≤ 23 → ThreadOnly c t s u (pcNext (withFlags (th.setG rd.toNat (BitVec.ofNat 32 r.1)) r.2.bits))
          (statAfter (s.core c).cstat r.2.bits)) ∧
        (24 ≤ func.toNat → ThreadOnly c t s u (pcNext (withFlags (th.setP rd.toNat k.1) k.2.bits))
          (statAfter (s.core c).cstat k.2.bits)))

/-- R139: 0x3C00_0000 and no other word spells YIELD; the thread that issues it enters YIELDED, and nothing else of it changes. -/
def Obligations.YieldWord : Prop :=
  ∀ (s : State) (c : Nat) (t : BitVec 4),
    (∀ w, decodeCore c t w = some (.yield c t) ↔ w = 0x3C000000#32) ∧
    (HasTurn s c t false →
      ∃ u, exec (.yield c t) s = .next u ∧
        ThreadOnly c t s u { (s.core c).thread t.toNat with state := .yielded } (s.core c).cstat)

/-- R161, R162, R163: the three tables of results at the extremes, row by row: the operation on the words of the table's
operands gives the word and the flags of its row (INVALID 1, OVERFLOW 2, UNDERFLOW 4, INEXACT 8, FLUSH 16, NONFINITE 128). -/
def Obligations.ResultsAtTheExtremes : Prop :=
  let lane (f : Fmt) (ftz : Bool) (op a b d out bits : Nat) : Prop :=
    (vopLane op f ftz a b d 0).1 = out ∧ (vopLane op f ftz a b d 0).2.bits = bits
  let s32 := lane .fp32 false
  let s64 := lane .fp64 false
  let block (fp16 ftz : Bool) (l r out bits : Nat) : Prop :=
    let op : TmmaOp := ⟨false, 0, 1, 2, false, fp16, fp16, true⟩
    let x := tmmaBlock op ftz (BitVec.ofNat 256 l) (BitVec.ofNat 256 r) 0 16 (0, {}, false)
    bitsOf x.1 0 32 = out ∧ x.2.1.bits + (if x.2.2 then 128 else 0) = bits
  let add := 0
  let sub := 1
  let mul := 2
  let fma := 3
  let div := 8
  let sqrt := 9
  let m := 0x7F7FFFFF
  let half := 0x3F000000
  let small := 0x00800000
  let mm := 0x7FEFFFFFFFFFFFFF
  (s32 add m m 0 0x7F800000 10 ∧ s32 add m 1 0 m 8 ∧ s32 sub m m 0 0 0 ∧ s32 add 1 1 0 2 0 ∧ s32 sub small 1 0 0x007FFFFF 0 ∧
    lane .fp32 true sub small 1 0 small 16 ∧ s32 mul small half 0 0x00400000 0 ∧ lane .fp32 true mul small half 0 0 28 ∧
    s32 mul m m 0 0x7F800000 10 ∧ s32 mul m 1 0 0x34FFFFFF 0 ∧ s32 mul 1 1 0 0 12 ∧ s32 mul 1 half 0 0 12 ∧ s32 mul 3 half 0 2 12 ∧
    s32 div m 1 0 0x7F800000 10 ∧ s32 div 1 m 0 0 12 ∧ s32 div 1 1 0 0x3F800000 0 ∧ s32 div 0x3F800000 0 0 0x7F800000 2 ∧
    s32 div 0 0 0 0x7FC00000 1 ∧ s32 sqrt 1 0 0 0x1A3504F3 8 ∧ s32 sqrt m 0 0 0x5F7FFFFF 8 ∧ s32 sqrt 0x80000001 0 0 0x7FC00000 1 ∧
    s32 sqrt 0x80000000 0 0 0x80000000 0 ∧ s32 fma m 0x40000000 (m + 2 ^ 31) m 0 ∧ s32 fma 1 1 1 1 12) ∧
  (s64 add mm mm 0 0x7FF0000000000000 10 ∧ s64 add 1 1 0 2 0 ∧ s64 mul mm 1 0 0x3CCFFFFFFFFFFFFF 0 ∧ s64 mul 1 1 0 0 12 ∧
    s64 div mm 1 0 0x7FF0000000000000 10 ∧ s64 div 1 mm 0 0 12 ∧ s64 sqrt 1 0 0 0x1E60000000000000 0 ∧
    s64 sqrt mm 0 0 0x5FEFFFFFFFFFFFFF 8 ∧ (mergeLane false mm 1 970).1 = 0x7FF0000000000000 ∧ (mergeLane false mm 1 970).2.bits = 10) ∧
  (block false false 0x7F7F 0x3F80 0x7F7F0000 0 ∧ block false false 0x7F7F 0x7F7F 0x7F800000 138 ∧
    block false false (0x7F7F + 0x7F7F * 2 ^ 16) (0x7F7F + 0xFF7F * 2 ^ 64) 0x7F800000 138 ∧
    block false false 1 0x3F80 0x00010000 0 ∧ block false false 1 1 0 12 ∧ block false true 1 0x3F80 0 16 ∧
    block false false 0x7F80 0 0x7FC00000 129 ∧ block true false 0x7BFF 0x7BFF 0x4F7FC004 0 ∧ block true false 1 1 0x27800000 0)

/-- R117: B goes to TARGET where p[P] differs from NEG, else on; LOOP takes 1 from g[G] and goes to TARGET while the result is
nonzero.
R138, R139, R73: FSTAT, with none of the thread's flag-raising work still running, writes TSTAT to g[RD], clears the named
sticky bits, sets SUBN_FTZ as MODE directs and leaves CSTAT; else the thread waits for that work in WAIT_OPERAND; YIELD makes the thread YIELDED, its PC where it was.
R102, R106: an instruction that goes on past PC 255 is a core fault with cause PC overflow, whatever else it did: the thread
is FAULTED (here: ORI, and a branch not taken). -/
def Obligations.BranchStatusAndPc : Prop :=
  (
    ∀ (s : State) (c : Nat) (t : BitVec 4) (p : BitVec 3) (neg : Bool) (g : BitVec 5) (target : BitVec 8),
      Issues s c t →
      let th := (s.core c).thread t.toNat
      let w := th.getG g.toNat - 1
      (∃ u, exec (.b c t p neg target) s = .next u ∧
        ThreadOnly c t s u { th with pc := if th.getP p.toNat = neg then th.pc + 1 else target } (s.core c).cstat) ∧
      (g ≠ 0 → ∃ u, exec (.loop c t g target) s = .next u ∧
        ThreadOnly c t s u { th.setG g.toNat w with pc := if w = 0 then th.pc + 1 else target } (s.core c).cstat))
  ∧
  (
    ∀ (s : State) (c : Nat) (t : BitVec 4) (rd : BitVec 5) (clr : BitVec 8) (mode : BitVec 2),
      Issues s c t →
      let th := (s.core c).thread t.toNat
      (mode ≠ 3 → flagsPending (s.view c) t.toNat = false →
        ∃ u, exec (.fstat c t rd clr mode) s = .next u ∧
          ThreadOnly c t s u (pcNext { th.setG rd.toNat th.tstat with
            tstat := if mode = 1 then (th.tstat &&& ~~~(clr.setWidth 32)) &&& ~~~0x100#32
              else if mode = 2 then (th.tstat &&& ~~~(clr.setWidth 32)) ||| 0x100#32
              else th.tstat &&& ~~~(clr.setWidth 32) }) (s.core c).cstat) ∧
      (mode ≠ 3 → flagsPending (s.view c) t.toNat = true → exec (.fstat c t rd clr mode) s = .next (waiting s c t .waitOperand)) ∧
      (∃ u, exec (.yield c t) s = .next u ∧ ThreadOnly c t s u { th with state := .yielded } (s.core c).cstat))
  ∧
  (
    ∀ (s : State) (c : Nat) (t : BitVec 4) (rd rs1 : BitVec 5) (imm : BitVec 16) (target : BitVec 8),
      HasTurn s c t false → ((s.core c).thread t.toNat).pc = 255#8 →
      let th := (s.core c).thread t.toNat
      (∃ u, exec (.ori c t rd rs1 imm) s = .next u ∧
        (u.core c).thread t.toNat = { th.setG rd.toNat (th.getG rs1.toNat ||| imm.setWidth 32) with state := .faulted }) ∧
      (∃ u, exec (.b c t 0 true target) s = .next u ∧ (u.core c).thread t.toNat = { th with state := .faulted }))

/-- R118: LD reads 2^SIZE bytes at the aligned address in thread terms, little endian, zero- or sign-extended, into g[RD]; a
marked granule sets UMBER (R74).
R118: ST writes the low 2^SIZE bytes of g[RS2] at the aligned address in thread terms, where the mirror allows it (R436):
those bytes and no other; registers, flags and counters stand. The granule is marked while the thread's UMBER is set, and else
keeps its mark (R74).
R106, R71, R104, R118: LD and ST of an address past the pad or outside the configuration's bounds are a core fault, and so
is a store that the running mirror forbids (R436): the thread is FAULTED, its registers and PC as they were. -/
def Obligations.LoadStoreResults : Prop :=
  (
    ∀ (s : State) (c : Nat) (t : BitVec 4) (rd rs1 : BitVec 5) (size : BitVec 2) (pad sign : Bool) (off : BitVec 12) (k : Nat),
      Issues s c t → HasOperands s c t (.pad pad) → size ≠ 3 → (size = 2 → sign = false) →
      (s.view c).byteKey (padOf pad)
        (lsAddress (((s.core c).thread t.toNat).getG rs1.toNat) off size.toNat) = some k →
      let th := (s.core c).thread t.toNat
      let n := Mem.readNat s.mem k (2 ^ size.toNat)
      let w := if sign && decide (2 ^ (8 * 2 ^ size.toNat - 1) ≤ n) then BitVec.ofInt 32 ((n : Int) - 2 ^ (8 * 2 ^ size.toNat))
        else BitVec.ofNat 32 n
      ∃ u, exec (.ld c t rd rs1 size pad sign off) s = .next u ∧
        ThreadOnly c t s u (pcNext ((withFlags th (readBits s k)).setG rd.toNat w)) (statAfter (s.core c).cstat (readBits s k)))
  ∧
  (
    ∀ (s : State) (c : Nat) (t : BitVec 4) (rs2 rs1 : BitVec 5) (size : BitVec 2) (pad : Bool) (off : BitVec 12) (k : Nat),
      Issues s c t → size ≠ 3 →
      (s.view c).byteKey (padOf pad)
        (lsAddress (((s.core c).thread t.toNat).getG rs1.toNat) off size.toNat) = some k →
      (s.view c).mayWrite k = true →
      let th := (s.core c).thread t.toNat
      ∃ u, exec (.st c t rs2 rs1 size pad off) s = .next u ∧ OneCore c s u ∧ OtherThreads c t.toNat s u ∧
        (u.core c).thread t.toNat = pcNext th ∧
        u.core c = { s.core c with threads := (u.core c).threads, generalPtr := t } ∧
        (∀ i, i < 2 ^ size.toNat → Mem.read u.mem (k + i) = ((th.getG rs2.toNat) >>> (8 * i)).setWidth 8) ∧
        (∀ a, a < k ∨ k + 2 ^ size.toNat ≤ a → Mem.read u.mem a = Mem.read s.mem a) ∧
        u.marks = if th.umber then kset false s.marks (k / 32 * 32) true else s.marks)
  ∧
  (
    ∀ (s : State) (c : Nat) (t : BitVec 4) (rd rs1 : BitVec 5) (size : BitVec 2) (pad sign : Bool) (off : BitVec 12),
      Issues s c t → HasOperands s c t (.pad pad) → size ≠ 3 → (size = 2 → sign = false) →
      let place := (s.view c).byteKey (padOf pad) (lsAddress (((s.core c).thread t.toNat).getG rs1.toNat) off size.toNat)
      let faults (i : Instr) : Prop := ∃ u, exec i s = .next u ∧ OtherThreads c t.toNat s u ∧
        (u.core c).thread t.toNat = { (s.core c).thread t.toNat with state := .faulted }
      (place = none → faults (.ld c t rd rs1 size pad sign off) ∧ faults (.st c t rd rs1 size pad off)) ∧
      (∀ k, place = some k → (s.view c).mayWrite k = false → faults (.st c t rd rs1 size pad off)))

/-- R119, R120: the fields of AREG and MOVV, their reserved forms, the four AREG functions and both directions of MOVV. AMOV and
AGET move 64 bits between a[A] and the pair g[G], g[G+1]; AADD adds to BASE or OFFSET modulo 4,096, ASET sets a field, both
clearing RCOUNT with OFFSET; every field not named stands. MOVV moves a 32-bit word of a lane and no other. -/
def Obligations.AregMovvResults : Prop :=
  ∀ (s : State) (c : Nat) (t : BitVec 4) (a : BitVec 3) (func : BitVec 2) (field : BitVec 3) (g : BitVec 5) (imm : BitVec 12)
    (v : Bool) (lane : BitVec 2) (word dir : Bool) (r : BitVec 5) (z : BitVec 16),
    let pair := g.toNat % 2 = 0 ∧ g ≠ 0
    (decodeCore c t (0x0C#6 ++ a ++ func ++ field ++ g ++ 0#1 ++ imm) = some (.areg c t a func field g imm) ↔
      func.toNat ≤ 1 ∧ field = 0 ∧ imm = 0 ∧ pair ∨ func = 2 ∧ field.toNat < 2 ∧ g = 0 ∨
        func = 3 ∧ field.toNat < 6 ∧ g = 0 ∧ (4 ≤ field.toNat → imm.toNat < 256)) ∧
    decodeCore c t (0x0C#6 ++ a ++ func ++ field ++ g ++ 1#1 ++ imm) = none ∧
    (decodeCore c t (0x0D#6 ++ r ++ BitVec.ofBool v ++ lane ++ BitVec.ofBool word ++ BitVec.ofBool dir ++ z) =
      if z = 0 then some (.movv c t r v lane word dir) else none) ∧
    (Issues s c t →
      let th := (s.core c).thread t.toNat
      let old := th.getA a.toNat
      let goes (i : Instr) (x : Thread) : Prop := ∃ u, exec i s = .next u ∧ ThreadOnly c t s u (pcNext x) (s.core c).cstat
      (pair →
        goes (.areg c t a 0 0 g 0) (th.setA a.toNat (th.getG (g.toNat + 1) ++ th.getG g.toNat)) ∧
        goes (.areg c t a 1 0 g 0) ((th.setG g.toNat (old.setWidth 32)).setG (g.toNat + 1) (old.extractLsb' 32 32))) ∧
      (goes (.areg c t a 2 0 0 imm) (th.setA a.toNat (old.extractLsb' 12 52 ++ (old.setWidth 12 + imm)))) ∧
      (goes (.areg c t a 2 1 0 imm)
        (th.setA a.toNat (0#8 ++ old.extractLsb' 24 32 ++ (old.extractLsb' 12 12 + imm) ++ old.setWidth 12))) ∧
      (goes (.areg c t a 3 0 0 imm) (th.setA a.toNat (old.extractLsb' 12 52 ++ imm))) ∧
      (goes (.areg c t a 3 1 0 imm) (th.setA a.toNat (0#8 ++ old.extractLsb' 24 32 ++ imm ++ old.setWidth 12))) ∧
      (goes (.areg c t a 3 2 0 imm) (th.setA a.toNat (old.extractLsb' 36 28 ++ imm ++ old.setWidth 24))) ∧
      (goes (.areg c t a 3 3 0 imm) (th.setA a.toNat (old.extractLsb' 48 16 ++ imm ++ old.setWidth 36))) ∧
      (imm.toNat < 256 →
        goes (.areg c t a 3 4 0 imm) (th.setA a.toNat (old.extractLsb' 56 8 ++ imm.setWidth 8 ++ old.setWidth 48)) ∧
        goes (.areg c t a 3 5 0 imm) (th.setA a.toNat (imm.setWidth 8 ++ old.setWidth 56))) ∧
      (HasOperands s c t (.v v) →
       let at_ := 64 * lane.toNat + if word then 32 else 0
       goes (.movv c t r v lane word true) (th.setG r.toNat ((th.getV v).extractLsb' at_ 32)) ∧
       ∃ u, exec (.movv c t r v lane word false) s = .next u ∧
         ThreadOnly c t s u (pcNext (th.setV v ((u.core c).thread t.toNat |>.getV v))) (s.core c).cstat ∧
         (((u.core c).thread t.toNat).getV v).extractLsb' at_ 32 = th.getG r.toNat ∧
         ∀ i, i < 8 → 32 * i ≠ at_ → (((u.core c).thread t.toNat).getV v).extractLsb' (32 * i) 32 = (th.getV v).extractLsb' (32 * i) 32))

/-- R140: a word that spells no instruction, or a SWAP of a pad in single mode, faults the thread that issues it and does nothing
else to the core: its registers, PC and TSTAT stand, and so do the pads, queues and counters; the slot's pointer moves.
R36, R75, R76: an instruction whose thread is not READY, whose core has no slot open, or whose partition or module stands still,
in the tick window, or before its thread's turn in its slot, does not issue: nothing changes (here: one of each slot).
R75, R113: one that needs what a request of its thread at the generator unit is still to write waits in WAIT_OPERAND (here: MOVV, LD, RNG).
R15, R304, R338, R17: a command that names a core, die, port, function or partition that the module does not have faults by name, in every
state. -/
def Obligations.NotIssuedOrAbsent : Prop :=
  (
    ∀ (s : State) (c : Nat) (t : BitVec 4) (w : Word),
      HasTurn s c t (wordArray w.toNat) → wordIllegal c t w s = true →
      ∃ u, exec (.illegalEncoding c t w) s = .next u ∧
        (u.core c).thread t.toNat = { (s.core c).thread t.toNat with state := .faulted } ∧
        OtherThreads c t.toNat s u ∧ SameMemory s u ∧
        u.core c = { s.core c with
          threads := (u.core c).threads
          arrayPtr := (u.core c).arrayPtr
          generalPtr := (u.core c).generalPtr })
  ∧
  (
    ∀ (s : State) (c : Nat) (t : BitVec 4) (rd rs1 : BitVec 5) (imm : BitVec 16) (aw aa ap : BitVec 3) (l wf af z : Bool)
      (n : BitVec 4),
      s.isCore c = true →
      (s.canIssue c t.toNat = false ∨ s.turnOf c t.toNat false = false →
        exec (.addi c t rd rs1 imm) s = .next s ∧ exec (.yield c t) s = .next s) ∧
      (s.canIssue c t.toNat = false ∨ s.turnOf c t.toNat true = false → exec (.tmma c t aw aa ap l n wf af z) s = .next s))
  ∧
  (
    ∀ (s : State) (c : Nat) (t : BitVec 4) (rd rs1 : BitVec 5) (lane size gb : BitVec 2) (word dir pad half inc : Bool)
      (off : BitVec 12),
      HasTurn s c t false →
      let waits (i : Instr) : Prop := exec i s = .next (waiting s c t .waitOperand)
      ((s.core c).awaits t.toNat (.v pad) = true →
        waits (.movv c t rd pad lane word dir) ∧ (gb ≠ 0 → waits (.rng c t gb pad half inc))) ∧
      ((s.core c).awaits t.toNat (.pad pad) = true → size.toNat < 2 → waits (.ld c t rd rs1 size pad false off)))
  ∧
  (
    ∀ (s : State) (c d p f n : Nat) (t : BitVec 4) (rd rs : BitVec 5) (imm : BitVec 16),
      let absent (i : Instr) : Prop := exec i s = .fault .noSuchUnit
      (s.isCore c = false → absent (.addi c t rd rs imm) ∧ absent (.yield c t) ∧ absent (.watchdogExpiry c) ∧ absent (.foldSlotOpen c) ∧
        absent (.storePortTurn c)) ∧
      (8 ≤ d → absent (.cacheBaseWrite d n) ∧ absent (.remapGo d) ∧ absent (.remapRecPop d)) ∧
      (8 ≤ p → absent (.portFail p n) ∧ absent (.syncSymbolSend p n) ∧ absent (.cpPartWrite p n) ∧ absent (.finalisation p) ∧
        absent (.slipLimitReached p)) ∧
      (256 ≤ f → absent (.doorbell f 0 n) ∧ absent (.map f) ∧ absent (.functionReset f) ∧ absent (.sharesWrite f n) ∧ absent (.fnRelease f)))

/-! ### Vector, tensor, queue and engine instructions -/

/-- R121: a VOP whose result goes to v[VD]: each enabled lane is the function of its operands, each other lane as before; the
lanes' flags are set, UMBER where the pad operand is marked, the pad-address register is used once.
R121, R72, R74: a VOP whose result goes to the granule at a[AREG]: each enabled lane's bytes are the function of its operands,
every other byte of memory stands (in FP32 the other half of the granule too); the flags are set, NONFINITE too where an enabled
lane of a function but EXPMAX is an infinity or a NaN; registers but a[AREG] stand. -/
def Obligations.VopResults : Prop :=
  (
    ∀ (s : State) (c : Nat) (t : BitVec 4) (func : BitVec 5) (fp64 va src2 vb : Bool) (ar : BitVec 3) (pad vd hi : Bool)
      (lmask : BitVec 4) (k : Nat),
      Issues s c t → HasOperands s c t (vopNeeds func.toNat va src2 vb pad false vd) → vopLegal func fp64 src2 false hi lmask = true →
      (src2 = true → named s c t ar.toNat (padOf pad) = some k) →
      let th := (s.core c).thread t.toNat
      let th1 := if src2 then usedA th ar.toNat else th
      let rb := if src2 then readBits s k else 0
      let g := ofNat256 (Mem.readNat s.mem k 32)
      let old := th.getV vd
      let res := fun i => vopLane func.toNat (if fp64 then .fp64 else .fp32) th.ftz (vLane (th.getV va) fp64 i)
        (if src2 then padLane g fp64 hi i else vLane (th.getV vb) fp64 i) (vLane old fp64 i) (lane64 old i)
      let fl := (laneFlags lmask.toNat fun i => (res i).2).bits
      ∃ u x, exec (.vop c t func fp64 va src2 vb ar pad false vd hi lmask) s = .next u ∧
        ThreadOnly c t s u (pcNext (withFlags ((withFlags th1 rb).setV vd x) fl)) (statAfter (statAfter (s.core c).cstat rb) fl) ∧
        ∀ i, i < 4 → lane64 x i = if bitOf lmask.toNat i then (res i).1 % 2 ^ 64 else lane64 old i)
  ∧
  (
    ∀ (s : State) (c : Nat) (t : BitVec 4) (func : BitVec 5) (fp64 va vb : Bool) (ar : BitVec 3) (pad vd hi : Bool)
      (lmask : BitVec 4) (k : Nat),
      Issues s c t → HasOperands s c t (vopNeeds func.toNat va false vb pad true vd) → vopLegal func fp64 false true hi lmask = true →
      named s c t ar.toNat (padOf pad) = some k → (s.view c).mayWrite k = true →
      let th := (s.core c).thread t.toNat
      let rb := if func.toNat = 13 ∨ func.toNat = 15 then readBits s k else 0
      let g := ofNat256 (Mem.readNat s.mem k 32)
      let f : Fmt := if fp64 then .fp64 else .fp32
      let res := fun i => vopLane func.toNat f th.ftz (vLane (th.getV va) fp64 i) (vLane (th.getV vb) fp64 i)
        (padLane g fp64 hi i) (padLane g fp64 hi i)
      let bits := (laneFlags lmask.toNat fun i => (res i).2).bits +
        (if func.toNat != 15 && (List.range 4).any fun i => bitOf lmask.toNat i && isNonfinite f (res i).1 then 128 else 0)
      let w := if fp64 then 8 else 4
      let at_ := fun i => k + (if fp64 then 0 else 16 * natOf hi) + w * i
      ∃ u, exec (.vop c t func fp64 va false vb ar pad true vd hi lmask) s = .next u ∧ OneCore c s u ∧
        OtherThreads c t.toNat s u ∧
        (u.core c).thread t.toNat = pcNext (withFlags (withFlags (usedA th ar.toNat) rb) bits) ∧
        u.core c = { s.core c with
          threads := (u.core c).threads
          generalPtr := t
          cstat := statAfter (statAfter (s.core c).cstat rb) bits } ∧
        (∀ i, i < 4 → Mem.readNat u.mem (at_ i) w =
          if bitOf lmask.toNat i then (res i).1 % 2 ^ (8 * w) else Mem.readNat s.mem (at_ i) w) ∧
        SameOutside s u (at_ 0) (4 * w) ∧
        u.marks = if th.umber || rb != 0 then kset false s.marks k true
          else if fp64 && lmask == 15 then kset false s.marks k false else s.marks)

/-- R122, R157: the value CVT computes: each of its 32 / max(s, d) elements is the source element converted under the rounding, the
other bytes of a narrower destination as before.
R122, R123: CVT takes its source and its destination, pad-address registers used once each. Rounding to nearest or toward zero, it
delivers the converted value at once; stochastic, it queues one request with the group's input, adds 1 to the group's element index and
goes on. Threads of other numbers, other cores and every key outside the core's pads stand. -/
def Obligations.CvtResults : Prop :=
  (
    ∀ (a d : Fmt) (rnd o : Nat) (ftz : Bool) (part : Nat) (src old : BitVec 256),
      a ≠ d → part < max a.size d.size / min a.size d.size →
      let big := max a.size d.size
      let slo := if a.size < big then 32 * a.size / big * part else 0
      let dlo := if d.size < big then 32 * d.size / big * part else 0
      let w := if big = 8 then 32 else if big = 4 then 16 else 8
      let r := cvtValue a d rnd o ftz part src old
      (∀ i, i < 32 / big → elemAt r.1 dlo d.size i =
        (convert a d (rndOf rnd o w i) ftz (elemAt src slo a.size i)).1 % 2 ^ (8 * d.size)) ∧
      ∀ j, j < 32 → j < dlo ∨ dlo + d.size * (32 / big) ≤ j → elemAt r.1 j 1 0 = elemAt old j 1 0)
  ∧
  (
    ∀ (s : State) (c : Nat) (t : BitVec 4) (sf df : BitVec 4) (rnd : BitVec 2) (src : Bool) (as_ : BitVec 3) (spad dst : Bool)
      (ad : BitVec 3) (dpad : Bool) (part : BitVec 3) (gb : BitVec 2) (a d : Fmt) (x : BitVec 256) (v1 v2 : CoreView)
      (dest : VDest),
      Issues s c t → cvtLegal sf df rnd src as_ spad dst ad dpad part gb = true →
      HasOperands s c t ((sourceNeeds src (as_.toNat % 2 == 1) spad).join (.when (!dst) (.v (ad.toNat % 2 == 1)))) →
      Fmt.ofCode sf.toNat = some a → Fmt.ofCode df.toNat = some d →
      (s.view c).source t.toNat src (as_.toNat % 2 == 1) as_.toNat spad = some (x, v1) →
      v1.destination t.toNat dst (ad.toNat % 2 == 1) ad.toNat dpad = some (dest, v2) →
      let th := (s.core c).thread t.toNat
      let i : Instr := .cvt c t sf df rnd src as_ spad dst ad dpad part gb
      let v := cvtDeliver t.toNat a d part.toNat dest (cvtValue a d rnd.toNat 0 th.ftz part.toNat x (destOld v2 t.toNat dest)) v2
      ∃ u, exec i s = .next u ∧ OneCore c s u ∧ OtherThreads c t.toNat s u ∧ SameOutside s u (padWindow c) 0x40000 ∧
        (rnd ≠ 2 → u.mem = v.mem ∧ u.marks = v.marks ∧ (u.core c).thread t.toNat = pcNext (v.core.thread t.toNat) ∧
          (u.core c).gens = (s.core c).gens) ∧
        (rnd = 2 → SameMemory s u ∧
          (u.core c).thread t.toNat =
            pcNext ((v2.core.thread t.toNat).advanceGroup gb.toNat 1) ∧
          (u.core c).gens = (s.core c).gens ++
            [{ thread := t, input := th.genInput gb.toNat, use := .cvt x a.code d.code part.toNat th.ftz dest }]))

/-- R124, R125: SPLIT writes the slices of the four lanes to the four bytes of its part of the granule at a[AD]; MERGE adds the four
scaled values of the granule's half into v[VD]. Flags and UMBER are set, the pad-address registers used once each.
R126, R168, R169: SSPK takes 16 BF16 elements from one granule or FP32 ones from two and, rounding to nearest or toward zero, writes the
17 bytes of the packed block at g[GA] in thread terms; a stochastic one writes nothing yet: it queues one request with its group's input
and adds 1 to the group's element index. SSUP unpacks the 17 bytes at g[GA] to 16 BF16 elements in the granule at a[AD]. Each byte
written is a byte of that result, every other byte of memory stands. -/
def Obligations.SplitMergeAndScales : Prop :=
  (
    ∀ (s : State) (c : Nat) (t : BitVec 4) (ve : Bool) (j k : BitVec 4) (src : Bool) (as_ : BitVec 3) (spad : Bool)
      (ad : BitVec 3) (dpad : Bool) (part : BitVec 3) (x : BitVec 256) (v1 v2 : CoreView) (key : Nat) (vd hi : Bool)
      (gs : BitVec 5) (mk : Nat),
      Issues s c t →
      let th := (s.core c).thread t.toNat
      (splitLegal j k src as_ = true → HasOperands s c t ((Needs.v ve).join (sourceNeeds src (as_.toNat % 2 == 1) spad)) →
        (s.view c).source t.toNat src (as_.toNat % 2 == 1) as_.toNat spad = some (x, v1) →
        v1.useAW t.toNat ad.toNat (padOf dpad) = some (key, v2) →
        let r := splitLanes th.ftz k.toNat j.toNat x (th.getV ve) 4 ([], {})
        ∃ u, exec (.split c t ve j k src as_ spad ad dpad part) s = .next u ∧ OneCore c s u ∧ OtherThreads c t.toNat s u ∧
          (u.core c).thread t.toNat = pcNext (withFlags (v2.core.thread t.toNat) r.2.bits) ∧
          (∀ i, i < 4 → Mem.read u.mem (key + 4 * part.toNat + i) =
            BitVec.ofInt 8 (splitSlice th.ftz k.toNat j.toNat (signed64 (lane64 (th.getV ve) i)) (lane64 x i)).1) ∧
          SameOutside s u (key + 4 * part.toNat) 4) ∧
      (named s c t as_.toNat (padOf spad) = some mk → HasOperands s c t { v0 := true, v1 := true, w := !spad, a := spad } →
        let rb := readBits s mk
        let r := mergeLanes th.ftz (ofNat256 (Mem.readNat s.mem mk 32)) (th.getV !vd) hi (th.getG gs.toNat) 4 (th.getV vd, {})
        ∃ u, exec (.merge c t vd (!vd) as_ spad hi gs) s = .next u ∧
          ThreadOnly c t s u (pcNext (withFlags ((withFlags (usedA th as_.toNat) rb).setV vd r.1) r.2.bits))
            (statAfter (statAfter (s.core c).cstat rb) r.2.bits)))
  ∧
  (
    ∀ (s : State) (c : Nat) (t : BitVec 4) (ga : BitVec 5) (as_ : BitVec 3) (spad dpad wide : Bool) (rnd gb : BitVec 2) (k k2 : Nat)
      (keys : List Nat),
      Issues s c t → HasOperands s c t (.pad spad) →
      let th := (s.core c).thread t.toNat
      let used := if wide then usedA (usedA th as_.toNat) as_.toNat else usedA th as_.toNat
      (sspkLegal rnd gb = true → named s c t as_.toNat (padOf spad) = some k →
        (wide = true → (s.view c).granule (padOf spad) (aregGranule ((usedA th as_.toNat).getA as_.toNat)) = some k2) →
        (s.view c).byteKeys (padOf dpad) (th.getG ga.toNat).toNat 17 = some keys → keys.all (s.view c).mayWrite = true →
        let xs := if wide then elems (ofNat256 (Mem.readNat s.mem k 32)) 4 8 ++ elems (ofNat256 (Mem.readNat s.mem k2 32)) 4 8
          else elems (ofNat256 (Mem.readNat s.mem k 32)) 2 16
        let p := ss8Pack (xs.map fun x => (readOperand (if wide then .fp32 else .bf16) th.ftz x).1) fun _ => if rnd = 0 then .rne else .rtz
        ∃ u bits, exec (.sspk c t ga as_ spad dpad wide rnd gb) s = .next u ∧ OneCore c s u ∧ OtherThreads c t.toNat s u ∧
          (rnd ≠ 2 → (u.core c).thread t.toNat = pcNext (withFlags used bits) ∧ (u.core c).gens = (s.core c).gens ∧
            (∀ i, i < 17 → Mem.read u.mem (keys.getD i 0) = BitVec.ofNat 8 (p.1.getD i 0)) ∧
            ∀ a, a ∉ keys → Mem.read u.mem a = Mem.read s.mem a) ∧
          (rnd = 2 → (u.core c).thread t.toNat = pcNext ((withFlags used bits).advanceGroup gb.toNat 1) ∧ SameMemory s u ∧
            (u.core c).gens = (s.core c).gens ++
              [{ thread := t, input := th.genInput gb.toNat, use := .sspk xs wide th.ftz keys }])) ∧
      (named s c t as_.toNat (padOf dpad) = some k → (s.view c).mayWrite k = true →
        (s.view c).byteKeys (padOf spad) (th.getG ga.toNat).toNat 17 = some keys →
        let r := ss8Unpack th.ftz (keys.map fun a => (Mem.read s.mem a).toNat)
        ∃ u, exec (.ssup c t ga as_ dpad spad) s = .next u ∧ OneCore c s u ∧ OtherThreads c t.toNat s u ∧
          (∀ i, i < 16 → Mem.readNat u.mem (k + 2 * i) 2 = r.1.getD i 0 % 65536) ∧ SameOutside s u k 32 ∧
          ∃ bits, (u.core c).thread t.toNat = pcNext (withFlags (usedA th as_.toNat) bits)))

/-- R100, R111, R113, R127: RNG queues one request with its group's input, INC adds 1 to the group's element index, and the thread goes on.
The generator unit serves the first conversion in issue order, else the first RNG: an RNG's four words go to two lanes of its v register,
the other two stand; a conversion's draws round its elements into its v register or its bytes of a pad granule; an SS8 block's into its 17
bytes. No other register and no other byte changes; a thread that waited for its operand is READY again. With no request nothing changes. -/
def Obligations.GeneratorResults : Prop :=
  (
    ∀ (s : State) (c : Nat) (t : BitVec 4) (gb : BitVec 2) (vd half inc : Bool),
      Issues s c t → HasOperands s c t (.v vd) → gb ≠ 0 →
      let th := (s.core c).thread t.toNat
      ∃ u, exec (.rng c t gb vd half inc) s = .next u ∧ OneCore c s u ∧ SameMemory s u ∧ OtherThreads c t.toNat s u ∧
        (u.core c).thread t.toNat = pcNext (if inc then th.advanceGroup gb.toNat 1 else th) ∧
        u.core c = { s.core c with
          threads := (u.core c).threads
          generalPtr := t
          gens := (s.core c).gens ++ [{ thread := t, input := th.genInput gb.toNat, use := .rng vd half }] })
  ∧
  (
    ∀ (s : State) (c i : Nat) (r : GenReq),
      s.isCore c = true → s.engineRuns c = true → (s.core c).gens[i]? = some r →
      (r.isRng = false ∧ (∀ j q, j < i → (s.core c).gens[j]? = some q → q.isRng = true) ∨
        i = 0 ∧ ∀ q ∈ (s.core c).gens, q.isRng = true) →
      let t := r.thread.toNat
      let th := (s.core c).thread t
      let x := generator r.input
      let o := generatorBits r.input
      ∃ u, exec (.generatorRequest c) s = .next u ∧ OneCore c s u ∧ OtherThreads c t s u ∧
        (u.core c).gens = (s.core c).gens.eraseIdx i ∧
        ((u.core c).thread t).state = (if th.state = .waitOperand then .ready else th.state) ∧
        ((u.core c).thread t).g = th.g ∧ ((u.core c).thread t).a = th.a ∧ ((u.core c).thread t).pc = th.pc ∧
        (∀ vd half, r.use = .rng vd half → SameMemory s u ∧
          lane64 (((u.core c).thread t).getV vd) (2 * natOf half) = x.1.toNat + 2 ^ 32 * x.2.1.toNat ∧
          lane64 (((u.core c).thread t).getV vd) (2 * natOf half + 1) = x.2.2.1.toNat + 2 ^ 32 * x.2.2.2.toNat ∧
          (∀ j, j < 4 → j / 2 ≠ natOf half → lane64 (((u.core c).thread t).getV vd) j = lane64 (th.getV vd) j) ∧
          ((u.core c).thread t).getV (!vd) = th.getV (!vd) ∧ ((u.core c).thread t).tstat = th.tstat) ∧
        (∀ e a d part ftz n, r.use = .cvt e (Fmt.code a) (Fmt.code d) part ftz (.v n) → SameMemory s u ∧
          ((u.core c).thread t).getV n = (cvtValue a d 2 o ftz part e (th.getV n)).1 ∧
          ((u.core c).thread t).getV (!n) = th.getV (!n)) ∧
        (∀ e a d part ftz key, r.use = .cvt e (Fmt.code a) (Fmt.code d) part ftz (.pad key) →
          let n := if d.size < a.size then 32 * d.size / a.size else 32
          let lo := if d.size < a.size then n * part else 0
          let y := cvtValue a d 2 o ftz part e (ofNat256 (Mem.readNat s.mem key 32))
          Mem.readNat u.mem (key + lo) n = bitsOf y.1.toNat (8 * lo) (8 * n) ∧ SameOutside s u (key + lo) n ∧
            ∀ b, ((u.core c).thread t).getV b = th.getV b) ∧
        (∀ xs wide ftz keys, r.use = .sspk xs wide ftz keys → keys.Nodup → keys.length = 17 →
          let p := ss8Pack (xs.map fun y => (readOperand (if wide then .fp32 else .bf16) ftz y).1) fun j => .stoch 8 (drawBits o 8 j)
          (∀ j, j < 17 → Mem.read u.mem (keys.getD j 0) = BitVec.ofNat 8 (p.1.getD j 0)) ∧
            (∀ a, a ∉ keys → Mem.read u.mem a = Mem.read s.mem a) ∧ ∀ b, ((u.core c).thread t).getV b = th.getV b))
  ∧
  (
    ∀ (s : State) (c : Nat), s.isCore c = true → s.engineRuns c = true → (s.core c).gens = [] →
      ∃ u, exec (.generatorRequest c) s = .next u ∧ OneCore c s u ∧ SameMemory s u ∧ u.core c = s.core c)

/-- R78, R129: one block of TMMA or TMMA.I8: each of the 16 elements of the accumulator block is the sum of its products in the order
of k, from the old value or, with ZERO, from −0.0 or 0; no other byte of memory changes.
R77, R128, R129: TMMA and TMMA.I8 run their n blocks in order and go on; only the P-pad of the core, the three pad-address registers,
TSTAT and CSTAT, marks of its blocks and the array slot's pointer may change.
R106, R77, R129: a TMMA or TMMA.I8 whose first block names a granule or block out of bounds is a core fault, and nothing of the burst is done:
memory under the module's own addresses stands. -/
def Obligations.TensorBursts : Prop :=
  (
    ∀ (op : TmmaOp) (t : Nat) (v u : CoreView) (kw ka kp : Nat),
      op.aw ≠ op.aa → op.aw ≠ op.ap → op.aa ≠ op.ap →
      v.granule .w (aregGranule ((v.th t).getA op.aw)) = some kw → v.granule .a (aregGranule ((v.th t).getA op.aa)) = some ka →
      v.granule .p (aregGranule ((v.th t).getA op.ap)) = some kp → tmmaOne op t v = some u →
      let w := v.read256 kw
      let a := v.read256 ka
      let l := if op.left then a else w
      let r := if op.left then w else a
      let lf := if op.left then op.af else op.wf
      let rf := if op.left then op.wf else op.af
      (∀ i j, i < 4 → j < 4 →
        let old := Mem.readNat v.mem (kp + 16 * i + 4 * j) 4
        Mem.readNat u.mem (kp + 16 * i + 4 * j) 4 = (if op.int8 then
            intBits 4 (tmmaI8Elem lf rf l r i j 8 ((if op.zero then 0 else (BitVec.ofNat 32 old).toInt), {})).1
          else (tmmaElem (if lf then .fp16 else .bf16) (if rf then .fp16 else .bf16) (v.th t).ftz l r i j 4
            ((if op.zero then 0x80000000 else old), {})).1) % 2 ^ 32) ∧
      ∀ x, x < kp ∨ kp + 64 ≤ x → Mem.read u.mem x = Mem.read v.mem x)
  ∧
  (
    ∀ (s : State) (c : Nat) (t : BitVec 4) (aw aa ap : BitVec 3) (left : Bool) (nm1 : BitVec 4) (wf af zero int8 : Bool)
      (v : CoreView),
      IssuesArray s c t → HasOperands s c t { w := true, a := true } → tmmaLegal aw aa ap = true →
      let op : TmmaOp := ⟨int8, aw.toNat, aa.toNat, ap.toNat, left, wf, af, zero⟩
      runBlocks op t.toNat (nm1.toNat + 1) (s.view c) = some v →
      let th := (s.core c).thread t.toNat
      let i : Instr := if int8 then .tmmaI8 c t aw aa ap left nm1 wf af zero else .tmma c t aw aa ap left nm1 wf af zero
      ∃ u, exec i s = .next u ∧ OneCore c s u ∧ u.mem = v.mem ∧ u.marks = v.marks ∧ OtherThreads c t.toNat s u ∧
        SameOutside s u (padWindow c + 0x28000) 0x8000 ∧
        u.core c = { s.core c with threads := (u.core c).threads, arrayPtr := t, cstat := v.core.cstat } ∧
        ∃ a f, (u.core c).thread t.toNat = pcNext { th with a := a, tstat := f } ∧
          ∀ r, r ≠ aw.toNat → r ≠ aa.toNat → r ≠ ap.toNat → kget 0 a r = th.getA r)
  ∧
  (
    ∀ (s : State) (c : Nat) (t : BitVec 4) (aw aa ap : BitVec 3) (left : Bool) (nm1 : BitVec 4) (wf af zero int8 : Bool),
      IssuesArray s c t → HasOperands s c t { w := true, a := true } → tmmaLegal aw aa ap = true →
      (named s c t aw.toNat .w = none ∨ named s c t aa.toNat .a = none ∨ named s c t ap.toNat .p = none) →
      let i : Instr := if int8 then .tmmaI8 c t aw aa ap left nm1 wf af zero else .tmma c t aw aa ap left nm1 wf af zero
      ∃ u, exec i s = .next u ∧
        (u.core c).thread t.toNat = { (s.core c).thread t.toNat with state := .faulted } ∧
        ∀ a, a < 2 ^ 64 → Mem.read u.mem a = Mem.read s.mem a)

/-- R130, R131, R81: TDRAIN with the engine free, its counter allowed and its blocks in bounds: the blocks that a[AP] names, one use each, go to
the engine with what the instruction fixes; each role bit in the list inverts once however often it is named; a stochastic one copies its
group's input and adds the block count to the element index; no byte of memory changes. With the engine taken the thread waits in
WAIT_ARRAY. A counter not allowed, or a block out of bounds, is a core fault and no drain begins (R106; that the blocks before the one out
of bounds are swapped is the model's reading, DEDUCED, notes/assumptions/63).
R181–R187: a turn of the drain engine. With nothing waiting to go out the next block's shadow copy is read and converted, its flags set;
of a format of 4 bytes two outputs of 32 B complete, of 2 bytes and of SS8 one, of 1 byte every second block one, the first's half being
kept, the last block's going out alone. Outputs go in order, each with its mark, to the granules at the thread's a[AD] or to the outbound
queue: all that there is room for, the rest waits; an output's infinity or NaN sets NONFINITE. More blocks left, the list loses its
first; the last output written, the engine is free and its counter one on; no other byte changes. In every case the turn leaves what
drainTurn says of the core, its memory and its marks; an output out of bounds faults the thread that issued the TDRAIN and frees the
engine. With no drain nothing changes. -/
def Obligations.Drains : Prop :=
  (
    ∀ (s : State) (c : Nat) (t : BitVec 4) (ap : BitVec 3) (cm1 : BitVec 6) (dest : Bool) (ad : BitVec 3) (dfmt : BitVec 4)
      (rnd gb : BitVec 2) (cinc : Bool) (ctr : BitVec 3) (acc : Bool),
      IssuesArray s c t → tdrainLegal dest ad dfmt rnd gb cinc ctr acc = true →
      let k := s.core c
      let th := k.thread t.toNat
      let n := cm1.toNat + 1
      let block (i : Nat) : Nat := aregGranule (aregAdvance^[i] (th.getA ap.toNat))
      let inside (i : Nat) : Prop := inBounds k.activeCfg .p (block i) = true
      let i : Instr := .tdrain c t ap cm1 dest ad dfmt rnd gb cinc ctr acc
      (cinc = false ∨ cntAllowed k.activeCfg ctr.toNat = true →
        (drainFree (s.view c) = false → exec i s = .next (waiting s c t .waitArray)) ∧
        (drainFree (s.view c) = true → (∀ j, j < n → inside j) →
          ∃ u a, exec i s = .next u ∧ OneCore c s u ∧ SameMemory s u ∧ OtherThreads c t.toNat s u ∧
            (u.core c).drain = some {
              blocks := (List.range n).map block
              thread := t
              cfg := k.slotOpen.getD 0
              toQueue := dest
              q := ad.extractLsb' 0 2
              ad := ad
              dfmt := dfmt.toNat
              int32 := acc
              rnd := rnd.toNat
              gen := if rnd = 2 then some (th.genInput gb.toNat) else none
              ftz := th.ftz
              cinc := if cinc then some ctr else none } ∧
            (∀ b, b < 256 → (u.core c).roles.getLsbD b = (k.roles.getLsbD b != ((List.range n).map block).contains b)) ∧
            (∀ r, kget 0 a r = if r = ap.toNat then aregAdvance^[n] (th.getA r) else th.getA r) ∧
            (u.core c).thread t.toNat = pcNext (if rnd = 2 then ({ th with a := a } : Thread).advanceGroup gb.toNat n else { th with a := a }) ∧
            u.core c = { k with
              threads := (u.core c).threads
              arrayPtr := t
              drain := (u.core c).drain
              roles := (u.core c).roles }) ∧
        (∀ m, drainFree (s.view c) = true → m < n → (∀ j, j < m → inside j) → ¬ inside m →
          ∃ u, exec i s = .next u ∧ ((u.core c).thread t.toNat).state = .faulted ∧ ((u.core c).thread t.toNat).pc = th.pc ∧
            (u.core c).drain = none ∧ OtherThreads c t.toNat s u ∧ (∀ a, a < 2 ^ 64 → Mem.read u.mem a = Mem.read s.mem a) ∧
            ∀ b, b < 256 → (u.core c).roles.getLsbD b = (k.roles.getLsbD b != ((List.range m).map block).contains b))) ∧
      (cinc = true → cntAllowed k.activeCfg ctr.toNat = false →
        ∃ u, exec i s = .next u ∧ (u.core c).thread t.toNat = { th with state := .faulted } ∧ (u.core c).drain = k.drain ∧
          (u.core c).roles = k.roles))
  ∧
  (
    ∀ (s : State) (c : Nat) (d : Drain),
      s.isCore c = true → s.engineRuns c = true → (s.core c).drain = some d →
      let r := drainTurn (s.view c)
      (r.1 = true → ∃ u, exec (.drainBlock c) s = .next u ∧ OneCore c s u ∧ u.core c = r.2.core ∧ u.mem = r.2.mem ∧ u.marks = r.2.marks) ∧
      (r.1 = false → ∃ u, exec (.drainBlock c) s = .next u ∧ (u.core c).drain = none ∧
        ((u.core c).thread d.thread.toNat).state = .faulted))
  ∧
  (
    ∀ (s : State) (c : Nat), s.isCore c = true → s.engineRuns c = true → (s.core c).drain = none → (s.core c).suspended = none →
      ∃ u, exec (.drainBlock c) s = .next u ∧ OneCore c s u ∧ SameMemory s u ∧ u.core c = s.core c)
  ∧
  (
    ∀ (s : State) (c : Nat) (d : Drain) (b : Nat) (rest : List Nat),
      s.isCore c = true → s.engineRuns c = true → (s.core c).drain = some d → d.outputs = [] → d.blocks = b :: rest →
      let k := s.core c
      let th := k.thread d.thread.toNat
      let r := drainBlock d (Mem.readNat s.mem (shadowKey c k.roles b) 64)
      let mark := kget false s.marks (shadowKey c k.roles b / 32 * 32)
      let out := drainOutputs d r.1 mark
      let outs := out.1.map (fun e => (e, false)) ++
        if rest.isEmpty then (out.2.map fun h => ((⟨h.1.setWidth 256, h.2, d.cfg⟩ : QEntry), true)).toList else []
      let nonfin := if outs.any fun e => outputNonfinite d e.1 then 128 else 0
      let q := kget [] k.qout d.q.toNat
      let m := drainStored s c d 0 outs (s.mem, s.marks)
      let goes (u : State) : Prop := OneCore c s u ∧
        ((u.core c).thread d.thread.toNat).tstat = (withFlags (withFlags th r.2.bits) nonfin).tstat ∧
        (u.core c).drain = (if rest.isEmpty then none else some { d.next with halfData := out.2 }) ∧
        (∀ n, rest.isEmpty = true → d.cinc = some n → (u.core c).ctr n.toNat = k.ctr n.toNat + 1) ∧
        (rest.isEmpty = false ∨ d.cinc = none → (u.core c).ctrs = k.ctrs)
      (d.toQueue = true → q.length + outs.length ≤ 2 →
        ∃ u, exec (.drainBlock c) s = .next u ∧ goes u ∧ SameMemory s u ∧ kget [] (u.core c).qout d.q.toNat = q ++ outs.map (·.1)) ∧
      (d.toQueue = true → 2 ≤ q.length → out.1 ≠ [] →
        ∃ u, exec (.drainBlock c) s = .next u ∧ OneCore c s u ∧ SameMemory s u ∧ (u.core c).qout = k.qout ∧
          (u.core c).drain = some { d.next with
            halfData := out.2
            outputs := out.1 }) ∧
      (d.toQueue = false →
        (∀ n, n < outs.length → inBounds (k.cfg d.cfg.toNat) .a (drainGranule s c d n) = true ∧
          (s.view c).mayWrite (drainKey s c d n) = true) →
        ∃ u, exec (.drainBlock c) s = .next u ∧ goes u ∧ u.mem = m.1 ∧ u.marks = m.2 ∧ (u.core c).qout = k.qout ∧
          ((u.core c).thread d.thread.toNat).getA d.ad.toNat = aregAdvance^[outs.length] (th.getA d.ad.toNat) ∧
          ∀ a, (∀ n, n < outs.length → a < drainKey s c d n ∨ drainKey s c d n + 32 ≤ a) → Mem.read u.mem a = Mem.read s.mem a))

/-- R132, R91, R102: QPUSH and QPOP on a bound queue move what they can, in order. With room for all (entries for all) the instruction is done;
else the thread waits in WAIT_QUEUE for the rest. One entry: QPUSH appends the granule with its mark and the configuration that pushed it, QPOP takes the oldest into the
granule. An open queue is a core fault. -/
def Obligations.QueueResults : Prop :=
  ∀ (s : State) (c : Nat) (t : BitVec 4) (q : BitVec 2) (r : BitVec 3) (pad : Bool) (nm1 : BitVec 4) (k left : Nat) (v : CoreView)
    (e : QEntry) (es : List QEntry),
    Issues s c t → HasOperands s c t (.pad pad) →
    let th := (s.core c).thread t.toNat
    let out := kget [] (s.core c).qout q.toNat
    (cfgQbind (s.core c).activeCfg q.toNat ≠ 0 →
      (pushSome t.toNat q.toNat r.toNat pad (nm1.toNat + 1) (s.view c) = (left, true, v) →
        ∃ u, exec (.qpush c t q r pad nm1) s = .next u ∧ OneCore c s u ∧ SameMemory s u ∧ OtherThreads c t.toNat s u ∧
          (u.core c).qout = v.core.qout ∧ (u.core c).qin = (s.core c).qin ∧
          (left = 0 → ((u.core c).thread t.toNat).pc = th.pc + 1 ∧ ((u.core c).thread t.toNat).state = .ready) ∧
          (left ≠ 0 → ((u.core c).thread t.toNat).pc = th.pc ∧ ((u.core c).thread t.toNat).state = .waitQueue ∧
            ((u.core c).thread t.toNat).pend = .push q.toNat r.toNat pad left)) ∧
      (popSome t.toNat q.toNat r.toNat pad (nm1.toNat + 1) (s.view c) = (left, true, v) →
        ∃ u, exec (.qpop c t q r pad nm1) s = .next u ∧ OneCore c s u ∧ u.mem = v.mem ∧ u.marks = v.marks ∧
          OtherThreads c t.toNat s u ∧ (u.core c).qin = v.core.qin ∧ (u.core c).qout = (s.core c).qout ∧
          (left = 0 → ((u.core c).thread t.toNat).pc = th.pc + 1 ∧ ((u.core c).thread t.toNat).state = .ready) ∧
          (left ≠ 0 → ((u.core c).thread t.toNat).pc = th.pc ∧ ((u.core c).thread t.toNat).state = .waitQueue ∧
            ((u.core c).thread t.toNat).pend = .pop q.toNat r.toNat pad left)) ∧
      (named s c t r.toNat (padOf pad) = some k → out.length < 2 → th.umber = false →
        ∃ u, exec (.qpush c t q r pad 0) s = .next u ∧
          kget [] (u.core c).qout q.toNat = out ++
            [⟨ofNat256 (Mem.readNat s.mem k 32), kget false s.marks (k / 32 * 32), (s.core c).slotOpen.getD 0⟩]) ∧
      (named s c t r.toNat (padOf pad) = some k → (s.view c).mayWrite k = true → kget [] (s.core c).qin q.toNat = e :: es →
        ∃ u, exec (.qpop c t q r pad 0) s = .next u ∧ kget [] (u.core c).qin q.toNat = es ∧
          Mem.readNat u.mem k 32 = e.data.toNat ∧ SameOutside s u k 32)) ∧
    (cfgQbind (s.core c).activeCfg q.toNat = 0 →
      ∃ u w, exec (.qpush c t q r pad nm1) s = .next u ∧ exec (.qpop c t q r pad nm1) s = .next w ∧
        ((u.core c).thread t.toNat) = { th with state := .faulted } ∧ ((w.core c).thread t.toNat) = { th with state := .faulted })

/-- R93, R94, R133, R134: DMA and WALK with a slot free and every check kept take the lowest-numbered free slot and go on; with none free
the thread waits in WAIT_DMA, its PC where it was. No byte of memory moves at issue. A counter that is not allowed, a length or an alignment
that R133 does not allow, or an end that may not be reached is a core fault, and no slot is taken. -/
def Obligations.TransferIssue : Prop :=
  ∀ (s : State) (c : Nat) (t : BitVec 4) (gs gd gl : BitVec 5) (ctr : BitVec 3) (cpt : Bool) (i : Nat) (x y : DmaEnd) (key : Nat),
    Issues s c t → pairField gs = true → pairField gd = true → gl ≠ 0 →
    let k := s.core c
    let th := k.thread t.toNat
    let a := (th.getPair gs.toNat).toNat
    let d := (th.getPair gd.toNat).toNat
    let n := (th.getG gl.toNat).toNat
    (k.freeSlot = some i → cntAllowed k.activeCfg ctr.toNat = true →
      (0 < n → n ≤ 0x100000 → n % 32 = 0 → a % 32 = 0 → d % 32 = 0 → s.dmaEnd c false a n = .ok x → s.dmaEnd c true d n = .ok y →
        ∃ u sl, exec (.dma c t gs gd gl ctr) s = .next u ∧ SameMemory s u ∧ (u.core c).slot i = some sl ∧
          sl.src = x.key ∧ sl.dst = y.key ∧ sl.len = n ∧ sl.ctr = ctr ∧ sl.thread = t ∧ sl.readPos = 0 ∧ sl.walk = none ∧
          (∀ j, j ≠ i → (u.core c).slot j = k.slot j) ∧ (u.core c).thread t.toNat = pcNext th ∧ OtherThreads c t.toNat s u) ∧
      (s.blockKey c d = .ok key →
        ∃ u sl w, exec (.walk c t gd ctr cpt) s = .next u ∧ SameMemory s u ∧ (u.core c).slot i = some sl ∧ sl.ctr = ctr ∧
          sl.thread = t ∧ sl.walk = some w ∧ w.blockAddr = key ∧ w.cpt = cpt ∧ w.started = false ∧
          (∀ j, j ≠ i → (u.core c).slot j = k.slot j) ∧ (u.core c).thread t.toNat = pcNext th ∧ OtherThreads c t.toNat s u)) ∧
    (k.freeSlot.isSome = true →
      let faults (i : Instr) : Prop := ∃ u, exec i s = .next u ∧ (u.core c).thread t.toNat = { th with state := .faulted } ∧
        (u.core c).slots = k.slots ∧ OtherThreads c t.toNat s u
      (cntAllowed k.activeCfg ctr.toNat = false → faults (.dma c t gs gd gl ctr) ∧ faults (.walk c t gd ctr cpt)) ∧
      (n = 0 ∨ 0x100000 < n ∨ n % 32 ≠ 0 ∨ a % 32 ≠ 0 ∨ d % 32 ≠ 0 → faults (.dma c t gs gd gl ctr)) ∧
      (∀ e, s.dmaEnd c false a n = .error e ∨ s.dmaEnd c true d n = .error e → faults (.dma c t gs gd gl ctr)) ∧
      (∀ e, s.blockKey c d = .error e → faults (.walk c t gd ctr cpt))) ∧
    (k.freeSlot = none → exec (.dma c t gs gd gl ctr) s = .next (waiting s c t .waitDma) ∧
      exec (.walk c t gd ctr cpt) s = .next (waiting s c t .waitDma))

/-- R96–R98, R135, R136: a counter the configuration does not allow is a core fault; else WAITC whose condition holds goes on, one whose
condition does not hold waits in WAIT_COUNTER with its threshold fixed; CNTADD adds g[G] + IMM modulo 2^32 to the counter and no other;
CNTRD reads the counter into g[G].
R85, R137: SWAP of pads in double mode, no transfer of the core writing their next fronts, inverts the FRONT bits it names and no other;
a transfer that writes one makes it wait in WAIT_ARRAY, the FRONT bits as they were. -/
def Obligations.CounterAndSwap : Prop :=
  (
    ∀ (s : State) (c : Nat) (t : BitVec 4) (ctr : BitVec 3) (g : BitVec 5) (imm : BitVec 12) (imm2 : BitVec 16),
      Issues s c t →
      let k := s.core c
      let th := k.thread t.toNat
      let thr := th.getG g.toNat + imm.signExtend 32
      (cntAllowed k.activeCfg ctr.toNat = true →
        (∃ u, exec (.waitc c t ctr g imm) s = .next u ∧
          ThreadOnly c t s u (pcNext (if 0 ≤ (k.ctr ctr.toNat - thr).toInt then th
            else { th with state := .waitCounter, pend := .waitc ctr.toNat thr })) k.cstat) ∧
        (∃ u, exec (.cntadd c t ctr g imm2) s = .next u ∧ OneCore c s u ∧ SameMemory s u ∧
          (u.core c).ctr ctr.toNat = k.ctr ctr.toNat + (th.getG g.toNat + imm2.signExtend 32) ∧
          (∀ j, j ≠ ctr.toNat → (u.core c).ctr j = k.ctr j) ∧ ((u.core c).thread t.toNat).g = th.g ∧
          ((u.core c).thread t.toNat).pc = th.pc + 1) ∧
        (∃ u, exec (.cntrd c t ctr g) s = .next u ∧
          ThreadOnly c t s u (pcNext (th.setG g.toNat (k.ctr ctr.toNat))) k.cstat)) ∧
      (cntAllowed k.activeCfg ctr.toNat = false → ∀ i ∈ [Instr.waitc c t ctr g imm, .cntadd c t ctr g imm2, .cntrd c t ctr g],
        ∃ u, exec i s = .next u ∧ (u.core c).thread t.toNat = { th with state := .faulted }))
  ∧
  (
    ∀ (s : State) (c : Nat) (t : BitVec 4) (sw sa : Bool),
      Issues s c t → (sw || sa) = true →
      let k := s.core c
      let th := k.thread t.toNat
      let busy := (sw && swapBlocked (s.view c) .w k.frontW) || (sa && swapBlocked (s.view c) .a k.frontA)
      (sw = true → bitOf k.activeCfg.toNat 206 = true) → (sa = true → bitOf k.activeCfg.toNat 207 = true) →
      (busy = false → ∃ u, exec (.swap c t sw sa) s = .next u ∧ OneCore c s u ∧ SameMemory s u ∧ OtherThreads c t.toNat s u ∧
        (u.core c).thread t.toNat = pcNext th ∧
        u.core c = { k with
          threads := (u.core c).threads
          generalPtr := t
          frontW := k.frontW != sw
          frontA := k.frontA != sa }) ∧
      (busy = true → exec (.swap c t sw sa) s = .next (waiting s c t .waitArray)))

/-- R88–R90: an entry at the head of an outbound queue whose target has room crosses, in order, mark and all (no thread of the two cores
waiting on a queue); with the far queue full nothing moves.
R92, R95, R96: the store port serves the slot at its pointer with one 32 B unit: here a unit read from a store or a foreign key into
the core's own pad, which lands with its mark; the pointer moves on. A transfer whose last byte has arrived frees its slot and adds 1 to its
counter, modulo 2^32; one within its core's own pads moves its units, which cross no port, and then ends. -/
def Obligations.QueueAndTransferMoves : Prop :=
  (
    ∀ (s : State) (c c2 q2 : Nat) (q : BitVec 2) (e : QEntry) (es : List QEntry),
      s.isCore c = true → s.engineRuns c = true → kget [] (s.core c).qout q.toNat = e :: es →
      s.queueTarget c q.toNat e.cfg.toNat = some (c2, q2) →
      let far := kget [] (s.core c2).qin q2
      (far.length < 8 → (∀ t, ((s.core c).thread t).state ≠ .waitQueue) → (∀ t, ((s.core c2).thread t).state ≠ .waitQueue) →
        ∃ u, exec (.queueEntryMove c q) s = .next u ∧ SameMemory s u ∧
          kget [] (u.core c).qout q.toNat = es ∧ kget [] (u.core c2).qin q2 = far ++ [{ e with cfg := 0 }] ∧
          (∀ d, d ≠ c → d ≠ c2 → u.core d = s.core d) ∧
          ∀ d t, (u.core d).thread t = (s.core d).thread t) ∧
      (8 ≤ far.length → exec (.queueEntryMove c q) s = .next s))
  ∧
  (
    ∀ (s : State) (c i : Nat) (sl : DmaSlot) (x : State) (slot : BitVec 3),
      s.isCore c = true → s.engineRuns c = true → (s.core c).slot i = some sl → sl.walk = none → (s.core c).mayMove sl = true →
      (let off := sl.readPos
       let key := sl.src + off
       let dst := ownAddr c sl.dst off
       (s.core c).portPtr = i → i < 8 → sl.srcLocal = false → sl.dstLocal = true → sl.held = none → sl.asked = false →
       off < sl.len → isPadKey sl.src = false →
       let v := s.viewerOf c sl.cfg
       s.ownWrite c dst (ofNat256 (leNat (s.seenBytes v key 32))) (s.seenMarked v key) = some x →
       ∃ u, exec (.storePortTurn c) s = .next u ∧ OneCore c s u ∧ SameOutside s u dst 32 ∧
         Mem.readNat u.mem dst 32 = leNat (s.seenBytes v key 32) ∧
         u.marks = kset false s.marks dst (s.seenMarked v key) ∧
         (u.core c).slot i = some { sl with readPos := off + 32, donePos := sl.donePos + 32 } ∧
         (u.core c).portPtr = (i + 1) % 10 ∧ (∀ t, (u.core c).thread t = (s.core c).thread t)) ∧
      (slot.toNat = i → (sl.srcLocal && sl.dstLocal) = false → sl.donePos = sl.len →
       ∃ u, exec (.dmaArrival c slot) s = .next u ∧ OneCore c s u ∧ SameMemory s u ∧ (u.core c).slot i = none ∧
         (∀ j, j ≠ i → (u.core c).slot j = (s.core c).slot j) ∧
         (u.core c).ctr sl.ctr.toNat = (s.core c).ctr sl.ctr.toNat + 1 ∧
         ∀ n, n ≠ sl.ctr.toNat → (u.core c).ctr n = (s.core c).ctr n) ∧
      (slot.toNat = i → sl.srcLocal = true → sl.dstLocal = true → ownMove c sl (sl.len / 32) s = some x →
       ∃ u, exec (.dmaArrival c slot) s = .next u ∧ OneCore c s u ∧ u.mem = x.mem ∧ u.marks = x.marks ∧ (u.core c).slot i = none ∧
         (∀ j, j ≠ i → (u.core c).slot j = (s.core c).slot j) ∧ (u.core c).ctr sl.ctr.toNat = (s.core c).ctr sl.ctr.toNat + 1 ∧
         ∀ a, (∀ n, n < sl.len / 32 → a < ownAddr c sl.dst (sl.len - 32 * (n + 1)) ∨ ownAddr c sl.dst (sl.len - 32 * (n + 1)) + 32 ≤ a) →
           Mem.read u.mem a = Mem.read s.mem a))

/-- R232, R244–R246, R249–R254: a walk whose block passes every check starts, from a pointer list with its item's pointer read: the slot keeps the
128 B read, the FRONT bits and its release counter's value, and stands at its first tile; a block that fails a check is a core fault
of the thread and frees the slot. When the turn of the port comes to the slot, the unit that it is at moves: its bytes are read, into
the own pad, a hold buffer or the port of another core, and nothing outside its destination bytes changes; where its source lies in
other cores' pads their ports are asked first; one that may not be read or written is a fault. Out of turn nothing moves. A release
wait whose condition holds ends, and no other. A tile of which no unit is left, or on its way, ends: the last frees the slot and counts;
another counts where every tile counts, and the walk goes on with the next. -/
def Obligations.WalkerMoves : Prop :=
  ∀ (s : State) (c : Nat) (slot : BitVec 3) (sl : DmaSlot) (run : WalkRun),
    s.isCore c = true → s.engineRuns c = true → (s.core c).slot slot.toNat = some sl → sl.walk = some run →
    let k := s.core c
    let i := slot.toNat
    let r := k.cfg sl.cfg.toNat
    let v := s.viewerOf c sl.cfg
    let bytes := s.seenBytes v run.blockAddr 128
    let w0 := parseWalk bytes
    let w := parseWalk run.block
    let good : Bool := w0.ok 2 && (!w0.relEn || cntAllowed r w0.rctr) && ringBound c r k.frontW k.frontA w0
    let faults (j : Instr) : Prop := ∃ u, exec j s = .next u ∧ (u.core c).slot i = none ∧
      ((u.core c).thread sl.thread.toNat).state = .faulted
    let starts (ptr : Nat) : Prop := ∃ u sl' r', exec (.walkerStart c slot) s = .next u ∧ OneCore c s u ∧ SameMemory s u ∧
      (u.core c).slot i = some sl' ∧ sl'.walk = some r' ∧ r'.started = true ∧ r'.block = bytes ∧ r'.crel = k.ctr w0.rctr ∧
      r'.item = run.item ∧ r'.point = (w0.nextPoint (w0.span + 1) 0).getD 0 ∧ r'.unit = 0 ∧ r'.ptr = ptr ∧
      r'.front.getLsbD 0 = k.frontW ∧ r'.front.getLsbD 1 = k.frontA ∧
      r'.releaseWait = (w0.relEn && decide (w0.nbuf ≤ run.seq)) ∧ (∀ j, j ≠ i → (u.core c).slot j = k.slot j) ∧
      ∀ t, (u.core c).thread t = k.thread t
    let at_ := w0.ptrList + 8 * run.item
    let p := leNat (((s.seenBytes v (at_ / 256 * 256) 256).drop (at_ % 256)).take 8)
    let listed : Bool := s.ownsStore (cfgTenant r) at_ 8 && (at_ - storeKey) / 0x20000000 == dieOf c
    (run.started = false →
      (good = true → w0.bmode ≠ 2 → starts run.ptr) ∧
      (good = true → w0.bmode = 2 → run.ptrBytes = [] → run.ptrAhead = [] →
        (listed = true → w0.pointerOk 2 p = true → starts p) ∧
        (listed = false ∨ w0.pointerOk 2 p = false → faults (.walkerStart c slot))) ∧
      (good = false → faults (.walkerStart c slot))) ∧
    (∀ n l, run.started = true → run.releaseWait = false → run.unitBytes = some (n, l) → k.mayMove sl = true → k.portPtr = i →
      (∀ x, s.walkCells c sl run.front l = .ok x →
        (∀ y out, (run.asked = some 0 ∨ run.asked = none ∧ otherCores c x.reads = []) →
          s.walkWrite c i sl.cfg x.cells x.mark = .moved y out →
          ∃ u, exec (.walkerUnit c slot) s = .next u ∧ (u.core c).portPtr = (i + 1) % 10 ∧ u.held = y.held ∧
            (u.core c).slot i = some { sl with
              readPos := sl.readPos + 32
              walk := some { run with
                unit := n + 1
                asked := none
                out := run.out + out } } ∧
            (∀ a, a ∉ x.cells.map (·.1) → Mem.read u.mem a = Mem.read s.mem a) ∧
            (∀ z zs, x.cells = z :: zs → padWindow c ≤ z.1 → z.1 < padWindow c + 0x28000 → (x.cells.map (·.1)).Nodup →
              ∀ y, y ∈ x.cells → Mem.read u.mem y.1 = y.2)) ∧
        (run.asked = none → s.walkWrite c i sl.cfg x.cells x.mark = .refused → otherCores c x.reads = [] →
          faults (.walkerUnit c slot)) ∧
        (∀ d ds, run.asked = none → otherCores c x.reads = d :: ds →
          ∃ u, exec (.walkerUnit c slot) s = .next u ∧ SameMemory s u ∧ u.held = s.held ∧ (u.core c).portPtr = (i + 1) % 10 ∧
            (u.core c).slot i = some { sl with walk := some { run with asked := some (ds.length + 1) } } ∧
            ∀ e, e ∈ d :: ds → (u.core e).ext = (s.core e).ext ++ [.walkRead c i])) ∧
      (∀ e, s.walkCells c sl run.front l = .error e → faults (.walkerUnit c slot))) ∧
    ((∀ x, s.portTurn c = some x → x.1 ≠ i) → exec (.walkerUnit c slot) s = .next s) ∧
    (let due := run.releaseWait = true ∧
        waitHolds (k.ctr w.rctr) (run.crel + BitVec.ofNat 32 (run.seq - w.nbuf + 1)) = true
     (due → ∃ u, exec (.walkerReleaseWaitEnd c slot) s = .next u ∧ OneCore c s u ∧ SameMemory s u ∧
        (∀ j, j ≠ i → (u.core c).slot j = k.slot j) ∧
        (u.core c).slot i = some { sl with walk := some { run with releaseWait := false } }) ∧
     (¬ due → exec (.walkerReleaseWaitEnd c slot) s = .next s)) ∧
    (run.started = true → run.releaseWait = false → run.unitBytes = none → run.out = 0 →
      (w.advance run.item run.point = none →
        ∃ u, exec (.tileArrival c slot) s = .next u ∧ OneCore c s u ∧ SameMemory s u ∧ (u.core c).slot i = none ∧
          (∀ j, j ≠ i → (u.core c).slot j = k.slot j) ∧ (u.core c).ctr sl.ctr.toNat = k.ctr sl.ctr.toNat + 1) ∧
      (∀ b j, w.advance run.item run.point = some (b, j) → (b = run.item ∨ w.bmode ≠ 2) →
        ∃ u sl' r', exec (.tileArrival c slot) s = .next u ∧ OneCore c s u ∧ SameMemory s u ∧ (u.core c).slot i = some sl' ∧
          sl'.walk = some r' ∧ sl'.readPos = 0 ∧ r'.item = b ∧ r'.point = j ∧ r'.seq = run.seq + 1 ∧ r'.unit = 0 ∧ r'.block = run.block ∧
          r'.releaseWait = (w.relEn && decide (w.nbuf ≤ run.seq + 1)) ∧
          (u.core c).ctr sl.ctr.toNat = k.ctr sl.ctr.toNat + (if run.cpt then 1 else 0))) ∧
    (run.started = false ∨ run.releaseWait = true ∨ run.unitBytes.isSome = true ∨ run.out ≠ 0 → exec (.tileArrival c slot) s = .next s)

/-- R36, R76, R102, R105, R212, R213: the next slot of a core opens at its cycle or later, the slot before it done and the tick window over: its
configuration, in a bubble slot the filler's that runs there, is active, each of its threads not faulted is READY at its ENTRY_PC, both
pointers are 15; a bubble slot in which no filler runs passes; before its cycle, in the window, or with the slot before it not done
nothing changes. At the scheduled end of a filler slot its threads that have neither yielded nor faulted are SUSPENDED with their
registers, the slot is closed and port requests are cut; the cutoff, from 256 cycles before it, only cuts; before these cycles nothing
changes. -/
def Obligations.FoldSlots : Prop :=
  ∀ (s : State) (c p pat vi : Nat) (fr : Frame) (m : ImgHeld) (e : Nat × Nat × Nat × Nat × Nat),
    s.isCore c = true → s.engineRuns c = true →
    let k := s.core c
    (s.partOf c = some p → (s.part p).frame = some fr → (s.part p).image = some m → fr.pattern = some pat →
      m.vcore c = some vi → fr.fast = false → fr.load = false →
      (Img.slots m.bytes (Img.slotListAt m.bytes pat vi))[k.slotIndex]? = some e →
      (k.slotDone = true → 16 ≤ s.subtick → e.1 ≤ s.frameCycle fr →
        let filler := bubbleConfig (s.part p) fr vi e.1 e.2.1
        (∀ i, i < 8 → (e.2.2.2.1 = 0 ∧ e.2.2.1 = i ∨ e.2.2.2.1 ≠ 0 ∧ filler = some i) →
          ∃ u, exec (.foldSlotOpen c) s = .next u ∧ OneCore c s u ∧ SameMemory s u ∧
            (u.core c).slotOpen = some (BitVec.ofNat 3 i) ∧ (u.core c).arrayPtr = 15 ∧ (u.core c).generalPtr = 15 ∧
            (u.core c).slotIndex = k.slotIndex + 1 ∧ (cfgFiller (k.cfg i) = true → (u.core c).fillerCut = false) ∧
            ∀ t, t < 16 → (k.thread t).state ≠ .faulted → bitOf (cfgField (k.cfg i) 0 16) t = true →
              (u.core c).thread t = { k.thread t with
                pc := BitVec.ofNat 8 (cfgField (k.cfg i) (16 + 8 * t) 8)
                state := .ready
                pend := .none }) ∧
        (e.2.2.2.1 ≠ 0 → filler = none →
          exec (.foldSlotOpen c) s = .next (s.setCore c { k with slotIndex := k.slotIndex + 1 }))) ∧
      (k.slotDone = false ∨ s.subtick < 16 ∨ s.frameCycle fr < e.1 → exec (.foldSlotOpen c) s = .next s)) ∧
    (s.slotEnds c 0 = false ∨ k.fillerOpen = false → exec (.fillerSlotEnd c) s = .next s) ∧
    (s.slotEnds c 256 = false ∨ k.fillerOpen = false → exec (.fillerPortCutoff c) s = .next s) ∧
    (k.fillerOpen = true →
      (s.slotEnds c 0 = true → ∃ u, exec (.fillerSlotEnd c) s = .next u ∧ OneCore c s u ∧ SameMemory s u ∧ (u.core c).slotOpen = none ∧
        (u.core c).fillerCut = true ∧
        ∀ t, t < 16 → bitOf (cfgField k.activeCfg 0 16) t = true → (k.thread t).state ≠ .yielded →
          (k.thread t).state ≠ .faulted →
          (u.core c).thread t = { k.thread t with
            state := .suspended
            pend := .none }) ∧
      (s.slotEnds c 256 = true → ∃ u, exec (.fillerPortCutoff c) s = .next u ∧ OneCore c s u ∧ SameMemory s u ∧
        u.core c = { k with fillerCut := true }))

/-- R193, R436: a debug read of accumulators in a partition in debug mode delivers its units, at most eight of a core in one tick window and
the rest waiting, all at once in a partition stopped or a module frozen, but those in the bounds of a filler that does not consent; it
changes nothing else; out of the P-pad, or with no partition in debug mode there, nothing is read. One turn of a mirror engine
writes the next 32 B of its core's carried state into the slot, and counts it; the state written whole, nothing.
R437: MIRROR_COMPLETE ends the mirror of a partition's sealed frame: the frame is mirrored, its slot valid, the ordinal and the open frame
stand; with no mirror under way nothing changes. -/
def Obligations.ReadsAndMirror : Prop :=
  (
    ∀ (s : State) (f c off n p : Nat) (fr : Frame) (m : ImgHeld),
      s.isCore c = true →
      (f < 256 → s.mgmt.dark = false → accRange off n = true → (s.debugPart c).isSome = true →
        (s.accFree c = true → exec (.debugAccRead f c off n) s =
          .next { s with obs := { s.obs with accOut := s.obs.accOut ++ s.accUnits c off n } }) ∧
        (s.accFree c = false → s.subtick ≤ 15 →
          let used := kget 0 s.obs.accServed c
          let k := min n (8 - used)
          exec (.debugAccRead f c off n) s = .next { s with obs := { s.obs with
            accOut := s.obs.accOut ++ s.accUnits c off k
            accServed := kset 0 s.obs.accServed c (used + k)
            accWait := if k < n then s.obs.accWait ++ [(c, off + 32 * k, n - k)] else s.obs.accWait } })) ∧
      (∀ i, i < n → s.unitWithheld c (off + 32 * i) = false →
        (padWindow c + off + 32 * i, ofNat256 (Mem.readNat s.mem (padWindow c + off + 32 * i) 32),
          kget false s.marks (markBase (padWindow c + off + 32 * i))) ∈ s.accUnits c off n) ∧
      (f < 256 → accRange off n = false ∨ s.debugPart c = none → exec (.debugAccRead f c off n) s = .next s) ∧
      (s.engineRuns c = true → s.partOf c = some p → (s.part p).mirroring = some fr → (s.part p).image = some m →
        let w := 32 * (s.core c).mirrored
        let snap := (s.part p).snap fr.ord
        let at_ := s.slotCore m (snap.ord % 2) c + w
        (w < m.coreSize c →
          ∃ u, exec (.mirrorTurn c) s = .next u ∧ (u.core c) = { s.core c with mirrored := (s.core c).mirrored + 1 } ∧
            (∀ j, j < 32 → w + j < (s.carriedBytes m snap c).length → Mem.read u.mem (at_ + j) = (s.carriedBytes m snap c).getD (w + j) 0) ∧
            SameOutside s u at_ 32 ∧ u.held = s.held ∧ u.regs = s.regs ∧ u.cmds = s.cmds) ∧
        (m.coreSize c ≤ w → exec (.mirrorTurn c) s = .next s)))
  ∧
  (
    ∀ (s : State) (p : Nat) (fr : Frame),
      p < 8 → s.halted = false → s.partStill p = false →
      ((s.part p).mirroring = some fr →
        ∃ u, exec (.mirrorComplete p) s = .next u ∧ (u.part p).sealed = some { fr with mirrored := true } ∧
          (u.part p).mirroring = none ∧ ((u.part p).snap fr.ord).valid = true ∧ (u.part p).ord = (s.part p).ord ∧
          (u.part p).frame = (s.part p).frame ∧ ∀ q, q ≠ p → u.part q = s.part q) ∧
      ((s.part p).mirroring = none → exec (.mirrorComplete p) s = .next s))

/-! ### The Almanac and the tick -/

/-- R45, R39: an armed change is taken up at the first RATE_CHANGE whose tick has reached its count, with the rate that ALM_RATE_NEXT then
holds, and nothing else changes; a write of ALM_RATE_AT's high word by the PF arms the 64-bit count, unless an image is held or the
count is not later than the present one: then only ALM_ERR.RATE_BUSY is set; a droop's lost cycles are counted and the sub-tick moves on,
never past the frame. -/
def Obligations.RatesAndDroop : Prop :=
  ∀ (s : State) (count value n : Nat),
    (s.alm.armed = some count → count ≤ s.tick →
      ∃ u, exec .rateChange s = .next u ∧ u = { s with
          regs := u.regs
          alm := { s.alm with armed := none } } ∧
        u.rate = s.field (almReg 0x54) 0 2 ∧ OtherRegs (almReg 0x0C) s u) ∧
    ((s.alm.armed = none ∨ s.alm.armed = some count ∧ s.tick < count) → exec .rateChange s = .next s) ∧
    (let at_ := s.staged 0 (almReg 0x58) + value % 2 ^ 32 * 2 ^ 32
     (s.anyImage = false → s.tick < at_ →
        ∃ u, exec (.rateArm 0 value) s = .next u ∧ u.alm = { s.alm with armed := some at_ } ∧
          u.reg (almReg 0x5C) = value % 2 ^ 32 ∧ u.reg (almReg 0x58) = s.staged 0 (almReg 0x58) % 2 ^ 32 ∧
          RegsBut [almReg 0x58, almReg 0x5C] s u ∧ u.mem = s.mem ∧ u.parts = s.parts) ∧
      ((s.anyImage = true ∨ at_ ≤ s.tick) →
        ∃ u, exec (.rateArm 0 value) s = .next u ∧ RegsOnly s u ∧ u.bit (almReg 0x50) 2 = true ∧
          OtherRegs (almReg 0x50) s u)) ∧
    (s.mgmt.dark = false →
      ∃ u, exec (.supplyDroop n) s = .next u ∧ u.subtick = min (s.subtick + n) (s.cycles - 1) ∧
        u.alm = { s.alm with stretch := s.alm.stretch + n } ∧ u.reg (mgmtReg 0x214) = (s.reg (mgmtReg 0x214) + n) % 2 ^ 32 ∧
        OtherRegs (mgmtReg 0x214) s u ∧ u.tick = s.tick ∧ u.mem = s.mem ∧ u.parts = s.parts)

/-- R58, R59, R309: a port in service sends a symbol that carries the module's count, sub-tick, root, depth, rate and lock, and the next SEQ,
which it remembers with the time, in a CONTROL block ahead of what waits; a received symbol of another rate only sets
ALM_ERR.RATE_MISMATCH; one of the own rate that echoes the last SEQ sent gives the port's link delay in sixteenths,
((td − ta) − (tc − tb)) / 2 toward zero, and from a port that is not the parent moves nothing else but what is known of the port.
R64: a sync interval of the parent's port ends with its next symbol: one without a usable pair breaks the count toward lock.
R59, R61, R64: a reply from the parent stores the offset ((tb − ta) + (tc − td)) / 2; the first within ±2 ns of an interval counts it,
one beyond breaks the count. A locked module never steps its count: its sub-tick moves by one cycle at most. One not locked takes its
parent's time in one step, at its first pair with the parent and whenever it is beyond ±2 ns. -/
def Obligations.SymbolsAndOffset : Prop :=
  (
    ∀ (s : State) (p frac : Nat) (sym : BitVec 128),
      p < 8 → s.portState p = 2 → s.mgmt.dark = false →
      let x := s.sync p
      let n := sym.toNat
      let st := s.reg (almReg 0x14)
      let parent := s.hasParent = true ∧ s.parentPort = p
      (∃ u y, exec (.syncSymbolSend p frac) s = .next u ∧ u = { s with
          alm := u.alm
          links := u.links } ∧
        u.sync p = { x with
          sentSeq := (x.sentSeq + 1) % 256
          sentTick := s.tick
          sentSub := s.subtick
          sentFrac := frac % 16
          symbol := y } ∧
        u.port p = (s.port p).control (leBytes 16 y.toNat) ∧ (∀ q, q ≠ p → u.port q = s.port q ∧ u.sync q = s.sync q) ∧
        (parent → s.alm.paired = true → u.alm.good = s.alm.good ∧ u.alm.missed = 0) ∧
        (parent → s.alm.paired = false → u.alm.good = 0 ∧ u.alm.missed = s.alm.missed + 1) ∧
        bitsOf y.toNat 0 16 = s.tick % 2 ^ 16 ∧ bitsOf y.toNat 16 20 = s.subtick % 2 ^ 20 ∧ bitsOf y.toNat 36 4 = frac % 16 ∧
        bitsOf y.toNat 40 16 = bitsOf st 16 16 ∧ bitsOf y.toNat 56 8 = bitsOf st 8 8 ∧ bitsOf y.toNat 64 2 = s.rate ∧
        bitsOf y.toNat 66 1 = bitsOf st 0 1 ∧ bitsOf y.toNat 67 1 = bitsOf st 2 1 ∧ bitsOf y.toNat 68 8 = (x.sentSeq + 1) % 256 ∧
        bitsOf y.toNat 76 8 = x.seq % 256) ∧
      (bitsOf n 64 2 ≠ s.rate → ∃ u, exec (.syncSymbolReceive p sym frac) s = .next u ∧ RegsOnly s u ∧
        u.bit (almReg 0x50) 1 = true ∧ OtherRegs (almReg 0x50) s u) ∧
      (bitsOf n 64 2 = s.rate → bitsOf n 76 8 = x.sentSeq → (x.sentSeq ≠ 255 ∨ x.sentTick ≠ 0 ∨ x.sentSub ≠ 0) →
        let ta := time16 s.cycles x.sentTick x.sentSub x.sentFrac
        let tb := time16 s.cycles (nearestTick s.tick (bitsOf n 84 16)) (bitsOf n 100 20) (bitsOf n 120 4)
        let tc := time16 s.cycles (nearestTick s.tick (bitsOf n 0 16)) (bitsOf n 16 20) (bitsOf n 36 4)
        let td := time16 s.cycles s.tick s.subtick (frac % 16)
        (¬ parent → ∃ u, exec (.syncSymbolReceive p sym frac) s = .next u ∧ u = { s with regs := u.regs, alm := u.alm } ∧
          (u.reg (almReg (0x20 + 4 * p)) : Int) = Int.tdiv ((td - ta) - (tc - tb)) 2 % 2 ^ 24 ∧
          OtherRegs (almReg (0x20 + 4 * p)) s u ∧ (u.sync p).seen = true ∧ (u.sync p).root = bitsOf n 40 16 ∧
          (u.sync p).depth = bitsOf n 56 8 ∧ (u.sync p).seq = bitsOf n 68 8) ∧
        (parent → ∃ u, exec (.syncSymbolReceive p sym frac) s = .next u ∧
          (u.reg (almReg (0x20 + 4 * p)) : Int) = Int.tdiv ((td - ta) - (tc - tb)) 2 % 2 ^ 24 ∧
          (u.reg (almReg 0x18) : Int) = Int.tdiv ((tb - ta) + (tc - td)) 2 % 2 ^ 32 ∧ u.alm.paired = true ∧
          RegsBut [almReg (0x20 + 4 * p), almReg 0x18] s u)))
  ∧
  (
    ∀ (s : State) (offset : Int),
      let u := s.usePair offset
      (u.reg (almReg 0x18) : Int) = offset % 2 ^ 32 ∧ OtherRegs (almReg 0x18) s u ∧
      (offset.natAbs ≤ 48 → u.alm.good = if s.alm.paired then s.alm.good else s.alm.good + 1) ∧
      (48 < offset.natAbs → u.alm.good = 0) ∧
      (s.locked = true → u.tick = s.tick ∧ (s.subtick < s.cycles → u.subtick < s.cycles ∧ u.subtick ≤ s.subtick + 1 ∧ s.subtick ≤ u.subtick + 1)) ∧
      (s.locked = false → offset.natAbs ≤ 48 → s.alm.stepped = true → u.tick = s.tick ∧ u.subtick = s.subtick) ∧
      (s.locked = false → (48 < offset.natAbs ∨ s.alm.stepped = false) →
        0 < s.cycles → 0 ≤ (s.tick : Int) * s.cycles + s.subtick + offset / 16 →
        (u.tick : Int) * s.cycles + u.subtick = (s.tick : Int) * s.cycles + s.subtick + offset / 16 ∧ u.subtick < s.cycles))

/-- R60, R61, R64: lock after 16 intervals in tolerance, with a parent or as a root that is offered no lower candidate, and not before; with no
usable pair from the parent for 16 intervals it is changed at the next tick; a locked module that is not root and to which no neighbour
offers a root enters holdover, counted; after 1 ms there it loses lock, flagged (that the holdover ends with the lock is the model's,
DESIGN CHOICE, notes/assumptions/68); ACQUIRE has an unlocked module with a parent count its intervals anew and take its parent's time
again, and does nothing to any other. -/
def Obligations.LockAndHoldover : Prop :=
  ∀ s : State,
    let counts := s.isRoot = true ∧ s.lowerOffer = false ∨ s.hasParent = true
    (counts → 16 ≤ s.alm.good →
      ∃ u, exec .lockAcquired s = .next u ∧ u.locked = true ∧ u.inHoldover = s.inHoldover ∧ OtherRegs (almReg 0x14) s u ∧
        u = { s with regs := u.regs, alm := { s.alm with everLocked := true } }) ∧
    (¬ counts ∨ s.alm.good < 16 → exec .lockAcquired s = .next s) ∧
    (s.hasParent = true → 16 ≤ s.alm.missed → exec .parentChange s = .next { s with alm := { s.alm with parentDue := true } }) ∧
    (s.hasParent = false ∨ s.alm.missed < 16 → exec .parentChange s = .next s) ∧
    (s.locked = true → s.isRoot = false → s.inHoldover = false →
      (s.bestOffer = none → ∃ u, exec .holdover s = .next u ∧ u.locked = true ∧ u.inHoldover = true ∧ u.hasParent = false ∧
        u.field (almReg 0x14) 8 8 = 255 ∧ u.reg (almReg 0x4C) = (s.reg (almReg 0x4C) + 1) % 2 ^ 32 ∧ AlmanacOnly s u ∧ u.alm = s.alm) ∧
      (s.bestOffer.isSome = true → exec .holdover s = .next s)) ∧
    (s.inHoldover = true →
      ∃ u, exec .lostLock s = .next u ∧ u.locked = false ∧ u.inHoldover = false ∧ u.bit (almReg 0x50) 0 = true ∧
        AlmanacOnly s u ∧ u.alm = { s.alm with good := 0 }) ∧
    (s.inHoldover = false → exec .lostLock s = .next s) ∧
    (s.locked = false → s.isRoot = false → s.hasParent = true →
      exec .acquire s = .next { s with alm := { s.alm with
        good := 0
        stepped := false } }) ∧
    ((s.locked = true ∨ s.isRoot = true ∨ s.hasParent = false) → exec .acquire s = .next s)

/-- R46, R483, R497: a TICK always runs: the count goes up by one and the sub-tick count returns to 0. Without power beyond the control tile
nothing else of the module moves. Under Vigil the frames in progress move with the count and VIGIL_FRAMES counts: no frame seals, commits
or opens, and memory and held writes stand.
R49: a frame that is not complete slips: the partition's slip count, ALM_SLIP_TOTAL and its dump count go up by one, its frame stays open,
its ordinal and its held writes stand. R50, R443: the check that fails after SLIP_LIMIT slips does not extend the frame: the partition is in
recovery, its frame is discarded; the second time for one ordinal it stops instead; with fewer slips, or a check that does not fail,
nothing changes. -/
def Obligations.TickSlipAndLimit : Prop :=
  (
    ∀ (s : State) (energy : Nat) (parts : List Nat),
      (∃ u, exec (.tick energy parts) s = .next u) ∧
      (s.mgmt.dark = true → ∃ u, exec (.tick energy parts) s = .next u ∧ u.tick = s.tick + 1 ∧ u.subtick = 0 ∧
        u.mem = s.mem ∧ u.held = s.held ∧ u.cores = s.cores ∧ u.parts = s.parts ∧ u.cmds = s.cmds ∧ u.mgmt = s.mgmt ∧
        OtherRegs (mgmtReg 0x218) s u) ∧
      (s.mgmt.dark = false → s.vigil.frozen = true →
        ∃ u, exec (.tick energy parts) s = .next u ∧ u.tick = s.tick + 1 ∧ u.subtick = 0 ∧ u.mem = s.mem ∧ u.held = s.held ∧
          u.cores = s.cores ∧ u.cmds = s.cmds ∧ u.reg (obsReg 0x720) = (s.reg (obsReg 0x720) + 1) % 2 ^ 32 ∧
          ∀ p, (u.part p).ord = (s.part p).ord ∧ (u.part p).slips = (s.part p).slips ∧ (u.part p).image = (s.part p).image ∧
            (u.part p).frame = (s.part p).frame.map fun f => { f with
              opened := f.opened + 1
              sealTick := f.sealTick + 1 }))
  ∧
  (
    ∀ (s : State) (p : Nat),
      p < 8 →
      ((s.part p).slips < s.slipLimit →
        let u := s.slip p
        (u.part p).slips = (s.part p).slips + 1 ∧ (u.part p).frame = (s.part p).frame ∧ (u.part p).ord = (s.part p).ord ∧
          u.reg (almReg 0x44) = (s.reg (almReg 0x44) + 1) % 2 ^ 32 ∧ u.held = s.held ∧ u.mem = s.mem ∧
          kget 0 u.obs.partCnt (4 * p) = (kget 0 s.obs.partCnt (4 * p) + 1) % 2 ^ 32) ∧
      ((s.part p).slips < s.slipLimit ∨ s.checkFails p = false → exec (.slipLimitReached p) s = .next s) ∧
      (s.halted = false → s.partStill p = false → (s.part p).valid = true → s.checkFails p = true → s.slipLimit ≤ (s.part p).slips →
        ((s.part p).stalled ≠ some (s.part p).ord →
          ∃ u, exec (.slipLimitReached p) s = .next u ∧ (u.part p).recov.isSome = true ∧ (u.part p).frame = none ∧
            (u.part p).stalled = some (s.part p).ord) ∧
        ((s.part p).stalled = some (s.part p).ord →
          ∃ u, exec (.slipLimitReached p) s = .next u ∧ (u.part p).stopped = true ∧ (u.part p).frame = none)))

/-! ### Queues and commands -/

/-- R344, R345, R347, R337: an in-range doorbell or head write sets its register, one at or above the ring's size only Q_STATUS.BAD; a slot
that a head write frees takes the record held; ENABLE takes the ring bases and sizes, on a queue already on, or of a size out of range
(the model's choice, DESIGN CHOICE, notes/assumptions/21), nothing; DISABLE stops fetching and leaves accepted commands; a failed host
access stops its queue and sets HOST_ERR, a failed record write leaves host memory and CQ_TAIL as before that record, which is held.
Under Vigil each of the register writes waits (R535). -/
def Obligations.QueueRegisters : Prop :=
  ∀ (s : State) (f q v : Nat) (write : Bool),
    f < 256 → q < 64 → s.queueExists f q = true →
    let x := s.queue f q
    let sq := s.field (queueReg f q 0x08) 0 5
    let cq := s.field (queueReg f q 0x1C) 0 5
    (s.vigil.frozen = false →
      (v % 65536 < s.sqSize f q → ∃ u, exec (.doorbell f q v) s = .next u ∧ RegsOnly s u ∧
        u.reg (queueReg f q 0x0C) = v % 65536 ∧ OtherRegs (queueReg f q 0x0C) s u) ∧
      (s.sqSize f q ≤ v % 65536 → ∃ u, exec (.doorbell f q v) s = .next u ∧ RegsOnly s u ∧
        u.bit (queueReg f q 0x2C) 1 = true ∧ OtherRegs (queueReg f q 0x2C) s u) ∧
      (v % 131072 < s.cqSize f q → x.held = [] → ∃ u, exec (.cqHeadWrite f q v) s = .next u ∧ RegsOnly s u ∧
        u.reg (queueReg f q 0x20) = v % 131072 ∧ RegsBut [queueReg f q 0x20, queueReg f q 0x2C] s u) ∧
      (s.cqSize f q ≤ v % 131072 → ∃ u, exec (.cqHeadWrite f q v) s = .next u ∧ RegsOnly s u ∧
        u.bit (queueReg f q 0x2C) 1 = true ∧ OtherRegs (queueReg f q 0x2C) s u) ∧
      (∀ r, v % 131072 < s.cqSize f q → x.held = [r] → s.canWrite f q = true →
        0 < (s.setReg (queueReg f q 0x20) (v % 131072)).freeSlots f q →
        ∃ u, exec (.cqHeadWrite f q v) s = .next u ∧ u.reg (queueReg f q 0x20) = v % 131072 ∧ u.mem = recorded s f q r ∧
          (u.queue f q).held = [] ∧ (u.queue f q).unread = x.unread ++ [{ r with owed := false }] ∧ u.cmds = s.cmds) ∧
      (x.on = true ∨ sq < 1 ∨ 16 < sq ∨ cq < 2 ∨ 17 < cq → exec (.queueEnable f q) s = .next s) ∧
      (x.on = false → 1 ≤ sq → sq ≤ 16 → 2 ≤ cq → cq ≤ 17 →
        ∃ u, exec (.queueEnable f q) s = .next u ∧ (u.queue f q).on = true ∧ (u.queue f q).sqBase = s.wide (queueReg f q 0x00) ∧
          (u.queue f q).sqLog = sq ∧ (u.queue f q).cqBase = s.wide (queueReg f q 0x14) ∧ (u.queue f q).cqLog = cq ∧
          u.bit (queueReg f q 0x28) 0 = true ∧ u.cmds = s.cmds ∧
          RegsBut [queueReg f q 0x24, queueReg f q 0x28, queueReg f q 0x2C, queueReg f q 0x34, bar0 f 0x1008, bar0 f 0x100C, cpReg 0] s u ∧
          (x.held = [] → x.unread = [] → x.abandoned = [] → u.mem = s.mem)) ∧
      (∃ u, exec (.queueDisable f q) s = .next u ∧ u.queue f q = { x with on := false } ∧
        u.bit (queueReg f q 0x28) 0 = false ∧ u.bit (queueReg f q 0x2C) 0 = false ∧
        RegsBut [queueReg f q 0x28, queueReg f q 0x2C] s u ∧ u.cmds = s.cmds ∧ u.mem = s.mem)) ∧
    (s.halted = false →
      let n := 2 ^ x.cqLog
      let tail := s.field (queueReg f q 0x24) 0 17
      let t := (tail + n - 1) % n
      let read := tail = s.field (queueReg f q 0x20) 0 17
      ∃ u, exec (.hostAccessFail f q write) s = .next u ∧ (u.queue f q).on = false ∧ u.bit (queueReg f q 0x2C) 2 = true ∧
        u.bit (queueReg f q 0x2C) 0 = false ∧ u.cmds = s.cmds ∧
        (write = false ∨ x.last = none ∨ read →
          u.queue f q = { x with on := false } ∧ OtherRegs (queueReg f q 0x2C) s u ∧ u.mem = s.mem) ∧
        (∀ r old, write = true → x.last = some (r, old) → ¬ read →
          u.mem = Mem.writeBytes s.mem (hostKey (x.cqBase + 32 * t)) old ∧ u.reg (queueReg f q 0x24) = t % 2 ^ 32 ∧
          (u.queue f q).held = r :: x.held ∧ (u.queue f q).unread = x.unread.dropLast ∧ u.bit (queueReg f q 0x2C) 4 = true ∧
          RegsBut [queueReg f q 0x24, queueReg f q 0x2C, queueReg f q 0x34, bar0 f 0x1008, bar0 f 0x100C] s u)) ∧
    (s.vigil.frozen = true → s.vigil.writes.length < 64 →
      let waits (i : Instr) (a w : Nat) : Prop :=
        exec i s = .next { s with vigil := { s.vigil with writes := s.vigil.writes ++ [⟨f, a, w, 15⟩] } }
      waits (.doorbell f q v) (queueReg f q 0x0C) v ∧ waits (.cqHeadWrite f q v) (queueReg f q 0x20) v ∧
        waits (.queueEnable f q) (queueReg f q 0x28) 1 ∧ waits (.queueDisable f q) (queueReg f q 0x28) 0)

/-- R345, R350, R357: a fetch round takes one command of the one queue that holds entries: its head moves, two completion slots are
reserved, and nothing else moves but what the host writes in its own memory. Acceptance gives the oldest fetched command a journal number and
its tick, counts it, and posts its ACCEPT record; one that its checks refused, or whose Calends is not later than the next tick or too far
ahead (R56), completes DENIED instead, and only a gap in HSEQ leaves the next number expected; one with a number already taken is
answered DUPLICATE. -/
def Obligations.FetchAndAccept : Prop :=
  ∀ (s : State) (f q id : Nat) (c : Cmd) (cells : List (Nat × BitVec 8)),
    f < 256 → q < 64 → s.halted = false →
    let s1 := s.hostCells cells
    let n := s.cp.nextId
    let head := s.field (queueReg f q 0x10) 0 16
    let size := 2 ^ (s.queue f q).cqLog
    let tail := s.field (queueReg f q 0x24) 0 17
    (s1.fetchable = [] → exec (.fetchRound cells) s = .next s1) ∧
    (s1.fetchable = [(f, q)] → 2 ≤ s.freeSlots f q → s.fetched f q = [] → s1.readCommand f q head = c →
      c.dup = false → c.refuse = none →
      ∃ u, exec (.fetchRound cells) s = .next u ∧ u.cmd n = some c ∧ u.cp = { s.cp with nextId := n + 1 } ∧
        u.reg (queueReg f q 0x10) = (head + 1) % s.sqSize f q ∧
        u.queue f q = { s.queue f q with reserved := (s.queue f q).reserved + 2 } ∧ u.mem = s1.mem ∧
        RegsBut [queueReg f q 0x10, queueReg f q 0x2C] s u ∧ ∀ j, j ≠ n → u.cmd j = s.cmd j) ∧
    (s.fetched f q = [] → exec (.commandAccept f q) s = .next s) ∧
    (s.fetched f q = [(id, c)] → c.dup = false → s.canWrite f q = true → (s.queue f q).held = [] →
      (c.refuse = none → s.calendsBad c = false → s.cp.released.contains f = false → id ≠ n →
        (∀ g, g ∈ s.colls.gates → g.1 ≠ f ∨ g.2.1 ≠ q) →
        ∃ u, exec (.commandAccept f q) s = .next u ∧ u.cmd n = some { c with accepted := some s.tick } ∧ u.cmd id = none ∧
          u.cp.nextId = n + 1 ∧ u.mem = recorded s f q { type := 0, opcode := c.opcode, hseq := c.hseq, tick := s.tick } ∧
          u.reg (queueReg f q 0x30) = (s.reg (queueReg f q 0x30) + 1) % 2 ^ 32 ∧
          u.reg (queueReg f q 0x34) = (s.reg (queueReg f q 0x34) + 1) % 2 ^ 32 ∧
          u.reg (queueReg f q 0x24) = (tail + 1) % size % 2 ^ 32 ∧ u.held = s.held ∧
          RegsBut [queueReg f q 0x24, queueReg f q 0x30, queueReg f q 0x34, bar0 f 0x1008, cpReg 0x0C, cpReg 0x10] s u ∧
          ∀ j, j ≠ n → j ≠ id → u.cmd j = s.cmd j) ∧
      (∀ r, (c.refuse = some r ∨ c.refuse = none ∧ s.calendsBad c = true ∧ r = 0x15) →
        ∃ u, exec (.commandAccept f q) s = .next u ∧ u.cmd id = none ∧
          u.mem = recorded s f q { type := 1, status := 0x11, opcode := c.opcode, hseq := c.hseq, endTick := s.tick, detail := r } ∧
          u.reg (queueReg f q 0x30) = (if r = 0x13 then s.reg (queueReg f q 0x30) else (s.reg (queueReg f q 0x30) + 1) % 2 ^ 32) ∧
          RegsBut [queueReg f q 0x24, queueReg f q 0x30, bar0 f 0xA230] s u ∧ (c.opcode ≠ 0x31 → u.reg (bar0 f 0xA230) = s.reg (bar0 f 0xA230)) ∧
          u.cp = s.cp)) ∧
    (s.fetched f q = [(id, c)] → c.dup = true → s.canWrite f q = true → (s.queue f q).held = [] →
      ∃ u, exec (.commandAccept f q) s = .next u ∧ u.cmd id = none ∧ u.mem = recorded s f q { type := 2, opcode := c.opcode, hseq := c.hseq } ∧
        OtherRegs (queueReg f q 0x24) s u ∧ u.cp = s.cp)

/-- R360, R395: a command is admitted by the row of its opcode, from the front of its queue, where its waits, its Calends, its gate, its
partition and the tick window allow it; else nothing changes. Refused, it completes DENIED with the reason; skipped, with status SKIPPED and
no effect; either way its record is written, its launch count the tick of the admission, 0 where the command was refused before it (the
model's reading, notes/assumptions/62). -/
def Obligations.CommandAdmission : Prop :=
  ∀ (s : State) (f q id op : Nat) (c : Cmd) (i : Instr),
    (commandRow op f q = some i → f < 256 → q < 64 →
      (s.halted = true ∨ (queueHeads [] s.cmds).find? (fun x => x.2.func == f && x.2.q == q) = none ∨
        ((queueHeads [] s.cmds).find? (fun x => x.2.func == f && x.2.q == q) = some (id, c) ∧
          (c.opcode ≠ op ∨ s.cp.admitLimit ≤ s.cp.admittedNow ∨ s.admissible id c = false))) →
      exec i s = .next s) ∧
    (Admits s f q id c i → s.canWrite f q = true → (s.queue f q).held = [] →
      (∀ r, c.skipped = false → s.admitBad c = some r →
        ∃ u, exec i s = .next u ∧ u.cmd id = none ∧ u.held = s.held ∧ (c.sigAlways = false → u.events = s.events) ∧
          u.mem = recorded s f q { type := 1, status := 0x11, opcode := c.opcode, hseq := c.hseq, tick := (if (s.loadBad c).isSome then 0 else s.tick)
                                   endTick := s.tick, detail := r % 256 }) ∧
      (c.skipped = true → c.fault = none → c.umber = none →
        ∃ u, exec i s = .next u ∧ u.cmd id = none ∧ u.held = s.held ∧
          u.mem = recorded s f q { type := 1, status := 0x02, opcode := c.opcode, hseq := c.hseq, tick := s.tick
                                   endTick := s.tick }))

/-- R356, R372, R395, R320, R355: an admitted EVENT sets its event or adds to it, and completes, as FENCE does, each signal adding 1, but to an
event that was SET in the same tick window; COMMIT_STEP with a clean verdict completes, with DIRTY it marks the next GATE_N commands
of GATE_Q to be skipped, those to come included; either way those that wait are admitted from the next tick on; WINDOW_OPEN
and WINDOW_CLOSE put the window's change before the next bank swap, or open and close a stream. -/
def Obligations.ShortCommands : Prop :=
  ∀ (s : State) (f q id : Nat) (c : Cmd) (i : Instr),
    Admits s f q id c i → c.skipped = false → s.admitBad c = none → c.fault = none →
    let pay := leNat c.payload
    let h := bitsOf pay 16 12
    let verdict := s.reg (bar0 f 0xA108)
    let changes (x : Nat × Nat × Option Window) : Prop :=
      ∃ u, exec i s = .next u ∧ SameData s u ∧ u.links = { s.links with winChanges := s.links.winChanges ++ [x] } ∧
        ∃ d, u.cmd id = some d ∧ d.admitted = some s.tick
    (c.opcode = 0x22 → ∃ u, exec i s = .next u ∧ u.cmd id = none ∧ u.held = s.held ∧
      ∀ e, kget 0 u.events e % 2 ^ 32 =
        ((if e = c.pay 4 2 then (if c.pay 0 1 = 1 then c.pay 8 4 else kget 0 s.events e + c.pay 8 4) else kget 0 s.events e)
          + if e ∈ s.cp.setNow ∨ c.pay 0 1 = 1 ∧ e = c.pay 4 2 then 0 else c.sigs.count e) % 2 ^ 32) ∧
    (c.opcode = 0x23 → ∃ u, exec i s = .next u ∧ u.cmd id = none ∧ u.held = s.held ∧
      ∀ e, kget 0 u.events e % 2 ^ 32 = (kget 0 s.events e + if e ∈ s.cp.setNow then 0 else c.sigs.count e) % 2 ^ 32) ∧
    (c.opcode = 0x19 → bitOf verdict 0 = true → s.reg (bar0 f 0xA104) = c.pay 0 4 →
      let l := (s.acceptedAfter f (c.pay 4 1 % 64) id).take (c.pay 6 2)
      (bitOf verdict 1 = false → ∃ u, exec i s = .next u ∧ u.cmd id = none ∧ u.held = s.held ∧ u.colls.gates = s.colls.gates ∧
        ∀ j, j ∈ l → j ∈ u.cp.heldNow) ∧
      (bitOf verdict 1 = true → ∃ u, exec i s = .next u ∧ u.cmd id = none ∧ u.held = s.held ∧ (∀ j, j ∈ l → j ∈ u.cp.heldNow) ∧
        (∀ j, j ∈ l → ∀ d, u.cmd j = some d → d.skipped = true) ∧
        u.colls.gates = if l.length < c.pay 6 2 then s.colls.gates ++ [(f, c.pay 4 1 % 64, c.pay 6 2 - l.length)]
          else s.colls.gates)) ∧
    (c.opcode = 0x20 → bitsOf pay 0 8 = 0 → ∀ w n, parseWindow f (bitsOf pay 64 256) = some w → s.freeWindow = some n →
      s.winCount f < s.winMax f → s.windowOk f w = true → changes (id, n, some w)) ∧
    (c.opcode = 0x20 → bitsOf pay 0 8 ≠ 0 → ∀ n, s.freeStream = some n →
      ∃ u, exec i s = .next u ∧ u.cmd id = none ∧ u.held = s.held ∧ u.stream n = some {
        func := f
        tclass := bitsOf pay 96 4
        dst := bitsOf pay 64 16
        dstWin := bitsOf pay 80 12
        dstSize := unitsOf (bitsOf pay 128 24) }) ∧
    (c.opcode = 0x21 → bitsOf pay 0 8 = 0 → ∀ w, s.win h = some w → w.func = f → changes (id, h, none)) ∧
    (c.opcode = 0x21 → bitsOf pay 0 8 ≠ 0 → ∀ x, s.stream h = some x → x.func = f → x.closing = none →
      ∃ u, exec i s = .next u ∧ u.held = s.held ∧
        (x.fault = false → (∃ m, m ∈ s.links.ring ∧ m.stream = h) → u.stream h = some { x with closing := some id }) ∧
        (x.fault = true ∨ (∀ m, m ∈ s.links.ring → m.stream ≠ h) → u.stream h = none ∧ u.cmd id = none))

/-- R360, R353, R73, R354, R378, R394, R420, R456: an admitted RUN_SPAN is the one its partition runs, its cores' CSTAT cleared (a filler's
leaves its host's running); a REPLAY is that too, and its checks wait; a COPY, a collective, a VOTE or a CHECKPOINT is under way; VOTE takes
STEP_ACC and clears it. Each then carries the tick of its admission. -/
def Obligations.LongCommands : Prop :=
  ∀ (s : State) (f q id p : Nat) (c : Cmd) (i : Instr),
    Admits s f q id c i → c.skipped = false → s.admitBad c = none → s.funcPart f = some p → id < 2 ^ 40 →
    let going (u : State) : Prop := ∃ d, u.cmd id = some d ∧ d.admitted = some s.tick
    (c.opcode = 0x01 → ∃ u, exec i s = .next u ∧ going u ∧ SameData s u ∧ (u.part p).run = (if s.fnFiller f then (s.part p).run else some id) ∧
      (s.fnFiller f = false → ∀ k, (s.part p).hasDie (dieOf k) = true → (u.core k).cstat = 0)) ∧
    (c.opcode = 0x31 → (c.rpCkpt = 0 ∨ s.manDataGood c = true) → ∃ u r, exec i s = .next u ∧ going u ∧ (u.part p).run = some id ∧
      kget none u.replays id = some r ∧ r.func = f ∧ r.part = p ∧ r.ranges = c.rpRanges ∧ r.checking = false ∧
      (∀ h, h ∈ u.held → h ∈ s.held) ∧ ∀ h, h ∈ s.held → h.committed = false → h ∈ u.held) ∧
    (c.opcode = 0x02 → ∃ u r, exec i s = .next u ∧ going u ∧ SameData s u ∧ kget none u.tiers.copies id = some r ∧ r.func = f ∧
      r.part = p ∧ r.cmd = id ∧ r.lastOrd = (s.part p).ord ∧
      (c.pay 0 1 = 1 → r.form = .linear c.copySrc c.copyDst c.copyLen ∧ r.async = true ∧ r.home = c.copyHome) ∧
      (c.pay 0 1 ≠ 1 → ∃ level block, r.form = .walk level block)) ∧
    (isColl c.opcode = true → ∃ u k, exec i s = .next u ∧ going u ∧ SameData s u ∧ kget none u.colls.run id = some k ∧ k.cmd = id ∧
      k.func = f ∧ k.part = p ∧ k.op = c.opcode ∧ k.ctag = c.pay 8 4 ∧ k.step = c.pay 0x0C 4 ∧ k.axes = c.coll.axes ∧
      u.colls.gates = s.colls.gates ∧
      (c.opcode = 0x18 → u.reg (bar0 f 0xA100) = 0)) ∧
    (c.opcode = 0x30 → ∃ u r, exec i s = .next u ∧ going u ∧ SameData s u ∧ kget none u.ckpts id = some r ∧ r.func = f ∧ r.part = p ∧
      r.manifestAddr = c.ckManifest ∧ r.failed = false ∧ r.endOrd = none)

/-! ### Images, copies and the pool -/

/-- R217, R218, R219, R225, R421: a span whose image checks leaves it finalised in its partition (a filler's among its fillers to load), with
the registers sampled; the first failing step's reason ends it DENIED; with none to finalise nothing changes. The load frame writes code and
descriptors and no other byte, and so does a filler's load. A line of a stream check enters the running CRC-32C; one that fails for the first
time is only noted for a later frame. -/
def Obligations.ImagesAndChecks : Prop :=
  ∀ (s : State) (p id : Nat) (c : Cmd) (rest : List (Nat × Cmd)) (r : Replay) (a n : Nat) (fr : Frame) (m : ImgHeld),
    p < 8 → s.halted = false → s.partStill p = false →
    let x := s.part p
    let b := s.tenantBytes c.func c.image c.imageSize
    let held := s.sampleImage c.func x c.image b
    let outside (k : Nat) : Prop :=
      (∀ vi i, vi < Img.cores m.bytes → i < 8 →
        let at_ := padWindow (Img.logical m.bytes m.orgRow m.orgCol vi) + 0x30000 + 0x400 * i
        k < at_ ∨ at_ + 0x400 ≤ k) ∧
      (∀ d, d ∈ x.dies → k < s.descBase m.func d m.bytes ∨ s.descBase m.func d m.bytes + Img.descBytes m.bytes ≤ k)
    let short : Prop := ∀ vi k, vi < Img.cores m.bytes → k < 8 → Img.holds m.bytes vi k = true →
      Img.codeLen m.bytes (Img.configIndex m.bytes vi k) ≤ 256
    (s.alm.armed = none →
      (s.unfinalised p = [] → exec (.finalisation p) s = .next s) ∧
      (s.unfinalised p = (id, c) :: rest → s.cmd id = some c → (s.fnFiller c.func = true ∨ s.finalWanted p = false) →
        s.spanBad c = none → s.evictedRange c.func c.image c.imageSize = false → Img.nat b 8 4 = c.imageSize →
        (∀ w, s.checkImage c.func x held = some w →
          ∃ u, exec (.finalisation p) s = .next u ∧ u.cmd id = none ∧ u.held = s.held ∧
            (u.part p).finalised = x.finalised ∧ (u.part p).fillerNext = x.fillerNext) ∧
        (s.checkImage c.func x held = none → c.first + c.frames ≤ Img.seqLen b →
          (Img.filler b = false → ∃ u, exec (.finalisation p) s = .next u ∧ u.part p = { x with finalised := some held } ∧
            SameData s u ∧ u.cmds = s.cmds ∧ u.regs = s.regs ∧ ∀ j, j ≠ p → u.part j = s.part j) ∧
          (Img.filler b = true → ∀ h, x.image = some h → ∃ u y, exec (.finalisation p) s = .next u ∧ SameData s u ∧
            u.cmds = s.cmds ∧ u.regs = s.regs ∧ y.bytes = b ∧ y.func = c.func ∧ y.coded = false ∧
            u.part p = { x with fillerNext := (x.fillerNext.filter fun o => o.func != c.func) ++ [y] })))) ∧
    (x.frame = some fr → fr.load = true → x.finalised = some m →
      ∃ u, exec (.loadFrame p) s = .next u ∧ u.part p = { x with loading := true } ∧ u.held = s.held ∧ u.regs = s.regs ∧
        u.cmds = s.cmds ∧ u.cores = s.cores ∧
        (short → ∀ k, outside k → Mem.read u.mem k = Mem.read s.mem k)) ∧
    (x.fillerNext.find? (fun o => !o.coded) = some m →
      ∃ u, exec (.fillerLoad p) s = .next u ∧ u.held = s.held ∧ u.regs = s.regs ∧ u.cmds = s.cmds ∧ u.cores = s.cores ∧
        u.part p = { x with fillerNext := x.fillerNext.map fun o => if o.func == m.func then { o with coded := true } else o } ∧
        (short → (∀ vi k, vi < Img.cores m.bytes → k < 8 → m.fillerIndex vi k < 8) →
          ∀ k, outside k → Mem.read u.mem k = Mem.read s.mem k)) ∧
    (kget none s.replays id = some r → s.asyncRuns r.part = true → r.checking = true → r.range = some (a, n) → r.retryAt = none →
      let crc := crcFeed (crcSel 0) (if r.off = 0 then 0xFFFFFFFF else r.crc) (s.tenantBytes r.func (a + r.off) 256)
      (∃ u, exec (.streamCheck id false) s = .next u ∧ kget none u.replays id = some { r with retryAt := some s.tick } ∧
        u = { s with replays := u.replays }) ∧
      (∃ u y, exec (.streamCheck id true) s = .next u ∧ SameData s u ∧ u.cmds = s.cmds ∧ kget none u.replays id = some y ∧
        y.endOrd = some (s.part r.part).ord ∧
        (r.off + 256 < n → y.off = r.off + 256 ∧ y.crc = crc ∧ y.crcs = r.crcs) ∧
        (n ≤ r.off + 256 → y.off = 0 ∧ y.crcs = r.crcs ++ [crc ^^^ 0xFFFFFFFF])))

/-- R281, R286, R431, R452, R277, R456: a line of a copy in the frame that runs is held there where its hold buffer has room, and waits else;
one of an asynchronous copy waits for the next frame, and is held then (where no room is its wait counts once); a failed line is retried in a
later frame, and failing again it is delivered marked; a Read of a flash copy delivers or retries its lines; a Write of a checkpoint puts its
bytes into flash, or has failed; with none left it ends, or waits once for room for its
manifest. Memory but for that Write is as before. -/
def Obligations.CopyLines : Prop :=
  ∀ (s : State) (id : Nat) (corr : Bool) (line : LineRead),
    (∀ r, s.copyRun id = some r → s.copyMoves r = true →
      let ord := (s.part r.part).ord
      let took (i : Instr) (y : CopyRun) : Prop := ∃ u, exec i s = .next u ∧ u.mem = s.mem ∧ u.held = s.held ∧ u.copyRun id = some y
      let wrote (i : Instr) (y : CopyRun) (cells : List (Nat × Byte)) (mark : Bool) (k : Nat) : Prop :=
        ∃ u, exec i s = .next u ∧ u.mem = s.mem ∧ u.held = (s.hold r.part ord r.home r.async mark (markBase k) cells).held ∧
          u.copyRun id = some y
      (r.fin = false → r.flash = false →
        let l := s.lineAt r r.pos false
        let y := { r with lastOrd := ord, waits := false, bad := r.bad ++ l.bad }
        took (.tierLineArrival id false corr) { s.nextPos r with
          retry := r.retry ++ [(r.pos, s.tick)]
          lastOrd := ord } ∧
        (r.async = true → took (.tierLineArrival id true corr) (s.nextPos { y with arrived := r.arrived ++ [⟨ord, l.cells, l.mark, false⟩] })) ∧
        (r.async = false → l.cells = [] → took (.tierLineArrival id true corr) (s.nextPos y)) ∧
        (r.async = false → ∀ k b rest, l.cells = (k, b) :: rest →
          (s.canHold r.home r.part ord (markBase k) false = true → wrote (.tierLineArrival id true corr) (s.nextPos y) l.cells l.mark k) ∧
          (s.canHold r.home r.part ord (markBase k) false = false → ∃ u, exec (.tierLineArrival id true corr) s = .next u ∧
            u = { s with tiers := u.tiers } ∧ u.copyRun id = some { r with waits := true }))) ∧
      (∀ q t rest, r.retry = (q, t) :: rest →
        let z := { r with retry := rest }
        let l := s.lineAt z q (line == .failed)
        let y := { z with lastOrd := ord, waits := false, bad := r.bad ++ l.bad }
        (s.tick ≤ t → exec (.lineRetry id line) s = .next s) ∧
        (t < s.tick → r.async = true → took (.lineRetry id line) { y with arrived := r.arrived ++ [⟨ord, l.cells, l.mark, false⟩] }) ∧
        (t < s.tick → r.async = false → l.cells = [] → took (.lineRetry id line) y) ∧
        (t < s.tick → r.async = false → ∀ k b more, l.cells = (k, b) :: more →
          (s.canHold r.home r.part ord (markBase k) false = true → wrote (.lineRetry id line) y l.cells l.mark k) ∧
          (s.canHold r.home r.part ord (markBase k) false = false → exec (.lineRetry id line) s = .next s))) ∧
      (kget none s.ckpts id = none →
        (∀ v rest k b more, r.arrived = v :: rest → v.cells = (k, b) :: more →
          let place := storeReg (s.sliceOf r.home k / 128) 8
          (ord ≤ v.ord → exec (.asyncCopyLine id) s = .next s) ∧
          (v.ord < ord → s.canHold r.home r.part ord (markBase k) r.async = true →
            wrote (.asyncCopyLine id) { r with arrived := rest, lastOrd := ord } v.cells v.mark k) ∧
          (v.ord < ord → s.canHold r.home r.part ord (markBase k) r.async = false →
            (v.waited = true → exec (.asyncCopyLine id) s = .next s) ∧
            (v.waited = false → ∃ u, exec (.asyncCopyLine id) s = .next u ∧ u.mem = s.mem ∧ u.held = s.held ∧
              u.copyRun id = some { r with arrived := { v with waited := true } :: rest } ∧
              u.regs = (s.count place 1).regs))) ∧
        (r.fin = false → r.flash = true → r.async = true →
          let grows (i : Instr) (more : CopyRun → Prop) : Prop := ∃ u y, exec i s = .next u ∧ u.mem = s.mem ∧ u.held = s.held ∧
            u.copyRun id = some y ∧ more y
          grows (.nvmeCompletion id true) (fun y => ∃ l, y.arrived = r.arrived ++ l ∧
            l.head? = some ⟨ord, (s.lineAt r r.pos false).cells, (s.lineAt r r.pos false).mark, false⟩) ∧
          grows (.nvmeCompletion id false) (fun y => y.arrived = r.arrived ∧ ∃ l, y.retry = r.retry ++ l ∧ l.head? = some (r.pos, s.tick)) ∧
          grows (.nvmeTimeout id) (fun y => ∃ l, y.arrived = r.arrived ++ l ∧
            l.head? = some ⟨ord, (s.lineAt r r.pos true).cells, (s.lineAt r r.pos true).mark, false⟩)))) ∧
    (∀ (r : Ckpt), kget none s.ckpts id = some r → s.asyncRuns r.part = true → r.endOrd = none →
      let ord := (s.part r.part).ord
      (∀ (a : Nat) (b : List Byte) (rest : List (Nat × List Byte)), r.blob = (a, b) :: rest →
        let failed (i : Instr) : Prop := ∃ u, exec i s = .next u ∧ u = { s with ckpts := u.ckpts } ∧ kget none u.ckpts id = some { r with
          failed := true
          blob := []
          endOrd := some ord }
        failed (.nvmeTimeout id) ∧ failed (.nvmeCompletion id false) ∧
        (∀ k e, s.flashAt r.func a = some k → s.flashAt r.func (a + (b.length - 1)) = some e →
          ∃ u, exec (.nvmeCompletion id true) s = .next u ∧ u.mem = Mem.writeBytes s.mem k b ∧
            (rest ≠ [] → kget none u.ckpts id = some { r with blob := rest } ∧ u.held = s.held ∧ u.regs = s.regs))) ∧
      (r.blob = [] → ∃ u y, exec (.asyncCopyLine id) s = .next u ∧ u.mem = s.mem ∧ kget none u.ckpts id = some y ∧
        (y = { r with endOrd := some ord } ∨ (y = { r with waited := true } ∧ u.held = s.held))))

/-- R288, R302, R291, R292: the pool operation that a function's registers name starts with MAP, MAP_PINNED, UNMAP, PIN or UNPIN as its row:
the request waits, POOL_RESULT shows BUSY; while one is BUSY another is ignored. REFILL brings an EVICTED page back into the lowest free
near page where a waiting command needs it, RESIDENT, its age as before, its bytes those of its backing page (zero where its line cannot be had),
and counts it; a page that none needs stays as it is. -/
def Obligations.PoolOperations : Prop :=
  ∀ (s : State) (f v : Nat),
    f < 256 → s.halted = false → s.vigil.frozen = false →
    let req := s.reg (bar0 f 0x9000)
    let n := s.reg (bar0 f 0x9008)
    (∀ op i, (op, i) ∈ [(0, Instr.map f), (1, .mapPinned f), (2, .unmap f), (3, .pin f), (4, .unpin f)] → bitsOf req 1 3 = op →
      (s.bit (bar0 f 0x9010) 0 = true → exec i s = .next s) ∧
      (s.bit (bar0 f 0x9010) 0 = false → 1 ≤ n → n ≤ 2 ^ 21 →
        ∃ u, exec i s = .next u ∧ u.reg (bar0 f 0x9010) = 1 ∧ OtherRegs (bar0 f 0x9010) s u ∧
          u = { s with regs := u.regs, tiers := u.tiers } ∧ u.tiers = { s.tiers with reqs := s.tiers.reqs ++ [{
            func := f
            far := bitOf req 0
            op := op
            vpage := s.reg (bar0 f 0x9004)
            count := n }] })) ∧
    (s.pageWanted f v = false → exec (.refill f v) s = .next s) ∧
    (∀ q, s.pageWanted f v = true → s.page f false v = some q → q.state = .evicted →
      let i := firstFree s.nearTaken (s.nearTaken.length + 1) 0
      let src := farKey + q.back * 2 ^ 21
      i < s.nearPages → i < 393216 →
      ∃ u, exec (.refill f v) s = .next u ∧ u.page f false v = some { q with
          state := .resident
          phys := i } ∧
        u.reg (tierReg 0x18) = (s.reg (tierReg 0x18) + 1) % 2 ^ 32 ∧ OtherRegs (tierReg 0x18) s u ∧
        (s.held = [] → Safety.MemoryKept s →
          (∀ o, o < 2 ^ 21 → Mem.read u.mem (i * 2 ^ 21 + o) =
            if (s.badLinesIn src (2 ^ 21)).contains ((src + o) / 256 * 256) then 0 else Mem.read s.mem (src + o)) ∧
          SameOutside s u (i * 2 ^ 21) (2 ^ 21)))

/-- R260, R261, R283, R289: a write of CACHE_BASE, CARVE, FN_SHARES or a quota that its rule allows takes effect in its register alone
(CACHE_BASE, not below a unit granted as written or as still in effect, also empties the die's cache), and one that it forbids changes nothing but its bit of TIER_ERR. -/
def Obligations.TierLimits : Prop :=
  ∀ (s : State) (f d kind v : Nat),
    f < 256 → d < 8 → kind < 3 → s.vigil.frozen = false →
    let sets (i : Instr) (a w : Nat) : Prop := ∃ u, exec i s = .next u ∧ RegsOnly s u ∧ u.reg a = w ∧ OtherRegs a s u
    let errs (i : Instr) (bit : Nat) : Prop :=
      ∃ u, exec i s = .next u ∧ RegsOnly s u ∧ u.bit (tierReg 0x24) bit = true ∧ OtherRegs (tierReg 0x24) s u
    let cb := v % 512
    let cv := v % 2 ^ 17
    let base := bitsOf cv 0 8
    let size := bitsOf cv 8 9
    let old := s.carveReg f d
    let sh := v % 2 ^ 12
    let q := v % 2 ^ (if kind = 2 then 22 else 20)
    let written (g : Nat) : Nat := if bitsOf (s.carveReg g d) 8 9 = 0 then 0 else bitsOf (s.carveReg g d) 0 8 + bitsOf (s.carveReg g d) 8 9
    let inEffect (g : Nat) : Nat := if (s.grant g d).2 = 0 then 0 else (s.grant g d).1 + (s.grant g d).2
    let top (g : Nat) : Nat := max (written g) (inEffect g)
    let meets (g : Nat) : Prop := base < bitsOf (s.carveReg g d) 0 8 + bitsOf (s.carveReg g d) 8 9 ∧ bitsOf (s.carveReg g d) 0 8 < base + size
    let others (k : Nat) : Nat := (List.range 256).foldl (fun a g => if g = f then a else a + s.shares g k) 0
    let used := if kind = 0 then s.nearUse f else if kind = 1 then s.pinUse f else s.farUse f
    let pins := (List.range 256).foldl (fun a g => if g = f then a else a + s.field (tierReg (0x1004 + 16 * g)) 0 20) q
    (cb ≤ 256 →
      (s.imageOn d = false → (∀ g, g < 256 → top g ≤ cb) →
        ∃ u, exec (.cacheBaseWrite d v) s = .next u ∧ u.reg (tierReg (0x40 + 4 * d)) = cb ∧ OtherRegs (tierReg (0x40 + 4 * d)) s u ∧
          u.mem = s.mem ∧ (∀ x, x ∈ u.tiers.caches → x.1 / 2 ^ 40 ≠ d) ∧
          (∀ x, x.1 / 2 ^ 40 ≠ d → (x ∈ u.tiers.caches ↔ x ∈ s.tiers.caches))) ∧
      ((s.imageOn d = true ∨ ∃ g, g < 256 ∧ cb < top g) → errs (.cacheBaseWrite d v) 0)) ∧
    (size ≤ 256 →
      ((size = 0 ∨ base + size ≤ s.cacheBase d ∧ ∀ g, g < 256 → g ≠ f → ¬ meets g) →
        (cv = old ∨ bitsOf old 8 9 = 0 ∨ s.holdsImage f = false ∧ s.hasAdmitted f = false) →
        sets (.carveWrite f d v) (tierReg (0x2000 + 32 * f + 4 * d)) cv) ∧
      ((size ≠ 0 ∧ (s.cacheBase d < base + size ∨ ∃ g, g < 256 ∧ g ≠ f ∧ meets g) ∨
          cv ≠ old ∧ bitsOf old 8 9 ≠ 0 ∧ (s.holdsImage f = true ∨ s.hasAdmitted f = true)) →
        errs (.carveWrite f d v) 1)) ∧
    ((∀ k, k < 3 → others k + bitsOf sh (4 * k) 4 ≤ 15) → (sh = s.field (tierReg (0x100C + 16 * f)) 0 12 ∨ s.hasAdmitted f = false) →
      sets (.sharesWrite f v) (tierReg (0x100C + 16 * f)) sh) ∧
    ((∃ k, k < 3 ∧ 15 < others k + bitsOf sh (4 * k) 4) ∨ (sh ≠ s.field (tierReg (0x100C + 16 * f)) 0 12 ∧ s.hasAdmitted f = true) →
      errs (.sharesWrite f v) 4) ∧
    (used ≤ q → (kind = 1 → pins ≤ s.nearPages) → sets (.quotaWrite f kind v) (tierReg (0x1000 + 16 * f + 4 * kind)) q) ∧
    ((q < used ∨ kind = 1 ∧ s.nearPages < pins) → errs (.quotaWrite f kind v) 2)

/-- R276, R279, R269, R447: FW_LBA_HI arms a window's settings for the next tick, unless an admitted command reads through it or another
owner's window meets its blocks; OFFLINE_REQ waits for the commands that use the bay, which then goes OFFLINE and not usable; a bay comes
up with the result of its checks; a pulled drive makes its bay unusable. The first failed stack under stripe parity retires, with a remap
record; a second one, or one without parity, is lost; the one already retired changes nothing. -/
def Obligations.WindowsBaysStacks : Prop :=
  ∀ (s : State) (n b v reason blocks stack : Nat),
    n < 16 → b < 4 → stack < 16 →
    let ctrl := s.reg (tierReg (0x100 + 16 * n))
    let lba := s.staged 0 (tierReg (0x104 + 16 * n)) + v % 2 ^ 16 * 2 ^ 32
    let bay := bayReg b
    let meets := bitOf ctrl 0 = true ∧ s.windowMeets n ctrl lba = true
    let readers := s.readsWindow (bitsOf ctrl 8 8) n = true ∨ ∃ y, s.windowNext n = some y ∧ s.readsWindow (bitsOf y.1 8 8) n = true
    (s.vigil.frozen = false →
      (¬ readers → ¬ meets → ∃ u, exec (.flashWindowArm n v) s = .next u ∧ u.windowNext n = some (ctrl, lba) ∧ u.tiers.fwOn = s.tiers.fwOn ∧
        u.reg (tierReg (0x108 + 16 * n)) = v % 2 ^ 16 ∧ RegsBut [tierReg (0x104 + 16 * n), tierReg (0x108 + 16 * n)] s u ∧
        u.mem = s.mem) ∧
      (readers ∨ meets → ∃ u k, exec (.flashWindowArm n v) s = .next u ∧ RegsOnly s u ∧ (k = 3 ∨ k = 5) ∧ u.bit (tierReg 0x24) k = true ∧
        OtherRegs (tierReg 0x24) s u) ∧
      (∃ u, exec (.offlineReq b) s = .next u ∧ RegsOnly s u ∧ u.bit bay 2 = true ∧ OtherRegs bay s u)) ∧
    (s.halted = false →
      (s.bit bay 2 = true → s.bit bay 3 = false → s.usesBay b = false → ∃ u, exec (.bayOffline b) s = .next u ∧ RegsOnly s u ∧
        u.bit bay 3 = true ∧ u.bit bay 1 = false ∧ RegsBut [bay, tierReg 0] s u) ∧
      (s.usesBay b = true → exec (.bayOffline b) s = .next s) ∧
      (s.bit bay 0 = true → s.bayUsable b = false → ∃ u, exec (.bayOnline b reason blocks) s = .next u ∧ u.bit bay 2 = false ∧
        u.bit bay 3 = false ∧ u.field bay 4 4 = reason % 16 ∧ u.bayUsable b = decide (reason % 16 = 0) ∧ RegsBut [bay, tierReg 0] s u ∧
        kget 0 u.tiers.blocks b = (if reason % 16 = 0 then blocks else 0) ∧ u.mem = s.mem) ∧
      (s.bit (tierReg 0) 1 = true → s.bit (tierReg 0) 2 = false → (kget [] s.remap.records (stack / 2)).length < 64 →
        ∃ u, exec (.stackRetire stack) s = .next u ∧ u.bit (tierReg 0) 2 = true ∧ u.field (tierReg 0) 3 4 = stack ∧
          kget [] u.remap.records (stack / 2) =
            kget [] s.remap.records (stack / 2) ++ [remapRecord s.tick 4 false (stack % 2) 0 stack false 0] ∧ u.mem = s.mem ∧ u.parts = s.parts) ∧
      (s.bit (tierReg 0) 1 = false ∨ s.bit (tierReg 0) 2 = true → ¬ (s.bit (tierReg 0) 2 = true ∧ s.field (tierReg 0) 3 4 = stack) →
        ∃ u, exec (.stackRetire stack) s = .next u ∧ stack ∈ u.tiers.lost) ∧
      (s.bit (tierReg 0) 2 = true → s.field (tierReg 0) 3 4 = stack → exec (.stackRetire stack) s = .next s)) ∧
    (∃ u, exec (.drivePull b true) s = .next u ∧ RegsOnly s u ∧ u.bit bay 0 = true ∧ OtherRegs bay s u) ∧
    (∃ u, exec (.drivePull b false) s = .next u ∧ RegsOnly s u ∧ u.bit bay 0 = false ∧ u.bayUsable b = false ∧ RegsBut [bay, tierReg 0] s u)

/-! ### Torus links and collectives -/

/-- R307–R312, R447, R448, R313, R306, R511, R316: a block that does not check is answered with a NAK block and counted, unless it is a
CONTROL block; what a good header acknowledges leaves the replay buffer; the DATA block expected next is taken, another is answered with NAK.
Replay sends every kept block again, then new ones; a block that sixteen replays have not brought over takes the port down: FAILED, counted,
a remap record queued, its link known failed, its replay buffer lost. A port request starts training, stops it or takes the port down; a
trained port comes into service where its delay and neighbour are right; LINK_STATE changes the known links and the shadow bank, but at its
source. -/
def Obligations.PortsAndBlocks : Prop :=
  ∀ (s : State) (p acked nb delay cause src axis coord : Nat) (up corr : Bool) (blk : List Byte),
    p < 8 → s.halted = false →
    let x := s.port p
    let hdr := leNat (blk.take 8)
    let st := s.portState p
    let link := (portAxis p, s.portLink p)
    let n := s.axisLen (portAxis p)
    let want := setCoord (portAxis p) s.address ((coordOf (portAxis p) s.address + (if p % 2 = 0 then 1 else n - 1)) % n)
    let good := blk.length = 528 ∧ crcFeed (crcSel 3) 0 (blk.take 520) = leNat (blk.drop 520)
    let corrReg := linkReg (0x44 + 16 * p)
    let nakReg := linkReg (0x48 + 16 * p)
    let received (ok : Bool) (naks : Nat) (P : Port → Prop) : Prop := ∃ u, exec (.linkBlockReceive p ok corr blk) s = .next u ∧
      u.reg corrReg = (s.reg corrReg + natOf corr) % 2 ^ 32 ∧ u.reg nakReg = (s.reg nakReg + naks) % 2 ^ 32 ∧
      RegsBut [corrReg, nakReg] s u ∧ SameData s u ∧ P (u.port p) ∧ ∀ r, r ≠ p → u.port r = s.port r
    let seen (y : Port) : Prop := x.queue = [] → y.replay = dropAcked (bitsOf hdr 14 12) x.replay
    let records (u : State) : List Nat := kget [] u.remap.records (portDie p)
    let goesDown (u : State) : Prop := u.portState p = 4 ∧ u.reg (linkReg (0x4C + 16 * p)) = (s.reg (linkReg (0x4C + 16 * p)) + 1) % 2 ^ 32 ∧
      link ∈ u.links.failed ∧ (u.port p).replay = [] ∧ u.links.shadowReady = true ∧ SameData s u ∧
      ((records s).length < 64 → records u = records s ++ [remapRecord s.tick 3 false 0 0 p false 0])
    (st = 2 →
      (bitsOf hdr 0 2 ≠ 1 → received false 1 fun y => y = x.send 2 0 0 true []) ∧
      (bitsOf hdr 0 2 = 1 → received false 0 fun y => y = x) ∧
      (good → bitOf hdr 26 = false →
        (bitsOf hdr 0 2 ≠ 0 → received true 0 fun y => y.rxLast = x.rxLast ∧ y.rx = x.rx ∧ seen y) ∧
        (bitsOf hdr 0 2 = 0 → bitsOf hdr 2 12 = (x.rxLast + 1) % 4096 → received true 0 fun y => y.rxLast = bitsOf hdr 2 12 ∧
          kget [] y.rx (bitsOf hdr 27 2) = kget [] x.rx (bitsOf hdr 27 2) ++ [(blk.drop 8).take 512] ∧ seen y) ∧
        (bitsOf hdr 0 2 = 0 → bitsOf hdr 2 12 ≠ (x.rxLast + 1) % 4096 → received true 1 fun y => y.rxLast = x.rxLast ∧ y.rx = x.rx ∧
          seen y)) ∧
      (x.spentReplays acked = false → ∃ u, exec (.linkReplay p acked) s = .next u ∧
        u.port p = (x.replayFrom acked).pump s.shareList (2 * x.queue.length) ∧
        u.regs = s.regs ∧ SameData s u ∧ ∀ r, r ≠ p → u.port r = s.port r) ∧
      (x.spentReplays acked = true → ∃ u, exec (.linkReplay p acked) s = .next u ∧ goesDown u) ∧
      (∃ u, exec (.portFail p cause) s = .next u ∧ goesDown u)) ∧
    (s.vigil.frozen = false →
      (s.portFitted p = true → st ≠ 1 → st ≠ 2 → ∃ u, exec (.portUpRequest p true) s = .next u ∧ RegsOnly s u ∧ u.portState p = 1 ∧
        u.bit (linkReg 8) p = true ∧ RegsBut [linkReg 8, linkReg (0x40 + 16 * p)] s u) ∧
      (∃ u, exec (.portUpRequest p false) s = .next u ∧ u.bit (linkReg 8) p = false ∧ (st = 1 → u.portState p = 0) ∧
        (st = 2 → goesDown u))) ∧
    (st = 1 → nb < 65536 →
      (2880 < delay → ∃ u, exec (.portUp p nb delay) s = .next u ∧ RegsOnly s u ∧ u.portState p = 4 ∧ u.bit (linkReg 0x0C) 2 = true) ∧
      (delay ≤ 2880 → nb ≠ want → ∃ u, exec (.portUp p nb delay) s = .next u ∧ RegsOnly s u ∧ u.portState p = 3 ∧
        u.bit (linkReg 0x0C) 1 = true) ∧
      (delay ≤ 2880 → nb = want → ∃ u, exec (.portUp p nb delay) s = .next u ∧ u.portState p = 2 ∧ link ∉ u.links.failed ∧
        u.field (linkReg (0x40 + 16 * p)) 16 16 = nb ∧ u.reg (almReg (0x20 + 4 * p)) = delay ∧ (u.port p).rxLast = 4095 ∧ SameData s u)) ∧
    (s.bit (linkReg 8) p = true → st ≠ 2 → s.portFitted p = true → ∃ u, exec (.portTrainingRepeat p) s = .next u ∧ RegsOnly s u ∧
      u.portState p = 1 ∧ OtherRegs (linkReg (0x40 + 16 * p)) s u) ∧
    (st = 2 → portAxis p = axis →
      (src = s.address → ∃ u, exec (.linkState p src ⟨axis, coord⟩ up) s = .next u ∧
        u = { s with links := { s.links with ports := u.links.ports } }) ∧
      (src ≠ s.address → ∃ u, exec (.linkState p src ⟨axis, coord⟩ up) s = .next u ∧
        ((axis, coord) ∈ u.links.failed ↔ up = false) ∧ u.links.shadowReady = true ∧ u.links.routes = s.links.routes ∧ SameData s u))

/-- R328, R321, R262, R320, R314, R317, R92: a WRITE message that its window admits and that follows the last one of its stream, or begins
its stream's record, counts, increments the window's accepted count and moves its record; in a store its bytes land, and no other, and the
counter of its core increments; in a pad it waits, unit by unit, for its core's store port. One before the record's point, or out of order,
lands nothing; one for no window, or refused by it, is counted; a parked window's lands nothing. A message for another coordinate leaves in its
direction; one that finds the link down there, once turned or an answer, is lost. An accepted message not acknowledged in 2 µs is. -/
def Obligations.WritesReceived : Prop :=
  ∀ (s : State) (p i j src stream : Nat) (hdr : BitVec 256) (payload : List Byte) (w : Window) (r : Isr),
    p < 8 → s.halted = false →
    let h := parseHdr hdr
    let f : Int := h.sframe
    let a := w.base + 32 * h.offset
    let n := 32 * (h.lenM1 + 1)
    let bytes := leBytes 32 hdr.toNat ++ payload
    let inside := h.offset + h.lenM1 + 1 ≤ unitsOf w.size ∧ (w.store = true → s.ownsStore w.func a n = true)
    let keeps (count : Option Nat) : Prop := ∃ u, exec (.writeMessageReceive p hdr payload) s = .next u ∧ SameData s u ∧
      u.links.windows = s.links.windows ∧ u.links.isrs = s.links.isrs ∧ u.cores = s.cores ∧
      ∀ c, count = some c → u.reg c = (s.reg c + 1) % 2 ^ 32
    let lands (k un : Nat) (o : Isr) : Prop := ∃ u, exec (.writeMessageReceive p hdr payload) s = .next u ∧ u.held = s.held ∧
      u.win h.win = some { w with accepted := (w.accepted + 1) % 2 ^ 32 } ∧ (∀ c, c ≠ w.notifyCore → u.core c = s.core c) ∧
      (w.store = true → (∀ o, o < n → Mem.read u.mem (a + o) = payload.getD o 0) ∧ SameOutside s u a n ∧
        (u.core w.notifyCore).ctr w.ctr = (s.core w.notifyCore).ctr w.ctr + 1) ∧
      (w.store = false → u.mem = s.mem ∧ u.core w.notifyCore = { s.core w.notifyCore with
        ext := (s.core w.notifyCore).ext ++ (List.range (h.lenM1 + 1)).map fun m =>
          ExtReq.window (a + 32 * m) ((payload.drop (32 * m)).take 32) h.umber (if m == h.lenM1 then some w.ctr else none) }) ∧
      kget none u.links.isrs k = some { o with
        lf := f
        ns := h.seq + 1
        closed := h.last
        unacked := if h.last = true ∨ 64 ≤ un then 0 else un }
    let later := f = r.lf ∧ h.seq = r.ns ∧ r.closed = false ∨ r.lf < f ∧ h.seq = 0 ∧ r.closed = true
    let earlier := f < r.lf ∨ f = r.lf ∧ (r.closed = true ∨ h.seq < r.ns)
    let ax := portAxis p
    let q := axisPort ax (dirsBit hdr.toNat ax)
    let y := s.passOn p bytes
    (s.portState p = 2 → h.dst = s.address → h.kind = 0 →
      (s.win h.win = none → keeps (some (linkReg 0x24))) ∧
      (s.win h.win = some w → w.parked = true → keeps none) ∧
      (s.win h.win = some w → w.parked = false →
        (w.admits h.src h.func = false ∨ ¬ inside → keeps (some (linkReg 0x24))) ∧
        (w.admits h.src h.func = true → inside →
          (s.isrOf h.src h.stream = some (i, r) →
            (earlier → keeps (some (linkReg 0x20))) ∧
            (later → payload.length = n → lands i (r.unacked + 1) r) ∧
            (¬ earlier → ¬ later → keeps none)) ∧
          (s.isrOf h.src h.stream = none →
            (h.first = false ∨ s.freeIsr = none → keeps none) ∧
            (h.first = true → h.seq = 0 → s.freeIsr = some j → payload.length = n → lands j 1 {
              src := h.src
              stream := h.stream
              win := h.win }))))) ∧
    (s.portState p = 2 → coordOf ax h.dst ≠ coordOf ax s.address →
      (s.portState q = 2 → ∃ u, exec (.messageForward p hdr payload) s = .next u ∧ SameData s u ∧ u.regs = s.regs ∧
        u.links = { s.links with ports := u.links.ports } ∧ (∀ k, k ≠ q → u.port k = y.1.port k) ∧
        let m : PortMsg := {
          vc := s.channel hdr.toNat ax (dirsBit hdr.toNat ax) y.2
          cls := h.tclass
          fwd := true
          bytes := bytes }
        let x := { y.1.port q with queue := (y.1.port q).queue ++ [m] }
        u.port q = x.pump s.shareList (2 * x.queue.length)) ∧
      (s.portState q ≠ 2 → 1 < h.kind → exec (.messageForward p hdr payload) s = .next y.1) ∧
      (s.portState q ≠ 2 → h.kind ≤ 1 → bitOf hdr.toNat 174 = true →
        exec (.messageForward p hdr payload) s = .next (y.1.count (linkReg 0x28) 1))) ∧
    (s.isrOf src stream = some (i, r) → 0 < r.unacked → ∃ u, exec (.ackTimer src stream) s = .next u ∧ SameData s u ∧
      kget none u.links.isrs i = some { r with unacked := 0 })

/-- R327–R330, R332: for a message of a stream of this module: ACK acknowledges what it covers, progress that ends the count of rounds and a
pause; RETIRE frees it, one that brings nothing new freeing nothing; REWIND has the rest sent again; NAK faults the stream, pauses it, or
acknowledges and has the rest resent. The resend timeout has what is not acknowledged sent again, and after eight rounds in a row faults the
stream; a paused stream repeats outside that count; MESSAGE_TRANSMIT sends the next released message once, from cycle 16 of a frame and in
the stream's turn among those of its die and class, or faults a stream whose destination is unreachable. -/
def Obligations.StreamAnswers : Prop :=
  ∀ (s : State) (hdr : BitVec 256) (x : Stream) (m : HeldMsg) (g : Nat),
    s.halted = false →
    let h := parseHdr hdr
    let unsent (k : Nat) (l : List HeldMsg) : List HeldMsg := l.map fun m => if m.stream == k && !m.acked then { m with sent := false } else m
    let acked := s.links.ring.map fun m => if m.stream == h.stream && m.before h.sframe h.seq then { m with acked := true, sent := true } else m
    let after := if acked = s.links.ring then x else { x with
      rounds := 0
      paused := false }
    let again (x : Stream) : Stream := { x with
      rounds := x.rounds + 1
      resends := (x.resends + 1) % 2 ^ 32 }
    let goes (i : Instr) (k : Nat) (l : List HeldMsg) (y : Stream) : Prop :=
      ∃ u, exec i s = .next u ∧ SameData s u ∧ u.stream k = some y ∧ u.links.ring = l ∧ ∀ j, j ≠ k → u.stream j = s.stream j
    let ring := s.links.ring
    (s.mine hdr 2 = some x → goes (.ack hdr) h.stream acked after) ∧
    (s.mine hdr 3 = some x →
      (x.retSframe < h.sframe ∨ x.retSframe = h.sframe ∧ x.retSeq < h.seq → goes (.retire hdr) h.stream
        (ring.filter fun m => !(m.stream == h.stream && m.before h.sframe h.seq))
        { x with
          retSframe := h.sframe
          retSeq := h.seq
          rounds := 0 }) ∧
      (h.sframe < x.retSframe ∨ h.sframe = x.retSframe ∧ h.seq ≤ x.retSeq → ∃ u, exec (.retire hdr) s = .next u ∧
        u = { s with links := { s.links with ports := u.links.ports } })) ∧
    (s.mine hdr 5 = some x → goes (.rewind hdr) h.stream
      (ring.map fun m => if m.stream == h.stream && m.seq.isSome && !m.before h.sframe h.seq then
        { m with sent := false, acked := false } else m) x) ∧
    (s.mine hdr 4 = some x → x.fault = false →
      (h.nak = 1 → after.rounds < 8 → goes (.nak hdr) h.stream (unsent h.stream acked) (again after)) ∧
      (2 ≤ h.nak → h.nak ≤ 4 → goes (.nak hdr) h.stream ring { x with fault := true }) ∧
      (h.nak = 5 → goes (.nak hdr) h.stream ring { x with paused := true }) ∧
      (h.nak = 6 → x.rounds < 8 → goes (.nak hdr) h.stream (unsent h.stream ring) (again x))) ∧
    (g < 4096 → s.stream g = some x → x.fault = false →
      (x.paused = false → (∃ m, m ∈ ring ∧ m.stream = g ∧ m.sent = true ∧ m.acked = false) →
        (x.rounds < 8 → goes (.resendTimeout g) g (unsent g ring) (again x)) ∧
        (8 ≤ x.rounds → goes (.resendTimeout g) g ring { x with fault := true })) ∧
      (x.paused = true → goes (.parkedRepeat g) g (unsent g ring) x) ∧
      (s.nextMsg g = some m →
        let turn := s.nextSender (dieOf m.core) x.tclass
        (s.subtick < 16 → exec (.messageTransmit g) s = .next s) ∧
        (16 ≤ s.subtick → s.reachable x.dst = false → goes (.messageTransmit g) g ring { x with fault := true }) ∧
        (16 ≤ s.subtick → s.reachable x.dst = true → turn ≠ some g → exec (.messageTransmit g) s = .next s) ∧
        (16 ≤ s.subtick → s.reachable x.dst = true → turn = some g →
          goes (.messageTransmit g) g (ring.map fun y => if y == m then { y with sent := true } else y) x)))

/-- R384–R387, R393, R374, R396, R398, R404: a COLL message of no running collective is answered NOTREADY and counted; one of a partition that
is stopped or in recovery, of no edge, or out of order, changes no collective; the line its edge expects is taken, a line before it is only
counted, one of another payload digest faults the collective's command, which ends at the next tick. Refused lines go out again, also of a
collective that has completed here; a timed-out collective's command faults, unless its last landing has taken place; output lands as held
writes, and with the last of it the collective is done in the frame that runs, a VOTE and a BROADCAST's root with nothing to land. -/
def Obligations.CollectiveLines : Prop :=
  ∀ (s : State) (p id : Nat) (hdr : BitVec 256) (payload : List Byte) (c : Coll),
    p < 8 → s.halted = false →
    let m := parseColl hdr payload
    let edge := edgeKey m.src m.hdr.phase (natOf m.hdr.madder) m.hdr.level
    let e := kget 0 c.expected edge
    let x := s.part c.part
    let still := x.stopped = true ∨ x.recov.isSome = true
    let keeps (count : Option Nat) : Prop := ∃ u, exec (.collMessageReceive p hdr payload) s = .next u ∧ SameData s u ∧ u.colls = s.colls ∧
      u.cmds = s.cmds ∧ ∀ a, count = some a → u.reg a = (s.reg a + 1) % 2 ^ 32
    let faults (i : Instr) (bit reason : Nat) : Prop := ∃ u, exec i s = .next u ∧ SameData s u ∧ u.coll id = none ∧
      u.bit (collReg 0x14) bit = true ∧ ∀ d, s.cmd id = some d → u.cmd id = some { d with
        fault := some (d.fault.getD {
          reason := reason
          source := 4 })
        ends := true }
    (s.portState p = 2 → m.dst = s.address → bitsOf hdr.toNat 32 4 = 1 →
      (s.collOf m.func m.hdr.ctag = none → keeps (some (collReg 0x0C))) ∧
      (s.collOf m.func m.hdr.ctag = some (id, c) →
        (still → keeps none) ∧
        (¬ still → m.hdr.pdig ≠ c.pdig → faults (.collMessageReceive p hdr payload) 1 0x27) ∧
        (¬ still → m.hdr.pdig = c.pdig → s.incoming c m = none → keeps none) ∧
        (¬ still → m.hdr.pdig = c.pdig → ∀ n, s.incoming c m = some n →
          (m.hdr.line < e → keeps (some (collReg 0x08))) ∧
          (e ≤ m.hdr.line → (e < m.hdr.line ∨ n ≤ e) → keeps none) ∧
          (m.hdr.line = e → e < n → ∃ u d, exec (.collMessageReceive p hdr payload) s = .next u ∧ SameData s u ∧ u.coll id = some d ∧
            d.got = c.got ++ [(edge * 2 ^ 32 + e, (payload.take c.lineLen, m.umber))] ∧ kget 0 d.expected edge = e + 1 ∧
            d.cmd = c.cmd ∧ d.landed = c.landed ∧ (s.lands c = true → d.done = c.done))))) ∧
    (s.coll id = some c → ∃ u, exec (.collNotreadyRepeat id) s = .next u ∧ SameData s u ∧ u.cmds = s.cmds ∧
      u.coll id = some { c with refused := [] }) ∧
    (s.coll id = none → kget none s.colls.past id = some c → ∃ u, exec (.collNotreadyRepeat id) s = .next u ∧ SameData s u ∧
      u.cmds = s.cmds ∧ u.coll id = none ∧ kget none u.colls.past id = if c.sent = [] then none else some { c with refused := [] }) ∧
    (s.coll id = some c →
      (c.done = false → x.stopped = false → faults (.collTimeout id) 0 0x28) ∧
      (c.done = true ∨ x.stopped = true → exec (.collTimeout id) s = .next s)) ∧
    (s.coll id = some c → c.done = false → ¬ still → s.cp.powerDown = false →
      (s.lands c = true → c.op ≠ opPM → c.turn < c.turns → exec (.collLanding id) s = .next s) ∧
      (s.lands c = true → (c.op = opPM ∨ c.turns ≤ c.turn) → ∃ u d, exec (.collLanding id) s = .next u ∧ u.mem = s.mem ∧
        u.coll id = some d ∧ c.landed ≤ d.landed ∧ d.data = c.data ∧ d.turn = c.turn ∧
        (d.done = true ↔ c.turns ≤ c.turn ∧ s.outputLines c ≤ d.landed) ∧ (d.done = true → d.lastOrd = some x.ord)) ∧
      (s.lands c = false → c.turns ≤ c.turn → (c.op = opVT ∨ c.sent = []) → ∃ u, exec (.collLanding id) s = .next u ∧ SameData s u ∧
        u.coll id = some { c with done := true, lastOrd := some x.ord }) ∧
      (s.lands c = false → (c.turn < c.turns ∨ c.op ≠ opVT ∧ c.sent ≠ []) → exec (.collLanding id) s = .next s))

/-! ### Faults, recovery and remap -/

/-- R444, R445, R426, R446, R459: a core that the watchdog finds stuck, or whose logic fails, has its site replaced at the next tick, as a
substitution asks, by software too: the site joins those retired, the shadow bank is marked, a record waits for the tick, and where it served
a core every partition on the die that runs is in recovery. On a full row the row shows EXHAUSTED instead, with a record, and the table
stands. A track is retired in the same way, a spare not in use too; a failed slice's rebuild begins where parity covers it. An uncorrectable
pad word is counted, and recovers the partition whose span runs on the core, or marks its unit. A corrected error is only counted. -/
def Obligations.SitesReplaced : Prop :=
  ∀ (s : State) (c d h r col i l k p : Nat) (store scrub dir east soft : Bool),
    s.halted = false → d < 8 → h < 2 → r < 64 →
    let places (u : State) (kind half row index : Nat) (dir soft : Bool) (spare : Nat) : Prop := u.bit (remapReg d 0) 1 = true ∧
      u.remap.due = s.remap.due ++ [(d, remapRecord 0 kind soft half row index dir spare)]
    let recovers (u : State) : Prop := ∀ p, p < 8 → (s.part p).hasDie d = true → (s.part p).stopped = false → (u.part p).recov.isSome = true
    let serves := (s.logicalAt d h r col).isSome
    let replaced (soft : Bool) (i : Instr) : Prop := ∃ u, exec i s = .next u ∧ u.retiredNext d h r = s.retiredNext d h r ++ [col] ∧
      u.remap.sites = s.remap.sites ∧ places u 0 h r col false soft (if serves then (s.spareSite d h r col).getD 0 else 0) ∧
      (serves = true → recovers u)
    let exhausted (i : Instr) : Prop := ∃ u, exec i s = .next u ∧ u.bit (rowReg d h r) 4 = true ∧ u.remap.sites = s.remap.sites ∧
      u.remap.nextSites = s.remap.nextSites ∧ ((kget [] s.remap.records d).length < 64 →
        kget [] u.remap.records d = kget [] s.remap.records d ++ [remapRecord s.tick 5 false h r 0 false 0])
    let tracks := s.tracksNext d r dir
    let corrected := storeReg d 0x0C
    let scrubbed := scrubReg d 4
    (col < 50 → (s.retiredNext d h r).contains col = false →
      (s.rowFull d h r = false →
        replaced soft (.remapSubstitution d 0 h r col dir soft) ∧
        (s.isCore c = true → c / 6144 = d → c / 3072 % 2 = h → c / 48 % 64 = r → s.physOf c = col →
          replaced false (.watchdogExpiry c) ∧ (c < 49152 → replaced false (.faultDetection (.coreLogic c))))) ∧
      (s.rowFull d h r = true →
        exhausted (.remapSubstitution d 0 h r col dir false) ∧ exec (.remapSubstitution d 0 h r col dir true) s = .next s)) ∧
    (s.rowFull d h r = true → exhausted (.rowExhausted d h r)) ∧
    (i < 528 → tracks.contains i = false →
      let spare := if trackServes tracks i then (nextSpare tracks).getD 0 else 0
      let retired (soft : Bool) (j : Instr) : Prop := ∃ u, exec j s = .next u ∧ u.tracksNext d r dir = tracks ++ [i] ∧
        u.remap.tracks = s.remap.tracks ∧ places u 1 0 r i dir soft spare ∧ (trackServes tracks i = true → recovers u)
      (trackServes tracks i = false ∨ nextSpare tracks ≠ none →
        retired false (.remapSubstitution d 1 h r i dir false) ∧ (east = !dir → retired false (.faultDetection (.seamTrack d r i east)))) ∧
      (i < 512 → nextSpare tracks ≠ none → retired true (.remapSubstitution d 1 h r i dir true))) ∧
    (l < 64 → s.sliceParity d h = true → s.spareServes d h ≠ some l → kget none s.remap.failedSlice (2 * d + h) = none →
      let rebuilds (soft : Bool) (j : Instr) : Prop := ∃ u, exec j s = .next u ∧ kget none u.remap.failedSlice (2 * d + h) = some l ∧
        u.remap.software = soft ∧ u.field (storeReg d 0) 3 7 = l ∧ u.bit (storeReg d 0) 2 = true ∧ u.bit (remapReg d 0) 0 = true ∧
        u.remap.slices = s.remap.slices
      rebuilds soft (.remapSubstitution d 2 h r l dir soft) ∧ rebuilds false (.faultDetection (.storeSlice d h l))) ∧
    (isPadKey k = true → dieOf ((k - padKey) / 0x40000) = d →
      let a := scrubReg d 8
      (s.runningOn ((k - padKey) / 0x40000) = none → ∃ u, exec (.faultDetection (.padWord k)) s = .next u ∧ SameData s u ∧
        u.reg a = (s.reg a + 1) % 2 ^ 32 ∧ OtherRegs a s u ∧ kget false u.marks (markBase k) = true ∧
        ∀ j, j ≠ markBase k → kget false u.marks j = kget false s.marks j) ∧
      (s.runningOn ((k - padKey) / 0x40000) = some p → (s.part p).valid = true → (s.part p).stopped = false →
        ∃ u, exec (.faultDetection (.padWord k)) s = .next u ∧ u.reg a = (s.reg a + 1) % 2 ^ 32 ∧ (u.part p).recov.isSome = true)) ∧
    (∃ u, exec (.faultDetection (.correctable d store scrub)) s = .next u ∧ RegsOnly s u ∧
      u.reg corrected = (s.reg corrected + natOf store) % 2 ^ 32 ∧ u.reg scrubbed = (s.reg scrubbed + natOf (scrub || !store)) % 2 ^ 32 ∧
      RegsBut [corrected, scrubbed] s u) ∧
    (∃ u, exec (.faultDetection .tierCorrected) s = .next u ∧ RegsOnly s u ∧
      u.reg (tierReg 0x1C) = (s.reg (tierReg 0x1C) + 1) % 2 ^ 32 ∧ OtherRegs (tierReg 0x1C) s u)

/-- R446, R37, R426, R462, R35, R492, R450: a slice rebuild takes the half's parity out of service, and at the next tick gives the failed
slice's number to the spare; a bad line is rebuilt and counted, or without parity marked, and the fourth of a slice within a frame begins the
slice's rebuild. REMAP_GO answers what its target allows, BUSY, INVALID, no spare, or done. The oldest remap record goes, to the MC's history
when the MC takes it, which it does not while it restarts. One copy of SCRUB_CTRL, or of the walk pointer, that differs from the other two
is corrected and counted. -/
def Obligations.RemapRegisters : Prop :=
  ∀ (s : State) (d half base copy bad v r : Nat) (rest : List Nat),
    d < 8 → half < 2 → copy < 3 →
    let l := kget [] s.remap.records d
    let tgt := s.reg (remapReg d 8)
    let kind := bitsOf (s.reg (remapReg d 4)) 1 3
    let h := bitsOf tgt 0 1
    let row := bitsOf tgt 1 6
    let index := bitsOf tgt 7 10
    let dir := bitOf tgt 17
    let o := (base - storeKey) / 0x20000000
    let sl := s.sliceOf 0 base
    let bh := sl % 128 / 64
    let bads := kget 0 s.remap.badLines sl + 1
    let votes := scrubReg d 0x0C
    (s.halted = false →
      (∀ n, kget none s.remap.failedSlice (2 * d + half) = some n → ∃ u, exec (.sliceRebuild d half) s = .next u ∧
        kget none u.remap.nextSlices (2 * d + half) = some n ∧ u.remap.slices = s.remap.slices ∧
        kget none u.remap.failedSlice (2 * d + half) = none ∧
        u.remap.due = s.remap.due ++ [(d, remapRecord 0 2 s.remap.software half 0 n false 64)] ∧
        u.bit (storeReg d 0) half = false ∧ u.bit (remapReg d 0) 0 = false ∧ u.bit (remapReg d 0) 1 = true ∧ SameData s u ∧
        u.marks = s.marks ∧ RegsBut [storeReg d 0, remapReg d 0] s u) ∧
      (storeKey ≤ base → o < 8 → bads ≠ 4 →
        (s.sliceParity o bh = true → ∃ u, exec (.lineParityRebuild base) s = .next u ∧ SameData s u ∧ u.marks = s.marks ∧
          u.reg (storeReg o 0x10) = (s.reg (storeReg o 0x10) + 1) % 2 ^ 32 ∧ OtherRegs (storeReg o 0x10) s u ∧
          kget 0 u.remap.badLines sl = bads) ∧
        (s.sliceParity o bh = false → ∃ u, exec (.lineParityRebuild base) s = .next u ∧ SameData s u ∧
          kget false u.marks (base / 256 * 256) = true ∧ (∀ k, k ≠ base / 256 * 256 → kget false u.marks k = kget false s.marks k) ∧
          OtherRegs (storeReg o 0x14) s u ∧ kget 0 u.remap.badLines sl = bads)) ∧
      (storeKey ≤ base → o < 8 → bads = 4 → s.sliceParity o bh = true → s.spareServes o bh = none →
        kget none s.remap.failedSlice (2 * o + bh) = none → ∃ u, exec (.lineParityRebuild base) s = .next u ∧
        kget none u.remap.failedSlice (2 * o + bh) = some (sl % 64) ∧ u.bit (storeReg o 0) 2 = true) ∧
      (s.scrubCopies d = (v, v, v) → bad ≠ v → ∃ u, exec (.scrubVoteCorrect d (.control copy) bad) s = .next u ∧ u.scrubCopies d = (v, v, v) ∧
        u.reg (scrubReg d 0) = v % 2 ^ 32 ∧ u.reg votes = (s.reg votes + 1) % 2 ^ 32 ∧ RegsBut [scrubReg d 0, votes] s u ∧ SameData s u) ∧
      (kget (0, 0, 0) s.remap.scrubPtr d = (v, v, v) → bad ≠ v → ∃ u, exec (.scrubVoteCorrect d (.pointer copy) bad) s = .next u ∧
        kget (0, 0, 0) u.remap.scrubPtr d = (v, v, v) ∧ u.reg votes = (s.reg votes + 1) % 2 ^ 32 ∧ OtherRegs votes s u ∧ SameData s u)) ∧
    (s.vigil.frozen = false →
      (s.bit (remapReg d 0) 0 = true → ∃ u, exec (.remapGo d) s = .next u ∧ RegsOnly s u ∧ u.field (remapReg d 0x0C) 1 3 = 2 ∧
        OtherRegs (remapReg d 0x0C) s u) ∧
      (s.bit (remapReg d 0) 0 = false → kind < 3 →
        (s.remapInvalid d kind h row index dir = true → ∃ u, exec (.remapGo d) s = .next u ∧ RegsOnly s u ∧ u.reg (remapReg d 0x0C) = 7) ∧
        (s.remapInvalid d kind h row index dir = false → s.noSpare d kind h row dir = true →
          ∃ u, exec (.remapGo d) s = .next u ∧ RegsOnly s u ∧ u.reg (remapReg d 0x0C) = 3) ∧
        (s.remapInvalid d kind h row index dir = false → s.noSpare d kind h row dir = false →
          ∃ u, exec (.remapGo d) s = .next u ∧ u.reg (remapReg d 0x0C) = 1 ∧
            (kind = 0 → u.retiredNext d h row = s.retiredNext d h row ++ [index]) ∧
            (kind = 1 → u.tracksNext d row dir = s.tracksNext d row dir ++ [index]) ∧
            (kind = 2 → kget none s.remap.failedSlice (2 * d + h) = none →
              kget none u.remap.failedSlice (2 * d + h) = some index ∧ u.bit (remapReg d 0) 0 = true))) ∧
      (∃ u, exec (.remapRecPop d) s = .next u ∧ kget [] u.remap.records d = l.drop 1 ∧ SameData s u ∧
        u.reg (remapReg d 0x14) = (l.drop 1).length % 2 ^ 32 ∧ u.remap.history = s.remap.history)) ∧
    (s.mgmt.dark = false → s.mgmt.mcRestart = false → l = r :: rest → ∃ u, exec (.mcRemapRecordRemoval d) s = .next u ∧
      kget [] u.remap.records d = rest ∧ u.remap.history = s.remap.history ++ [(d, r)] ∧ SameData s u) ∧
    (s.mgmt.mcRestart = true ∨ l = [] → exec (.mcRemapRecordRemoval d) s = .next s)

/-- R432, R439, R440, R443, R454: a fault that strikes a running partition discards its open frame and every uncommitted write from the first
ordinal to run again on, keeps committed ones, and counts the recovery; RECOVERY puts the ordinal back and leaves the partition
restored; with none under way it changes nothing. Failover to the standby command processor keeps accepted commands and fetches the others
anew, and leaves the admissions of the tick window it strikes to the next tick; without one, the processors stand and the running spans fault.
A failure that comes in the next tick window waits for it. -/
def Obligations.StrikesAndFailover : Prop :=
  ∀ (s : State) (p kind first n : Nat),
    p < 8 →
    let x := s.part p
    let cut := if s.subtick ≤ 15 then min s.cp.admitLimit s.cp.admittedNow else s.cp.admitLimit
    (x.valid = true → x.stopped = false → x.recov = none →
      let u := s.strike p kind first
      let caseB := (x.sealed.map fun f => !f.mirrored).getD false
      let ord := if caseB then x.ord - 1 else x.ord
      (∃ r, (u.part p).recov = some r ∧ r.caseB = caseB ∧ r.firstOrd = ord ∧ r.restored = false ∧
        r.restoreOrd = if ord = 0 then none else some (ord - 1)) ∧
      (u.part p).frame = none ∧ (u.part p).slips = 0 ∧ (u.part p).ord = x.ord ∧
      (∀ h, h ∈ u.held ↔ h ∈ s.held ∧ ¬ (h.part = p ∧ ord ≤ h.ord ∧ h.committed = false)) ∧
      u.reg (bar0 x.func 0xA340) = (s.reg (bar0 x.func 0xA340) + 1) % 2 ^ 32) ∧
    (s.halted = false →
      (∀ r, x.recov = some r → r.restored = false → ∃ u, exec (.recovery p) s = .next u ∧
        (u.part p).recov = some { r with restored := true } ∧ (u.part p).ord = r.firstOrd) ∧
      (x.recov = none → exec (.recovery p) s = .next s) ∧
      exec (.faultDetection (.cpFault (some n))) s = .next { s with cp := { s.cp with failAfter := some n } } ∧
      (s.cp.standby = true → ∃ u, exec .cpFailover s = .next u ∧
        u.cp = { s.cp with cpB := !s.cp.cpB, standby := false, admitLimit := cut } ∧
        (∀ id c, (id, some c) ∈ s.cmds → c.accepted = none → u.cmd id = none) ∧
        (∀ id, (∀ c, (id, some c) ∈ s.cmds → c.accepted ≠ none) → u.cmd id = s.cmd id) ∧ SameData s u ∧ u.parts = s.parts) ∧
      (s.cp.standby = false → ∃ u, exec .cpFailover s = .next u ∧ u.cp = { s.cp with admitLimit := cut } ∧ SameData s u ∧
        ∀ q id c, q < 8 → id ∈ s.spansOf q → s.cmd id = some c → ∃ d, u.cmd id = some d ∧ d.ends = true ∧ d.fault.isSome = true))

/-! ### Control and power -/

/-- R339, R342, R356, R368, R228, R229: a partition or function record that its rules allow is written, and one they refuse (among them a
rectangle that meets another's) only sets its bit of CP_ERR; an event range newly granted is zero; a stop into pinned pages, a resume of a
stopped partition is asked for; a release stops fetching for its function and ends its commands not yet admitted. -/
def Obligations.RecordsAndRelease : Prop :=
  ∀ (s : State) (p f v : Nat),
    p < 8 → f < 256 → s.vigil.frozen = false →
    let x := s.part p
    let a := s.wide (cpReg 0x28)
    let rec_ := v &&& 0x3FFF01
    let cfg := v &&& 0x7F1F
    let ev := v &&& 0x1FFFFFFF
    let b := bitsOf ev 0 16
    let n := bitsOf ev 16 13
    let others := (List.range 256).foldl (fun k g => if g = f then k else k + s.fnQueues g) 0
    let errs (i : Instr) (bit : Nat) : Prop :=
      ∃ u, exec i s = .next u ∧ RegsOnly s u ∧ u.bit (cpReg 8) bit = true ∧ OtherRegs (cpReg 8) s u
    (s.partRefused p (partRecord rec_) = false →
      ∃ u, exec (.cpPartWrite p v) s = .next u ∧ RegsOnly s u ∧ u.reg (partReg p) = rec_ ∧ OtherRegs (partReg p) s u) ∧
    (s.partRefused p (partRecord rec_) = true → errs (.cpPartWrite p v) 0) ∧
    (∀ q d, q < 8 → q ≠ p → d < 8 → s.holdsDies q = true → (s.partWritten q).hasDie d = true → (partRecord rec_).hasDie d = true →
      errs (.cpPartWrite p v) 0) ∧
    (bitsOf cfg 8 7 ≤ 64 →
      (s.fnBusy f = false → others + bitsOf cfg 8 7 ≤ 4096 → ∃ u, exec (.fnCfgWrite f false v) s = .next u ∧ u.fnCfg f = cfg ∧
        OtherRegs (cpReg (0x1000 + 16 * f)) s u ∧ f ∉ u.cp.released ∧ u.mem = s.mem ∧ u.cmds = s.cmds) ∧
      ((s.fnBusy f = true ∨ 4096 < others + bitsOf cfg 8 7) → errs (.fnCfgWrite f false v) 1)) ∧
    (s.fnBusy f = false → n ≤ 4096 → b + n ≤ 65536 →
      (n = 0 ∨ ∀ g, g < 256 → g ≠ f → s.evCount g = 0 ∨ s.evBase g + s.evCount g ≤ b ∨ b + n ≤ s.evBase g) →
      ∃ u, exec (.fnCfgWrite f true v) s = .next u ∧ u.reg (cpReg (0x1004 + 16 * f)) = ev ∧ OtherRegs (cpReg (0x1004 + 16 * f)) s u ∧
        (∀ e, b ≤ e → e < b + n → s.ownsEvent f e = false → kget 0 u.events e = 0) ∧
        (∀ e, e < b ∨ b + n ≤ e ∨ s.ownsEvent f e = true → kget 0 u.events e = kget 0 s.events e)) ∧
    (s.fnBusy f = true → errs (.fnCfgWrite f true v) 1) ∧
    (x.valid = true → x.stopped = false → x.stopReq = none → s.pinnedArea x.func a (s.saveSize x) = true →
      ∃ u, exec (.preemptStop p) s = .next u ∧ u = { s with parts := u.parts } ∧ u.part p = { x with stopReq := some a } ∧
        ∀ q, q ≠ p → u.part q = s.part q) ∧
    ((x.valid = false ∨ x.stopped = true ∨ x.stopReq ≠ none ∨ s.pinnedArea x.func a (s.saveSize x) = false) → errs (.preemptStop p) 3) ∧
    ((s.partWritten p).valid = true → x.stopped = true → x.resumeReq = false →
      ∃ u, exec (.preemptResume p) s = .next u ∧ u = { s with parts := u.parts } ∧ u.part p = { x with resumeReq := true } ∧
        ∀ q, q ≠ p → u.part q = s.part q) ∧
    (((s.partWritten p).valid = false ∨ x.stopped = false ∨ x.resumeReq = true) → errs (.preemptResume p) 3) ∧
    (s.fnEnabled f = true → ∃ u, exec (.fnRelease f) s = .next u ∧ f ∈ u.cp.released ∧ u.held = s.held ∧
      (∀ id c, (id, some c) ∈ s.cmds → c.func = f → c.accepted ≠ none → c.admitted = none → u.cmd id = none) ∧
      (∀ id, (∀ c, (id, some c) ∈ s.cmds → c.func ≠ f ∨ c.accepted = none ∨ c.admitted ≠ none) → u.cmd id = s.cmd id)) ∧
    (s.fnEnabled f = false → errs (.fnRelease f) 2)

/-- R369, R347, R372, R453, R499, R497, R512, R521, R523, R554, R337: a function reset stops the function's queues, which hold the records not
journaled as read too, clears its BAR0 registers that are not kept, and leaves every other function, command and byte; a device reset strikes every running partition and clears latches and stages; an
orderly power-down, which a coolant failure or a lost reference clock or the MC starts too, stops fetching; a removal also shows itself, and
waits under Vigil; input loss and a thermal trip take the power: only flash is left. D3hot is kept as the host sets it. -/
def Obligations.ResetsAndPower : Prop :=
  ∀ (s : State) (f : Nat) (d3 : Bool),
    f < 256 →
    let down := { s with cp := { s.cp with powerDown := true } }
    let off (u : State) : Prop := u.mgmt.dark = true ∧ u.cmds = [] ∧ u.held = [] ∧ u.cores = [] ∧ (∀ p, (u.part p).valid = false) ∧
      (∀ a, flashKey 0 0 ≤ a → Mem.read u.mem a = Mem.read s.mem a) ∧ (∀ a, a < flashKey 0 0 → Mem.read u.mem a = 0#8)
    (∃ u, exec (.functionReset f) s = .next u ∧ u.mem = s.mem ∧ u.cmds = s.cmds ∧ u.parts = s.parts ∧ u.cores = s.cores ∧
      (∀ q, q < 64 → (u.queue f q).on = false ∧ (u.queue f q).held = (s.queue f q).unread ++ (s.queue f q).held ∧
        (u.queue f q).unread = [] ∧ u.bit (queueReg f q 0x2C) 4 = !((s.queue f q).unread ++ (s.queue f q).held).isEmpty) ∧
      (∀ o, o < 0x10000 → keptByFlr o = false → 0x1000 ≤ o ∨ o % 64 ≠ 0x2C → u.reg (bar0 f o) = 0) ∧
      (∀ o, o < 0x10000 → keptByFlr o = true → u.reg (bar0 f o) = s.reg (bar0 f o)) ∧
      (∀ a, a < bar0 f 0 ∨ bar0 f 0x10000 ≤ a → u.reg a = s.reg a)) ∧
    (s.mgmt.dark = false → s.vigil.frozen = false → ∃ u, exec .deviceReset s = .next u ∧ u.latches = [] ∧ u.stages = [] ∧
      u.obs.dumpBusy = false ∧ (∀ p, p < 8 → (s.part p).valid = true → (s.part p).stopped = false → (u.part p).recov.isSome = true) ∧
      ∀ h, h ∈ s.held → h.committed = true → h ∈ u.held) ∧
    (s.mgmt.dark = false →
      exec .orderlyPowerDown s = .next down ∧ exec .coolantFailure s = .next down ∧
      exec .refclkLoss s = .next { down with mgmt := { s.mgmt with refclkLost := true } } ∧
      (∃ u, exec .inputLoss s = .next u ∧ off u ∧ u.bit (mgmtReg 0x208) 5 = true) ∧ (∃ u, exec .thermalTrip s = .next u ∧ off u) ∧
      (s.vigil.frozen = false → ∃ u, exec .attnN s = .next u ∧ u.cp = { s.cp with powerDown := true } ∧ u.bit (mgmtReg 0) 7 = true ∧
        OtherRegs (mgmtReg 0) s u ∧ u.mem = s.mem ∧ u.cmds = s.cmds) ∧
      (s.vigil.frozen = true → exec .attnN s = .next { s with mgmt := { s.mgmt with attnPending := true } }) ∧
      (s.mgmt.mcRestart = false →
        (s.mgmt.mbox = some 6 → ∃ u, exec .powerDown s = .next u ∧ u.cp = { s.cp with powerDown := true } ∧ u.reg (mgmtReg 0x118) = 0 ∧
          u.mgmt.mbox = none ∧ OtherRegs (mgmtReg 0x118) s u ∧ u.mem = s.mem ∧ u.cmds = s.cmds) ∧
        (s.mgmt.mbox = some 5 → s.vigil.frozen = false → ∃ u, exec .remove s = .next u ∧ u.cp = { s.cp with powerDown := true } ∧
          u.reg (mgmtReg 0x118) = 0 ∧ u.bit (mgmtReg 0) 7 = true ∧ u.mgmt.mbox = none ∧ u.mem = s.mem ∧ u.cmds = s.cmds))) ∧
    (∃ u, exec .powerDip s = .next u ∧ RegsOnly s u ∧ u.reg (mgmtReg 0x21C) = (s.reg (mgmtReg 0x21C) + 1) % 2 ^ 32 ∧
      OtherRegs (mgmtReg 0x21C) s u) ∧
    (∃ u, exec (.hostPowerState d3) s = .next u ∧ u.cp = { s.cp with d3hot := d3 } ∧ u.held = s.held ∧ u.cmds = s.cmds ∧
      u.parts = s.parts ∧ (d3 = true → u = { s with cp := u.cp }))

/-! ### Observation -/

/-- R466, R474, R475, R478, R216, R476, R481, R471: the counter, consent, mode and ring-head registers take what is written, a new counter
configuration from the next tick on; the comparator, where an issue differs from its ISSUE record, a sample and LOST put their record where
the trace orders it; the oldest record goes to the host ring at its tail; a latched dump is written to its slot, and in host memory to no
other byte. -/
def Obligations.TraceAndDumps : Prop :=
  ∀ (s : State) (kind k f p c v skid : Nat) (pc : BitVec 8) (e a : BitVec 20),
    let regOnly (i : Instr) (r w : Nat) : Prop := ∃ u, exec i s = .next u ∧ RegsOnly s u ∧ u.reg r = w ∧ OtherRegs r s u
    let room (type : Nat) : Prop := s.bit (obsReg 0x500) (16 + type) = true ∧ s.obs.buf.length < 32768
    let hit := e ≠ a ∧ s.obs.testHit.contains p = false ∧ s.issueRecord p pc.toNat e.toNat = true
    (s.vigil.frozen = false →
      (kind < 12 → k < countersOf kind →
        (bitsOf v 8 2 ≠ 3 → ∃ u, exec (.cntCfgWrite kind k v) s = .next u ∧ u.reg (cntCfgReg kind k) = v % 1024 ∧
          OtherRegs (cntCfgReg kind k) s u ∧ (16 * kind + k, v % 1024) ∈ u.obs.armed ∧ u.obs.cfg = s.obs.cfg ∧ u.obs.ctrs = s.obs.ctrs) ∧
        (bitsOf v 8 2 = 3 → exec (.cntCfgWrite kind k v) s = .next s)) ∧
      (f < 256 → regOnly (.obsConsentWrite f v) (bar0 f 0xA400) (v % 16)) ∧
      (p < 8 → ∃ u, exec (.obsPartWrite p v) s = .next u ∧ RegsOnly s u ∧ u.field (obsPart p) 0 2 = v % 4 ∧
        u.field (obsPart p) 2 2 = s.field (obsPart p) 2 2 ∧ OtherRegs (obsPart p) s u) ∧
      regOnly (.sepiaHeadWrite v) (obsReg 0x510) (v % 2 ^ 24)) ∧
    (s.isCore c = true → s.partOf c = some p → s.halted = false → s.bit (obsPart p) 2 = true →
      (hit → ∃ u, exec (.testMismatch c pc e a) s = .next u ∧ u.obs.testHit = s.obs.testHit ++ [p] ∧ SameData s u ∧ u.cores = s.cores ∧
        (room 7 → u = { s with obs := { s.obs with
          buf := sepiaInsert ⟨7, (s.part p).func, s.tick, s.subtick, c, e.toNat + 2 ^ 20 * a.toNat + 2 ^ 40 * pc.toNat⟩ s.obs.buf
          testHit := s.obs.testHit ++ [p] } })) ∧
      (¬ hit → exec (.testMismatch c pc e a) s = .next s)) ∧
    (s.isCore c = true → s.halted = false → 16 ≤ s.subtick → s.sampleDue c = true → skid ≤ 6 →
      let n := kget 0 s.obs.sampleNo c
      let x := s.core c
      let th := x.thread (n % 16)
      ((s.observer c).filter (fun f => s.consents f 1) = none → ∃ u, exec (.threadSample c skid pc) s = .next u ∧ u.obs.buf = s.obs.buf ∧
        u.reg (obsReg 0x40C) = (s.reg (obsReg 0x40C) + 1) % 2 ^ 32 ∧ kget 0 u.obs.sampleNo c = n + 1 ∧ u.cores = s.cores ∧ u.mem = s.mem) ∧
      (s.observer c = some f → s.consents f 1 = true → ∃ u, exec (.threadSample c skid pc) s = .next u ∧
        kget 0 u.obs.sampleNo c = n + 1 ∧ u.cores = s.cores ∧ u.mem = s.mem ∧ (room 5 → u.regs = s.regs ∧
        u.obs.buf = sepiaInsert ⟨5, f, s.tick, s.subtick, c, (if skid = 0 then th.pc else pc).toNat + 2 ^ 8 * (n % 16)
          + 2 ^ 12 * (x.slotOpen.getD 0).toNat + 2 ^ 15 * th.state.code + 2 ^ 19 * natOf x.fillerOpen⟩ s.obs.buf))) ∧
    ((s.obs.lost ≠ 0 ∨ s.obs.lostSamples ≠ 0) → room 9 → ∃ u, exec .lost s = .next u ∧ u = { s with obs := { s.obs with
      lost := 0
      lostSamples := 0
      buf := sepiaInsert ⟨9, 0, s.tick, s.subtick, s.obs.lost, s.obs.lostSamples⟩ s.obs.buf } }) ∧
    (∀ r rest, s.obs.buf = r :: rest → s.sepiaSink = 1 →
      let tail := s.field (obsReg 0x514) 0 24
      let n := s.sepiaRing
      (tail + 1) % n ≠ s.field (obsReg 0x510) 0 24 % n → ∃ u, exec .sepiaRecord s = .next u ∧ u.obs.buf = rest ∧
        u.mem = Mem.writeBytes s.mem (hostKey (s.wide (obsReg 0x504) / 4096 * 4096 + 32 * (tail % n))) (r.bytes s.obs.phase s.obs.rseq) ∧
        u.reg (obsReg 0x514) = (tail + 1) % n % 2 ^ 32 ∧ OtherRegs (obsReg 0x514) s u ∧ u.obs.rseq = (s.obs.rseq + 1) % 2 ^ 32 ∧
        u.held = s.held ∧ u.cores = s.cores) ∧
    (s.halted = false → s.obs.dumpBusy = true →
      let b := s.dumpBytes
      let at_ := s.wide (obsReg 4) / 256 * 256 + s.obs.dumpNext % max 1 (s.field (obsReg 0x0C) 0 16) * 0x182D00
      ∃ u, exec .dump s = .next u ∧ u.obs.dumpBusy = false ∧ u.obs.dumpNext = s.obs.dumpNext + 1 ∧
        u.reg (obsReg 0x10) = s.obs.dumpNext % 2 ^ 32 ∧ OtherRegs (obsReg 0x10) s u ∧ u.held = s.held ∧ u.cores = s.cores ∧
        (s.bit (obsReg 0) 1 = false → at_ + b.length ≤ 2 ^ 64 →
          (∀ i, i < b.length → Mem.read u.mem (hostKey at_ + i) = b.getD i 0) ∧ SameOutside s u (hostKey at_) b.length)) ∧
    (s.obs.dumpBusy = false → exec .dump s = .next s)

/-- R482–R487, R309, R491, R535: NOW, a scheduled count reached, the pin or a flood freezes the module: the tick and sub-tick are kept (16 in a
tick window) and no core, byte, command or partition changes; the SYS forms also flood every port in service, and the first copy of a flood
acts and goes on, a further one does nothing. SCHED arms a count, a late one
the next tick's; RESUME arms one at least two ticks ahead. At the resume point the module goes on at the sub-tick of the freeze, LATE
cleared, and the writes that waited land in their order (a removal that one of them asked for begins); a scan under way moves it.
R488, R489: SCAN_GO starts the circular scan of a frozen module, BUSY; SCAN_DONE ends it: DONE, and no byte outside host memory, no core, no
command has changed; a resume point that passed meanwhile moves to the next tick, LATE. A scan does not start while one runs, nor while the module runs. -/
def Obligations.VigilAndScan : Prop :=
  (
    ∀ (s : State) (p n : Nat),
      let ports (but : Option Nat) : List Nat := (List.range 8).filter fun q => s.portState q == 2 && some q != but
      let floods (but : Option Nat) (kind count : Nat) : List (Nat × Nat × Nat) := s.vigil.floods ++ (ports but).map fun q => (q, kind, count)
      let frozen (u : State) (source : Nat) : Prop := u.vigil.frozen = true ∧ u.vigil.source = source ∧ u.vigil.frozeTick = s.tick ∧
        u.subtick = (if s.subtick ≤ 15 then 16 else s.subtick) ∧ u.tick = s.tick ∧ SameData s u ∧ u.cores = s.cores ∧ u.cmds = s.cmds ∧
        u.parts = s.parts ∧ u.bit vigilStatus 0 = true
      let armed (u : State) (count source : Nat) : Prop := u.vigil.armed = some (if count ≤ s.tick then s.tick + 1 else count) ∧
        u.vigil.armedSource = source ∧ u.bit vigilStatus 1 = true ∧ (count ≤ s.tick → u.bit vigilStatus 2 = true) ∧
        OtherRegs vigilStatus s u ∧ SameData s u ∧ u.cores = s.cores ∧ u.vigil.frozen = s.vigil.frozen
      let resumes (u : State) (count : Nat) (fl : List (Nat × Nat × Nat)) : Prop := u.vigil.resumeAt = some count ∧ u.vigil.floods = fl ∧
        u.vigil.frozen = s.vigil.frozen ∧
        u = { s with
          vigil := { s.vigil with
            resumeAt := u.vigil.resumeAt
            floods := u.vigil.floods
            heard := u.vigil.heard }
          links := { s.links with ports := u.links.ports } }
      let first (kind count : Nat) : Prop := kget none s.vigil.heard kind ≠ some count
      (s.halted = false →
        (∃ u, exec .now s = .next u ∧ frozen u 1 ∧ u.vigil.floods = s.vigil.floods) ∧
        (∃ u, exec .nowSys s = .next u ∧ frozen u 1 ∧ u.vigil.floods = floods none 0 0) ∧
        (s.field (obsReg 0x700) 4 2 = 1 → ∃ u, exec .vigilPin s = .next u ∧ frozen u 0 ∧ u.vigil.floods = s.vigil.floods) ∧
        (s.field (obsReg 0x700) 4 2 = 2 → ∃ u, exec .vigilPin s = .next u ∧ frozen u 0 ∧ u.vigil.floods = floods none 0 0) ∧
        (s.vigil.armed = some n → n ≤ s.tick → ∃ u, exec .scheduledFreeze s = .next u ∧ frozen u s.vigil.armedSource ∧
          u.vigil.scheduled = true) ∧
        (p < 8 → s.portState p = 2 →
          (first 0 0 → ∃ u, exec (.floodReceive p 0 n) s = .next u ∧ frozen u 2 ∧ u.vigil.floods = floods (some p) 0 0) ∧
          (first 1 n → ∃ u, exec (.floodReceive p 1 n) s = .next u ∧ armed u n 2 ∧ u.vigil.floods = floods (some p) 1 n) ∧
          (¬ first 0 0 → exec (.floodReceive p 0 n) s = .next s) ∧ (¬ first 1 n → exec (.floodReceive p 1 n) s = .next s))) ∧
      (p < 8 → s.portState p = 2 → s.mgmt.dark = false → s.vigil.frozen = true → first 2 n → s.tick + 2 ≤ n →
        ∃ u, exec (.floodReceive p 2 n) s = .next u ∧ resumes u n (floods (some p) 2 n)) ∧
      (s.field (obsReg 0x700) 4 2 = 0 ∨ s.halted = true → exec .vigilPin s = .next s) ∧
      (∃ u, exec .sched s = .next u ∧ armed u s.vigilAt 1 ∧ u.vigil.floods = s.vigil.floods) ∧
      (∃ u, exec .schedSys s = .next u ∧ armed u s.vigilAt 1 ∧ u.vigil.floods = floods none 1 s.vigilAt) ∧
      (s.vigil.armed = some n → s.tick < n → exec .scheduledFreeze s = .next s) ∧
      (s.vigil.frozen = true →
        (s.tick + 2 ≤ s.vigilResumeAt →
          (∃ u, exec .resume s = .next u ∧ resumes u s.vigilResumeAt s.vigil.floods) ∧
          (∃ u, exec .resumeSys s = .next u ∧ resumes u s.vigilResumeAt (floods none 2 s.vigilResumeAt))) ∧
        (s.vigilResumeAt < s.tick + 2 → ∃ u, exec .resume s = .next u ∧ RegsOnly s u ∧ u.bit vigilStatus 2 = true ∧ OtherRegs vigilStatus s u) ∧
        (s.vigil.resumeAt = some n → n ≤ s.tick → s.mgmt.attnPending = false →
          (s.vigil.scanBusy = true → ∃ u, exec .vigilResumePoint s = .next u ∧ RegsOnly s u ∧ u.bit vigilStatus 2 = true) ∧
          (s.vigil.scanBusy = false → ∃ u, exec .vigilResumePoint { s with vigil := { s.vigil with writes := [] } } = .next u ∧
            u.vigil.frozen = false ∧ u.vigil.resumeAt = none ∧ u.subtick = (if s.vigil.rateChanged then 16 else s.vigil.frozeSub) ∧
            u.bit vigilStatus 2 = false ∧ SameData s u ∧ u.cores = s.cores ∧ u.cmds = s.cmds ∧ u.parts = s.parts ∧
            exec .vigilResumePoint s = .next (
              let landed := s.vigil.writes.foldl (fun t w => t.land w.who w.addr w.value w.mask) u
              if landed.mgmt.attnPending then landed.beginRemoval else landed)))) ∧
      (s.vigil.frozen = false → exec .resume s = .next s ∧ exec .vigilResumePoint s = .next s))
  ∧
  (
    ∀ s : State,
      (s.vigil.frozen = true → s.vigil.scanBusy = false → ∃ u, exec .scanGo s = .next u ∧ u.vigil = { s.vigil with scanBusy := true } ∧
        u.reg scanStatus = 1 ∧ OtherRegs scanStatus s u ∧ u = { s with regs := u.regs, vigil := u.vigil }) ∧
      ((s.vigil.frozen = false ∨ s.vigil.scanBusy = true) → exec .scanGo s = .next s) ∧
      (s.vigil.scanBusy = true → ∃ u, exec .scanDone s = .next u ∧ u.reg scanStatus = 2 ∧
        u.vigil = { s.vigil with scanBusy := false, resumeAt := if s.resumePassed then some (s.tick + 1) else s.vigil.resumeAt } ∧
        (s.resumePassed = true → u.bit vigilStatus 2 = true) ∧ RegsBut [scanStatus, obsReg 0x750, vigilStatus] s u ∧ (∀ a, a < 2 ^ 64 → Mem.read u.mem a = Mem.read s.mem a) ∧ u.marks = s.marks ∧
        u.held = s.held ∧ u.cores = s.cores ∧ u.cmds = s.cmds ∧ u.parts = s.parts) ∧
      (s.vigil.scanBusy = false → exec .scanDone s = .next s))

/-! ### The management plane -/

/-- R508, R511, R510, R369: start-up begins when power is good and the module has none, or waits at step 1: everything but flash, journal and records is at reset; a
supply short of its level waits at step 1, a ROM that fails stops at step 2 with FAIL, good firmware goes on to the coolant check of step 6.
That check passed, dies, tiers, ports and command processors follow: READY at step 11; no good die, or two lost stacks, is FAIL. A step past
its bound is FAIL with its reason. -/
def Obligations.StartupSteps : Prop :=
  ∀ (s : State) (env : StartEnv),
    let fails (u : State) (reason : Nat) : Prop := u.hasFailed = true ∧ u.field (mgmtReg 0) 12 4 = reason ∧ u.isReady = false
    let t := (s.clearBit (mgmtReg 0x208) 6).testDies s.mgmt.env
    (s.mgmt.powered = true → (s.stage ≠ 1 ∨ s.hasFailed = true) → exec (.startup env) s = .next s) ∧
    (s.mgmt.powered = false ∨ (s.stage = 1 ∧ s.hasFailed = false) →
      ∃ u, exec (.startup env) s = .next u ∧ u.mgmt.powered = true ∧ u.mgmt.dark = false ∧ u.cmds = [] ∧ u.cores = [] ∧ u.parts = [] ∧
        u.held = [] ∧ u.serial = s.serial ∧ u.isReady = false ∧
        (∀ a, flashKey 0 0 ≤ a → Mem.read u.mem a = Mem.read s.mem a) ∧ (∀ a, a < flashKey 0 0 → Mem.read u.mem a = 0#8) ∧
        (env.supplyOk = false → u.stage = 1 ∧ u.hasFailed = false) ∧
        (env.supplyOk = true → env.romOk = false → u.stage = 2 ∧ fails u 2) ∧
        (env.supplyOk = true → env.romOk = true → (∀ k, k < 3 → (s.bootBank k).isSome = true) → u.stage = 6 ∧ u.hasFailed = false ∧
          u.bit (mgmtReg 0x208) 6 = true)) ∧
    (s.mgmt.powered = true → s.hasFailed = false →
      (∀ st reason, (st, reason) ∈ [(1, 1), (2, 2), (3, 2), (6, if s.bit (mgmtReg 0x208) 6 then 3 else 4), (7, 5), (10, 6)] → s.stage = st →
        ∃ u, exec .startupStepTimeout s = .next u ∧ RegsOnly s u ∧ u.stage = st ∧ u.hasFailed = true ∧
          u.field (mgmtReg 0) 12 4 = reason ∧ OtherRegs (mgmtReg 0) s u) ∧
      (s.stage = 6 → s.bit (mgmtReg 0x208) 6 = true →
        (t.field (mgmtReg 0) 16 8 = 0 → ∃ u, exec .coolantCheckPass s = .next u ∧ u.hasFailed = true ∧ u.field (mgmtReg 0) 12 4 = 4) ∧
        (t.field (mgmtReg 0) 16 8 ≠ 0 →
          ((∀ n, n < 16 → bitOf s.mgmt.env.stacksOk n = true) → s.mgmt.env.journalOk = true → ∃ u, exec .coolantCheckPass s = .next u ∧
            u.isReady = true ∧ u.stage = 11 ∧ u.bit (tierReg 0) 0 = true ∧ u.cp.standby = true ∧ u.mem = s.mem ∧ u.parts = s.parts) ∧
          (bitOf s.mgmt.env.stacksOk 0 = false → bitOf s.mgmt.env.stacksOk 1 = false → ∃ u, exec .coolantCheckPass s = .next u ∧
            u.hasFailed = true ∧ u.field (mgmtReg 0) 12 4 = 5))) ∧
      (s.bit (mgmtReg 0x208) 6 = false → exec .coolantCheckPass s = .next s))

/-- R493, R492, R497, R496, R505, R555, R560, R561: the MC that misses its heartbeat restarts, counted, until its next sample; that sample is
published or dropped as saturation, which is open, has it. The power manager's measurements set COOL_WARN and THERM_WARN, its limit HW_LIMIT
with hysteresis. Straps, presence and cables show where they are read; a cable that leaves takes its port down, one that fits lets a port
asked for train. -/
def Obligations.SensorsAndPins : Prop :=
  ∀ (s : State) (p temp flow inlet watts pins : Nat) (made : Bool),
    p < 6 →
    (∃ u, exec .mcHeartbeatMiss s = .next u ∧ u.mgmt = { s.mgmt with mcRestart := true } ∧
      u.reg (mgmtReg 0x0C) = (s.reg (mgmtReg 0x0C) + 1) % 2 ^ 32 ∧ OtherRegs (mgmtReg 0x0C) s u ∧ SameData s u) ∧
    (∃ u, exec (.telemetrySample temp flow inlet) s = .next u ∧ u.mgmt.mcRestart = false ∧ SameData s u ∧ u.cmds = s.cmds ∧
      RegsBut [mgmtReg 4, mgmtReg 8] s u ∧
      (u.mgmt.telem = [temp, flow, inlet] ∧ u.reg (mgmtReg 8) = s.reg (mgmtReg 8) ∨
        u.mgmt.telem = s.mgmt.telem ∧ u.mgmt.uart = s.mgmt.uart ∧ u.reg (mgmtReg 8) = (s.reg (mgmtReg 8) + 1) % 2 ^ 32)) ∧
    (s.mgmt.dark = false →
      (∃ u, exec (.coolantWarn flow inlet temp) s = .next u ∧ RegsOnly s u ∧ u.field (mgmtReg 0x224) 0 8 = temp % 256 ∧
        u.field (mgmtReg 0x228) 0 16 = flow % 65536 ∧ u.field (mgmtReg 0x22C) 0 16 = inlet % 65536 ∧
        (u.bit (mgmtReg 0x208) 4 = true ↔ 4000 < inlet ∨ flow < 720) ∧
        (u.bit (mgmtReg 0x208) 3 = true ↔ s.field (mgmtReg 0x220) 0 8 ≤ temp) ∧
        RegsBut [mgmtReg 0x208, mgmtReg 0x224, mgmtReg 0x228, mgmtReg 0x22C] s u) ∧
      (7500 < watts → ∃ u, exec (.powerLimit watts) s = .next u ∧ RegsOnly s u ∧ u.bit (mgmtReg 0x208) 2 = true ∧
        OtherRegs (mgmtReg 0x208) s u) ∧
      (watts < 7200 → ∃ u, exec (.powerLimit watts) s = .next u ∧ RegsOnly s u ∧ u.bit (mgmtReg 0x208) 2 = false ∧
        OtherRegs (mgmtReg 0x208) s u) ∧
      (7200 ≤ watts → watts ≤ 7500 → exec (.powerLimit watts) s = .next s) ∧
      (∃ u, exec (.cableChange p false made) s = .next u ∧ kget false u.mgmt.cables p = false ∧ u.mem = s.mem ∧
        (s.portState p = 1 → u.portState p = 0) ∧ (s.portState p = 2 → u.portState p = 4)) ∧
      (∃ u, exec (.cableChange p true true) s = .next u ∧ kget false u.mgmt.cables p = true ∧ u.mem = s.mem ∧
        (s.bit (linkReg 8) p = true → s.portState p ≠ 2 → s.axisLen (portAxis p) ≠ 1 → u.portState p = 1))) ∧
    exec (.prsntChange made) s = .next { s with mgmt := { s.mgmt with prsnt := made } } ∧
    (∃ u, exec (.slotIdStrapChange pins) s = .next u ∧ RegsOnly s u ∧
      u.field (mgmtReg 0x10) 0 3 = pins % 4 + 4 * natOf ((pins % 2 + pins / 2 % 2 + pins / 4 % 2) % 2 == 1) ∧ OtherRegs (mgmtReg 0x10) s u)

/-- R521, R507, R502, R503: a mailbox command that runs leaves its reply code and clears BUSY: a buffer that does not fit is BUFFER; SUC_WRITE
keeps a valid record and refuses another; SUC_READ writes the record kept into the buffer and no other byte; FW_STAGE puts an image that
verifies into the inactive bank and marks it active, and leaves the banks otherwise; INVENTORY writes the buffer alone. An SPDM request is
answered by its mailbox, one not listed with UnsupportedRequest. -/
def Obligations.MailboxCommands : Prop :=
  ∀ (s : State) (f a code : Nat) (c : Byte) (rest : List Byte),
    let n := s.mboxArg 1
    let img := s.seenBytes none a n
    let hd := Config.fwHeader img
    let suc := s.seenBytes none a 64
    let done (u : State) (code : Nat) : Prop := u.mgmt.mbox = none ∧ u.reg (mgmtReg 0x118) = 16 * code ∧ OtherRegs (mgmtReg 0x118) s u ∧
      u.held = s.held
    (s.mgmt.mcRestart = false →
      (∀ i k, (i, k) ∈ [(Instr.sucWrite, 1), (.sucRead, 2)] → s.mgmt.mbox = some k → s.mboxBuffer (s.mboxArg 0) 64 = none →
        ∃ u, exec i s = .next u ∧ done u 2 ∧ u.mem = s.mem ∧ u.mgmt = { s.mgmt with mbox := none }) ∧
      (∀ i k, (i, k) ∈ [(Instr.fwStage, 3), (.inventory, 4)] → s.mgmt.mbox = some k → s.mboxBuffer (s.mboxArg 0) n = none →
        ∃ u, exec i s = .next u ∧ done u 2 ∧ u.mem = s.mem ∧ u.mgmt = { s.mgmt with mbox := none }) ∧
      (s.mgmt.mbox = some 1 → s.mboxBuffer (s.mboxArg 0) 64 = some a →
        ∃ u, exec .sucWrite s = .next u ∧ done u (if sucOk suc then 0 else 6) ∧ u.mem = s.mem ∧
          u.mgmt.suc = if sucOk suc then some suc else s.mgmt.suc) ∧
      (∀ r, s.mgmt.mbox = some 2 → s.mboxBuffer (s.mboxArg 0) 64 = some a → s.mgmt.suc = some r → ∃ u, exec .sucRead s = .next u ∧ done u 0 ∧
        (∀ i, i < r.length → Mem.read u.mem (a + i) = r.getD i 0) ∧ SameOutside s u a r.length) ∧
      (s.mgmt.mbox = some 3 → s.mboxBuffer (s.mboxArg 0) n = some a →
        (s.imageRefused img = some code → ∃ u, exec .fwStage s = .next u ∧ done u code ∧ u.mem = s.mem ∧ u.mgmt.banks = s.mgmt.banks ∧
          u.mgmt.active = s.mgmt.active) ∧
        (s.imageRefused img = none → ∃ u, exec .fwStage s = .next u ∧ done u 0 ∧ u.mem = s.mem ∧
          u.activeBank hd.1 = 1 - s.activeBank hd.1 ∧ u.fwBank hd.1 (1 - s.activeBank hd.1) = {
            steppings := hd.2.1
            svn := hd.2.2
            image := img
            delivered := false })) ∧
      (s.mgmt.mbox = some 4 → s.mboxBuffer (s.mboxArg 0) n = some a → ∃ u, exec .inventory s = .next u ∧ done u 0 ∧
        SameOutside s u a n)) ∧
    (f < 256 →
      let d := s.doe f
      let bytes := 0x12#8 :: c :: rest
      (spdmCodes.contains c.toNat = true → ∃ u, exec (.spdmRequest f bytes) s = .next u ∧ SameData s u ∧ u.regs = s.regs ∧
        (u.doe f).reply = Config.spdmReply bytes (if c = 0x84#8 then [] else d.transcript) s.measurements ∧
        ∀ g, g ≠ f → u.doe g = s.doe g) ∧
      (spdmCodes.contains c.toNat = false → ∃ u, exec (.spdmRequest f bytes) s = .next u ∧ u = { s with mgmt := u.mgmt } ∧
        u.doe f = { d with reply := [0x12#8, 0x7F#8, 0x07#8, c] } ∧ ∀ g, g ≠ f → u.doe g = s.doe g))

/-- R514–R520, R528–R530: the UART takes a character with its framing, counts breaks, framing errors and overruns, sends its oldest character
and frames trace records; a context of the check-value unit takes feeds in order, of its owner alone, loads its initial value, is written
(by words, staged, where 64 bits wide), and reads its value and result, high words from the latch. -/
def Obligations.UartAndCheckValues : Prop :=
  ∀ (s : State) (who ch k v : Nat) (data : Byte),
    (who = 0 ∨ who = 256) → ch < 16 →
    let u0 := s.mgmt.uart
    let x := s.cvu ch
    let sel := s.cvuSel ch
    let settled := x.settle sel
    let counts (i : Instr) (a : Nat) : Prop :=
      ∃ u, exec i s = .next u ∧ RegsOnly s u ∧ u.reg a = (s.reg a + 1) % 2 ^ 32 ∧ OtherRegs a s u
    let ctx (i : Instr) (y : CvuCh) : Prop := ∃ u, exec i s = .next u ∧ u = { s with mgmt := { s.mgmt with cvu := u.mgmt.cvu } } ∧
      u.cvu ch = y ∧ ∀ c, c ≠ ch → u.cvu c = s.cvu c
    let reads (i : Instr) (w : Nat) (lo : Nat) (n : Nat) : Prop := ∃ u, exec i s = .next u ∧ u.rdata = w ∧ u.cvu ch = settled ∧
      u.regs = s.regs ∧ u.mem = s.mem ∧ kget 0 u.latches (requesterKey who (lo + 4)) = n
    counts (.uartReceiveCharacter 0#8 false) (mgmtReg 0x408) ∧
    (64 ≤ u0.rx.length → counts (.uartReceiveCharacter data true) (mgmtReg 0x40C)) ∧
    (u0.rx.length < 64 →
      (∃ u, exec (.uartReceiveCharacter data true) s = .next u ∧
        u = { s with mgmt := { s.mgmt with uart := { u0 with rx := u0.rx ++ [(data, false)] } } }) ∧
      (data ≠ 0#8 → ∃ u, exec (.uartReceiveCharacter data false) s = .next u ∧
        u.mgmt = { s.mgmt with uart := { u0 with rx := u0.rx ++ [(data, true)] } } ∧
        u.reg (mgmtReg 0x404) = (s.reg (mgmtReg 0x404) + 1) % 2 ^ 32 ∧ OtherRegs (mgmtReg 0x404) s u ∧ u.mem = s.mem)) ∧
    (∀ b rest, u0.tx = b :: rest → ∃ u, exec .uartTransmitCharacter s = .next u ∧ u = { s with mgmt := { s.mgmt with uart := { u0 with
      tx := rest
      line := u0.line ++ [b] } } }) ∧
    (∀ r rest, s.obs.buf = r :: rest → s.sepiaSink = 2 → ∃ u, exec .uartSepiaFrame s = .next u ∧ u.obs.buf = rest ∧
      u.mgmt.uart = { u0 with tx := u0.tx ++ uartFrame (r.bytes s.obs.phase s.obs.rseq) } ∧ u.regs = s.regs ∧ u.mem = s.mem) ∧
    (cvuWritable who ch = true →
      ((k = 1 ∨ k = 2 ∨ k = 4) → x.queue.length < 8 → ctx (.cvuFeed who ch k v) { x with queue := x.queue ++ [leBytes k v] }) ∧
      ctx (.cvuInit who ch) {
        value := sel.init
        queue := [] } ∧
      (sel.width ≠ 64 → ctx (.cvuValueWrite who ch false v) {
          value := v % 2 ^ sel.width
          queue := [] } ∧
        exec (.cvuValueWrite who ch true v) s = .next s) ∧
      (sel.width = 64 →
        (∃ u, exec (.cvuValueWrite who ch false v) s = .next u ∧ u = { s with stages := u.stages } ∧
          kget none u.stages (requesterKey who (cvuLo ch)) = some (v % 2 ^ 32)) ∧
        (∀ lo, kget none s.stages (requesterKey who (cvuLo ch)) = some lo → ∃ u, exec (.cvuValueWrite who ch true v) s = .next u ∧
          u.cvu ch = {
            value := lo + v % 2 ^ 32 * 2 ^ 32
            queue := [] } ∧
          kget none u.stages (requesterKey who (cvuLo ch)) = none ∧ u.regs = s.regs))) ∧
    (cvuWritable who ch = false → exec (.cvuInit who ch) s = .next s ∧ exec (.cvuFeed who ch 4 v) s = .next s ∧
      exec (.cvuValueWrite who ch false v) s = .next s) ∧
    (let value := settled.value % 2 ^ sel.width
     let result := value ^^^ sel.xorOut
     reads (.cvuValueRead who ch false) (value % 2 ^ 32) (cvuLo ch) (value / 2 ^ 32 % 2 ^ 32) ∧
     reads (.cvuResultRead who ch false) (result % 2 ^ 32) (cvuCtrl ch + 0x0C) (result / 2 ^ 32 % 2 ^ 32) ∧
     (∀ n, kget 0 s.latches (requesterKey who (cvuLo ch + 4)) = n → reads (.cvuValueRead who ch true) n (cvuLo ch) n) ∧
     (∀ n, kget 0 s.latches (requesterKey who (cvuCtrl ch + 0x10)) = n → reads (.cvuResultRead who ch true) n (cvuCtrl ch + 0x0C) n))

/-! ### Register access -/

/-- R528, R529, R532, R524, R535, R541: a read of a low word returns it and latches its high word as it then stands; a write of a low word
stages it, and the write of its high word puts both in place at once; a plain register takes the bytes enabled and keeps the others; a write
to a block that Vigil stops waits in arrival order, the sixty-fifth being lost and flagged; through an alias only FN_WIN_MAX is written,
any other write flagged. -/
def Obligations.RegisterAccess : Prop :=
  ∀ (s : State) (who a f v mask off : Nat),
    let key := requesterKey who
    let scratch := a ∈ [gidReg 0x40, gidReg 0x44, gidReg 0x48, gidReg 0x4C]
    let plainWide := a ∈ [cpReg 0x28, obsReg 0x704, obsReg 0x70C]
    (reaches who a = true →
      (wideLow a = true → ∃ u, exec (.wideLowRead who a) s = .next u ∧ u.rdata = s.readWord who a ∧
        u = { s with rdata := u.rdata, latches := u.latches } ∧
        kget 0 u.latches (key (a + 4)) = if s.deadAlias who a then 0 else s.live (a + 4)) ∧
      (wideLow a = false → exec (.wideLowRead who a) s = .next { s with rdata := s.readWord who a })) ∧
    (who = 0 → s.vigil.frozen = false →
      (plainWide →
        (∃ u, exec (.wideLowWrite who a v) s = .next u ∧ u = { s with stages := u.stages } ∧
          kget none u.stages (key a) = some (v % 2 ^ 32) ∧ ∀ k, k ≠ key a → kget none u.stages k = kget none s.stages k) ∧
        (∀ lo, kget none s.stages (key a) = some lo → lo < 2 ^ 32 → ∃ u, exec (.wideHighWrite who (a + 4) v) s = .next u ∧
          u.reg a = lo ∧ u.reg (a + 4) = v % 2 ^ 32 ∧ RegsBut [a, a + 4] s u ∧ kget none u.stages (key a) = none ∧ u.mem = s.mem)) ∧
      (scratch → ∃ u, exec (.registerWrite who a v mask) s = .next u ∧ RegsOnly s u ∧ OtherRegs a s u ∧
        ∀ i, i < 4 → bitsOf (u.reg a) (8 * i) 8 = if bitOf mask i then bitsOf v (8 * i) 8 else bitsOf (s.reg a) (8 * i) 8)) ∧
    (exec (.frozenWrite who a v mask) s = exec (.registerWrite who a v mask) s) ∧
    (who ≤ 256 → reaches who a = true → s.vigil.frozen = true → runsFrozen a = false →
      (s.vigil.writes.length < 64 → exec (.frozenWrite who a v mask) s =
        .next { s with vigil := { s.vigil with writes := s.vigil.writes ++ [⟨who, a, v % 2 ^ 32, mask % 16⟩] } }) ∧
      (64 ≤ s.vigil.writes.length → ∃ u, exec (.frozenWrite who a v mask) s = .next u ∧ RegsOnly s u ∧ u.bit (gidReg 0x20) 0 = true ∧
        OtherRegs (gidReg 0x20) s u)) ∧
    (f < 256 → off < 0x10000 → off % 4 = 0 → s.vigil.frozen = false →
      (off = 0xA040 → v % 8192 ≤ 4096 → ∃ u, exec (.aliasWrite f off v) s = .next u ∧ RegsOnly s u ∧ u.reg (bar0 f 0xA040) = v % 8192 ∧
        OtherRegs (bar0 f 0xA040) s u) ∧
      (off ≠ 0xA040 → ∃ u, exec (.aliasWrite f off v) s = .next u ∧ RegsOnly s u ∧ u.bit (gidReg 0x20) 1 = true ∧
        OtherRegs (gidReg 0x20) s u))
end

