-- ==== Sys2Proof/Laws/Tables.lean ====
section
/-! SUPPORT. Laws of the sparse tables and of memory: reading after writing, and that every operation keeps the canonical
form. -/

namespace Sys2Proof.Machine

/-! ### Reading after writing -/

variable {α : Type}

theorem kget_kerase (d : α) (m : KMap α) (i j : Nat) : kget d (kerase m i) j = if i = j then d else kget d m j := by
  induction m with
  | nil => simp [kerase, kget]
  | cons x t ih =>
    obtain ⟨k, v⟩ := x
    rcases eq_or_ne k i with rfl | hk
    · simp only [kerase, if_true, ih, kget]
      split <;> rfl
    · rcases eq_or_ne k j with rfl | hj
      · simp only [kerase, if_neg hk, kget, if_true, if_neg (Ne.symm hk)]
      · simp only [kerase, if_neg hk, kget, if_neg hj, ih]

theorem kget_kinsert (d : α) (m : KMap α) (i j : Nat) (w : α) (hij : i ≠ j) :
    kget d (kinsert m i w) j = kget d m j := by
  induction m with
  | nil => simp only [kinsert, kget, if_neg hij]
  | cons x t ih =>
    obtain ⟨k, v⟩ := x
    simp only [kinsert]
    split
    · simp only [kget, if_neg hij]
    · simp only [kget, ih]

theorem kget_kinsert_kerase (d : α) (m : KMap α) (i : Nat) (w : α) : kget d (kinsert (kerase m i) i w) i = w := by
  induction m with
  | nil => simp [kerase, kinsert, kget]
  | cons x t ih =>
    obtain ⟨k, v⟩ := x
    by_cases hk : k = i
    · simpa [kerase, hk] using ih
    · by_cases hlt : i < k
      · simp [kerase, hk, kinsert, hlt, kget]
      · simp [kerase, hk, kinsert, hlt, kget, ih]

variable [DecidableEq α]

/-- A table reads as it was written. -/
@[simp] theorem kget_kset_same (d : α) (m : KMap α) (i : Nat) (w : α) : kget d (kset d m i w) i = w := by
  unfold kset
  split
  · rename_i h
    simp [kget_kerase, h]
  · exact kget_kinsert_kerase d m i w

/-- A write leaves every other key alone, whatever default the reader takes. -/
theorem kget_kset_apart (d e : α) (m : KMap α) {i j : Nat} (w : α) (h : i ≠ j) :
    kget e (kset d m i w) j = kget e m j := by
  unfold kset
  split
  · simp [kget_kerase, h]
  · rw [kget_kinsert e _ i j w h, kget_kerase]
    simp [h]

/-- A write leaves every other key alone. -/
theorem kget_kset_other (d : α) (m : KMap α) {i j : Nat} (w : α) (h : i ≠ j) : kget d (kset d m i w) j = kget d m j :=
  kget_kset_apart d d m w h

/-- Reading a written table. -/
theorem kget_kset (d : α) (m : KMap α) (i j : Nat) (w : α) : kget d (kset d m i w) j = if i = j then w else kget d m j := by
  by_cases h : i = j
  · subst h; simp
  · simp [kget_kset_other d m w h, h]

@[simp] theorem kget_kmod_same (d : α) (m : KMap α) (i : Nat) (f : α → α) : kget d (kmod d m i f) i = f (kget d m i) := by
  simp [kmod]

theorem kget_kmod_other (d : α) (m : KMap α) {i j : Nat} (f : α → α) (h : i ≠ j) :
    kget d (kmod d m i f) j = kget d m j := by
  simp [kmod, kget_kset_other d m _ h]

/-! ### The canonical form -/

theorem kwfFrom_mono (d : α) (m : KMap α) {lo lo' : Nat} (h : lo' ≤ lo) (hw : kwfFrom d lo m = true) :
    kwfFrom d lo' m = true := by
  cases m with
  | nil => rfl
  | cons x t =>
    obtain ⟨k, v⟩ := x
    simp only [kwfFrom, Bool.and_eq_true, decide_eq_true_eq] at hw ⊢
    exact ⟨⟨by omega, hw.1.2⟩, hw.2⟩

theorem kwfFrom_kerase (d : α) (m : KMap α) (i lo : Nat) (hw : kwfFrom d lo m = true) :
    kwfFrom d lo (kerase m i) = true := by
  induction m generalizing lo with
  | nil => rfl
  | cons x t ih =>
    obtain ⟨k, v⟩ := x
    simp only [kwfFrom, Bool.and_eq_true, decide_eq_true_eq] at hw
    by_cases hk : k = i
    · simp only [kerase, hk, if_true]
      exact kwfFrom_mono d _ (by omega) (ih _ hw.2)
    · simp only [kerase, hk, if_false, kwfFrom, Bool.and_eq_true, decide_eq_true_eq]
      exact ⟨hw.1, ih _ hw.2⟩

theorem kwfFrom_kinsert (d : α) (m : KMap α) (i lo : Nat) (w : α) (hd : w ≠ d) (hlo : lo ≤ i)
    (hw : kwfFrom d lo (kerase m i) = true) : kwfFrom d lo (kinsert (kerase m i) i w) = true := by
  induction m generalizing lo with
  | nil => simp [kerase, kinsert, kwfFrom, hd, hlo]
  | cons x t ih =>
    obtain ⟨k, v⟩ := x
    by_cases hk : k = i
    · simp only [kerase, hk, if_true] at hw ⊢
      exact ih lo hlo hw
    · simp only [kerase, hk, if_false, kwfFrom, Bool.and_eq_true, decide_eq_true_eq] at hw
      by_cases hlt : i < k
      · simp only [kerase, hk, if_false, kinsert, hlt, if_true, kwfFrom, Bool.and_eq_true, decide_eq_true_eq]
        exact ⟨⟨hlo, hd⟩, ⟨by omega, hw.1.2⟩, hw.2⟩
      · simp only [kerase, hk, if_false, kinsert, hlt, kwfFrom, Bool.and_eq_true, decide_eq_true_eq]
        exact ⟨hw.1, ih (k + 1) (by omega) hw.2⟩

/-- A write keeps the canonical form. -/
theorem kwf_kset (d : α) (m : KMap α) (i : Nat) (w : α) (h : kwf d m = true) : kwf d (kset d m i w) = true := by
  unfold kset kwf at *
  split
  · exact kwfFrom_kerase d m i 0 h
  · rename_i hd
    exact kwfFrom_kinsert d m i 0 w hd (Nat.zero_le i) (kwfFrom_kerase d m i 0 h)

theorem kwf_kmod (d : α) (m : KMap α) (i : Nat) (f : α → α) (h : kwf d m = true) : kwf d (kmod d m i f) = true :=
  kwf_kset d m i _ h

theorem kwfFrom_filter (d : α) (m : KMap α) (p : Nat × α → Bool) (lo : Nat) (h : kwfFrom d lo m = true) :
    kwfFrom d lo (m.filter p) = true := by
  induction m generalizing lo with
  | nil => rfl
  | cons x t ih =>
    obtain ⟨k, v⟩ := x
    simp only [kwfFrom, Bool.and_eq_true, decide_eq_true_eq] at h
    by_cases hp : p (k, v) = true
    · simp only [List.filter_cons, hp, if_true, kwfFrom, Bool.and_eq_true, decide_eq_true_eq]
      exact ⟨h.1, ih _ h.2⟩
    · simp only [List.filter_cons, hp]
      exact kwfFrom_mono d _ (by omega) (ih _ h.2)

/-- A selection of pairs keeps the canonical form. -/
theorem kwf_filter (d : α) (m : KMap α) (p : Nat × α → Bool) (h : kwf d m = true) : kwf d (m.filter p) = true :=
  kwfFrom_filter d m p 0 h

/-! ### Memory -/

/-- A byte reads as it was written. -/
@[simp] theorem Mem.read_write_same (m : Mem) (a : Nat) (b : Byte) : (m.write a b).read a = b := by
  simp [Mem.read, Mem.write]

/-- A write leaves every other byte alone. -/
theorem Mem.read_write_other (m : Mem) {a x : Nat} (b : Byte) (h : a ≠ x) : (m.write a b).read x = m.read x :=
  kget_kset_other _ m b h

/-- Bytes outside the run written read as before. -/
theorem Mem.read_writeBytes_outside (bs : List Byte) (m : Mem) (a x : Nat) (h : x < a ∨ a + bs.length ≤ x) :
    (m.writeBytes a bs).read x = m.read x := by
  induction bs generalizing m a with
  | nil => rfl
  | cons b t ih =>
    simp only [List.length_cons] at h
    simp only [Mem.writeBytes]
    rw [ih _ _ (by omega), Mem.read_write_other m b (by omega)]

/-- A byte of the run written reads as the run says. -/
theorem Mem.read_writeBytes_inside (bs : List Byte) (m : Mem) (a i : Nat) (h : i < bs.length) :
    (m.writeBytes a bs).read (a + i) = bs[i] := by
  induction bs generalizing m a i with
  | nil => simp at h
  | cons b t ih =>
    simp only [Mem.writeBytes]
    cases i with
    | zero =>
      rw [Mem.read_writeBytes_outside t _ _ _ (by omega)]
      simp
    | succ n =>
      have := ih (m.write a b) (a + 1) n (by simpa using h)
      rw [show a + (n + 1) = a + 1 + n by omega, this]
      simp

@[simp] theorem leBytes_length (n v : Nat) : (leBytes n v).length = n := by
  induction n generalizing v with
  | zero => rfl
  | succ n ih => simp [leBytes, ih]

/-- Writing one byte keeps the canonical form. -/
theorem Mem.wf_write (m : Mem) (a : Nat) (b : Byte) (h : Memory.wf m = true) : Memory.wf (m.write a b) = true :=
  kwf_kset _ m a b h

/-- Writing bytes keeps the canonical form. -/
theorem Mem.wf_writeBytes (bs : List Byte) (m : Mem) (a : Nat) (h : Memory.wf m = true) :
    Memory.wf (m.writeBytes a bs) = true := by
  induction bs generalizing m a with
  | nil => exact h
  | cons b t ih => exact ih _ _ (Mem.wf_write m a b h)

/-- Writing a number keeps the canonical form. -/
theorem Mem.wf_writeNat (m : Mem) (a n v : Nat) (h : Memory.wf m = true) : Memory.wf (m.writeNat a n v) = true :=
  Mem.wf_writeBytes _ m a h

/-- Writing cells keeps the canonical form. -/
theorem Mem.wf_writeCells (cs : List (Nat × Byte)) (m : Mem) (h : Memory.wf m = true) :
    Memory.wf (m.writeCells cs) = true := by
  induction cs generalizing m with
  | nil => exact h
  | cons c t ih => exact ih _ (Mem.wf_write m _ _ h)

/-- Clearing a range keeps the canonical form. -/
theorem Mem.wf_zero (m : Mem) (a n : Nat) (h : Memory.wf m = true) : Memory.wf (m.zero a n) = true :=
  kwf_filter _ m _ h

end Sys2Proof.Machine
end

