-- ==== Sys2Proof/Laws/State.lean ====
section
/-! SUPPORT. One lemma per field per update: what each named update of the state leaves as it was, and what it sets. -/

namespace Sys2Proof.Machine

/-! ### setReg -/

@[simp] theorem State.setReg_pending (s : State) (a v : Nat) : (s.setReg a v).pending = s.pending := rfl
@[simp] theorem State.setReg_gradeB44 (s : State) (a v : Nat) : (s.setReg a v).gradeB44 = s.gradeB44 := rfl
@[simp] theorem State.setReg_stepB0 (s : State) (a v : Nat) : (s.setReg a v).stepB0 = s.stepB0 := rfl
@[simp] theorem State.setReg_farFill (s : State) (a v : Nat) : (s.setReg a v).farFill = s.farFill := rfl
@[simp] theorem State.setReg_flashFill (s : State) (a v : Nat) : (s.setReg a v).flashFill = s.flashFill := rfl
@[simp] theorem State.setReg_serial (s : State) (a v : Nat) : (s.setReg a v).serial = s.serial := rfl
@[simp] theorem State.setReg_tick (s : State) (a v : Nat) : (s.setReg a v).tick = s.tick := rfl
@[simp] theorem State.setReg_subtick (s : State) (a v : Nat) : (s.setReg a v).subtick = s.subtick := rfl
@[simp] theorem State.setReg_latches (s : State) (a v : Nat) : (s.setReg a v).latches = s.latches := rfl
@[simp] theorem State.setReg_stages (s : State) (a v : Nat) : (s.setReg a v).stages = s.stages := rfl
@[simp] theorem State.setReg_rdata (s : State) (a v : Nat) : (s.setReg a v).rdata = s.rdata := rfl
@[simp] theorem State.setReg_free (s : State) (a v : Nat) : (s.setReg a v).free = s.free := rfl
@[simp] theorem State.setReg_mem (s : State) (a v : Nat) : (s.setReg a v).mem = s.mem := rfl
@[simp] theorem State.setReg_marks (s : State) (a v : Nat) : (s.setReg a v).marks = s.marks := rfl
@[simp] theorem State.setReg_held (s : State) (a v : Nat) : (s.setReg a v).held = s.held := rfl
@[simp] theorem State.setReg_cores (s : State) (a v : Nat) : (s.setReg a v).cores = s.cores := rfl
@[simp] theorem State.setReg_events (s : State) (a v : Nat) : (s.setReg a v).events = s.events := rfl
@[simp] theorem State.setReg_cmds (s : State) (a v : Nat) : (s.setReg a v).cmds = s.cmds := rfl
@[simp] theorem State.setReg_queues (s : State) (a v : Nat) : (s.setReg a v).queues = s.queues := rfl
@[simp] theorem State.setReg_cp (s : State) (a v : Nat) : (s.setReg a v).cp = s.cp := rfl
@[simp] theorem State.setReg_parts (s : State) (a v : Nat) : (s.setReg a v).parts = s.parts := rfl
@[simp] theorem State.setReg_alm (s : State) (a v : Nat) : (s.setReg a v).alm = s.alm := rfl
@[simp] theorem State.setReg_tiers (s : State) (a v : Nat) : (s.setReg a v).tiers = s.tiers := rfl
@[simp] theorem State.setReg_links (s : State) (a v : Nat) : (s.setReg a v).links = s.links := rfl
@[simp] theorem State.setReg_colls (s : State) (a v : Nat) : (s.setReg a v).colls = s.colls := rfl
@[simp] theorem State.setReg_remap (s : State) (a v : Nat) : (s.setReg a v).remap = s.remap := rfl
@[simp] theorem State.setReg_obs (s : State) (a v : Nat) : (s.setReg a v).obs = s.obs := rfl
@[simp] theorem State.setReg_vigil (s : State) (a v : Nat) : (s.setReg a v).vigil = s.vigil := rfl
@[simp] theorem State.setReg_ckpts (s : State) (a v : Nat) : (s.setReg a v).ckpts = s.ckpts := rfl
@[simp] theorem State.setReg_replays (s : State) (a v : Nat) : (s.setReg a v).replays = s.replays := rfl
@[simp] theorem State.setReg_saves (s : State) (a v : Nat) : (s.setReg a v).saves = s.saves := rfl
@[simp] theorem State.setReg_mgmt (s : State) (a v : Nat) : (s.setReg a v).mgmt = s.mgmt := rfl

/-! ### setField -/

@[simp] theorem State.setField_pending (s : State) (a lo len v : Nat) : (s.setField a lo len v).pending = s.pending := rfl
@[simp] theorem State.setField_gradeB44 (s : State) (a lo len v : Nat) : (s.setField a lo len v).gradeB44 = s.gradeB44 := rfl
@[simp] theorem State.setField_stepB0 (s : State) (a lo len v : Nat) : (s.setField a lo len v).stepB0 = s.stepB0 := rfl
@[simp] theorem State.setField_farFill (s : State) (a lo len v : Nat) : (s.setField a lo len v).farFill = s.farFill := rfl
@[simp] theorem State.setField_flashFill (s : State) (a lo len v : Nat) : (s.setField a lo len v).flashFill = s.flashFill := rfl
@[simp] theorem State.setField_serial (s : State) (a lo len v : Nat) : (s.setField a lo len v).serial = s.serial := rfl
@[simp] theorem State.setField_tick (s : State) (a lo len v : Nat) : (s.setField a lo len v).tick = s.tick := rfl
@[simp] theorem State.setField_subtick (s : State) (a lo len v : Nat) : (s.setField a lo len v).subtick = s.subtick := rfl
@[simp] theorem State.setField_latches (s : State) (a lo len v : Nat) : (s.setField a lo len v).latches = s.latches := rfl
@[simp] theorem State.setField_stages (s : State) (a lo len v : Nat) : (s.setField a lo len v).stages = s.stages := rfl
@[simp] theorem State.setField_rdata (s : State) (a lo len v : Nat) : (s.setField a lo len v).rdata = s.rdata := rfl
@[simp] theorem State.setField_free (s : State) (a lo len v : Nat) : (s.setField a lo len v).free = s.free := rfl
@[simp] theorem State.setField_mem (s : State) (a lo len v : Nat) : (s.setField a lo len v).mem = s.mem := rfl
@[simp] theorem State.setField_marks (s : State) (a lo len v : Nat) : (s.setField a lo len v).marks = s.marks := rfl
@[simp] theorem State.setField_held (s : State) (a lo len v : Nat) : (s.setField a lo len v).held = s.held := rfl
@[simp] theorem State.setField_cores (s : State) (a lo len v : Nat) : (s.setField a lo len v).cores = s.cores := rfl
@[simp] theorem State.setField_events (s : State) (a lo len v : Nat) : (s.setField a lo len v).events = s.events := rfl
@[simp] theorem State.setField_cmds (s : State) (a lo len v : Nat) : (s.setField a lo len v).cmds = s.cmds := rfl
@[simp] theorem State.setField_queues (s : State) (a lo len v : Nat) : (s.setField a lo len v).queues = s.queues := rfl
@[simp] theorem State.setField_cp (s : State) (a lo len v : Nat) : (s.setField a lo len v).cp = s.cp := rfl
@[simp] theorem State.setField_parts (s : State) (a lo len v : Nat) : (s.setField a lo len v).parts = s.parts := rfl
@[simp] theorem State.setField_alm (s : State) (a lo len v : Nat) : (s.setField a lo len v).alm = s.alm := rfl
@[simp] theorem State.setField_tiers (s : State) (a lo len v : Nat) : (s.setField a lo len v).tiers = s.tiers := rfl
@[simp] theorem State.setField_links (s : State) (a lo len v : Nat) : (s.setField a lo len v).links = s.links := rfl
@[simp] theorem State.setField_colls (s : State) (a lo len v : Nat) : (s.setField a lo len v).colls = s.colls := rfl
@[simp] theorem State.setField_remap (s : State) (a lo len v : Nat) : (s.setField a lo len v).remap = s.remap := rfl
@[simp] theorem State.setField_obs (s : State) (a lo len v : Nat) : (s.setField a lo len v).obs = s.obs := rfl
@[simp] theorem State.setField_vigil (s : State) (a lo len v : Nat) : (s.setField a lo len v).vigil = s.vigil := rfl
@[simp] theorem State.setField_ckpts (s : State) (a lo len v : Nat) : (s.setField a lo len v).ckpts = s.ckpts := rfl
@[simp] theorem State.setField_replays (s : State) (a lo len v : Nat) : (s.setField a lo len v).replays = s.replays := rfl
@[simp] theorem State.setField_saves (s : State) (a lo len v : Nat) : (s.setField a lo len v).saves = s.saves := rfl
@[simp] theorem State.setField_mgmt (s : State) (a lo len v : Nat) : (s.setField a lo len v).mgmt = s.mgmt := rfl

/-! ### setBit -/

@[simp] theorem State.setBit_pending (s : State) (a i : Nat) : (s.setBit a i).pending = s.pending := rfl
@[simp] theorem State.setBit_gradeB44 (s : State) (a i : Nat) : (s.setBit a i).gradeB44 = s.gradeB44 := rfl
@[simp] theorem State.setBit_stepB0 (s : State) (a i : Nat) : (s.setBit a i).stepB0 = s.stepB0 := rfl
@[simp] theorem State.setBit_farFill (s : State) (a i : Nat) : (s.setBit a i).farFill = s.farFill := rfl
@[simp] theorem State.setBit_flashFill (s : State) (a i : Nat) : (s.setBit a i).flashFill = s.flashFill := rfl
@[simp] theorem State.setBit_serial (s : State) (a i : Nat) : (s.setBit a i).serial = s.serial := rfl
@[simp] theorem State.setBit_tick (s : State) (a i : Nat) : (s.setBit a i).tick = s.tick := rfl
@[simp] theorem State.setBit_subtick (s : State) (a i : Nat) : (s.setBit a i).subtick = s.subtick := rfl
@[simp] theorem State.setBit_latches (s : State) (a i : Nat) : (s.setBit a i).latches = s.latches := rfl
@[simp] theorem State.setBit_stages (s : State) (a i : Nat) : (s.setBit a i).stages = s.stages := rfl
@[simp] theorem State.setBit_rdata (s : State) (a i : Nat) : (s.setBit a i).rdata = s.rdata := rfl
@[simp] theorem State.setBit_free (s : State) (a i : Nat) : (s.setBit a i).free = s.free := rfl
@[simp] theorem State.setBit_mem (s : State) (a i : Nat) : (s.setBit a i).mem = s.mem := rfl
@[simp] theorem State.setBit_marks (s : State) (a i : Nat) : (s.setBit a i).marks = s.marks := rfl
@[simp] theorem State.setBit_held (s : State) (a i : Nat) : (s.setBit a i).held = s.held := rfl
@[simp] theorem State.setBit_cores (s : State) (a i : Nat) : (s.setBit a i).cores = s.cores := rfl
@[simp] theorem State.setBit_events (s : State) (a i : Nat) : (s.setBit a i).events = s.events := rfl
@[simp] theorem State.setBit_cmds (s : State) (a i : Nat) : (s.setBit a i).cmds = s.cmds := rfl
@[simp] theorem State.setBit_queues (s : State) (a i : Nat) : (s.setBit a i).queues = s.queues := rfl
@[simp] theorem State.setBit_cp (s : State) (a i : Nat) : (s.setBit a i).cp = s.cp := rfl
@[simp] theorem State.setBit_parts (s : State) (a i : Nat) : (s.setBit a i).parts = s.parts := rfl
@[simp] theorem State.setBit_alm (s : State) (a i : Nat) : (s.setBit a i).alm = s.alm := rfl
@[simp] theorem State.setBit_tiers (s : State) (a i : Nat) : (s.setBit a i).tiers = s.tiers := rfl
@[simp] theorem State.setBit_links (s : State) (a i : Nat) : (s.setBit a i).links = s.links := rfl
@[simp] theorem State.setBit_colls (s : State) (a i : Nat) : (s.setBit a i).colls = s.colls := rfl
@[simp] theorem State.setBit_remap (s : State) (a i : Nat) : (s.setBit a i).remap = s.remap := rfl
@[simp] theorem State.setBit_obs (s : State) (a i : Nat) : (s.setBit a i).obs = s.obs := rfl
@[simp] theorem State.setBit_vigil (s : State) (a i : Nat) : (s.setBit a i).vigil = s.vigil := rfl
@[simp] theorem State.setBit_ckpts (s : State) (a i : Nat) : (s.setBit a i).ckpts = s.ckpts := rfl
@[simp] theorem State.setBit_replays (s : State) (a i : Nat) : (s.setBit a i).replays = s.replays := rfl
@[simp] theorem State.setBit_saves (s : State) (a i : Nat) : (s.setBit a i).saves = s.saves := rfl
@[simp] theorem State.setBit_mgmt (s : State) (a i : Nat) : (s.setBit a i).mgmt = s.mgmt := rfl

/-! ### clearBit -/

@[simp] theorem State.clearBit_pending (s : State) (a i : Nat) : (s.clearBit a i).pending = s.pending := rfl
@[simp] theorem State.clearBit_gradeB44 (s : State) (a i : Nat) : (s.clearBit a i).gradeB44 = s.gradeB44 := rfl
@[simp] theorem State.clearBit_stepB0 (s : State) (a i : Nat) : (s.clearBit a i).stepB0 = s.stepB0 := rfl
@[simp] theorem State.clearBit_farFill (s : State) (a i : Nat) : (s.clearBit a i).farFill = s.farFill := rfl
@[simp] theorem State.clearBit_flashFill (s : State) (a i : Nat) : (s.clearBit a i).flashFill = s.flashFill := rfl
@[simp] theorem State.clearBit_serial (s : State) (a i : Nat) : (s.clearBit a i).serial = s.serial := rfl
@[simp] theorem State.clearBit_tick (s : State) (a i : Nat) : (s.clearBit a i).tick = s.tick := rfl
@[simp] theorem State.clearBit_subtick (s : State) (a i : Nat) : (s.clearBit a i).subtick = s.subtick := rfl
@[simp] theorem State.clearBit_latches (s : State) (a i : Nat) : (s.clearBit a i).latches = s.latches := rfl
@[simp] theorem State.clearBit_stages (s : State) (a i : Nat) : (s.clearBit a i).stages = s.stages := rfl
@[simp] theorem State.clearBit_rdata (s : State) (a i : Nat) : (s.clearBit a i).rdata = s.rdata := rfl
@[simp] theorem State.clearBit_free (s : State) (a i : Nat) : (s.clearBit a i).free = s.free := rfl
@[simp] theorem State.clearBit_mem (s : State) (a i : Nat) : (s.clearBit a i).mem = s.mem := rfl
@[simp] theorem State.clearBit_marks (s : State) (a i : Nat) : (s.clearBit a i).marks = s.marks := rfl
@[simp] theorem State.clearBit_held (s : State) (a i : Nat) : (s.clearBit a i).held = s.held := rfl
@[simp] theorem State.clearBit_cores (s : State) (a i : Nat) : (s.clearBit a i).cores = s.cores := rfl
@[simp] theorem State.clearBit_events (s : State) (a i : Nat) : (s.clearBit a i).events = s.events := rfl
@[simp] theorem State.clearBit_cmds (s : State) (a i : Nat) : (s.clearBit a i).cmds = s.cmds := rfl
@[simp] theorem State.clearBit_queues (s : State) (a i : Nat) : (s.clearBit a i).queues = s.queues := rfl
@[simp] theorem State.clearBit_cp (s : State) (a i : Nat) : (s.clearBit a i).cp = s.cp := rfl
@[simp] theorem State.clearBit_parts (s : State) (a i : Nat) : (s.clearBit a i).parts = s.parts := rfl
@[simp] theorem State.clearBit_alm (s : State) (a i : Nat) : (s.clearBit a i).alm = s.alm := rfl
@[simp] theorem State.clearBit_tiers (s : State) (a i : Nat) : (s.clearBit a i).tiers = s.tiers := rfl
@[simp] theorem State.clearBit_links (s : State) (a i : Nat) : (s.clearBit a i).links = s.links := rfl
@[simp] theorem State.clearBit_colls (s : State) (a i : Nat) : (s.clearBit a i).colls = s.colls := rfl
@[simp] theorem State.clearBit_remap (s : State) (a i : Nat) : (s.clearBit a i).remap = s.remap := rfl
@[simp] theorem State.clearBit_obs (s : State) (a i : Nat) : (s.clearBit a i).obs = s.obs := rfl
@[simp] theorem State.clearBit_vigil (s : State) (a i : Nat) : (s.clearBit a i).vigil = s.vigil := rfl
@[simp] theorem State.clearBit_ckpts (s : State) (a i : Nat) : (s.clearBit a i).ckpts = s.ckpts := rfl
@[simp] theorem State.clearBit_replays (s : State) (a i : Nat) : (s.clearBit a i).replays = s.replays := rfl
@[simp] theorem State.clearBit_saves (s : State) (a i : Nat) : (s.clearBit a i).saves = s.saves := rfl
@[simp] theorem State.clearBit_mgmt (s : State) (a i : Nat) : (s.clearBit a i).mgmt = s.mgmt := rfl

/-! ### count -/

@[simp] theorem State.count_pending (s : State) (a n : Nat) : (s.count a n).pending = s.pending := rfl
@[simp] theorem State.count_gradeB44 (s : State) (a n : Nat) : (s.count a n).gradeB44 = s.gradeB44 := rfl
@[simp] theorem State.count_stepB0 (s : State) (a n : Nat) : (s.count a n).stepB0 = s.stepB0 := rfl
@[simp] theorem State.count_farFill (s : State) (a n : Nat) : (s.count a n).farFill = s.farFill := rfl
@[simp] theorem State.count_flashFill (s : State) (a n : Nat) : (s.count a n).flashFill = s.flashFill := rfl
@[simp] theorem State.count_serial (s : State) (a n : Nat) : (s.count a n).serial = s.serial := rfl
@[simp] theorem State.count_tick (s : State) (a n : Nat) : (s.count a n).tick = s.tick := rfl
@[simp] theorem State.count_subtick (s : State) (a n : Nat) : (s.count a n).subtick = s.subtick := rfl
@[simp] theorem State.count_latches (s : State) (a n : Nat) : (s.count a n).latches = s.latches := rfl
@[simp] theorem State.count_stages (s : State) (a n : Nat) : (s.count a n).stages = s.stages := rfl
@[simp] theorem State.count_rdata (s : State) (a n : Nat) : (s.count a n).rdata = s.rdata := rfl
@[simp] theorem State.count_free (s : State) (a n : Nat) : (s.count a n).free = s.free := rfl
@[simp] theorem State.count_mem (s : State) (a n : Nat) : (s.count a n).mem = s.mem := rfl
@[simp] theorem State.count_marks (s : State) (a n : Nat) : (s.count a n).marks = s.marks := rfl
@[simp] theorem State.count_held (s : State) (a n : Nat) : (s.count a n).held = s.held := rfl
@[simp] theorem State.count_cores (s : State) (a n : Nat) : (s.count a n).cores = s.cores := rfl
@[simp] theorem State.count_events (s : State) (a n : Nat) : (s.count a n).events = s.events := rfl
@[simp] theorem State.count_cmds (s : State) (a n : Nat) : (s.count a n).cmds = s.cmds := rfl
@[simp] theorem State.count_queues (s : State) (a n : Nat) : (s.count a n).queues = s.queues := rfl
@[simp] theorem State.count_cp (s : State) (a n : Nat) : (s.count a n).cp = s.cp := rfl
@[simp] theorem State.count_parts (s : State) (a n : Nat) : (s.count a n).parts = s.parts := rfl
@[simp] theorem State.count_alm (s : State) (a n : Nat) : (s.count a n).alm = s.alm := rfl
@[simp] theorem State.count_tiers (s : State) (a n : Nat) : (s.count a n).tiers = s.tiers := rfl
@[simp] theorem State.count_links (s : State) (a n : Nat) : (s.count a n).links = s.links := rfl
@[simp] theorem State.count_colls (s : State) (a n : Nat) : (s.count a n).colls = s.colls := rfl
@[simp] theorem State.count_remap (s : State) (a n : Nat) : (s.count a n).remap = s.remap := rfl
@[simp] theorem State.count_obs (s : State) (a n : Nat) : (s.count a n).obs = s.obs := rfl
@[simp] theorem State.count_vigil (s : State) (a n : Nat) : (s.count a n).vigil = s.vigil := rfl
@[simp] theorem State.count_ckpts (s : State) (a n : Nat) : (s.count a n).ckpts = s.ckpts := rfl
@[simp] theorem State.count_replays (s : State) (a n : Nat) : (s.count a n).replays = s.replays := rfl
@[simp] theorem State.count_saves (s : State) (a n : Nat) : (s.count a n).saves = s.saves := rfl
@[simp] theorem State.count_mgmt (s : State) (a n : Nat) : (s.count a n).mgmt = s.mgmt := rfl

/-! ### setWide -/

@[simp] theorem State.setWide_pending (s : State) (a v : Nat) : (s.setWide a v).pending = s.pending := rfl
@[simp] theorem State.setWide_gradeB44 (s : State) (a v : Nat) : (s.setWide a v).gradeB44 = s.gradeB44 := rfl
@[simp] theorem State.setWide_stepB0 (s : State) (a v : Nat) : (s.setWide a v).stepB0 = s.stepB0 := rfl
@[simp] theorem State.setWide_farFill (s : State) (a v : Nat) : (s.setWide a v).farFill = s.farFill := rfl
@[simp] theorem State.setWide_flashFill (s : State) (a v : Nat) : (s.setWide a v).flashFill = s.flashFill := rfl
@[simp] theorem State.setWide_serial (s : State) (a v : Nat) : (s.setWide a v).serial = s.serial := rfl
@[simp] theorem State.setWide_tick (s : State) (a v : Nat) : (s.setWide a v).tick = s.tick := rfl
@[simp] theorem State.setWide_subtick (s : State) (a v : Nat) : (s.setWide a v).subtick = s.subtick := rfl
@[simp] theorem State.setWide_latches (s : State) (a v : Nat) : (s.setWide a v).latches = s.latches := rfl
@[simp] theorem State.setWide_stages (s : State) (a v : Nat) : (s.setWide a v).stages = s.stages := rfl
@[simp] theorem State.setWide_rdata (s : State) (a v : Nat) : (s.setWide a v).rdata = s.rdata := rfl
@[simp] theorem State.setWide_free (s : State) (a v : Nat) : (s.setWide a v).free = s.free := rfl
@[simp] theorem State.setWide_mem (s : State) (a v : Nat) : (s.setWide a v).mem = s.mem := rfl
@[simp] theorem State.setWide_marks (s : State) (a v : Nat) : (s.setWide a v).marks = s.marks := rfl
@[simp] theorem State.setWide_held (s : State) (a v : Nat) : (s.setWide a v).held = s.held := rfl
@[simp] theorem State.setWide_cores (s : State) (a v : Nat) : (s.setWide a v).cores = s.cores := rfl
@[simp] theorem State.setWide_events (s : State) (a v : Nat) : (s.setWide a v).events = s.events := rfl
@[simp] theorem State.setWide_cmds (s : State) (a v : Nat) : (s.setWide a v).cmds = s.cmds := rfl
@[simp] theorem State.setWide_queues (s : State) (a v : Nat) : (s.setWide a v).queues = s.queues := rfl
@[simp] theorem State.setWide_cp (s : State) (a v : Nat) : (s.setWide a v).cp = s.cp := rfl
@[simp] theorem State.setWide_parts (s : State) (a v : Nat) : (s.setWide a v).parts = s.parts := rfl
@[simp] theorem State.setWide_alm (s : State) (a v : Nat) : (s.setWide a v).alm = s.alm := rfl
@[simp] theorem State.setWide_tiers (s : State) (a v : Nat) : (s.setWide a v).tiers = s.tiers := rfl
@[simp] theorem State.setWide_links (s : State) (a v : Nat) : (s.setWide a v).links = s.links := rfl
@[simp] theorem State.setWide_colls (s : State) (a v : Nat) : (s.setWide a v).colls = s.colls := rfl
@[simp] theorem State.setWide_remap (s : State) (a v : Nat) : (s.setWide a v).remap = s.remap := rfl
@[simp] theorem State.setWide_obs (s : State) (a v : Nat) : (s.setWide a v).obs = s.obs := rfl
@[simp] theorem State.setWide_vigil (s : State) (a v : Nat) : (s.setWide a v).vigil = s.vigil := rfl
@[simp] theorem State.setWide_ckpts (s : State) (a v : Nat) : (s.setWide a v).ckpts = s.ckpts := rfl
@[simp] theorem State.setWide_replays (s : State) (a v : Nat) : (s.setWide a v).replays = s.replays := rfl
@[simp] theorem State.setWide_saves (s : State) (a v : Nat) : (s.setWide a v).saves = s.saves := rfl
@[simp] theorem State.setWide_mgmt (s : State) (a v : Nat) : (s.setWide a v).mgmt = s.mgmt := rfl

/-! ### stageLow -/

@[simp] theorem State.stageLow_pending (s : State) (w l v : Nat) : (s.stageLow w l v).pending = s.pending := rfl
@[simp] theorem State.stageLow_gradeB44 (s : State) (w l v : Nat) : (s.stageLow w l v).gradeB44 = s.gradeB44 := rfl
@[simp] theorem State.stageLow_stepB0 (s : State) (w l v : Nat) : (s.stageLow w l v).stepB0 = s.stepB0 := rfl
@[simp] theorem State.stageLow_farFill (s : State) (w l v : Nat) : (s.stageLow w l v).farFill = s.farFill := rfl
@[simp] theorem State.stageLow_flashFill (s : State) (w l v : Nat) : (s.stageLow w l v).flashFill = s.flashFill := rfl
@[simp] theorem State.stageLow_serial (s : State) (w l v : Nat) : (s.stageLow w l v).serial = s.serial := rfl
@[simp] theorem State.stageLow_tick (s : State) (w l v : Nat) : (s.stageLow w l v).tick = s.tick := rfl
@[simp] theorem State.stageLow_subtick (s : State) (w l v : Nat) : (s.stageLow w l v).subtick = s.subtick := rfl
@[simp] theorem State.stageLow_regs (s : State) (w l v : Nat) : (s.stageLow w l v).regs = s.regs := rfl
@[simp] theorem State.stageLow_latches (s : State) (w l v : Nat) : (s.stageLow w l v).latches = s.latches := rfl
@[simp] theorem State.stageLow_rdata (s : State) (w l v : Nat) : (s.stageLow w l v).rdata = s.rdata := rfl
@[simp] theorem State.stageLow_free (s : State) (w l v : Nat) : (s.stageLow w l v).free = s.free := rfl
@[simp] theorem State.stageLow_mem (s : State) (w l v : Nat) : (s.stageLow w l v).mem = s.mem := rfl
@[simp] theorem State.stageLow_marks (s : State) (w l v : Nat) : (s.stageLow w l v).marks = s.marks := rfl
@[simp] theorem State.stageLow_held (s : State) (w l v : Nat) : (s.stageLow w l v).held = s.held := rfl
@[simp] theorem State.stageLow_cores (s : State) (w l v : Nat) : (s.stageLow w l v).cores = s.cores := rfl
@[simp] theorem State.stageLow_events (s : State) (w l v : Nat) : (s.stageLow w l v).events = s.events := rfl
@[simp] theorem State.stageLow_cmds (s : State) (w l v : Nat) : (s.stageLow w l v).cmds = s.cmds := rfl
@[simp] theorem State.stageLow_queues (s : State) (w l v : Nat) : (s.stageLow w l v).queues = s.queues := rfl
@[simp] theorem State.stageLow_cp (s : State) (w l v : Nat) : (s.stageLow w l v).cp = s.cp := rfl
@[simp] theorem State.stageLow_parts (s : State) (w l v : Nat) : (s.stageLow w l v).parts = s.parts := rfl
@[simp] theorem State.stageLow_alm (s : State) (w l v : Nat) : (s.stageLow w l v).alm = s.alm := rfl
@[simp] theorem State.stageLow_tiers (s : State) (w l v : Nat) : (s.stageLow w l v).tiers = s.tiers := rfl
@[simp] theorem State.stageLow_links (s : State) (w l v : Nat) : (s.stageLow w l v).links = s.links := rfl
@[simp] theorem State.stageLow_colls (s : State) (w l v : Nat) : (s.stageLow w l v).colls = s.colls := rfl
@[simp] theorem State.stageLow_remap (s : State) (w l v : Nat) : (s.stageLow w l v).remap = s.remap := rfl
@[simp] theorem State.stageLow_obs (s : State) (w l v : Nat) : (s.stageLow w l v).obs = s.obs := rfl
@[simp] theorem State.stageLow_vigil (s : State) (w l v : Nat) : (s.stageLow w l v).vigil = s.vigil := rfl
@[simp] theorem State.stageLow_ckpts (s : State) (w l v : Nat) : (s.stageLow w l v).ckpts = s.ckpts := rfl
@[simp] theorem State.stageLow_replays (s : State) (w l v : Nat) : (s.stageLow w l v).replays = s.replays := rfl
@[simp] theorem State.stageLow_saves (s : State) (w l v : Nat) : (s.stageLow w l v).saves = s.saves := rfl
@[simp] theorem State.stageLow_mgmt (s : State) (w l v : Nat) : (s.stageLow w l v).mgmt = s.mgmt := rfl

/-! ### commitWide -/

@[simp] theorem State.commitWide_pending (s : State) (w l h : Nat) : (s.commitWide w l h).pending = s.pending := rfl
@[simp] theorem State.commitWide_gradeB44 (s : State) (w l h : Nat) : (s.commitWide w l h).gradeB44 = s.gradeB44 := rfl
@[simp] theorem State.commitWide_stepB0 (s : State) (w l h : Nat) : (s.commitWide w l h).stepB0 = s.stepB0 := rfl
@[simp] theorem State.commitWide_farFill (s : State) (w l h : Nat) : (s.commitWide w l h).farFill = s.farFill := rfl
@[simp] theorem State.commitWide_flashFill (s : State) (w l h : Nat) : (s.commitWide w l h).flashFill = s.flashFill := rfl
@[simp] theorem State.commitWide_serial (s : State) (w l h : Nat) : (s.commitWide w l h).serial = s.serial := rfl
@[simp] theorem State.commitWide_tick (s : State) (w l h : Nat) : (s.commitWide w l h).tick = s.tick := rfl
@[simp] theorem State.commitWide_subtick (s : State) (w l h : Nat) : (s.commitWide w l h).subtick = s.subtick := rfl
@[simp] theorem State.commitWide_latches (s : State) (w l h : Nat) : (s.commitWide w l h).latches = s.latches := rfl
@[simp] theorem State.commitWide_rdata (s : State) (w l h : Nat) : (s.commitWide w l h).rdata = s.rdata := rfl
@[simp] theorem State.commitWide_free (s : State) (w l h : Nat) : (s.commitWide w l h).free = s.free := rfl
@[simp] theorem State.commitWide_mem (s : State) (w l h : Nat) : (s.commitWide w l h).mem = s.mem := rfl
@[simp] theorem State.commitWide_marks (s : State) (w l h : Nat) : (s.commitWide w l h).marks = s.marks := rfl
@[simp] theorem State.commitWide_held (s : State) (w l h : Nat) : (s.commitWide w l h).held = s.held := rfl
@[simp] theorem State.commitWide_cores (s : State) (w l h : Nat) : (s.commitWide w l h).cores = s.cores := rfl
@[simp] theorem State.commitWide_events (s : State) (w l h : Nat) : (s.commitWide w l h).events = s.events := rfl
@[simp] theorem State.commitWide_cmds (s : State) (w l h : Nat) : (s.commitWide w l h).cmds = s.cmds := rfl
@[simp] theorem State.commitWide_queues (s : State) (w l h : Nat) : (s.commitWide w l h).queues = s.queues := rfl
@[simp] theorem State.commitWide_cp (s : State) (w l h : Nat) : (s.commitWide w l h).cp = s.cp := rfl
@[simp] theorem State.commitWide_parts (s : State) (w l h : Nat) : (s.commitWide w l h).parts = s.parts := rfl
@[simp] theorem State.commitWide_alm (s : State) (w l h : Nat) : (s.commitWide w l h).alm = s.alm := rfl
@[simp] theorem State.commitWide_tiers (s : State) (w l h : Nat) : (s.commitWide w l h).tiers = s.tiers := rfl
@[simp] theorem State.commitWide_links (s : State) (w l h : Nat) : (s.commitWide w l h).links = s.links := rfl
@[simp] theorem State.commitWide_colls (s : State) (w l h : Nat) : (s.commitWide w l h).colls = s.colls := rfl
@[simp] theorem State.commitWide_remap (s : State) (w l h : Nat) : (s.commitWide w l h).remap = s.remap := rfl
@[simp] theorem State.commitWide_obs (s : State) (w l h : Nat) : (s.commitWide w l h).obs = s.obs := rfl
@[simp] theorem State.commitWide_vigil (s : State) (w l h : Nat) : (s.commitWide w l h).vigil = s.vigil := rfl
@[simp] theorem State.commitWide_ckpts (s : State) (w l h : Nat) : (s.commitWide w l h).ckpts = s.ckpts := rfl
@[simp] theorem State.commitWide_replays (s : State) (w l h : Nat) : (s.commitWide w l h).replays = s.replays := rfl
@[simp] theorem State.commitWide_saves (s : State) (w l h : Nat) : (s.commitWide w l h).saves = s.saves := rfl
@[simp] theorem State.commitWide_mgmt (s : State) (w l h : Nat) : (s.commitWide w l h).mgmt = s.mgmt := rfl

/-! ### tally -/

@[simp] theorem State.tally_pending (s : State) (k i e n : Nat) : (s.tally k i e n).pending = s.pending := rfl
@[simp] theorem State.tally_gradeB44 (s : State) (k i e n : Nat) : (s.tally k i e n).gradeB44 = s.gradeB44 := rfl
@[simp] theorem State.tally_stepB0 (s : State) (k i e n : Nat) : (s.tally k i e n).stepB0 = s.stepB0 := rfl
@[simp] theorem State.tally_farFill (s : State) (k i e n : Nat) : (s.tally k i e n).farFill = s.farFill := rfl
@[simp] theorem State.tally_flashFill (s : State) (k i e n : Nat) : (s.tally k i e n).flashFill = s.flashFill := rfl
@[simp] theorem State.tally_serial (s : State) (k i e n : Nat) : (s.tally k i e n).serial = s.serial := rfl
@[simp] theorem State.tally_tick (s : State) (k i e n : Nat) : (s.tally k i e n).tick = s.tick := rfl
@[simp] theorem State.tally_subtick (s : State) (k i e n : Nat) : (s.tally k i e n).subtick = s.subtick := rfl
@[simp] theorem State.tally_regs (s : State) (k i e n : Nat) : (s.tally k i e n).regs = s.regs := rfl
@[simp] theorem State.tally_latches (s : State) (k i e n : Nat) : (s.tally k i e n).latches = s.latches := rfl
@[simp] theorem State.tally_stages (s : State) (k i e n : Nat) : (s.tally k i e n).stages = s.stages := rfl
@[simp] theorem State.tally_rdata (s : State) (k i e n : Nat) : (s.tally k i e n).rdata = s.rdata := rfl
@[simp] theorem State.tally_free (s : State) (k i e n : Nat) : (s.tally k i e n).free = s.free := rfl
@[simp] theorem State.tally_mem (s : State) (k i e n : Nat) : (s.tally k i e n).mem = s.mem := rfl
@[simp] theorem State.tally_marks (s : State) (k i e n : Nat) : (s.tally k i e n).marks = s.marks := rfl
@[simp] theorem State.tally_held (s : State) (k i e n : Nat) : (s.tally k i e n).held = s.held := rfl
@[simp] theorem State.tally_cores (s : State) (k i e n : Nat) : (s.tally k i e n).cores = s.cores := rfl
@[simp] theorem State.tally_events (s : State) (k i e n : Nat) : (s.tally k i e n).events = s.events := rfl
@[simp] theorem State.tally_cmds (s : State) (k i e n : Nat) : (s.tally k i e n).cmds = s.cmds := rfl
@[simp] theorem State.tally_queues (s : State) (k i e n : Nat) : (s.tally k i e n).queues = s.queues := rfl
@[simp] theorem State.tally_cp (s : State) (k i e n : Nat) : (s.tally k i e n).cp = s.cp := rfl
@[simp] theorem State.tally_parts (s : State) (k i e n : Nat) : (s.tally k i e n).parts = s.parts := rfl
@[simp] theorem State.tally_alm (s : State) (k i e n : Nat) : (s.tally k i e n).alm = s.alm := rfl
@[simp] theorem State.tally_tiers (s : State) (k i e n : Nat) : (s.tally k i e n).tiers = s.tiers := rfl
@[simp] theorem State.tally_links (s : State) (k i e n : Nat) : (s.tally k i e n).links = s.links := rfl
@[simp] theorem State.tally_colls (s : State) (k i e n : Nat) : (s.tally k i e n).colls = s.colls := rfl
@[simp] theorem State.tally_remap (s : State) (k i e n : Nat) : (s.tally k i e n).remap = s.remap := rfl
@[simp] theorem State.tally_vigil (s : State) (k i e n : Nat) : (s.tally k i e n).vigil = s.vigil := rfl
@[simp] theorem State.tally_ckpts (s : State) (k i e n : Nat) : (s.tally k i e n).ckpts = s.ckpts := rfl
@[simp] theorem State.tally_replays (s : State) (k i e n : Nat) : (s.tally k i e n).replays = s.replays := rfl
@[simp] theorem State.tally_saves (s : State) (k i e n : Nat) : (s.tally k i e n).saves = s.saves := rfl
@[simp] theorem State.tally_mgmt (s : State) (k i e n : Nat) : (s.tally k i e n).mgmt = s.mgmt := rfl

/-! ### modPart -/

@[simp] theorem State.modPart_pending (s : State) (p : Nat) (f : Part → Part) : (s.modPart p f).pending = s.pending := rfl
@[simp] theorem State.modPart_gradeB44 (s : State) (p : Nat) (f : Part → Part) : (s.modPart p f).gradeB44 = s.gradeB44 := rfl
@[simp] theorem State.modPart_stepB0 (s : State) (p : Nat) (f : Part → Part) : (s.modPart p f).stepB0 = s.stepB0 := rfl
@[simp] theorem State.modPart_farFill (s : State) (p : Nat) (f : Part → Part) : (s.modPart p f).farFill = s.farFill := rfl
@[simp] theorem State.modPart_flashFill (s : State) (p : Nat) (f : Part → Part) : (s.modPart p f).flashFill = s.flashFill := rfl
@[simp] theorem State.modPart_serial (s : State) (p : Nat) (f : Part → Part) : (s.modPart p f).serial = s.serial := rfl
@[simp] theorem State.modPart_tick (s : State) (p : Nat) (f : Part → Part) : (s.modPart p f).tick = s.tick := rfl
@[simp] theorem State.modPart_subtick (s : State) (p : Nat) (f : Part → Part) : (s.modPart p f).subtick = s.subtick := rfl
@[simp] theorem State.modPart_regs (s : State) (p : Nat) (f : Part → Part) : (s.modPart p f).regs = s.regs := rfl
@[simp] theorem State.modPart_latches (s : State) (p : Nat) (f : Part → Part) : (s.modPart p f).latches = s.latches := rfl
@[simp] theorem State.modPart_stages (s : State) (p : Nat) (f : Part → Part) : (s.modPart p f).stages = s.stages := rfl
@[simp] theorem State.modPart_rdata (s : State) (p : Nat) (f : Part → Part) : (s.modPart p f).rdata = s.rdata := rfl
@[simp] theorem State.modPart_free (s : State) (p : Nat) (f : Part → Part) : (s.modPart p f).free = s.free := rfl
@[simp] theorem State.modPart_mem (s : State) (p : Nat) (f : Part → Part) : (s.modPart p f).mem = s.mem := rfl
@[simp] theorem State.modPart_marks (s : State) (p : Nat) (f : Part → Part) : (s.modPart p f).marks = s.marks := rfl
@[simp] theorem State.modPart_held (s : State) (p : Nat) (f : Part → Part) : (s.modPart p f).held = s.held := rfl
@[simp] theorem State.modPart_cores (s : State) (p : Nat) (f : Part → Part) : (s.modPart p f).cores = s.cores := rfl
@[simp] theorem State.modPart_events (s : State) (p : Nat) (f : Part → Part) : (s.modPart p f).events = s.events := rfl
@[simp] theorem State.modPart_cmds (s : State) (p : Nat) (f : Part → Part) : (s.modPart p f).cmds = s.cmds := rfl
@[simp] theorem State.modPart_queues (s : State) (p : Nat) (f : Part → Part) : (s.modPart p f).queues = s.queues := rfl
@[simp] theorem State.modPart_cp (s : State) (p : Nat) (f : Part → Part) : (s.modPart p f).cp = s.cp := rfl
@[simp] theorem State.modPart_alm (s : State) (p : Nat) (f : Part → Part) : (s.modPart p f).alm = s.alm := rfl
@[simp] theorem State.modPart_tiers (s : State) (p : Nat) (f : Part → Part) : (s.modPart p f).tiers = s.tiers := rfl
@[simp] theorem State.modPart_links (s : State) (p : Nat) (f : Part → Part) : (s.modPart p f).links = s.links := rfl
@[simp] theorem State.modPart_colls (s : State) (p : Nat) (f : Part → Part) : (s.modPart p f).colls = s.colls := rfl
@[simp] theorem State.modPart_remap (s : State) (p : Nat) (f : Part → Part) : (s.modPart p f).remap = s.remap := rfl
@[simp] theorem State.modPart_obs (s : State) (p : Nat) (f : Part → Part) : (s.modPart p f).obs = s.obs := rfl
@[simp] theorem State.modPart_vigil (s : State) (p : Nat) (f : Part → Part) : (s.modPart p f).vigil = s.vigil := rfl
@[simp] theorem State.modPart_ckpts (s : State) (p : Nat) (f : Part → Part) : (s.modPart p f).ckpts = s.ckpts := rfl
@[simp] theorem State.modPart_replays (s : State) (p : Nat) (f : Part → Part) : (s.modPart p f).replays = s.replays := rfl
@[simp] theorem State.modPart_saves (s : State) (p : Nat) (f : Part → Part) : (s.modPart p f).saves = s.saves := rfl
@[simp] theorem State.modPart_mgmt (s : State) (p : Nat) (f : Part → Part) : (s.modPart p f).mgmt = s.mgmt := rfl

/-! ### setCore -/

@[simp] theorem State.setCore_pending (s : State) (c : Nat) (k : Core) : (s.setCore c k).pending = s.pending := rfl
@[simp] theorem State.setCore_gradeB44 (s : State) (c : Nat) (k : Core) : (s.setCore c k).gradeB44 = s.gradeB44 := rfl
@[simp] theorem State.setCore_stepB0 (s : State) (c : Nat) (k : Core) : (s.setCore c k).stepB0 = s.stepB0 := rfl
@[simp] theorem State.setCore_farFill (s : State) (c : Nat) (k : Core) : (s.setCore c k).farFill = s.farFill := rfl
@[simp] theorem State.setCore_flashFill (s : State) (c : Nat) (k : Core) : (s.setCore c k).flashFill = s.flashFill := rfl
@[simp] theorem State.setCore_serial (s : State) (c : Nat) (k : Core) : (s.setCore c k).serial = s.serial := rfl
@[simp] theorem State.setCore_tick (s : State) (c : Nat) (k : Core) : (s.setCore c k).tick = s.tick := rfl
@[simp] theorem State.setCore_subtick (s : State) (c : Nat) (k : Core) : (s.setCore c k).subtick = s.subtick := rfl
@[simp] theorem State.setCore_regs (s : State) (c : Nat) (k : Core) : (s.setCore c k).regs = s.regs := rfl
@[simp] theorem State.setCore_latches (s : State) (c : Nat) (k : Core) : (s.setCore c k).latches = s.latches := rfl
@[simp] theorem State.setCore_stages (s : State) (c : Nat) (k : Core) : (s.setCore c k).stages = s.stages := rfl
@[simp] theorem State.setCore_rdata (s : State) (c : Nat) (k : Core) : (s.setCore c k).rdata = s.rdata := rfl
@[simp] theorem State.setCore_free (s : State) (c : Nat) (k : Core) : (s.setCore c k).free = s.free := rfl
@[simp] theorem State.setCore_mem (s : State) (c : Nat) (k : Core) : (s.setCore c k).mem = s.mem := rfl
@[simp] theorem State.setCore_marks (s : State) (c : Nat) (k : Core) : (s.setCore c k).marks = s.marks := rfl
@[simp] theorem State.setCore_held (s : State) (c : Nat) (k : Core) : (s.setCore c k).held = s.held := rfl
@[simp] theorem State.setCore_events (s : State) (c : Nat) (k : Core) : (s.setCore c k).events = s.events := rfl
@[simp] theorem State.setCore_cmds (s : State) (c : Nat) (k : Core) : (s.setCore c k).cmds = s.cmds := rfl
@[simp] theorem State.setCore_queues (s : State) (c : Nat) (k : Core) : (s.setCore c k).queues = s.queues := rfl
@[simp] theorem State.setCore_cp (s : State) (c : Nat) (k : Core) : (s.setCore c k).cp = s.cp := rfl
@[simp] theorem State.setCore_parts (s : State) (c : Nat) (k : Core) : (s.setCore c k).parts = s.parts := rfl
@[simp] theorem State.setCore_alm (s : State) (c : Nat) (k : Core) : (s.setCore c k).alm = s.alm := rfl
@[simp] theorem State.setCore_tiers (s : State) (c : Nat) (k : Core) : (s.setCore c k).tiers = s.tiers := rfl
@[simp] theorem State.setCore_links (s : State) (c : Nat) (k : Core) : (s.setCore c k).links = s.links := rfl
@[simp] theorem State.setCore_colls (s : State) (c : Nat) (k : Core) : (s.setCore c k).colls = s.colls := rfl
@[simp] theorem State.setCore_remap (s : State) (c : Nat) (k : Core) : (s.setCore c k).remap = s.remap := rfl
@[simp] theorem State.setCore_obs (s : State) (c : Nat) (k : Core) : (s.setCore c k).obs = s.obs := rfl
@[simp] theorem State.setCore_vigil (s : State) (c : Nat) (k : Core) : (s.setCore c k).vigil = s.vigil := rfl
@[simp] theorem State.setCore_ckpts (s : State) (c : Nat) (k : Core) : (s.setCore c k).ckpts = s.ckpts := rfl
@[simp] theorem State.setCore_replays (s : State) (c : Nat) (k : Core) : (s.setCore c k).replays = s.replays := rfl
@[simp] theorem State.setCore_saves (s : State) (c : Nat) (k : Core) : (s.setCore c k).saves = s.saves := rfl
@[simp] theorem State.setCore_mgmt (s : State) (c : Nat) (k : Core) : (s.setCore c k).mgmt = s.mgmt := rfl

/-! ### modCore -/

@[simp] theorem State.modCore_pending (s : State) (c : Nat) (f : Core → Core) : (s.modCore c f).pending = s.pending := rfl
@[simp] theorem State.modCore_gradeB44 (s : State) (c : Nat) (f : Core → Core) : (s.modCore c f).gradeB44 = s.gradeB44 := rfl
@[simp] theorem State.modCore_stepB0 (s : State) (c : Nat) (f : Core → Core) : (s.modCore c f).stepB0 = s.stepB0 := rfl
@[simp] theorem State.modCore_farFill (s : State) (c : Nat) (f : Core → Core) : (s.modCore c f).farFill = s.farFill := rfl
@[simp] theorem State.modCore_flashFill (s : State) (c : Nat) (f : Core → Core) : (s.modCore c f).flashFill = s.flashFill := rfl
@[simp] theorem State.modCore_serial (s : State) (c : Nat) (f : Core → Core) : (s.modCore c f).serial = s.serial := rfl
@[simp] theorem State.modCore_tick (s : State) (c : Nat) (f : Core → Core) : (s.modCore c f).tick = s.tick := rfl
@[simp] theorem State.modCore_subtick (s : State) (c : Nat) (f : Core → Core) : (s.modCore c f).subtick = s.subtick := rfl
@[simp] theorem State.modCore_regs (s : State) (c : Nat) (f : Core → Core) : (s.modCore c f).regs = s.regs := rfl
@[simp] theorem State.modCore_latches (s : State) (c : Nat) (f : Core → Core) : (s.modCore c f).latches = s.latches := rfl
@[simp] theorem State.modCore_stages (s : State) (c : Nat) (f : Core → Core) : (s.modCore c f).stages = s.stages := rfl
@[simp] theorem State.modCore_rdata (s : State) (c : Nat) (f : Core → Core) : (s.modCore c f).rdata = s.rdata := rfl
@[simp] theorem State.modCore_free (s : State) (c : Nat) (f : Core → Core) : (s.modCore c f).free = s.free := rfl
@[simp] theorem State.modCore_mem (s : State) (c : Nat) (f : Core → Core) : (s.modCore c f).mem = s.mem := rfl
@[simp] theorem State.modCore_marks (s : State) (c : Nat) (f : Core → Core) : (s.modCore c f).marks = s.marks := rfl
@[simp] theorem State.modCore_held (s : State) (c : Nat) (f : Core → Core) : (s.modCore c f).held = s.held := rfl
@[simp] theorem State.modCore_events (s : State) (c : Nat) (f : Core → Core) : (s.modCore c f).events = s.events := rfl
@[simp] theorem State.modCore_cmds (s : State) (c : Nat) (f : Core → Core) : (s.modCore c f).cmds = s.cmds := rfl
@[simp] theorem State.modCore_queues (s : State) (c : Nat) (f : Core → Core) : (s.modCore c f).queues = s.queues := rfl
@[simp] theorem State.modCore_cp (s : State) (c : Nat) (f : Core → Core) : (s.modCore c f).cp = s.cp := rfl
@[simp] theorem State.modCore_parts (s : State) (c : Nat) (f : Core → Core) : (s.modCore c f).parts = s.parts := rfl
@[simp] theorem State.modCore_alm (s : State) (c : Nat) (f : Core → Core) : (s.modCore c f).alm = s.alm := rfl
@[simp] theorem State.modCore_tiers (s : State) (c : Nat) (f : Core → Core) : (s.modCore c f).tiers = s.tiers := rfl
@[simp] theorem State.modCore_links (s : State) (c : Nat) (f : Core → Core) : (s.modCore c f).links = s.links := rfl
@[simp] theorem State.modCore_colls (s : State) (c : Nat) (f : Core → Core) : (s.modCore c f).colls = s.colls := rfl
@[simp] theorem State.modCore_remap (s : State) (c : Nat) (f : Core → Core) : (s.modCore c f).remap = s.remap := rfl
@[simp] theorem State.modCore_obs (s : State) (c : Nat) (f : Core → Core) : (s.modCore c f).obs = s.obs := rfl
@[simp] theorem State.modCore_vigil (s : State) (c : Nat) (f : Core → Core) : (s.modCore c f).vigil = s.vigil := rfl
@[simp] theorem State.modCore_ckpts (s : State) (c : Nat) (f : Core → Core) : (s.modCore c f).ckpts = s.ckpts := rfl
@[simp] theorem State.modCore_replays (s : State) (c : Nat) (f : Core → Core) : (s.modCore c f).replays = s.replays := rfl
@[simp] theorem State.modCore_saves (s : State) (c : Nat) (f : Core → Core) : (s.modCore c f).saves = s.saves := rfl
@[simp] theorem State.modCore_mgmt (s : State) (c : Nat) (f : Core → Core) : (s.modCore c f).mgmt = s.mgmt := rfl

/-! ### setCmd -/

@[simp] theorem State.setCmd_pending (s : State) (i : Nat) (c : Option Cmd) : (s.setCmd i c).pending = s.pending := rfl
@[simp] theorem State.setCmd_gradeB44 (s : State) (i : Nat) (c : Option Cmd) : (s.setCmd i c).gradeB44 = s.gradeB44 := rfl
@[simp] theorem State.setCmd_stepB0 (s : State) (i : Nat) (c : Option Cmd) : (s.setCmd i c).stepB0 = s.stepB0 := rfl
@[simp] theorem State.setCmd_farFill (s : State) (i : Nat) (c : Option Cmd) : (s.setCmd i c).farFill = s.farFill := rfl
@[simp] theorem State.setCmd_flashFill (s : State) (i : Nat) (c : Option Cmd) : (s.setCmd i c).flashFill = s.flashFill := rfl
@[simp] theorem State.setCmd_serial (s : State) (i : Nat) (c : Option Cmd) : (s.setCmd i c).serial = s.serial := rfl
@[simp] theorem State.setCmd_tick (s : State) (i : Nat) (c : Option Cmd) : (s.setCmd i c).tick = s.tick := rfl
@[simp] theorem State.setCmd_subtick (s : State) (i : Nat) (c : Option Cmd) : (s.setCmd i c).subtick = s.subtick := rfl
@[simp] theorem State.setCmd_regs (s : State) (i : Nat) (c : Option Cmd) : (s.setCmd i c).regs = s.regs := rfl
@[simp] theorem State.setCmd_latches (s : State) (i : Nat) (c : Option Cmd) : (s.setCmd i c).latches = s.latches := rfl
@[simp] theorem State.setCmd_stages (s : State) (i : Nat) (c : Option Cmd) : (s.setCmd i c).stages = s.stages := rfl
@[simp] theorem State.setCmd_rdata (s : State) (i : Nat) (c : Option Cmd) : (s.setCmd i c).rdata = s.rdata := rfl
@[simp] theorem State.setCmd_free (s : State) (i : Nat) (c : Option Cmd) : (s.setCmd i c).free = s.free := rfl
@[simp] theorem State.setCmd_mem (s : State) (i : Nat) (c : Option Cmd) : (s.setCmd i c).mem = s.mem := rfl
@[simp] theorem State.setCmd_marks (s : State) (i : Nat) (c : Option Cmd) : (s.setCmd i c).marks = s.marks := rfl
@[simp] theorem State.setCmd_held (s : State) (i : Nat) (c : Option Cmd) : (s.setCmd i c).held = s.held := rfl
@[simp] theorem State.setCmd_cores (s : State) (i : Nat) (c : Option Cmd) : (s.setCmd i c).cores = s.cores := rfl
@[simp] theorem State.setCmd_events (s : State) (i : Nat) (c : Option Cmd) : (s.setCmd i c).events = s.events := rfl
@[simp] theorem State.setCmd_queues (s : State) (i : Nat) (c : Option Cmd) : (s.setCmd i c).queues = s.queues := rfl
@[simp] theorem State.setCmd_cp (s : State) (i : Nat) (c : Option Cmd) : (s.setCmd i c).cp = s.cp := rfl
@[simp] theorem State.setCmd_parts (s : State) (i : Nat) (c : Option Cmd) : (s.setCmd i c).parts = s.parts := rfl
@[simp] theorem State.setCmd_alm (s : State) (i : Nat) (c : Option Cmd) : (s.setCmd i c).alm = s.alm := rfl
@[simp] theorem State.setCmd_tiers (s : State) (i : Nat) (c : Option Cmd) : (s.setCmd i c).tiers = s.tiers := rfl
@[simp] theorem State.setCmd_links (s : State) (i : Nat) (c : Option Cmd) : (s.setCmd i c).links = s.links := rfl
@[simp] theorem State.setCmd_colls (s : State) (i : Nat) (c : Option Cmd) : (s.setCmd i c).colls = s.colls := rfl
@[simp] theorem State.setCmd_remap (s : State) (i : Nat) (c : Option Cmd) : (s.setCmd i c).remap = s.remap := rfl
@[simp] theorem State.setCmd_obs (s : State) (i : Nat) (c : Option Cmd) : (s.setCmd i c).obs = s.obs := rfl
@[simp] theorem State.setCmd_vigil (s : State) (i : Nat) (c : Option Cmd) : (s.setCmd i c).vigil = s.vigil := rfl
@[simp] theorem State.setCmd_ckpts (s : State) (i : Nat) (c : Option Cmd) : (s.setCmd i c).ckpts = s.ckpts := rfl
@[simp] theorem State.setCmd_replays (s : State) (i : Nat) (c : Option Cmd) : (s.setCmd i c).replays = s.replays := rfl
@[simp] theorem State.setCmd_saves (s : State) (i : Nat) (c : Option Cmd) : (s.setCmd i c).saves = s.saves := rfl
@[simp] theorem State.setCmd_mgmt (s : State) (i : Nat) (c : Option Cmd) : (s.setCmd i c).mgmt = s.mgmt := rfl

/-! ### modQueue -/

@[simp] theorem State.modQueue_pending (s : State) (f q : Nat) (g : Queue → Queue) : (s.modQueue f q g).pending = s.pending := rfl
@[simp] theorem State.modQueue_gradeB44 (s : State) (f q : Nat) (g : Queue → Queue) : (s.modQueue f q g).gradeB44 = s.gradeB44 := rfl
@[simp] theorem State.modQueue_stepB0 (s : State) (f q : Nat) (g : Queue → Queue) : (s.modQueue f q g).stepB0 = s.stepB0 := rfl
@[simp] theorem State.modQueue_farFill (s : State) (f q : Nat) (g : Queue → Queue) : (s.modQueue f q g).farFill = s.farFill := rfl
@[simp] theorem State.modQueue_flashFill (s : State) (f q : Nat) (g : Queue → Queue) : (s.modQueue f q g).flashFill = s.flashFill := rfl
@[simp] theorem State.modQueue_serial (s : State) (f q : Nat) (g : Queue → Queue) : (s.modQueue f q g).serial = s.serial := rfl
@[simp] theorem State.modQueue_tick (s : State) (f q : Nat) (g : Queue → Queue) : (s.modQueue f q g).tick = s.tick := rfl
@[simp] theorem State.modQueue_subtick (s : State) (f q : Nat) (g : Queue → Queue) : (s.modQueue f q g).subtick = s.subtick := rfl
@[simp] theorem State.modQueue_regs (s : State) (f q : Nat) (g : Queue → Queue) : (s.modQueue f q g).regs = s.regs := rfl
@[simp] theorem State.modQueue_latches (s : State) (f q : Nat) (g : Queue → Queue) : (s.modQueue f q g).latches = s.latches := rfl
@[simp] theorem State.modQueue_stages (s : State) (f q : Nat) (g : Queue → Queue) : (s.modQueue f q g).stages = s.stages := rfl
@[simp] theorem State.modQueue_rdata (s : State) (f q : Nat) (g : Queue → Queue) : (s.modQueue f q g).rdata = s.rdata := rfl
@[simp] theorem State.modQueue_free (s : State) (f q : Nat) (g : Queue → Queue) : (s.modQueue f q g).free = s.free := rfl
@[simp] theorem State.modQueue_mem (s : State) (f q : Nat) (g : Queue → Queue) : (s.modQueue f q g).mem = s.mem := rfl
@[simp] theorem State.modQueue_marks (s : State) (f q : Nat) (g : Queue → Queue) : (s.modQueue f q g).marks = s.marks := rfl
@[simp] theorem State.modQueue_held (s : State) (f q : Nat) (g : Queue → Queue) : (s.modQueue f q g).held = s.held := rfl
@[simp] theorem State.modQueue_cores (s : State) (f q : Nat) (g : Queue → Queue) : (s.modQueue f q g).cores = s.cores := rfl
@[simp] theorem State.modQueue_events (s : State) (f q : Nat) (g : Queue → Queue) : (s.modQueue f q g).events = s.events := rfl
@[simp] theorem State.modQueue_cmds (s : State) (f q : Nat) (g : Queue → Queue) : (s.modQueue f q g).cmds = s.cmds := rfl
@[simp] theorem State.modQueue_cp (s : State) (f q : Nat) (g : Queue → Queue) : (s.modQueue f q g).cp = s.cp := rfl
@[simp] theorem State.modQueue_parts (s : State) (f q : Nat) (g : Queue → Queue) : (s.modQueue f q g).parts = s.parts := rfl
@[simp] theorem State.modQueue_alm (s : State) (f q : Nat) (g : Queue → Queue) : (s.modQueue f q g).alm = s.alm := rfl
@[simp] theorem State.modQueue_tiers (s : State) (f q : Nat) (g : Queue → Queue) : (s.modQueue f q g).tiers = s.tiers := rfl
@[simp] theorem State.modQueue_links (s : State) (f q : Nat) (g : Queue → Queue) : (s.modQueue f q g).links = s.links := rfl
@[simp] theorem State.modQueue_colls (s : State) (f q : Nat) (g : Queue → Queue) : (s.modQueue f q g).colls = s.colls := rfl
@[simp] theorem State.modQueue_remap (s : State) (f q : Nat) (g : Queue → Queue) : (s.modQueue f q g).remap = s.remap := rfl
@[simp] theorem State.modQueue_obs (s : State) (f q : Nat) (g : Queue → Queue) : (s.modQueue f q g).obs = s.obs := rfl
@[simp] theorem State.modQueue_vigil (s : State) (f q : Nat) (g : Queue → Queue) : (s.modQueue f q g).vigil = s.vigil := rfl
@[simp] theorem State.modQueue_ckpts (s : State) (f q : Nat) (g : Queue → Queue) : (s.modQueue f q g).ckpts = s.ckpts := rfl
@[simp] theorem State.modQueue_replays (s : State) (f q : Nat) (g : Queue → Queue) : (s.modQueue f q g).replays = s.replays := rfl
@[simp] theorem State.modQueue_saves (s : State) (f q : Nat) (g : Queue → Queue) : (s.modQueue f q g).saves = s.saves := rfl
@[simp] theorem State.modQueue_mgmt (s : State) (f q : Nat) (g : Queue → Queue) : (s.modQueue f q g).mgmt = s.mgmt := rfl

/-! ### signal -/

@[simp] theorem State.signal_pending (s : State) (e : Nat) : (s.signal e).pending = s.pending := by
  unfold State.signal; split <;> rfl
@[simp] theorem State.signal_gradeB44 (s : State) (e : Nat) : (s.signal e).gradeB44 = s.gradeB44 := by
  unfold State.signal; split <;> rfl
@[simp] theorem State.signal_stepB0 (s : State) (e : Nat) : (s.signal e).stepB0 = s.stepB0 := by
  unfold State.signal; split <;> rfl
@[simp] theorem State.signal_farFill (s : State) (e : Nat) : (s.signal e).farFill = s.farFill := by
  unfold State.signal; split <;> rfl
@[simp] theorem State.signal_flashFill (s : State) (e : Nat) : (s.signal e).flashFill = s.flashFill := by
  unfold State.signal; split <;> rfl
@[simp] theorem State.signal_serial (s : State) (e : Nat) : (s.signal e).serial = s.serial := by
  unfold State.signal; split <;> rfl
@[simp] theorem State.signal_tick (s : State) (e : Nat) : (s.signal e).tick = s.tick := by
  unfold State.signal; split <;> rfl
@[simp] theorem State.signal_subtick (s : State) (e : Nat) : (s.signal e).subtick = s.subtick := by
  unfold State.signal; split <;> rfl
@[simp] theorem State.signal_regs (s : State) (e : Nat) : (s.signal e).regs = s.regs := by
  unfold State.signal; split <;> rfl
@[simp] theorem State.signal_latches (s : State) (e : Nat) : (s.signal e).latches = s.latches := by
  unfold State.signal; split <;> rfl
@[simp] theorem State.signal_stages (s : State) (e : Nat) : (s.signal e).stages = s.stages := by
  unfold State.signal; split <;> rfl
@[simp] theorem State.signal_rdata (s : State) (e : Nat) : (s.signal e).rdata = s.rdata := by
  unfold State.signal; split <;> rfl
@[simp] theorem State.signal_free (s : State) (e : Nat) : (s.signal e).free = s.free := by
  unfold State.signal; split <;> rfl
@[simp] theorem State.signal_mem (s : State) (e : Nat) : (s.signal e).mem = s.mem := by
  unfold State.signal; split <;> rfl
@[simp] theorem State.signal_marks (s : State) (e : Nat) : (s.signal e).marks = s.marks := by
  unfold State.signal; split <;> rfl
@[simp] theorem State.signal_held (s : State) (e : Nat) : (s.signal e).held = s.held := by
  unfold State.signal; split <;> rfl
@[simp] theorem State.signal_cores (s : State) (e : Nat) : (s.signal e).cores = s.cores := by
  unfold State.signal; split <;> rfl
@[simp] theorem State.signal_cmds (s : State) (e : Nat) : (s.signal e).cmds = s.cmds := by
  unfold State.signal; split <;> rfl
@[simp] theorem State.signal_queues (s : State) (e : Nat) : (s.signal e).queues = s.queues := by
  unfold State.signal; split <;> rfl
@[simp] theorem State.signal_cp (s : State) (e : Nat) : (s.signal e).cp = s.cp := by
  unfold State.signal; split <;> rfl
@[simp] theorem State.signal_parts (s : State) (e : Nat) : (s.signal e).parts = s.parts := by
  unfold State.signal; split <;> rfl
@[simp] theorem State.signal_alm (s : State) (e : Nat) : (s.signal e).alm = s.alm := by
  unfold State.signal; split <;> rfl
@[simp] theorem State.signal_tiers (s : State) (e : Nat) : (s.signal e).tiers = s.tiers := by
  unfold State.signal; split <;> rfl
@[simp] theorem State.signal_links (s : State) (e : Nat) : (s.signal e).links = s.links := by
  unfold State.signal; split <;> rfl
@[simp] theorem State.signal_colls (s : State) (e : Nat) : (s.signal e).colls = s.colls := by
  unfold State.signal; split <;> rfl
@[simp] theorem State.signal_remap (s : State) (e : Nat) : (s.signal e).remap = s.remap := by
  unfold State.signal; split <;> rfl
@[simp] theorem State.signal_obs (s : State) (e : Nat) : (s.signal e).obs = s.obs := by
  unfold State.signal; split <;> rfl
@[simp] theorem State.signal_vigil (s : State) (e : Nat) : (s.signal e).vigil = s.vigil := by
  unfold State.signal; split <;> rfl
@[simp] theorem State.signal_ckpts (s : State) (e : Nat) : (s.signal e).ckpts = s.ckpts := by
  unfold State.signal; split <;> rfl
@[simp] theorem State.signal_replays (s : State) (e : Nat) : (s.signal e).replays = s.replays := by
  unfold State.signal; split <;> rfl
@[simp] theorem State.signal_saves (s : State) (e : Nat) : (s.signal e).saves = s.saves := by
  unfold State.signal; split <;> rfl
@[simp] theorem State.signal_mgmt (s : State) (e : Nat) : (s.signal e).mgmt = s.mgmt := by
  unfold State.signal; split <;> rfl

/-! ### markHeld -/

@[simp] theorem State.markHeld_pending (s : State) (f q : Nat) : (s.markHeld f q).pending = s.pending := rfl
@[simp] theorem State.markHeld_gradeB44 (s : State) (f q : Nat) : (s.markHeld f q).gradeB44 = s.gradeB44 := rfl
@[simp] theorem State.markHeld_stepB0 (s : State) (f q : Nat) : (s.markHeld f q).stepB0 = s.stepB0 := rfl
@[simp] theorem State.markHeld_farFill (s : State) (f q : Nat) : (s.markHeld f q).farFill = s.farFill := rfl
@[simp] theorem State.markHeld_flashFill (s : State) (f q : Nat) : (s.markHeld f q).flashFill = s.flashFill := rfl
@[simp] theorem State.markHeld_serial (s : State) (f q : Nat) : (s.markHeld f q).serial = s.serial := rfl
@[simp] theorem State.markHeld_tick (s : State) (f q : Nat) : (s.markHeld f q).tick = s.tick := rfl
@[simp] theorem State.markHeld_subtick (s : State) (f q : Nat) : (s.markHeld f q).subtick = s.subtick := rfl
@[simp] theorem State.markHeld_latches (s : State) (f q : Nat) : (s.markHeld f q).latches = s.latches := rfl
@[simp] theorem State.markHeld_stages (s : State) (f q : Nat) : (s.markHeld f q).stages = s.stages := rfl
@[simp] theorem State.markHeld_rdata (s : State) (f q : Nat) : (s.markHeld f q).rdata = s.rdata := rfl
@[simp] theorem State.markHeld_free (s : State) (f q : Nat) : (s.markHeld f q).free = s.free := rfl
@[simp] theorem State.markHeld_mem (s : State) (f q : Nat) : (s.markHeld f q).mem = s.mem := rfl
@[simp] theorem State.markHeld_marks (s : State) (f q : Nat) : (s.markHeld f q).marks = s.marks := rfl
@[simp] theorem State.markHeld_held (s : State) (f q : Nat) : (s.markHeld f q).held = s.held := rfl
@[simp] theorem State.markHeld_cores (s : State) (f q : Nat) : (s.markHeld f q).cores = s.cores := rfl
@[simp] theorem State.markHeld_events (s : State) (f q : Nat) : (s.markHeld f q).events = s.events := rfl
@[simp] theorem State.markHeld_cmds (s : State) (f q : Nat) : (s.markHeld f q).cmds = s.cmds := rfl
@[simp] theorem State.markHeld_queues (s : State) (f q : Nat) : (s.markHeld f q).queues = s.queues := rfl
@[simp] theorem State.markHeld_cp (s : State) (f q : Nat) : (s.markHeld f q).cp = s.cp := rfl
@[simp] theorem State.markHeld_parts (s : State) (f q : Nat) : (s.markHeld f q).parts = s.parts := rfl
@[simp] theorem State.markHeld_alm (s : State) (f q : Nat) : (s.markHeld f q).alm = s.alm := rfl
@[simp] theorem State.markHeld_tiers (s : State) (f q : Nat) : (s.markHeld f q).tiers = s.tiers := rfl
@[simp] theorem State.markHeld_links (s : State) (f q : Nat) : (s.markHeld f q).links = s.links := rfl
@[simp] theorem State.markHeld_colls (s : State) (f q : Nat) : (s.markHeld f q).colls = s.colls := rfl
@[simp] theorem State.markHeld_remap (s : State) (f q : Nat) : (s.markHeld f q).remap = s.remap := rfl
@[simp] theorem State.markHeld_obs (s : State) (f q : Nat) : (s.markHeld f q).obs = s.obs := rfl
@[simp] theorem State.markHeld_vigil (s : State) (f q : Nat) : (s.markHeld f q).vigil = s.vigil := rfl
@[simp] theorem State.markHeld_ckpts (s : State) (f q : Nat) : (s.markHeld f q).ckpts = s.ckpts := rfl
@[simp] theorem State.markHeld_replays (s : State) (f q : Nat) : (s.markHeld f q).replays = s.replays := rfl
@[simp] theorem State.markHeld_saves (s : State) (f q : Nat) : (s.markHeld f q).saves = s.saves := rfl
@[simp] theorem State.markHeld_mgmt (s : State) (f q : Nat) : (s.markHeld f q).mgmt = s.mgmt := rfl

/-! ### setPage -/

@[simp] theorem State.setPage_pending (s : State) (f : Nat) (far : Bool) (v : Nat) (p : Option Page) : (s.setPage f far v p).pending = s.pending := rfl
@[simp] theorem State.setPage_gradeB44 (s : State) (f : Nat) (far : Bool) (v : Nat) (p : Option Page) : (s.setPage f far v p).gradeB44 = s.gradeB44 := rfl
@[simp] theorem State.setPage_stepB0 (s : State) (f : Nat) (far : Bool) (v : Nat) (p : Option Page) : (s.setPage f far v p).stepB0 = s.stepB0 := rfl
@[simp] theorem State.setPage_farFill (s : State) (f : Nat) (far : Bool) (v : Nat) (p : Option Page) : (s.setPage f far v p).farFill = s.farFill := rfl
@[simp] theorem State.setPage_flashFill (s : State) (f : Nat) (far : Bool) (v : Nat) (p : Option Page) : (s.setPage f far v p).flashFill = s.flashFill := rfl
@[simp] theorem State.setPage_serial (s : State) (f : Nat) (far : Bool) (v : Nat) (p : Option Page) : (s.setPage f far v p).serial = s.serial := rfl
@[simp] theorem State.setPage_tick (s : State) (f : Nat) (far : Bool) (v : Nat) (p : Option Page) : (s.setPage f far v p).tick = s.tick := rfl
@[simp] theorem State.setPage_subtick (s : State) (f : Nat) (far : Bool) (v : Nat) (p : Option Page) : (s.setPage f far v p).subtick = s.subtick := rfl
@[simp] theorem State.setPage_regs (s : State) (f : Nat) (far : Bool) (v : Nat) (p : Option Page) : (s.setPage f far v p).regs = s.regs := rfl
@[simp] theorem State.setPage_latches (s : State) (f : Nat) (far : Bool) (v : Nat) (p : Option Page) : (s.setPage f far v p).latches = s.latches := rfl
@[simp] theorem State.setPage_stages (s : State) (f : Nat) (far : Bool) (v : Nat) (p : Option Page) : (s.setPage f far v p).stages = s.stages := rfl
@[simp] theorem State.setPage_rdata (s : State) (f : Nat) (far : Bool) (v : Nat) (p : Option Page) : (s.setPage f far v p).rdata = s.rdata := rfl
@[simp] theorem State.setPage_free (s : State) (f : Nat) (far : Bool) (v : Nat) (p : Option Page) : (s.setPage f far v p).free = s.free := rfl
@[simp] theorem State.setPage_mem (s : State) (f : Nat) (far : Bool) (v : Nat) (p : Option Page) : (s.setPage f far v p).mem = s.mem := rfl
@[simp] theorem State.setPage_marks (s : State) (f : Nat) (far : Bool) (v : Nat) (p : Option Page) : (s.setPage f far v p).marks = s.marks := rfl
@[simp] theorem State.setPage_held (s : State) (f : Nat) (far : Bool) (v : Nat) (p : Option Page) : (s.setPage f far v p).held = s.held := rfl
@[simp] theorem State.setPage_cores (s : State) (f : Nat) (far : Bool) (v : Nat) (p : Option Page) : (s.setPage f far v p).cores = s.cores := rfl
@[simp] theorem State.setPage_events (s : State) (f : Nat) (far : Bool) (v : Nat) (p : Option Page) : (s.setPage f far v p).events = s.events := rfl
@[simp] theorem State.setPage_cmds (s : State) (f : Nat) (far : Bool) (v : Nat) (p : Option Page) : (s.setPage f far v p).cmds = s.cmds := rfl
@[simp] theorem State.setPage_queues (s : State) (f : Nat) (far : Bool) (v : Nat) (p : Option Page) : (s.setPage f far v p).queues = s.queues := rfl
@[simp] theorem State.setPage_cp (s : State) (f : Nat) (far : Bool) (v : Nat) (p : Option Page) : (s.setPage f far v p).cp = s.cp := rfl
@[simp] theorem State.setPage_parts (s : State) (f : Nat) (far : Bool) (v : Nat) (p : Option Page) : (s.setPage f far v p).parts = s.parts := rfl
@[simp] theorem State.setPage_alm (s : State) (f : Nat) (far : Bool) (v : Nat) (p : Option Page) : (s.setPage f far v p).alm = s.alm := rfl
@[simp] theorem State.setPage_links (s : State) (f : Nat) (far : Bool) (v : Nat) (p : Option Page) : (s.setPage f far v p).links = s.links := rfl
@[simp] theorem State.setPage_colls (s : State) (f : Nat) (far : Bool) (v : Nat) (p : Option Page) : (s.setPage f far v p).colls = s.colls := rfl
@[simp] theorem State.setPage_remap (s : State) (f : Nat) (far : Bool) (v : Nat) (p : Option Page) : (s.setPage f far v p).remap = s.remap := rfl
@[simp] theorem State.setPage_obs (s : State) (f : Nat) (far : Bool) (v : Nat) (p : Option Page) : (s.setPage f far v p).obs = s.obs := rfl
@[simp] theorem State.setPage_vigil (s : State) (f : Nat) (far : Bool) (v : Nat) (p : Option Page) : (s.setPage f far v p).vigil = s.vigil := rfl
@[simp] theorem State.setPage_ckpts (s : State) (f : Nat) (far : Bool) (v : Nat) (p : Option Page) : (s.setPage f far v p).ckpts = s.ckpts := rfl
@[simp] theorem State.setPage_replays (s : State) (f : Nat) (far : Bool) (v : Nat) (p : Option Page) : (s.setPage f far v p).replays = s.replays := rfl
@[simp] theorem State.setPage_saves (s : State) (f : Nat) (far : Bool) (v : Nat) (p : Option Page) : (s.setPage f far v p).saves = s.saves := rfl
@[simp] theorem State.setPage_mgmt (s : State) (f : Nat) (far : Bool) (v : Nat) (p : Option Page) : (s.setPage f far v p).mgmt = s.mgmt := rfl

/-! ### putView -/

@[simp] theorem State.putView_pending (s : State) (c : Nat) (v : CoreView) : (s.putView c v).pending = s.pending := rfl
@[simp] theorem State.putView_gradeB44 (s : State) (c : Nat) (v : CoreView) : (s.putView c v).gradeB44 = s.gradeB44 := rfl
@[simp] theorem State.putView_stepB0 (s : State) (c : Nat) (v : CoreView) : (s.putView c v).stepB0 = s.stepB0 := rfl
@[simp] theorem State.putView_farFill (s : State) (c : Nat) (v : CoreView) : (s.putView c v).farFill = s.farFill := rfl
@[simp] theorem State.putView_flashFill (s : State) (c : Nat) (v : CoreView) : (s.putView c v).flashFill = s.flashFill := rfl
@[simp] theorem State.putView_serial (s : State) (c : Nat) (v : CoreView) : (s.putView c v).serial = s.serial := rfl
@[simp] theorem State.putView_tick (s : State) (c : Nat) (v : CoreView) : (s.putView c v).tick = s.tick := rfl
@[simp] theorem State.putView_subtick (s : State) (c : Nat) (v : CoreView) : (s.putView c v).subtick = s.subtick := rfl
@[simp] theorem State.putView_regs (s : State) (c : Nat) (v : CoreView) : (s.putView c v).regs = s.regs := rfl
@[simp] theorem State.putView_latches (s : State) (c : Nat) (v : CoreView) : (s.putView c v).latches = s.latches := rfl
@[simp] theorem State.putView_stages (s : State) (c : Nat) (v : CoreView) : (s.putView c v).stages = s.stages := rfl
@[simp] theorem State.putView_rdata (s : State) (c : Nat) (v : CoreView) : (s.putView c v).rdata = s.rdata := rfl
@[simp] theorem State.putView_free (s : State) (c : Nat) (v : CoreView) : (s.putView c v).free = s.free := rfl
@[simp] theorem State.putView_held (s : State) (c : Nat) (v : CoreView) : (s.putView c v).held = s.held := rfl
@[simp] theorem State.putView_events (s : State) (c : Nat) (v : CoreView) : (s.putView c v).events = s.events := rfl
@[simp] theorem State.putView_cmds (s : State) (c : Nat) (v : CoreView) : (s.putView c v).cmds = s.cmds := rfl
@[simp] theorem State.putView_queues (s : State) (c : Nat) (v : CoreView) : (s.putView c v).queues = s.queues := rfl
@[simp] theorem State.putView_cp (s : State) (c : Nat) (v : CoreView) : (s.putView c v).cp = s.cp := rfl
@[simp] theorem State.putView_parts (s : State) (c : Nat) (v : CoreView) : (s.putView c v).parts = s.parts := rfl
@[simp] theorem State.putView_alm (s : State) (c : Nat) (v : CoreView) : (s.putView c v).alm = s.alm := rfl
@[simp] theorem State.putView_tiers (s : State) (c : Nat) (v : CoreView) : (s.putView c v).tiers = s.tiers := rfl
@[simp] theorem State.putView_links (s : State) (c : Nat) (v : CoreView) : (s.putView c v).links = s.links := rfl
@[simp] theorem State.putView_colls (s : State) (c : Nat) (v : CoreView) : (s.putView c v).colls = s.colls := rfl
@[simp] theorem State.putView_remap (s : State) (c : Nat) (v : CoreView) : (s.putView c v).remap = s.remap := rfl
@[simp] theorem State.putView_obs (s : State) (c : Nat) (v : CoreView) : (s.putView c v).obs = s.obs := rfl
@[simp] theorem State.putView_vigil (s : State) (c : Nat) (v : CoreView) : (s.putView c v).vigil = s.vigil := rfl
@[simp] theorem State.putView_ckpts (s : State) (c : Nat) (v : CoreView) : (s.putView c v).ckpts = s.ckpts := rfl
@[simp] theorem State.putView_replays (s : State) (c : Nat) (v : CoreView) : (s.putView c v).replays = s.replays := rfl
@[simp] theorem State.putView_saves (s : State) (c : Nat) (v : CoreView) : (s.putView c v).saves = s.saves := rfl
@[simp] theorem State.putView_mgmt (s : State) (c : Nat) (v : CoreView) : (s.putView c v).mgmt = s.mgmt := rfl

/-! ### setSlot -/

@[simp] theorem State.setSlot_pending (s : State) (c i : Nat) (d : Option DmaSlot) : (s.setSlot c i d).pending = s.pending := rfl
@[simp] theorem State.setSlot_gradeB44 (s : State) (c i : Nat) (d : Option DmaSlot) : (s.setSlot c i d).gradeB44 = s.gradeB44 := rfl
@[simp] theorem State.setSlot_stepB0 (s : State) (c i : Nat) (d : Option DmaSlot) : (s.setSlot c i d).stepB0 = s.stepB0 := rfl
@[simp] theorem State.setSlot_farFill (s : State) (c i : Nat) (d : Option DmaSlot) : (s.setSlot c i d).farFill = s.farFill := rfl
@[simp] theorem State.setSlot_flashFill (s : State) (c i : Nat) (d : Option DmaSlot) : (s.setSlot c i d).flashFill = s.flashFill := rfl
@[simp] theorem State.setSlot_serial (s : State) (c i : Nat) (d : Option DmaSlot) : (s.setSlot c i d).serial = s.serial := rfl
@[simp] theorem State.setSlot_tick (s : State) (c i : Nat) (d : Option DmaSlot) : (s.setSlot c i d).tick = s.tick := rfl
@[simp] theorem State.setSlot_subtick (s : State) (c i : Nat) (d : Option DmaSlot) : (s.setSlot c i d).subtick = s.subtick := rfl
@[simp] theorem State.setSlot_regs (s : State) (c i : Nat) (d : Option DmaSlot) : (s.setSlot c i d).regs = s.regs := rfl
@[simp] theorem State.setSlot_latches (s : State) (c i : Nat) (d : Option DmaSlot) : (s.setSlot c i d).latches = s.latches := rfl
@[simp] theorem State.setSlot_stages (s : State) (c i : Nat) (d : Option DmaSlot) : (s.setSlot c i d).stages = s.stages := rfl
@[simp] theorem State.setSlot_rdata (s : State) (c i : Nat) (d : Option DmaSlot) : (s.setSlot c i d).rdata = s.rdata := rfl
@[simp] theorem State.setSlot_free (s : State) (c i : Nat) (d : Option DmaSlot) : (s.setSlot c i d).free = s.free := rfl
@[simp] theorem State.setSlot_mem (s : State) (c i : Nat) (d : Option DmaSlot) : (s.setSlot c i d).mem = s.mem := rfl
@[simp] theorem State.setSlot_marks (s : State) (c i : Nat) (d : Option DmaSlot) : (s.setSlot c i d).marks = s.marks := rfl
@[simp] theorem State.setSlot_held (s : State) (c i : Nat) (d : Option DmaSlot) : (s.setSlot c i d).held = s.held := rfl
@[simp] theorem State.setSlot_events (s : State) (c i : Nat) (d : Option DmaSlot) : (s.setSlot c i d).events = s.events := rfl
@[simp] theorem State.setSlot_cmds (s : State) (c i : Nat) (d : Option DmaSlot) : (s.setSlot c i d).cmds = s.cmds := rfl
@[simp] theorem State.setSlot_queues (s : State) (c i : Nat) (d : Option DmaSlot) : (s.setSlot c i d).queues = s.queues := rfl
@[simp] theorem State.setSlot_cp (s : State) (c i : Nat) (d : Option DmaSlot) : (s.setSlot c i d).cp = s.cp := rfl
@[simp] theorem State.setSlot_parts (s : State) (c i : Nat) (d : Option DmaSlot) : (s.setSlot c i d).parts = s.parts := rfl
@[simp] theorem State.setSlot_alm (s : State) (c i : Nat) (d : Option DmaSlot) : (s.setSlot c i d).alm = s.alm := rfl
@[simp] theorem State.setSlot_tiers (s : State) (c i : Nat) (d : Option DmaSlot) : (s.setSlot c i d).tiers = s.tiers := rfl
@[simp] theorem State.setSlot_links (s : State) (c i : Nat) (d : Option DmaSlot) : (s.setSlot c i d).links = s.links := rfl
@[simp] theorem State.setSlot_colls (s : State) (c i : Nat) (d : Option DmaSlot) : (s.setSlot c i d).colls = s.colls := rfl
@[simp] theorem State.setSlot_remap (s : State) (c i : Nat) (d : Option DmaSlot) : (s.setSlot c i d).remap = s.remap := rfl
@[simp] theorem State.setSlot_obs (s : State) (c i : Nat) (d : Option DmaSlot) : (s.setSlot c i d).obs = s.obs := rfl
@[simp] theorem State.setSlot_vigil (s : State) (c i : Nat) (d : Option DmaSlot) : (s.setSlot c i d).vigil = s.vigil := rfl
@[simp] theorem State.setSlot_ckpts (s : State) (c i : Nat) (d : Option DmaSlot) : (s.setSlot c i d).ckpts = s.ckpts := rfl
@[simp] theorem State.setSlot_replays (s : State) (c i : Nat) (d : Option DmaSlot) : (s.setSlot c i d).replays = s.replays := rfl
@[simp] theorem State.setSlot_saves (s : State) (c i : Nat) (d : Option DmaSlot) : (s.setSlot c i d).saves = s.saves := rfl
@[simp] theorem State.setSlot_mgmt (s : State) (c i : Nat) (d : Option DmaSlot) : (s.setSlot c i d).mgmt = s.mgmt := rfl

/-! ### withPending -/

@[simp] theorem State.withPending_gradeB44 (s : State) (l : List Instr) : (s.withPending l).gradeB44 = s.gradeB44 := rfl
@[simp] theorem State.withPending_stepB0 (s : State) (l : List Instr) : (s.withPending l).stepB0 = s.stepB0 := rfl
@[simp] theorem State.withPending_farFill (s : State) (l : List Instr) : (s.withPending l).farFill = s.farFill := rfl
@[simp] theorem State.withPending_flashFill (s : State) (l : List Instr) : (s.withPending l).flashFill = s.flashFill := rfl
@[simp] theorem State.withPending_serial (s : State) (l : List Instr) : (s.withPending l).serial = s.serial := rfl
@[simp] theorem State.withPending_tick (s : State) (l : List Instr) : (s.withPending l).tick = s.tick := rfl
@[simp] theorem State.withPending_subtick (s : State) (l : List Instr) : (s.withPending l).subtick = s.subtick := rfl
@[simp] theorem State.withPending_regs (s : State) (l : List Instr) : (s.withPending l).regs = s.regs := rfl
@[simp] theorem State.withPending_latches (s : State) (l : List Instr) : (s.withPending l).latches = s.latches := rfl
@[simp] theorem State.withPending_stages (s : State) (l : List Instr) : (s.withPending l).stages = s.stages := rfl
@[simp] theorem State.withPending_rdata (s : State) (l : List Instr) : (s.withPending l).rdata = s.rdata := rfl
@[simp] theorem State.withPending_free (s : State) (l : List Instr) : (s.withPending l).free = s.free := rfl
@[simp] theorem State.withPending_mem (s : State) (l : List Instr) : (s.withPending l).mem = s.mem := rfl
@[simp] theorem State.withPending_marks (s : State) (l : List Instr) : (s.withPending l).marks = s.marks := rfl
@[simp] theorem State.withPending_held (s : State) (l : List Instr) : (s.withPending l).held = s.held := rfl
@[simp] theorem State.withPending_cores (s : State) (l : List Instr) : (s.withPending l).cores = s.cores := rfl
@[simp] theorem State.withPending_events (s : State) (l : List Instr) : (s.withPending l).events = s.events := rfl
@[simp] theorem State.withPending_cmds (s : State) (l : List Instr) : (s.withPending l).cmds = s.cmds := rfl
@[simp] theorem State.withPending_queues (s : State) (l : List Instr) : (s.withPending l).queues = s.queues := rfl
@[simp] theorem State.withPending_cp (s : State) (l : List Instr) : (s.withPending l).cp = s.cp := rfl
@[simp] theorem State.withPending_parts (s : State) (l : List Instr) : (s.withPending l).parts = s.parts := rfl
@[simp] theorem State.withPending_alm (s : State) (l : List Instr) : (s.withPending l).alm = s.alm := rfl
@[simp] theorem State.withPending_tiers (s : State) (l : List Instr) : (s.withPending l).tiers = s.tiers := rfl
@[simp] theorem State.withPending_links (s : State) (l : List Instr) : (s.withPending l).links = s.links := rfl
@[simp] theorem State.withPending_colls (s : State) (l : List Instr) : (s.withPending l).colls = s.colls := rfl
@[simp] theorem State.withPending_remap (s : State) (l : List Instr) : (s.withPending l).remap = s.remap := rfl
@[simp] theorem State.withPending_obs (s : State) (l : List Instr) : (s.withPending l).obs = s.obs := rfl
@[simp] theorem State.withPending_vigil (s : State) (l : List Instr) : (s.withPending l).vigil = s.vigil := rfl
@[simp] theorem State.withPending_ckpts (s : State) (l : List Instr) : (s.withPending l).ckpts = s.ckpts := rfl
@[simp] theorem State.withPending_replays (s : State) (l : List Instr) : (s.withPending l).replays = s.replays := rfl
@[simp] theorem State.withPending_saves (s : State) (l : List Instr) : (s.withPending l).saves = s.saves := rfl
@[simp] theorem State.withPending_mgmt (s : State) (l : List Instr) : (s.withPending l).mgmt = s.mgmt := rfl

/-! ### What they set -/

/-- A register word reads as it was written. -/
@[simp] theorem State.reg_setReg_same (s : State) (a v : Nat) : (s.setReg a v).reg a = v % 2 ^ 32 := by
  simp [State.reg, State.setReg]

/-- A write leaves every other register word alone. -/
theorem State.reg_setReg_other (s : State) {a b : Nat} (v : Nat) (h : a ≠ b) : (s.setReg a v).reg b = s.reg b :=
  kget_kset_apart _ _ s.regs _ h

@[simp] theorem State.core_setCore_same (s : State) (c : Nat) (k : Core) : (s.setCore c k).core c = k := by
  simp [State.core, State.setCore]

theorem State.core_setCore_other (s : State) {c d : Nat} (k : Core) (h : c ≠ d) : (s.setCore c k).core d = s.core d :=
  kget_kset_other _ s.cores _ h

@[simp] theorem State.core_modCore_same (s : State) (c : Nat) (f : Core → Core) : (s.modCore c f).core c = f (s.core c) := by
  simp [State.modCore]

theorem State.core_modCore_other (s : State) {c d : Nat} (f : Core → Core) (h : c ≠ d) :
    (s.modCore c f).core d = s.core d :=
  State.core_setCore_other s _ h

@[simp] theorem State.part_modPart_same (s : State) (p : Nat) (f : Part → Part) : (s.modPart p f).part p = f (s.part p) := by
  simp [State.part, State.modPart]

theorem State.part_modPart_other (s : State) {p r : Nat} (f : Part → Part) (h : p ≠ r) :
    (s.modPart p f).part r = s.part r :=
  kget_kset_other _ s.parts _ h

@[simp] theorem State.cmd_setCmd_same (s : State) (i : Nat) (c : Option Cmd) : (s.setCmd i c).cmd i = c := by
  simp [State.cmd, State.setCmd]

theorem State.cmd_setCmd_other (s : State) {i j : Nat} (c : Option Cmd) (h : i ≠ j) : (s.setCmd i c).cmd j = s.cmd j :=
  kget_kset_other _ s.cmds _ h

@[simp] theorem State.queue_modQueue_same (s : State) (f q : Nat) (g : Queue → Queue) :
    (s.modQueue f q g).queue f q = g (s.queue f q) := by
  simp [State.queue, State.modQueue]

@[simp] theorem State.core_putView_same (s : State) (c : Nat) (v : CoreView) : (s.putView c v).core c = v.core := by
  simp [State.core, State.putView]

theorem State.core_putView_other (s : State) {c d : Nat} (v : CoreView) (h : c ≠ d) : (s.putView c v).core d = s.core d :=
  kget_kset_other _ s.cores _ h

/-! ### Threads and their registers -/

@[simp] theorem Core.thread_setThread_same (k : Core) (t : Nat) (th : Thread) : (k.setThread t th).thread t = th := by
  simp [Core.thread, Core.setThread]

theorem Core.thread_setThread_other (k : Core) {t r : Nat} (th : Thread) (h : t ≠ r) :
    (k.setThread t th).thread r = k.thread r :=
  kget_kset_other _ k.threads _ h

@[simp] theorem Core.thread_modThread_same (k : Core) (t : Nat) (f : Thread → Thread) :
    (k.modThread t f).thread t = f (k.thread t) := by
  simp [Core.modThread]

theorem Core.thread_modThread_other (k : Core) {t r : Nat} (f : Thread → Thread) (h : t ≠ r) :
    (k.modThread t f).thread r = k.thread r :=
  Core.thread_setThread_other k _ h

/-- g0 reads as zero. -/
@[simp] theorem Thread.getG_zero (th : Thread) : th.getG 0 = 0 := rfl

/-- A write to g0 is discarded. -/
@[simp] theorem Thread.setG_zero (th : Thread) (w : Word) : th.setG 0 w = th := rfl

theorem Thread.getG_setG_same (th : Thread) {r : Nat} (w : Word) (h : r ≠ 0) : (th.setG r w).getG r = w := by
  simp [Thread.getG, Thread.setG, h]

theorem Thread.getG_setG_other (th : Thread) {r q : Nat} (w : Word) (h : r ≠ q) : (th.setG r w).getG q = th.getG q := by
  unfold Thread.getG Thread.setG
  by_cases hr : r = 0
  · simp [hr]
  · by_cases hq : q = 0
    · simp [hq]
    · simp [hr, hq, kget_kset_other _ th.g w h]

/-- p0 reads as one. -/
@[simp] theorem Thread.getP_zero (th : Thread) : th.getP 0 = true := rfl

/-- A write to p0 is discarded. -/
@[simp] theorem Thread.setP_zero (th : Thread) (b : Bool) : th.setP 0 b = th := rfl

end Sys2Proof.Machine
end

