-- ==== Sys2Proof/Laws/Issue.lean ====
section
/-! SUPPORT. What the issue of a core instruction does, once for all of them. -/

namespace Sys2Proof.Machine

open Sys2Proof.Claims

@[simp] theorem noteIssue_core (c d : Nat) (array : Bool) (s r : State) : (noteIssue c array s r).core d = r.core d := by
  unfold noteIssue
  dsimp only
  split <;> split <;> rfl

/-- Counting an issued instruction touches the performance counters alone. -/
theorem noteIssue_only (c : Nat) (array : Bool) (s r : State) :
    noteIssue c array s r = { r with obs := { r.obs with ctrs := (noteIssue c array s r).obs.ctrs } } := by
  unfold noteIssue
  dsimp only
  split <;> split <;> rfl

/-- An issued legal instruction: its meaning, its end, its counters. -/
theorem issue_legal {s : State} {c : Nat} {t : BitVec 4} {array legal : Bool} {f : State → State × IssueEnd}
    (h : HasTurn s c t array) (hl : legal = true) (hf : (f s).2 ≠ .stay) :
    issue c t array legal f s =
      .next (noteIssue c array s (endIssue c t array ((s.core c).thread t.toNat).pc (f s))) := by
  obtain ⟨hc, hi, ht⟩ := h
  simp [issue, hc, hi, hl, ht, hf]

/-- A legal instruction that waits does not issue: its thread's state is all that changes. -/
theorem issue_waits {s : State} {c : Nat} {t : BitVec 4} {array legal : Bool} {f : State → State × IssueEnd} {u : State}
    (h : HasTurn s c t array) (hl : legal = true) (hf : f s = (u, .stay)) : issue c t array legal f s = .next u := by
  obtain ⟨hc, hi, ht⟩ := h
  simp [issue, hc, hi, hl, ht, hf]

/-- A core view whose thread t waits, put back. -/
theorem onView_waits {s : State} {c : Nat} {t : BitVec 4} {st : ThreadState} {f : CoreView → Issue}
    (hf : f (s.view c) = ⟨(s.view c).modT t.toNat ({ · with state := st }), .stay⟩) : onView c f s = (waiting s c t st, .stay) := by
  simp only [onView, hf]
  rfl

/-- An instruction whose operands are not there waits for them (R75, R113). -/
theorem needing_waits {s : State} {c : Nat} {t : BitVec 4} {n : Needs} {f : CoreView → Issue}
    (h : (s.core c).awaits t.toNat n = true) : onView c (needing t.toNat n f) s = (waiting s c t .waitOperand, .stay) :=
  onView_waits (by simp only [needing, State.view, h, if_true])

/-- An instruction whose operands are there. -/
@[simp] theorem needing_ready {cv : CoreView} {t : Nat} {n : Needs} {f : CoreView → Issue} (h : cv.core.awaits t n = false) :
    needing t n f cv = f cv := by simp [needing, h]

/-- The state after an instruction that goes on in sequence, before the counters. -/
theorem endIssue_seq {s : State} {c : Nat} {t : BitVec 4} {array : Bool} {pc : BitVec 8} (h : pc ≠ 255#8) :
    endIssue c t array pc (s, .seq) =
      (s.modCore c (·.point array t)).modCore c fun x => x.modThread t.toNat fun th => { th with pc := pc + 1 } := by
  have : (pc == 255#8) = false := by simpa using h
  simp [endIssue, endThread, this]

@[simp] theorem Core.thread_point (k : Core) (array : Bool) (t : BitVec 4) (r : Nat) :
    (k.point array t).thread r = k.thread r := by
  unfold Core.point
  split <;> rfl

/-- An instruction that leaves its core's view as `v`, of the same memory, and goes on in sequence: what the state is after it. -/
theorem issue_seq {s : State} {c : Nat} {t : BitVec 4} {array legal : Bool} {f : CoreView → Issue} {v : CoreView}
    (h : HasTurn s c t array) (hp : ((s.core c).thread t.toNat).pc ≠ 255#8) (hl : legal = true) (hf : f (s.view c) = ⟨v, .seq⟩) :
    ∃ u, issue c t array legal (onView c f) s = .next u ∧ OneCore c s u ∧ u.mem = v.mem ∧ u.marks = v.marks ∧
      (∀ r, r ≠ t.toNat → (u.core c).thread r = v.core.thread r) ∧
      (u.core c).thread t.toNat = { v.core.thread t.toNat with pc := ((s.core c).thread t.toNat).pc + 1 } ∧
      u.core c = { v.core.point array t with threads := (u.core c).threads } := by
  refine ⟨_, issue_legal h hl (by simp [onView, hf]), ?_⟩
  have e : onView c f s = (s.putView c v, .seq) := by simp [onView, hf]
  rw [e, endIssue_seq hp]
  rw [noteIssue_only]
  refine ⟨⟨rfl, ?_⟩, rfl, rfl, ?_, ?_, ?_⟩
  · intro d hd
    simp only [State.core]
    exact (kget_kset_other _ _ _ hd.symm).trans ((kget_kset_other _ _ _ hd.symm).trans (kget_kset_other _ _ _ hd.symm))
  · intro r hr
    simp [State.core, State.modCore, State.setCore, Core.thread_modThread_other _ _ hr.symm, State.putView]
  · simp [State.core, State.modCore, State.setCore, State.putView]
  · simp [State.core, State.modCore, State.setCore, State.putView, Core.modThread, Core.setThread]

/-- An instruction that changes its core's view to `v`, one of the same memory whose core differs in thread t and CSTAT only, and
goes on in sequence. -/
theorem issue_threadOnly {s : State} {c : Nat} {t : BitVec 4} {legal : Bool} {f : CoreView → Issue} {v : CoreView}
    (h : Issues s c t) (hl : legal = true) (hf : f (s.view c) = ⟨v, .seq⟩) (hm : v.mem = s.mem) (hk : v.marks = s.marks)
    (hcore : v.core = { s.core c with threads := v.core.threads, cstat := v.core.cstat })
    (ho : ∀ r, r ≠ t.toNat → v.core.thread r = (s.core c).thread r)
    (hpc : (v.core.thread t.toNat).pc = ((s.core c).thread t.toNat).pc) :
    ∃ u, issue c t false legal (onView c f) s = .next u ∧
      ThreadOnly c t s u (pcNext (v.core.thread t.toNat)) v.core.cstat := by
  obtain ⟨u, hu, h1, h2, h3, h4, h5, h6⟩ := issue_seq (array := false) h.1 h.2 hl hf
  refine ⟨u, hu, h1, ⟨h2.trans hm, h3.trans hk, fun a => by rw [h2, hm]⟩, fun r hr => (h4 r hr).trans (ho r hr), ?_, ?_⟩
  · rw [h5, pcNext, hpc]
  · rw [h6, hcore]
    rfl

/-- An instruction that only changes thread t by `g`, and goes on in sequence. -/
theorem issue_modT {s : State} {c : Nat} {t : BitVec 4} {legal : Bool} {f : CoreView → Issue} {g : Thread → Thread}
    (h : Issues s c t) (hl : legal = true) (hf : f (s.view c) = ((s.view c).modT t.toNat g).done)
    (hpc : (g ((s.core c).thread t.toNat)).pc = ((s.core c).thread t.toNat).pc) :
    ∃ u, issue c t false legal (onView c f) s = .next u ∧
      ThreadOnly c t s u (pcNext (g ((s.core c).thread t.toNat))) (s.core c).cstat := by
  have := issue_threadOnly h hl hf rfl rfl rfl (fun r hr => Core.thread_modThread_other _ _ hr.symm)
    (by simpa [CoreView.modT, State.view] using hpc)
  have e : ((s.view c).modT t.toNat g).core.thread t.toNat = g ((s.core c).thread t.toNat) := by
    simp [CoreView.modT, State.view]
  rw [e] at this
  exact this

@[simp] theorem Thread.setG_pc (th : Thread) (r : Nat) (w : Word) : (th.setG r w).pc = th.pc := by
  unfold Thread.setG
  split <;> rfl

@[simp] theorem Thread.setP_pc (th : Thread) (r : Nat) (b : Bool) : (th.setP r b).pc = th.pc := by
  unfold Thread.setP
  split <;> rfl

end Sys2Proof.Machine
end

