-- ==== Sys2Proof/Laws/PerInstr.lean ====
section
/-! SUPPORT. A law per command, as syntax: a command that has a core instruction word names a core and nothing else that could be
absent, and a command that has none has no field rule to break. -/

namespace Sys2Proof.Laws.WellFormedUnits

/-- What well-formedness asks of a command: of one with a core instruction word, beyond its fields, only that its core exists; of
any other, only its units. -/
def Statement (i : Instr) : Prop :=
  ((encodeCore i).isSome = true → ∃ c, i.units = coreUnit c) ∧ ((encodeCore i).isSome = false → i.legal = true)

theorem alu (c : Nat) (t : BitVec 4) (rd rs1 rs2 func : BitVec 5) (ext : BitVec 6) : Statement (.alu c t rd rs1 rs2 func ext) :=
  ⟨fun _ => ⟨_, rfl⟩, fun h => nomatch h⟩
theorem addi (c : Nat) (t : BitVec 4) (rd rs1 : BitVec 5) (imm : BitVec 16) : Statement (.addi c t rd rs1 imm) :=
  ⟨fun _ => ⟨_, rfl⟩, fun h => nomatch h⟩
theorem andi (c : Nat) (t : BitVec 4) (rd rs1 : BitVec 5) (imm : BitVec 16) : Statement (.andi c t rd rs1 imm) :=
  ⟨fun _ => ⟨_, rfl⟩, fun h => nomatch h⟩
theorem ori (c : Nat) (t : BitVec 4) (rd rs1 : BitVec 5) (imm : BitVec 16) : Statement (.ori c t rd rs1 imm) :=
  ⟨fun _ => ⟨_, rfl⟩, fun h => nomatch h⟩
theorem xori (c : Nat) (t : BitVec 4) (rd rs1 : BitVec 5) (imm : BitVec 16) : Statement (.xori c t rd rs1 imm) :=
  ⟨fun _ => ⟨_, rfl⟩, fun h => nomatch h⟩
theorem lui (c : Nat) (t : BitVec 4) (rd : BitVec 5) (imm : BitVec 16) : Statement (.lui c t rd imm) :=
  ⟨fun _ => ⟨_, rfl⟩, fun h => nomatch h⟩
theorem shi (c : Nat) (t : BitVec 4) (rd rs1 : BitVec 5) (kind : BitVec 2) (sh : BitVec 5) : Statement (.shi c t rd rs1 kind sh) :=
  ⟨fun _ => ⟨_, rfl⟩, fun h => nomatch h⟩
theorem b (c : Nat) (t : BitVec 4) (p : BitVec 3) (neg : Bool) (target : BitVec 8) : Statement (.b c t p neg target) :=
  ⟨fun _ => ⟨_, rfl⟩, fun h => nomatch h⟩
theorem loop (c : Nat) (t : BitVec 4) (g : BitVec 5) (target : BitVec 8) : Statement (.loop c t g target) :=
  ⟨fun _ => ⟨_, rfl⟩, fun h => nomatch h⟩
theorem ld (c : Nat) (t : BitVec 4) (rd rs1 : BitVec 5) (size : BitVec 2) (pad sign : Bool) (off : BitVec 12) : Statement (.ld c t rd rs1 size pad sign off) :=
  ⟨fun _ => ⟨_, rfl⟩, fun h => nomatch h⟩
theorem st (c : Nat) (t : BitVec 4) (rs2 rs1 : BitVec 5) (size : BitVec 2) (pad : Bool) (off : BitVec 12) : Statement (.st c t rs2 rs1 size pad off) :=
  ⟨fun _ => ⟨_, rfl⟩, fun h => nomatch h⟩
theorem areg (c : Nat) (t : BitVec 4) (a : BitVec 3) (func : BitVec 2) (field : BitVec 3) (g : BitVec 5) (imm : BitVec 12) : Statement (.areg c t a func field g imm) :=
  ⟨fun _ => ⟨_, rfl⟩, fun h => nomatch h⟩
theorem movv (c : Nat) (t : BitVec 4) (g : BitVec 5) (v : Bool) (lane : BitVec 2) (word dir : Bool) : Statement (.movv c t g v lane word dir) :=
  ⟨fun _ => ⟨_, rfl⟩, fun h => nomatch h⟩
theorem fstat (c : Nat) (t : BitVec 4) (rd : BitVec 5) (clr : BitVec 8) (mode : BitVec 2) : Statement (.fstat c t rd clr mode) :=
  ⟨fun _ => ⟨_, rfl⟩, fun h => nomatch h⟩
theorem yield (c : Nat) (t : BitVec 4) : Statement (.yield c t) :=
  ⟨fun _ => ⟨_, rfl⟩, fun h => nomatch h⟩
theorem tmma (c : Nat) (t : BitVec 4) (aw aa ap : BitVec 3) (left : Bool) (nm1 : BitVec 4) (wf af zero : Bool) : Statement (.tmma c t aw aa ap left nm1 wf af zero) :=
  ⟨fun _ => ⟨_, rfl⟩, fun h => nomatch h⟩
theorem tmmaI8 (c : Nat) (t : BitVec 4) (aw aa ap : BitVec 3) (left : Bool) (nm1 : BitVec 4) (wf af zero : Bool) : Statement (.tmmaI8 c t aw aa ap left nm1 wf af zero) :=
  ⟨fun _ => ⟨_, rfl⟩, fun h => nomatch h⟩
theorem tdrain (c : Nat) (t : BitVec 4) (ap : BitVec 3) (cm1 : BitVec 6) (dest : Bool) (ad : BitVec 3) (dfmt : BitVec 4) (rnd gb : BitVec 2) (cinc : Bool) (ctr : BitVec 3) (acc : Bool) : Statement (.tdrain c t ap cm1 dest ad dfmt rnd gb cinc ctr acc) :=
  ⟨fun _ => ⟨_, rfl⟩, fun h => nomatch h⟩
theorem vop (c : Nat) (t : BitVec 4) (func : BitVec 5) (fp64 va src2 vb : Bool) (areg : BitVec 3) (pad dst vd hi : Bool) (lmask : BitVec 4) : Statement (.vop c t func fp64 va src2 vb areg pad dst vd hi lmask) :=
  ⟨fun _ => ⟨_, rfl⟩, fun h => nomatch h⟩
theorem cvt (c : Nat) (t : BitVec 4) (sfmt dfmt : BitVec 4) (rnd : BitVec 2) (src : Bool) (as_ : BitVec 3) (spad dst : Bool) (ad : BitVec 3) (dpad : Bool) (part : BitVec 3) (gb : BitVec 2) : Statement (.cvt c t sfmt dfmt rnd src as_ spad dst ad dpad part gb) :=
  ⟨fun _ => ⟨_, rfl⟩, fun h => nomatch h⟩
theorem split (c : Nat) (t : BitVec 4) (ve : Bool) (j k : BitVec 4) (src : Bool) (as_ : BitVec 3) (spad : Bool) (ad : BitVec 3) (dpad : Bool) (part : BitVec 3) : Statement (.split c t ve j k src as_ spad ad dpad part) :=
  ⟨fun _ => ⟨_, rfl⟩, fun h => nomatch h⟩
theorem merge (c : Nat) (t : BitVec 4) (vd vs : Bool) (as_ : BitVec 3) (spad hi : Bool) (gs : BitVec 5) : Statement (.merge c t vd vs as_ spad hi gs) :=
  ⟨fun _ => ⟨_, rfl⟩, fun h => nomatch h⟩
theorem sspk (c : Nat) (t : BitVec 4) (ga : BitVec 5) (as_ : BitVec 3) (spad dpad sfmt : Bool) (rnd gb : BitVec 2) : Statement (.sspk c t ga as_ spad dpad sfmt rnd gb) :=
  ⟨fun _ => ⟨_, rfl⟩, fun h => nomatch h⟩
theorem ssup (c : Nat) (t : BitVec 4) (ga : BitVec 5) (ad : BitVec 3) (dpad spad : Bool) : Statement (.ssup c t ga ad dpad spad) :=
  ⟨fun _ => ⟨_, rfl⟩, fun h => nomatch h⟩
theorem rng (c : Nat) (t : BitVec 4) (gb : BitVec 2) (vd half inc : Bool) : Statement (.rng c t gb vd half inc) :=
  ⟨fun _ => ⟨_, rfl⟩, fun h => nomatch h⟩
theorem qpush (c : Nat) (t : BitVec 4) (q : BitVec 2) (areg : BitVec 3) (pad : Bool) (nm1 : BitVec 4) : Statement (.qpush c t q areg pad nm1) :=
  ⟨fun _ => ⟨_, rfl⟩, fun h => nomatch h⟩
theorem qpop (c : Nat) (t : BitVec 4) (q : BitVec 2) (areg : BitVec 3) (pad : Bool) (nm1 : BitVec 4) : Statement (.qpop c t q areg pad nm1) :=
  ⟨fun _ => ⟨_, rfl⟩, fun h => nomatch h⟩
theorem walk (c : Nat) (t : BitVec 4) (gd : BitVec 5) (ctr : BitVec 3) (cpt : Bool) : Statement (.walk c t gd ctr cpt) :=
  ⟨fun _ => ⟨_, rfl⟩, fun h => nomatch h⟩
theorem dma (c : Nat) (t : BitVec 4) (gs gd gl : BitVec 5) (ctr : BitVec 3) : Statement (.dma c t gs gd gl ctr) :=
  ⟨fun _ => ⟨_, rfl⟩, fun h => nomatch h⟩
theorem waitc (c : Nat) (t : BitVec 4) (ctr : BitVec 3) (gt : BitVec 5) (imm : BitVec 12) : Statement (.waitc c t ctr gt imm) :=
  ⟨fun _ => ⟨_, rfl⟩, fun h => nomatch h⟩
theorem cntadd (c : Nat) (t : BitVec 4) (ctr : BitVec 3) (g : BitVec 5) (imm : BitVec 16) : Statement (.cntadd c t ctr g imm) :=
  ⟨fun _ => ⟨_, rfl⟩, fun h => nomatch h⟩
theorem cntrd (c : Nat) (t : BitVec 4) (ctr : BitVec 3) (g : BitVec 5) : Statement (.cntrd c t ctr g) :=
  ⟨fun _ => ⟨_, rfl⟩, fun h => nomatch h⟩
theorem swap (c : Nat) (t : BitVec 4) (sw sa : Bool) : Statement (.swap c t sw sa) :=
  ⟨fun _ => ⟨_, rfl⟩, fun h => nomatch h⟩
theorem illegalEncoding (c : Nat) (t : BitVec 4) (word : Word) : Statement (.illegalEncoding c t word) :=
  ⟨fun _ => ⟨_, rfl⟩, fun h => nomatch h⟩
theorem drainBlock (c : Nat) : Statement (.drainBlock c) :=
  ⟨fun h => (nomatch h), fun _ => rfl⟩
theorem generatorRequest (c : Nat) : Statement (.generatorRequest c) :=
  ⟨fun h => (nomatch h), fun _ => rfl⟩
theorem queueEntryMove (c : Nat) (q : BitVec 2) : Statement (.queueEntryMove c q) :=
  ⟨fun h => (nomatch h), fun _ => rfl⟩
theorem storePortTurn (c : Nat) : Statement (.storePortTurn c) :=
  ⟨fun h => (nomatch h), fun _ => rfl⟩
theorem dmaArrival (c : Nat) (slot : BitVec 3) : Statement (.dmaArrival c slot) :=
  ⟨fun h => (nomatch h), fun _ => rfl⟩
theorem walkerStart (c : Nat) (slot : BitVec 3) : Statement (.walkerStart c slot) :=
  ⟨fun h => (nomatch h), fun _ => rfl⟩
theorem walkerUnit (c : Nat) (slot : BitVec 3) : Statement (.walkerUnit c slot) :=
  ⟨fun h => (nomatch h), fun _ => rfl⟩
theorem walkerReleaseWaitEnd (c : Nat) (slot : BitVec 3) : Statement (.walkerReleaseWaitEnd c slot) :=
  ⟨fun h => (nomatch h), fun _ => rfl⟩
theorem tileArrival (c : Nat) (slot : BitVec 3) : Statement (.tileArrival c slot) :=
  ⟨fun h => (nomatch h), fun _ => rfl⟩
theorem foldSlotOpen (c : Nat) : Statement (.foldSlotOpen c) :=
  ⟨fun h => (nomatch h), fun _ => rfl⟩
theorem fillerSlotEnd (c : Nat) : Statement (.fillerSlotEnd c) :=
  ⟨fun h => (nomatch h), fun _ => rfl⟩
theorem fillerPortCutoff (c : Nat) : Statement (.fillerPortCutoff c) :=
  ⟨fun h => (nomatch h), fun _ => rfl⟩
theorem debugAccRead (f c off n : Nat) : Statement (.debugAccRead f c off n) :=
  ⟨fun h => (nomatch h), fun _ => rfl⟩
theorem tick (energy : Nat) (parts : List Nat) : Statement (.tick energy parts) :=
  ⟨fun h => (nomatch h), fun _ => rfl⟩
theorem slipLimitReached (p : Nat) : Statement (.slipLimitReached p) :=
  ⟨fun h => (nomatch h), fun _ => rfl⟩
theorem rateChange : Statement (.rateChange) :=
  ⟨fun h => (nomatch h), fun _ => rfl⟩
theorem rateArm (who value : Nat) : Statement (.rateArm who value) :=
  ⟨fun h => (nomatch h), fun _ => rfl⟩
theorem mirrorComplete (p : Nat) : Statement (.mirrorComplete p) :=
  ⟨fun h => (nomatch h), fun _ => rfl⟩
theorem mirrorTurn (c : Nat) : Statement (.mirrorTurn c) :=
  ⟨fun h => (nomatch h), fun _ => rfl⟩
theorem supplyDroop (n : Nat) : Statement (.supplyDroop n) :=
  ⟨fun h => (nomatch h), fun _ => rfl⟩
theorem syncSymbolSend (p frac : Nat) : Statement (.syncSymbolSend p frac) :=
  ⟨fun h => (nomatch h), fun _ => rfl⟩
theorem syncSymbolReceive (p : Nat) (sym : BitVec 128) (frac : Nat) : Statement (.syncSymbolReceive p sym frac) :=
  ⟨fun h => (nomatch h), fun _ => rfl⟩
theorem lockAcquired : Statement (.lockAcquired) :=
  ⟨fun h => (nomatch h), fun _ => rfl⟩
theorem parentChange : Statement (.parentChange) :=
  ⟨fun h => (nomatch h), fun _ => rfl⟩
theorem holdover : Statement (.holdover) :=
  ⟨fun h => (nomatch h), fun _ => rfl⟩
theorem lostLock : Statement (.lostLock) :=
  ⟨fun h => (nomatch h), fun _ => rfl⟩
theorem acquire : Statement (.acquire) :=
  ⟨fun h => (nomatch h), fun _ => rfl⟩
theorem doorbell (f q tail : Nat) : Statement (.doorbell f q tail) :=
  ⟨fun h => (nomatch h), fun _ => rfl⟩
theorem cqHeadWrite (f q head : Nat) : Statement (.cqHeadWrite f q head) :=
  ⟨fun h => (nomatch h), fun _ => rfl⟩
theorem fetchRound (cells : List (Nat × BitVec 8)) : Statement (.fetchRound cells) :=
  ⟨fun h => (nomatch h), fun _ => rfl⟩
theorem commandAccept (f q : Nat) : Statement (.commandAccept f q) :=
  ⟨fun h => (nomatch h), fun _ => rfl⟩
theorem hostAccessFail (f q : Nat) (write : Bool) : Statement (.hostAccessFail f q write) :=
  ⟨fun h => (nomatch h), fun _ => rfl⟩
theorem queueEnable (f q : Nat) : Statement (.queueEnable f q) :=
  ⟨fun h => (nomatch h), fun _ => rfl⟩
theorem queueDisable (f q : Nat) : Statement (.queueDisable f q) :=
  ⟨fun h => (nomatch h), fun _ => rfl⟩
theorem runSpan (f q : Nat) : Statement (.runSpan f q) :=
  ⟨fun h => (nomatch h), fun _ => rfl⟩
theorem copy (f q : Nat) : Statement (.copy f q) :=
  ⟨fun h => (nomatch h), fun _ => rfl⟩
theorem reduceScatter (f q : Nat) : Statement (.reduceScatter f q) :=
  ⟨fun h => (nomatch h), fun _ => rfl⟩
theorem allGather (f q : Nat) : Statement (.allGather f q) :=
  ⟨fun h => (nomatch h), fun _ => rfl⟩
theorem allReduce (f q : Nat) : Statement (.allReduce f q) :=
  ⟨fun h => (nomatch h), fun _ => rfl⟩
theorem broadcast (f q : Nat) : Statement (.broadcast f q) :=
  ⟨fun h => (nomatch h), fun _ => rfl⟩
theorem permute (f q : Nat) : Statement (.permute f q) :=
  ⟨fun h => (nomatch h), fun _ => rfl⟩
theorem rotate (f q : Nat) : Statement (.rotate f q) :=
  ⟨fun h => (nomatch h), fun _ => rfl⟩
theorem vote (f q : Nat) : Statement (.vote f q) :=
  ⟨fun h => (nomatch h), fun _ => rfl⟩
theorem commitStep (f q : Nat) : Statement (.commitStep f q) :=
  ⟨fun h => (nomatch h), fun _ => rfl⟩
theorem windowOpen (f q : Nat) : Statement (.windowOpen f q) :=
  ⟨fun h => (nomatch h), fun _ => rfl⟩
theorem windowClose (f q : Nat) : Statement (.windowClose f q) :=
  ⟨fun h => (nomatch h), fun _ => rfl⟩
theorem event (f q : Nat) : Statement (.event f q) :=
  ⟨fun h => (nomatch h), fun _ => rfl⟩
theorem fence (f q : Nat) : Statement (.fence f q) :=
  ⟨fun h => (nomatch h), fun _ => rfl⟩
theorem checkpoint (f q : Nat) : Statement (.checkpoint f q) :=
  ⟨fun h => (nomatch h), fun _ => rfl⟩
theorem replay (f q : Nat) : Statement (.replay f q) :=
  ⟨fun h => (nomatch h), fun _ => rfl⟩
theorem streamCheck (id : Nat) (ok : Bool) : Statement (.streamCheck id ok) :=
  ⟨fun h => (nomatch h), fun _ => rfl⟩
theorem finalisation (p : Nat) : Statement (.finalisation p) :=
  ⟨fun h => (nomatch h), fun _ => rfl⟩
theorem loadFrame (p : Nat) : Statement (.loadFrame p) :=
  ⟨fun h => (nomatch h), fun _ => rfl⟩
theorem fillerLoad (p : Nat) : Statement (.fillerLoad p) :=
  ⟨fun h => (nomatch h), fun _ => rfl⟩
theorem tierLineArrival (id : Nat) (ok corr : Bool) : Statement (.tierLineArrival id ok corr) :=
  ⟨fun h => (nomatch h), fun _ => rfl⟩
theorem lineRetry (id : Nat) (line : LineRead) : Statement (.lineRetry id line) :=
  ⟨fun h => (nomatch h), fun _ => rfl⟩
theorem nvmeCompletion (id : Nat) (ok : Bool) : Statement (.nvmeCompletion id ok) :=
  ⟨fun h => (nomatch h), fun _ => rfl⟩
theorem nvmeTimeout (id : Nat) : Statement (.nvmeTimeout id) :=
  ⟨fun h => (nomatch h), fun _ => rfl⟩
theorem asyncCopyLine (id : Nat) : Statement (.asyncCopyLine id) :=
  ⟨fun h => (nomatch h), fun _ => rfl⟩
theorem map (f : Nat) : Statement (.map f) :=
  ⟨fun h => (nomatch h), fun _ => rfl⟩
theorem mapPinned (f : Nat) : Statement (.mapPinned f) :=
  ⟨fun h => (nomatch h), fun _ => rfl⟩
theorem unmap (f : Nat) : Statement (.unmap f) :=
  ⟨fun h => (nomatch h), fun _ => rfl⟩
theorem pin (f : Nat) : Statement (.pin f) :=
  ⟨fun h => (nomatch h), fun _ => rfl⟩
theorem unpin (f : Nat) : Statement (.unpin f) :=
  ⟨fun h => (nomatch h), fun _ => rfl⟩
theorem refill (f vpage : Nat) : Statement (.refill f vpage) :=
  ⟨fun h => (nomatch h), fun _ => rfl⟩
theorem cacheBaseWrite (d value : Nat) : Statement (.cacheBaseWrite d value) :=
  ⟨fun h => (nomatch h), fun _ => rfl⟩
theorem carveWrite (f d value : Nat) : Statement (.carveWrite f d value) :=
  ⟨fun h => (nomatch h), fun _ => rfl⟩
theorem sharesWrite (f value : Nat) : Statement (.sharesWrite f value) :=
  ⟨fun h => (nomatch h), fun _ => rfl⟩
theorem quotaWrite (f kind value : Nat) : Statement (.quotaWrite f kind value) :=
  ⟨fun h => (nomatch h), fun _ => rfl⟩
theorem flashWindowArm (n value : Nat) : Statement (.flashWindowArm n value) :=
  ⟨fun h => (nomatch h), fun _ => rfl⟩
theorem offlineReq (b : Nat) : Statement (.offlineReq b) :=
  ⟨fun h => (nomatch h), fun _ => rfl⟩
theorem bayOffline (b : Nat) : Statement (.bayOffline b) :=
  ⟨fun h => (nomatch h), fun _ => rfl⟩
theorem bayOnline (b reason blocks : Nat) : Statement (.bayOnline b reason blocks) :=
  ⟨fun h => (nomatch h), fun _ => rfl⟩
theorem stackRetire (stack : Nat) : Statement (.stackRetire stack) :=
  ⟨fun h => (nomatch h), fun _ => rfl⟩
theorem linkBlockReceive (p : Nat) (good corr : Bool) (blk : List (BitVec 8)) : Statement (.linkBlockReceive p good corr blk) :=
  ⟨fun h => (nomatch h), fun _ => rfl⟩
theorem linkReplay (p acked : Nat) : Statement (.linkReplay p acked) :=
  ⟨fun h => (nomatch h), fun _ => rfl⟩
theorem portFail (p cause : Nat) : Statement (.portFail p cause) :=
  ⟨fun h => (nomatch h), fun _ => rfl⟩
theorem portUpRequest (p : Nat) (up : Bool) : Statement (.portUpRequest p up) :=
  ⟨fun h => (nomatch h), fun _ => rfl⟩
theorem portUp (p neighbour delay : Nat) : Statement (.portUp p neighbour delay) :=
  ⟨fun h => (nomatch h), fun _ => rfl⟩
theorem floodReceive (p kind count : Nat) : Statement (.floodReceive p kind count) :=
  ⟨fun h => (nomatch h), fun _ => rfl⟩
theorem linkState (p src : Nat) (link : TorusLink) (up : Bool) : Statement (.linkState p src link up) :=
  ⟨fun h => (nomatch h), fun _ => rfl⟩
theorem writeMessageReceive (p : Nat) (hdr : BitVec 256) (payload : List (BitVec 8)) : Statement (.writeMessageReceive p hdr payload) :=
  ⟨fun h => (nomatch h), fun _ => rfl⟩
theorem messageForward (p : Nat) (hdr : BitVec 256) (payload : List (BitVec 8)) : Statement (.messageForward p hdr payload) :=
  ⟨fun h => (nomatch h), fun _ => rfl⟩
theorem ack (hdr : BitVec 256) : Statement (.ack hdr) :=
  ⟨fun h => (nomatch h), fun _ => rfl⟩
theorem retire (hdr : BitVec 256) : Statement (.retire hdr) :=
  ⟨fun h => (nomatch h), fun _ => rfl⟩
theorem nak (hdr : BitVec 256) : Statement (.nak hdr) :=
  ⟨fun h => (nomatch h), fun _ => rfl⟩
theorem rewind (hdr : BitVec 256) : Statement (.rewind hdr) :=
  ⟨fun h => (nomatch h), fun _ => rfl⟩
theorem ackTimer (src stream : Nat) : Statement (.ackTimer src stream) :=
  ⟨fun h => (nomatch h), fun _ => rfl⟩
theorem resendTimeout (stream : Nat) : Statement (.resendTimeout stream) :=
  ⟨fun h => (nomatch h), fun _ => rfl⟩
theorem parkedRepeat (stream : Nat) : Statement (.parkedRepeat stream) :=
  ⟨fun h => (nomatch h), fun _ => rfl⟩
theorem messageTransmit (stream : Nat) : Statement (.messageTransmit stream) :=
  ⟨fun h => (nomatch h), fun _ => rfl⟩
theorem collMessageReceive (p : Nat) (hdr : BitVec 256) (payload : List (BitVec 8)) : Statement (.collMessageReceive p hdr payload) :=
  ⟨fun h => (nomatch h), fun _ => rfl⟩
theorem collNotreadyRepeat (id : Nat) : Statement (.collNotreadyRepeat id) :=
  ⟨fun h => (nomatch h), fun _ => rfl⟩
theorem collTimeout (id : Nat) : Statement (.collTimeout id) :=
  ⟨fun h => (nomatch h), fun _ => rfl⟩
theorem collLanding (id : Nat) : Statement (.collLanding id) :=
  ⟨fun h => (nomatch h), fun _ => rfl⟩
theorem watchdogExpiry (c : Nat) : Statement (.watchdogExpiry c) :=
  ⟨fun h => (nomatch h), fun _ => rfl⟩
theorem faultDetection (what : Detected) : Statement (.faultDetection what) :=
  ⟨fun h => (nomatch h), fun _ => rfl⟩
theorem recovery (p : Nat) : Statement (.recovery p) :=
  ⟨fun h => (nomatch h), fun _ => rfl⟩
theorem remapSubstitution (d kind half row index : Nat) (dir software : Bool) : Statement (.remapSubstitution d kind half row index dir software) :=
  ⟨fun h => (nomatch h), fun _ => rfl⟩
theorem rowExhausted (d half row : Nat) : Statement (.rowExhausted d half row) :=
  ⟨fun h => (nomatch h), fun _ => rfl⟩
theorem sliceRebuild (d half : Nat) : Statement (.sliceRebuild d half) :=
  ⟨fun h => (nomatch h), fun _ => rfl⟩
theorem lineParityRebuild (base : Nat) : Statement (.lineParityRebuild base) :=
  ⟨fun h => (nomatch h), fun _ => rfl⟩
theorem remapGo (d : Nat) : Statement (.remapGo d) :=
  ⟨fun h => (nomatch h), fun _ => rfl⟩
theorem remapRecPop (d : Nat) : Statement (.remapRecPop d) :=
  ⟨fun h => (nomatch h), fun _ => rfl⟩
theorem scrubVoteCorrect (d : Nat) (copy : ScrubCopy) (bad : Nat) : Statement (.scrubVoteCorrect d copy bad) :=
  ⟨fun h => (nomatch h), fun _ => rfl⟩
theorem cpFailover : Statement (.cpFailover) :=
  ⟨fun h => (nomatch h), fun _ => rfl⟩
theorem functionReset (f : Nat) : Statement (.functionReset f) :=
  ⟨fun h => (nomatch h), fun _ => rfl⟩
theorem deviceReset : Statement (.deviceReset) :=
  ⟨fun h => (nomatch h), fun _ => rfl⟩
theorem orderlyPowerDown : Statement (.orderlyPowerDown) :=
  ⟨fun h => (nomatch h), fun _ => rfl⟩
theorem inputLoss : Statement (.inputLoss) :=
  ⟨fun h => (nomatch h), fun _ => rfl⟩
theorem powerDip : Statement (.powerDip) :=
  ⟨fun h => (nomatch h), fun _ => rfl⟩
theorem preemptStop (p : Nat) : Statement (.preemptStop p) :=
  ⟨fun h => (nomatch h), fun _ => rfl⟩
theorem preemptResume (p : Nat) : Statement (.preemptResume p) :=
  ⟨fun h => (nomatch h), fun _ => rfl⟩
theorem fnRelease (f : Nat) : Statement (.fnRelease f) :=
  ⟨fun h => (nomatch h), fun _ => rfl⟩
theorem cpPartWrite (p value : Nat) : Statement (.cpPartWrite p value) :=
  ⟨fun h => (nomatch h), fun _ => rfl⟩
theorem fnCfgWrite (f : Nat) (events : Bool) (value : Nat) : Statement (.fnCfgWrite f events value) :=
  ⟨fun h => (nomatch h), fun _ => rfl⟩
theorem hostPowerState (d3hot : Bool) : Statement (.hostPowerState d3hot) :=
  ⟨fun h => (nomatch h), fun _ => rfl⟩
theorem dump : Statement (.dump) :=
  ⟨fun h => (nomatch h), fun _ => rfl⟩
theorem cntCfgWrite (kind k value : Nat) : Statement (.cntCfgWrite kind k value) :=
  ⟨fun h => (nomatch h), fun _ => rfl⟩
theorem threadSample (c skid : Nat) (pc : BitVec 8) : Statement (.threadSample c skid pc) :=
  ⟨fun h => (nomatch h), fun _ => rfl⟩
theorem sepiaRecord : Statement (.sepiaRecord) :=
  ⟨fun h => (nomatch h), fun _ => rfl⟩
theorem lost : Statement (.lost) :=
  ⟨fun h => (nomatch h), fun _ => rfl⟩
theorem sepiaHeadWrite (head : Nat) : Statement (.sepiaHeadWrite head) :=
  ⟨fun h => (nomatch h), fun _ => rfl⟩
theorem testMismatch (c : Nat) (pc : BitVec 8) (expected actual : BitVec 20) : Statement (.testMismatch c pc expected actual) :=
  ⟨fun h => (nomatch h), fun _ => rfl⟩
theorem obsConsentWrite (f value : Nat) : Statement (.obsConsentWrite f value) :=
  ⟨fun h => (nomatch h), fun _ => rfl⟩
theorem obsPartWrite (p value : Nat) : Statement (.obsPartWrite p value) :=
  ⟨fun h => (nomatch h), fun _ => rfl⟩
theorem vigilPin : Statement (.vigilPin) :=
  ⟨fun h => (nomatch h), fun _ => rfl⟩
theorem now : Statement (.now) :=
  ⟨fun h => (nomatch h), fun _ => rfl⟩
theorem nowSys : Statement (.nowSys) :=
  ⟨fun h => (nomatch h), fun _ => rfl⟩
theorem sched : Statement (.sched) :=
  ⟨fun h => (nomatch h), fun _ => rfl⟩
theorem schedSys : Statement (.schedSys) :=
  ⟨fun h => (nomatch h), fun _ => rfl⟩
theorem resume : Statement (.resume) :=
  ⟨fun h => (nomatch h), fun _ => rfl⟩
theorem resumeSys : Statement (.resumeSys) :=
  ⟨fun h => (nomatch h), fun _ => rfl⟩
theorem scheduledFreeze : Statement (.scheduledFreeze) :=
  ⟨fun h => (nomatch h), fun _ => rfl⟩
theorem vigilResumePoint : Statement (.vigilResumePoint) :=
  ⟨fun h => (nomatch h), fun _ => rfl⟩
theorem scanGo : Statement (.scanGo) :=
  ⟨fun h => (nomatch h), fun _ => rfl⟩
theorem scanDone : Statement (.scanDone) :=
  ⟨fun h => (nomatch h), fun _ => rfl⟩
theorem mcHeartbeatMiss : Statement (.mcHeartbeatMiss) :=
  ⟨fun h => (nomatch h), fun _ => rfl⟩
theorem telemetrySample (temp flow inlet : Nat) : Statement (.telemetrySample temp flow inlet) :=
  ⟨fun h => (nomatch h), fun _ => rfl⟩
theorem thermalTrip : Statement (.thermalTrip) :=
  ⟨fun h => (nomatch h), fun _ => rfl⟩
theorem coolantFailure : Statement (.coolantFailure) :=
  ⟨fun h => (nomatch h), fun _ => rfl⟩
theorem coolantWarn (flow inlet temp : Nat) : Statement (.coolantWarn flow inlet temp) :=
  ⟨fun h => (nomatch h), fun _ => rfl⟩
theorem powerLimit (watts : Nat) : Statement (.powerLimit watts) :=
  ⟨fun h => (nomatch h), fun _ => rfl⟩
theorem startup (env : StartEnv) : Statement (.startup env) :=
  ⟨fun h => (nomatch h), fun _ => rfl⟩
theorem startupStepTimeout : Statement (.startupStepTimeout) :=
  ⟨fun h => (nomatch h), fun _ => rfl⟩
theorem coolantCheckPass : Statement (.coolantCheckPass) :=
  ⟨fun h => (nomatch h), fun _ => rfl⟩
theorem attnN : Statement (.attnN) :=
  ⟨fun h => (nomatch h), fun _ => rfl⟩
theorem refclkLoss : Statement (.refclkLoss) :=
  ⟨fun h => (nomatch h), fun _ => rfl⟩
theorem cableChange (p : Nat) (inserted qualified : Bool) : Statement (.cableChange p inserted qualified) :=
  ⟨fun h => (nomatch h), fun _ => rfl⟩
theorem prsntChange (made : Bool) : Statement (.prsntChange made) :=
  ⟨fun h => (nomatch h), fun _ => rfl⟩
theorem sucWrite : Statement (.sucWrite) :=
  ⟨fun h => (nomatch h), fun _ => rfl⟩
theorem sucRead : Statement (.sucRead) :=
  ⟨fun h => (nomatch h), fun _ => rfl⟩
theorem fwStage : Statement (.fwStage) :=
  ⟨fun h => (nomatch h), fun _ => rfl⟩
theorem inventory : Statement (.inventory) :=
  ⟨fun h => (nomatch h), fun _ => rfl⟩
theorem remove : Statement (.remove) :=
  ⟨fun h => (nomatch h), fun _ => rfl⟩
theorem powerDown : Statement (.powerDown) :=
  ⟨fun h => (nomatch h), fun _ => rfl⟩
theorem spdmRequest (f : Nat) (bytes : List (BitVec 8)) : Statement (.spdmRequest f bytes) :=
  ⟨fun h => (nomatch h), fun _ => rfl⟩
theorem uartReceiveCharacter (data : BitVec 8) (stop : Bool) : Statement (.uartReceiveCharacter data stop) :=
  ⟨fun h => (nomatch h), fun _ => rfl⟩
theorem uartTransmitCharacter : Statement (.uartTransmitCharacter) :=
  ⟨fun h => (nomatch h), fun _ => rfl⟩
theorem uartSepiaFrame : Statement (.uartSepiaFrame) :=
  ⟨fun h => (nomatch h), fun _ => rfl⟩
theorem cvuFeed (who ch bytes value : Nat) : Statement (.cvuFeed who ch bytes value) :=
  ⟨fun h => (nomatch h), fun _ => rfl⟩
theorem cvuInit (who ch : Nat) : Statement (.cvuInit who ch) :=
  ⟨fun h => (nomatch h), fun _ => rfl⟩
theorem cvuValueWrite (who ch : Nat) (high : Bool) (value : Nat) : Statement (.cvuValueWrite who ch high value) :=
  ⟨fun h => (nomatch h), fun _ => rfl⟩
theorem cvuValueRead (who ch : Nat) (high : Bool) : Statement (.cvuValueRead who ch high) :=
  ⟨fun h => (nomatch h), fun _ => rfl⟩
theorem cvuResultRead (who ch : Nat) (high : Bool) : Statement (.cvuResultRead who ch high) :=
  ⟨fun h => (nomatch h), fun _ => rfl⟩
theorem wideLowRead (who addr : Nat) : Statement (.wideLowRead who addr) :=
  ⟨fun h => (nomatch h), fun _ => rfl⟩
theorem wideLowWrite (who addr value : Nat) : Statement (.wideLowWrite who addr value) :=
  ⟨fun h => (nomatch h), fun _ => rfl⟩
theorem wideHighWrite (who addr value : Nat) : Statement (.wideHighWrite who addr value) :=
  ⟨fun h => (nomatch h), fun _ => rfl⟩
theorem frozenWrite (who addr value mask : Nat) : Statement (.frozenWrite who addr value mask) :=
  ⟨fun h => (nomatch h), fun _ => rfl⟩
theorem aliasWrite (f off value : Nat) : Statement (.aliasWrite f off value) :=
  ⟨fun h => (nomatch h), fun _ => rfl⟩
theorem registerWrite (who addr value mask : Nat) : Statement (.registerWrite who addr value mask) :=
  ⟨fun h => (nomatch h), fun _ => rfl⟩
theorem drivePull (b : Nat) (present : Bool) : Statement (.drivePull b present) :=
  ⟨fun h => (nomatch h), fun _ => rfl⟩
theorem slotIdStrapChange (pins : Nat) : Statement (.slotIdStrapChange pins) :=
  ⟨fun h => (nomatch h), fun _ => rfl⟩
theorem portTrainingRepeat (p : Nat) : Statement (.portTrainingRepeat p) :=
  ⟨fun h => (nomatch h), fun _ => rfl⟩
theorem mcRemapRecordRemoval (d : Nat) : Statement (.mcRemapRecordRemoval d) :=
  ⟨fun h => (nomatch h), fun _ => rfl⟩

end Sys2Proof.Laws.WellFormedUnits
end

