-- ==== Sys2Proof/Tests/Slice0.lean ====
section
/-! SUPPORT. Tests: a well-formedness smoke test with an ill-formed term for each check, words of the encoding tables, and for each statement
that has hypotheses a state and operands that meet them, clause by clause at a boundary. -/

namespace Sys2Proof.Tests

open Sys2Proof.Machine Sys2Proof.Claims

set_option Elab.async false

/-! ### Small states -/

/-- A configuration record: the whole of each pad in bounds, every counter, every queue on a neighbour link; `dbuf` the double-mode bits of
the W-pad (1) and the A-pad (2). -/
def cfgRec (dbuf : Nat) : BitVec 256 :=
  BitVec.ofNat 256 (3071 * 2 ^ 156 + dbuf * 2 ^ 206 + 2047 * 2 ^ 179 + 255 * 2 ^ 198 + 255 * 2 ^ 208 + 0x55 * 2 ^ 225)

/-- A core with the slot of configuration 0 open and one thread. -/
def coreWith (dbuf : Nat) (th : Thread) : Core := { slotOpen := some 0, cfgs := [(0, cfgRec dbuf)], threads := [(0, th)] }

/-- Partition 0 of function 1 on die 0. -/
def onePart : Part := { valid := true, func := 1, rows := 1, cols := 1 }

/-- The module after reset, past its tick window, with partition 0 running and core 0 as given. -/
def withCore (k : Core) : State := { State.reset with subtick := 16, parts := [(0, onePart)], cores := [(0, k)] }

/-- A READY thread. -/
def ready : Thread := { state := .ready }

/-- Core 0 with one READY thread. -/
def s0 : State := withCore (coreWith 0 ready)

/-- Registers written one after the other. -/
def withRegs (s : State) (l : List (Nat × Nat)) : State := l.foldl (fun s x => s.setReg x.1 x.2) s

/-! ### Well-formedness -/

theorem test_units_refused :
    (∀ i ∈ [Instr.addi 49152 0 0 0 0, .slipLimitReached 8, .rateArm 257 0, .doorbell 256 0 0, .doorbell 0 64 0, .map 256,
      .carveWrite 0 8 0, .remapSubstitution 0 0 2 0 0 false false, .remapSubstitution 0 0 0 64 0 false false, .sliceRebuild 0 2,
      .scrubVoteCorrect 0 (.control 3) 0, .flashWindowArm 16 0, .offlineReq 4, .stackRetire 16, .resendTimeout 4096, .cntCfgWrite 12 0 0,
      .cntCfgWrite 0 8 0, .cvuFeed 0 17 1 0, .cvuFeed 0 0 3 0, .cvuInit 257 0, .debugAccRead 256 0 0 0, .debugAccRead 0 49152 0 0],
      i.wellFormed = false) ∧ (Instr.addi 49151 15 31 31 0xFFFF).wellFormed = true := by decide

theorem test_fields_refused :
    (∀ i ∈ [Instr.alu 0 0 0 0 0 30 0, .alu 0 0 8 0 0 16 0, .alu 0 0 0 0 0 0 1, .shi 0 0 0 0 3 0, .loop 0 0 0 0, .ld 0 0 0 0 3 false false 0,
      .ld 0 0 0 0 2 false true 0, .st 0 0 0 0 3 false 0, .areg 0 0 0 0 0 1 0, .areg 0 0 0 2 2 0 0, .areg 0 0 0 3 4 0 256, .fstat 0 0 0 0 3,
      .tmma 0 0 1 1 2 false 0 false false false, .tmmaI8 0 0 1 2 2 false 0 false false false,
      .tdrain 0 0 0 0 false 0 15 0 0 false 0 false, .vop 0 0 16 false false false false 0 false false false false 1,
      .vop 0 0 0 false false false false 0 false false false false 0, .cvt 0 0 0 0 0 false 0 false false 0 false 0 0,
      .split 0 0 false 0 5 false 0 false 0 false 0, .merge 0 0 true true 0 false false 0, .sspk 0 0 0 0 false false false 1 0,
      .rng 0 0 0 false false false, .walk 0 0 1 0 false, .dma 0 0 2 4 0 0, .swap 0 0 false false], i.wellFormed = false) := by decide

/-! ### Words written out from the encoding tables -/

theorem test_word_scalar :
    decodeCore 0 0 (0x01#6 ++ 3#5 ++ 1#5 ++ 2#5 ++ 9#5 ++ 0#6) = some (.alu 0 0 3 1 2 9 0) ∧
    decodeCore 0 0 (0x07#6 ++ 3#5 ++ 1#5 ++ 0#9 ++ 2#2 ++ 31#5) = some (.shi 0 0 3 1 2 31) ∧
    decodeCore 0 0 (0x0A#6 ++ 3#5 ++ 1#5 ++ 1#2 ++ 1#1 ++ 1#1 ++ 0xFFF#12) = some (.ld 0 0 3 1 1 true true 0xFFF) ∧
    decodeCore 0 0 (0x0E#6 ++ 3#5 ++ 0x81#8 ++ 2#2 ++ 0#11) = some (.fstat 0 0 3 0x81 2) := by decide

theorem test_word_tensor_vector :
    decodeCore 0 0 (0x10#6 ++ 1#3 ++ 2#3 ++ 3#3 ++ 1#1 ++ 15#4 ++ 1#1 ++ 0#1 ++ 1#1 ++ 0#9) = some (.tmma 0 0 1 2 3 true 15 true false true) ∧
    decodeCore 0 0 (0x18#6 ++ 3#5 ++ 1#1 ++ 1#1 ++ 0#1 ++ 1#1 ++ 5#3 ++ 1#1 ++ 0#1 ++ 1#1 ++ 0#1 ++ 15#4 ++ 0#6) =
      some (.vop 0 0 3 true true false true 5 true false true false 15) ∧
    decodeCore 0 0 (0x1E#6 ++ 1#2 ++ 1#1 ++ 0#1 ++ 1#1 ++ 0#21) = some (.rng 0 0 1 true false true) := by decide

theorem test_word_queue_transfer :
    decodeCore 0 0 (0x20#6 ++ 3#2 ++ 7#3 ++ 1#1 ++ 15#4 ++ 0#16) = some (.qpush 0 0 3 7 true 15) ∧
    decodeCore 0 0 (0x23#6 ++ 2#5 ++ 4#5 ++ 6#5 ++ 7#3 ++ 0#8) = some (.dma 0 0 2 4 6 7) ∧
    decodeCore 0 0 (0x25#6 ++ 7#3 ++ 1#2 ++ 5#5 ++ 0#16) = some (.cntrd 0 0 7 5) ∧
    decodeCore 0 0 (0x25#6 ++ 7#3 ++ 2#2 ++ 5#5 ++ 0#16) = none := by decide

/-! ### Hypotheses met: the machine as a whole -/

theorem witness_IdleStep : State.reset.pending = [] ∧ State.reset.subtick < State.reset.cycles ∧
    ({ State.reset with subtick := State.reset.cycles - 1 }).subtick < State.reset.cycles := by decide

theorem witness_StepKeepsMemory : ∃ u, Safety.MemoryKept State.reset ∧ step State.reset = .next u := ⟨_, by simp only [Safety.MemoryKept]; decide, rfl⟩

theorem witness_ExecKeepsQueueAndPart : ∃ u, exec (.prsntChange true) State.reset = .next u := ⟨_, rfl⟩

theorem witness_DecodeOfEncode : ∃ w, encodeCore (.addi 49151 15 31 31 0xFFFF) = some w ∧ (Instr.addi 49151 15 31 31 0xFFFF).legal = true :=
  ⟨_, rfl, rfl⟩

/-! ### Hypotheses met: core instructions -/

theorem witness_Issues : Issues s0 0 0 ∧ IssuesArray s0 0 0 ∧ (2 : BitVec 2) ≠ 3 ∧ pairField 30 = true := by decide +kernel

theorem witness_HasOperands (n : Needs) : HasOperands s0 0 0 n := rfl

/-- A stochastic conversion of BF16 to INT8, into v0 or the first granule of the A-pad, and one of a block of scales to the W-pad. -/
def cvtReq (pad : Bool) : GenReq :=
  { thread := 0, input := (ready.genInput 1), use := .cvt 0 1 4 0 false (if pad then .pad (padWindow 0 + 0x18000) else .v false) }
def sspkReq : GenReq :=
  { thread := 0, input := (ready.genInput 1), use := .sspk (List.replicate 16 0) false false ((List.range 17).map (padWindow 0 + ·)) }

/-- Core 0 with requests of thread 0 at its generator unit. -/
def sAsked (l : List GenReq) : State := withCore { coreWith 0 ready with gens := l }

/-- Core 0 with threads 0 and 1 READY, thread 1 first in each slot, at a TMMA where `array` says so. -/
def sTwo (array : Bool) : State :=
  let s := withCore { coreWith 0 ready with threads := [(0, ready), (1, { ready with pc := 4 })] }
  { s with mem := if array then [(padWindow 0 + 0x30000 + 16 + 3, 0x40)] else [] }

theorem witness_AluResults :
    aluLegal 7 7 7 29 0 = true ∧ aluLegal 31 31 31 0 0 = true ∧ aluLegal 0 0 0 15 0x38 = true ∧ aluLegal 7 0 0 18 0 = true ∧
      ¬ (19 ≤ (29 : BitVec 5).toNat ∧ (29 : BitVec 5).toNat ≤ 26) ∧ 19 ≤ (19 : BitVec 5).toNat ∧ (26 : BitVec 5).toNat ≤ 26 := by decide

/-- Thread 0 at PC 255. -/
def sLast : State := withCore (coreWith 0 { ready with pc := 255 })

theorem witness_BranchStatusAndPc :
    flagsPending (s0.view 0) 0 = false ∧ Issues (sAsked [cvtReq true]) 0 0 ∧ flagsPending ((sAsked [cvtReq true]).view 0) 0 = true ∧
      HasTurn sLast 0 0 false ∧ ((sLast.core 0).thread 0).pc = 255#8 := by decide +kernel

theorem witness_LoadStoreResults :
    (s0.view 0).byteKey .a (lsAddress 0xFFFF 0 0) = some (padWindow 0 + 0x18000 + 0xFFFF) ∧
    (s0.view 0).byteKey .w (lsAddress 0x17FFF 0 2) = some (padWindow 0 + 0x17FFC) ∧
    ((2 : BitVec 2) = 2 → false = false) ∧ (s0.view 0).mayWrite (padWindow 0 + 0x17FFC) = true ∧ (s0.view 0).byteKey .a (lsAddress 0x10000 0 0) = none := by decide +kernel

/-- Thread 0 with three pad-address registers: 0 on granule 0, 1 the last of the A-pad, 2 block 0, 3 out of every pad, 4 the last of the W-pad. -/
def sRegs : State := withCore (coreWith 0 { ready with a := [(1, 2047), (3, 4095), (4, 3071)] })

theorem witness_NotIssuedOrAbsent :
    wordIllegal 0 0 0#32 s0 = true ∧ wordIllegal 0 0 0x9B000000#32 s0 = true ∧ s0.isCore 0 = true ∧ s0.canIssue 0 0 = true ∧
      s0.isCore 49151 = true ∧ s0.canIssue 49151 0 = false ∧ s0.canIssue 0 1 = false ∧ s0.isCore 49152 = false ∧
      ({ s0 with subtick := 15 }).canIssue 0 0 = false ∧ HasTurn s0 0 0 (wordArray 0) ∧ HasTurn s0 0 0 (wordArray 0x9B000000) ∧
      ((sTwo false).canIssue 0 0 = true ∧ (sTwo false).turnOf 0 0 false = false ∧ (sTwo false).turnOf 0 0 true = true) ∧
      ((sTwo true).canIssue 0 0 = true ∧ (sTwo true).turnOf 0 0 true = false ∧ (sTwo true).turnOf 0 0 false = true) ∧
      (HasTurn (sAsked [cvtReq false]) 0 0 false ∧ ((sAsked [cvtReq false]).core 0).awaits 0 (.v false) = true ∧
        ((sAsked [cvtReq true]).core 0).awaits 0 (.pad true) = true ∧ ((sAsked [sspkReq]).core 0).awaits 0 (.pad false) = true ∧
        (1 : BitVec 2) ≠ 0 ∧ (1 : BitVec 2).toNat < 2) := by decide +kernel

theorem witness_VopResults :
    vopLegal 14 false true false true 15 = true ∧ named sRegs 0 0 1 .a = some (padWindow 0 + 0x18000 + 32 * 2047) ∧
      vopLegal 0 true true false false 1 = true ∧ vopLegal 15 true false true false 8 = true ∧
      named sRegs 0 0 4 .w = some (padWindow 0 + 32 * 3071) ∧ (sRegs.view 0).mayWrite (padWindow 0 + 32 * 3071) = true := by decide +kernel

theorem witness_CvtResults :
    Fmt.fp32 ≠ Fmt.fp64 ∧ 1 < max Fmt.fp32.size Fmt.fp64.size / min Fmt.fp32.size Fmt.fp64.size ∧
      cvtLegal 0 1 2 true 1 false true 0 true 0 1 = true ∧ cvtLegal 0 1 0 true 1 false true 0 true 0 0 = true ∧
      Fmt.ofCode 0 = some Fmt.fp32 ∧ Fmt.ofCode 1 = some Fmt.bf16 ∧
      ((sRegs.view 0).source 0 true true 1 false).isSome = true ∧
      (((sRegs.view 0).source 0 true true 1 false).bind fun x => x.2.destination 0 true false 0 true).isSome = true := by decide +kernel
theorem witness_SplitMergeAndScales :
    splitLegal 0 9 true 7 = true ∧ splitLegal 5 6 false 1 = true ∧ ((sRegs.view 0).source 0 true true 1 false).isSome = true ∧
      (((sRegs.view 0).source 0 true true 1 false).bind fun x => x.2.useAW 0 0 .a).isSome = true ∧ (1 : BitVec 2) ≠ 0 ∧
      ((sRegs.view 0).byteKeys .w 0x17FEF 17).isSome = true ∧
      (((sRegs.view 0).byteKeys .a 0xFFEF 17).getD []).all (sRegs.view 0).mayWrite = true ∧
      sspkLegal 0 0 = true ∧ sspkLegal 2 1 = true ∧ HasOperands sRegs 0 0 { v0 := true, v1 := true, w := true, a := true } ∧
      (sRegs.view 0).mayWrite (padWindow 0 + 0x18000 + 32 * 2047) = true ∧
      ((sRegs.view 0).granule .w (aregGranule ((usedA ((sRegs.core 0).thread 0) 4).getA 4))).isSome = true := by decide +kernel

/-- The request of an RNG of thread 0. -/
def rngReq : GenReq := { thread := 0, input := (ready.genInput 1), use := .rng true true }

/-- Core 0 with one RNG waiting at its generator unit. -/
def sGen : State := withCore { coreWith 0 { ready with state := .waitOperand } with gens := [rngReq] }

theorem witness_GeneratorResults :
    (3 : BitVec 2) ≠ 0 ∧ sGen.isCore 0 = true ∧ sGen.engineRuns 0 = true ∧ (sGen.core 0).gens[0]? = some rngReq ∧
      rngReq.use = .rng true true ∧ (∀ q ∈ (sGen.core 0).gens, q.isRng = true) ∧ ((sGen.core 0).thread 0).state = .waitOperand ∧
      (s0.core 0).gens = [] := by decide +kernel

/-- A conversion is served before an RNG that was asked for earlier. -/
theorem witness_GeneratorResults_conversions :
    (∀ b, ((sAsked [rngReq, cvtReq b]).core 0).gens[1]? = some (cvtReq b) ∧ (cvtReq b).isRng = false) ∧
      (∀ j q, j < 1 → ((sAsked [rngReq, cvtReq true]).core 0).gens[j]? = some q → q.isRng = true) ∧
      (cvtReq false).use = .cvt 0 (Fmt.code .bf16) (Fmt.code .int8) 0 false (.v false) ∧
      (cvtReq true).use = .cvt 0 (Fmt.code .bf16) (Fmt.code .int8) 0 false (.pad (padWindow 0 + 0x18000)) ∧
      (sAsked [sspkReq]).engineRuns 0 = true ∧ ((sAsked [sspkReq]).core 0).gens[0]? = some sspkReq ∧ sspkReq.isRng = false ∧
      ((List.range 17).map (padWindow 0 + ·)).Nodup := by
  refine ⟨by decide +kernel, ?_, by decide +kernel, by decide +kernel, by decide +kernel, by decide +kernel, by decide +kernel, by decide +kernel⟩
  intro j q hj h
  obtain rfl : j = 0 := by omega
  cases h
  rfl

theorem witness_TensorBursts :
    (tmmaOne ⟨false, 0, 1, 2, true, false, false, false⟩ 0 (sRegs.view 0)).isSome = true ∧ tmmaLegal 0 1 2 = true ∧
      (runBlocks ⟨true, 4, 0, 2, true, false, false, true⟩ 0 16 (s0.view 0)).isSome = true ∧
      named sRegs 0 0 0 .w = some (padWindow 0) ∧ named sRegs 0 0 1 .a = some (padWindow 0 + 0x18000 + 32 * 2047) ∧
      named sRegs 0 0 2 .p = some (padWindow 0 + 0x28000) ∧ named sRegs 0 0 3 .p = none := by decide +kernel

/-- A drain of block 255 in BF16, then of block 0 where `more` says so, to where a[ad] points in the A-pad, or to queue 3. -/
def aDrain (toQueue more : Bool) (ad : BitVec 3) : Drain :=
  { blocks := if more then [255, 0] else [255], dfmt := 1, toQueue := toQueue, q := 3, ad := ad, cinc := some 7 }

/-- Core 0 with that drain, its outbound queue 3 holding n entries; a3 points out of the A-pad. -/
def sDrain (toQueue more : Bool) (ad : BitVec 3) (n : Nat) : State := withCore { coreWith 0 { ready with a := [(3, 4095)] } with
  drain := some (aDrain toQueue more ad)
  qout := [(3, List.replicate n {})] }

/-- Core 0 with a0 at block 255 and a stride of one block. -/
def sStride : State := withCore (coreWith 0 { ready with a := [(0, 0x10000FF)] })

theorem witness_Drains :
    tdrainLegal false 0 1 2 3 true 7 false = true ∧ tdrainLegal true 3 2 0 0 false 0 false = true ∧
      cntAllowed (s0.core 0).activeCfg 7 = true ∧ drainFree (s0.view 0) = true ∧ inBounds (s0.core 0).activeCfg .p 0 = true ∧
      drainFree ((sDrain false true 0 0).view 0) = false ∧ IssuesArray (sDrain false true 0 0) 0 0 ∧
      (IssuesArray (withCore { coreWith 0 ready with cfgs := [] }) 0 0 ∧
        cntAllowed ((withCore { coreWith 0 ready with cfgs := [] }).core 0).activeCfg 7 = false) ∧
      (let block (i : Nat) := aregGranule (aregAdvance^[i] (((sStride.core 0).thread 0).getA 0))
       IssuesArray sStride 0 0 ∧ drainFree (sStride.view 0) = true ∧ inBounds (sStride.core 0).activeCfg .p (block 0) = true ∧
         inBounds (sStride.core 0).activeCfg .p (block 1) = false) := by decide +kernel

theorem witness_Drains_turns :
    (∀ q m, (sDrain q m 0 0).isCore 0 = true ∧ (sDrain q m 0 0).engineRuns 0 = true ∧ ((sDrain q m 0 0).core 0).drain = some (aDrain q m 0) ∧
      (drainTurn ((sDrain q m 0 0).view 0)).1 = true ∧ (aDrain q m 0).outputs = []) ∧
      ((aDrain true false 0).blocks = 255 :: [] ∧ (aDrain true true 0).blocks = 255 :: [0]) ∧
      (drainTurn ((sDrain false false 3 0).view 0)).1 = false ∧ (s0.core 0).drain = none ∧ (s0.core 0).suspended = none ∧
      (∀ m, let s := sDrain true m 0 1
        let out := drainOutputs (aDrain true m 0) (drainBlock (aDrain true m 0) (Mem.readNat s.mem (shadowKey 0 0 255) 64)).1 false
        out.1.length = 1 ∧ out.2 = none ∧ (kget [] (s.core 0).qout 3).length + 1 ≤ 2 ∧ 2 ≤ (kget [] ((sDrain true m 0 2).core 0).qout 3).length) ∧
      (let s := sDrain false true 0 0
       inBounds ((s.core 0).cfg 0) .a (drainGranule s 0 (aDrain false true 0) 0) = true ∧
         (s.view 0).mayWrite (drainKey s 0 (aDrain false true 0) 0) = true) := by decide +kernel

/-- Core 1 with an entry in its inbound queue 1 and two in its outbound queue 3. -/
def sQueues : State := { withCore {} with
  cores := [(1, { coreWith 0 ready with qin := [(1, [⟨7, true, 0⟩])], qout := [(3, [⟨8, false, 0⟩, ⟨9, true, 0⟩])] })] }

theorem witness_QueueResults :
    Issues s0 0 0 ∧ cfgQbind (s0.core 0).activeCfg 3 = 1 ∧ cfgQbind ({ s0 with cores := [] }.core 0).activeCfg 3 = 0 ∧
      (pushSome 0 3 0 true 2 (s0.view 0)).1 = 0 ∧ (pushSome 0 3 0 true 3 (s0.view 0)).1 = 1 ∧
      (pushSome 0 3 0 true 3 (s0.view 0)).2.1 = true ∧ (popSome 0 1 0 true 1 (sQueues.view 1)).1 = 0 ∧
      (popSome 0 1 0 true 2 (sQueues.view 1)).1 = 1 ∧ (popSome 0 1 0 true 2 (sQueues.view 1)).2.1 = true ∧
      kget [] (sQueues.core 1).qin 1 = [⟨7, true, 0⟩] ∧ (kget [] (s0.core 0).qout 3).length < 2 := by decide +kernel

theorem witness_QueueOpen :
    Issues (withCore { coreWith 0 ready with cfgs := [] }) 0 0 ∧
      cfgQbind ((withCore { coreWith 0 ready with cfgs := [] }).core 0).activeCfg 3 = 0 := by decide +kernel

/-- A thread with a transfer of the last 32 B of its W-pad to its A-pad in g2 to g6, and a block's address in g8. -/
def moving : Thread := { ready with g := [(2, 0x17FE0), (3, 0x3FFF), (4, 0x18000), (5, 0x3FFF), (6, 32), (8, 0x18080), (9, 0x3FFF)] }

/-- Every slot taken: the first transfer writes the last unit of the W-pad, the others the first of the A-pad. -/
def full : KMap (Option DmaSlot) := (List.range 8).map fun i => (i, some { dst := padWindow 0 + if i = 0 then 0x17FE0 else 0x18000, len := 32, dstLocal := true })

theorem witness_TransferIssue :
    Issues (withCore (coreWith 0 moving)) 0 0 ∧ pairField 2 = true ∧ pairField 4 = true ∧ (6 : BitVec 5) ≠ 0 ∧
      (coreWith 0 moving).freeSlot = some 0 ∧ cntAllowed (coreWith 0 moving).activeCfg 7 = true ∧
      (withCore (coreWith 0 moving)).dmaEnd 0 false 0x3FFF00017FE0 32 = .ok { key := padWindow 0 + 0x17FE0, own := true } ∧
      (withCore (coreWith 0 moving)).dmaEnd 0 true 0x3FFF00018000 32 = .ok { key := padWindow 0 + 0x18000, own := true } ∧
      (withCore (coreWith 0 moving)).blockKey 0 0x3FFF00018080 = .ok (padWindow 0 + 0x18080) ∧
      ({ coreWith 0 moving with slots := full }).freeSlot = none := by decide +kernel

theorem witness_TransferIssue_faults :
    (let k := { coreWith 0 ready with cfgs := [] }
     Issues (withCore k) 0 0 ∧ k.freeSlot.isSome = true ∧ cntAllowed k.activeCfg 7 = false) ∧
    (∀ g ∈ [(6, 0), (6, 0x100020), (6, 31), (2, 0x17FE1), (4, 0x18001)],
      let th := { moving with g := g :: moving.g }
      let n := (th.getG 6).toNat
      Issues (withCore (coreWith 0 th)) 0 0 ∧ (coreWith 0 th).freeSlot.isSome = true ∧
        (n = 0 ∨ 0x100000 < n ∨ n % 32 ≠ 0 ∨ (th.getPair 2).toNat % 32 ≠ 0 ∨ (th.getPair 4).toNat % 32 ≠ 0)) ∧
    (withCore (coreWith 0 moving)).dmaEnd 0 false 0x3FFF00017FE0 0x10040 = .error .dma ∧
      (withCore (coreWith 0 moving)).dmaEnd 0 true 0 32 = .error .dma ∧
      ((withCore (coreWith 0 moving)).blockKey 0 0x3FFF00018081 matches .error _) = true := by decide +kernel

theorem witness_CounterAndSwap :
    cntAllowed (s0.core 0).activeCfg 7 = true ∧ cntAllowed (coreWith 0 {}).activeCfg 7 = true ∧
      cntAllowed ({ coreWith 3 ready with cfgs := [] }).activeCfg 7 = false ∧ Issues (withCore { coreWith 3 ready with cfgs := [] }) 0 0 ∧
      bitOf (coreWith 3 ready).activeCfg.toNat 206 = true ∧ bitOf (coreWith 3 ready).activeCfg.toNat 207 = true ∧
      swapBlocked ((withCore (coreWith 3 ready)).view 0) .w false = false ∧
      swapBlocked ((withCore { coreWith 3 ready with slots := full }).view 0) .w false = true ∧
      swapBlocked ((withCore { coreWith 3 ready with slots := full }).view 0) .a true = true := by decide +kernel

/-- A slot that reads 32 B of the store into the core's own W-pad; all of it has arrived where `done` says so. -/
def readSlot (done : Nat) : DmaSlot := { src := storeKey, dst := padWindow 0, len := 32, ctr := 7, dstLocal := true, donePos := done }

/-- Core 0 with a transfer in slot 7. -/
def sMove (done : Nat) : State := withCore { coreWith 0 ready with slots := [(7, some (readSlot done))], portPtr := 7 }

/-- Core 0 with a transfer of 64 B within its own pads in slot 7. -/
def ownSlot : DmaSlot := { src := padWindow 0, dst := padWindow 0 + 0x18000, len := 64, ctr := 7, srcLocal := true, dstLocal := true }
def sOwn : State := withCore { coreWith 0 ready with slots := [(7, some ownSlot)] }

/-- Two cores with an entry on its way from the first to the second, whose inbound queue holds n. -/
def sCross (n : Nat) : State := { State.reset with
  parts := [(0, onePart)]
  cores := [(0, { coreWith 0 ready with qout := [(1, [⟨7, true, 0⟩])] }), (1, { coreWith 0 ready with qin := [(3, List.replicate n ⟨0, false, 0⟩)] })] }

theorem witness_QueueAndTransferMoves :
    ((sCross 7).engineRuns 0 = true ∧ kget [] ((sCross 7).core 0).qout 1 = [⟨7, true, 0⟩] ∧ (sCross 7).queueTarget 0 1 0 = some (1, 3) ∧
      (kget [] ((sCross 7).core 1).qin 3).length < 8 ∧ 8 ≤ (kget [] ((sCross 8).core 1).qin 3).length ∧
      (sCross 8).queueTarget 0 1 0 = some (1, 3)) ∧
    (sMove 0).engineRuns 0 = true ∧ ((sMove 0).core 0).slot 7 = some (readSlot 0) ∧ ((sMove 0).core 0).mayMove (readSlot 0) = true ∧
      isPadKey storeKey = false ∧ ((sMove 0).core 0).portPtr = 7 ∧ ((sMove 0).ownWrite 0 (padWindow 0) 0 true).isSome = true ∧
      ((sMove 32).core 0).slot 7 = some (readSlot 32) ∧ ((sMove 32).core 0).mayMove (readSlot 32) = true ∧
    (sOwn.engineRuns 0 = true ∧ (sOwn.core 0).slot 7 = some ownSlot ∧ (sOwn.core 0).mayMove ownSlot = true ∧
      (ownMove 0 ownSlot 2 sOwn).isSome = true) := by decide +kernel

theorem witness_QueueMove_threads (t : Nat) :
    (((sCross 7).core 0).thread t).state ≠ .waitQueue ∧ (((sCross 7).core 1).thread t).state ≠ .waitQueue := by
  cases t <;> simp [sCross, State.core, Core.thread, coreWith, kget, ready]

/-- An image of two virtual cores, of which core 0 carries the first granule of its W-pad. -/
def img : ImgHeld := { func := 1, bytes := ([0x200014c53544f, 0x8bbde2c700000190, 0x101010100000000, 0x3e8000927c0, 0x100010001, 0, 8, 0, 0xc000000002, 0x100000040, 
    0x10000000003, 0x200000020, 0x12000000004, 0x100000004, 0x12800000009, 0x10000000c, 0x1380000000a, 0x200000008, 0x1400000000b, 
    0x100000004, 0x1480000000c, 0x100000020, 0x1680000000e, 0x100000028, 1, 0, 0x3ff800bff0000000, 0x3fc0, 0x100000000, 0, 0, 0, 
    0xffffffffffff0000, 0xffffffffffffffff, 0xffffffffffff0000, 0xffffffffffffffff, 0x3c000000, 0x3e80001000000001, 0, 0x12800000128, 
    0, 0x927c0, 1, 0x1900000003e8, 0, 0x100000000, 0, 0, 1, 0]).flatMap (leBytes 8) }

/-- Partition 0 runs pattern 0 of its image, or mirrors the frame it sealed. -/
def sImage (sealed_ : Option Frame) (k : Core) : State := { withCore k with
  parts := [(0, { onePart with image := some img, sealed := sealed_, frame := some { ord := 2, pattern := some 0 } })] }

/-- A walk block: FP32 elements from `base` in a pad, gathered to `dst`; CTRL, the pointer list, the release field, loop 0 and the two last
dimensions as given. -/
def walkBlk (dst ctrl ptr rel loop base ndim : Nat) : List Byte :=
  leBytes 7 dst ++ leBytes 1 ctrl ++ leBytes 8 0 ++ leBytes 6 ptr ++ leBytes 1 0 ++ leBytes 1 rel ++ leBytes 4 0 ++ leBytes 36 loop ++
    leBytes 8 base ++ leBytes 1 0x30 ++ leBytes 7 ndim ++ leBytes 48 (8 + 4 * 2 ^ 24 + (ndim - 1) * 2 ^ 64)

/-- 8 elements from the own A-pad to the start of the W-pad; the same to its second granule; with a release counter; from core 1's A-pad; as two tiles of 4;
with the base of its one item in a pointer list at `ptr`. -/
def walkPlain : List Byte := walkBlk 0x3FFF00000000 0 0 0 1 0x3FFF00018000 1
def walkNext : List Byte := walkBlk 0x3FFF00000020 0 0 0 1 0x3FFF00018000 1
def walkRel : List Byte := walkBlk 0x3FFF00000000 0 0 15 1 0x3FFF00018000 1
def walkFar : List Byte := walkBlk 0x3FFF00000000 0 0 0 1 (padKey + 0x40000 + 0x18000) 1
def walkTiles : List Byte := walkBlk 0x3FFF00000000 0 0 0 (2 + 4 * 2 ^ 16) 0x3FFF00018000 1
def walkList (ptr : Nat) : List Byte := walkBlk 0x3FFF00000000 0x40 ptr 0 (1 + 2 ^ 48 + 2 ^ 64 + 2 ^ 80) 0x3FFF00018000 2

/-- A walk in slot 7 of core 0, its block in the A-pad, a pointer in the store; the configuration and the port's pointer as given. -/
def sWalkIn (s : State) (cfg : BitVec 256) (ptr : Nat) (blk : List Byte) (p : Nat) (run : WalkRun) : State :=
  let k := { coreWith 0 ready with
    cfgs := [(0, cfg)]
    slots := [(7, some { walk := some run, ctr := 7 })]
    ctrs := [(7, 1)]
    portPtr := ptr }
  { s with
    cores := [(0, k)]
    tiers := { s.tiers with carve := [(0, 0x100)] }
    mem := Mem.writeBytes (Mem.writeBytes s.mem storeKey (leBytes 8 p)) (padWindow 0 + 0x18080) blk }

/-- The walk that has not started, and one that stands at a unit of its tile. -/
def walk0 : WalkRun := { blockAddr := padWindow 0 + 0x18080 }
def walkAt (blk : List Byte) (unit : Nat) : WalkRun := { walk0 with block := blk, started := true, unit := unit }

def sWalk (blk : List Byte) (p : Nat) (run : WalkRun) : State := sWalkIn (withCore {}) (cfgRec 0) 7 blk p run

theorem witness_WalkerMoves_starts :
    (∀ blk ∈ [walkPlain, walkRel, walkList storeKey, walkList (storeKey + 0x20000000)], ∀ p ∈ [0x3FFF00018000, 1],
      let s := sWalk blk p walk0
      let r := (s.core 0).cfg 0
      let w0 := parseWalk (s.seenBytes (s.viewerOf 0 0) walk0.blockAddr 128)
      s.isCore 0 = true ∧ s.engineRuns 0 = true ∧ (s.core 0).slot 7 = some { walk := some walk0, ctr := 7 } ∧
        (w0.ok 2 && (!w0.relEn || cntAllowed r w0.rctr) && ringBound 0 r false false w0) = true ∧
        (w0.bmode = 2 ↔ blk ≠ walkPlain ∧ blk ≠ walkRel)) ∧
    (let s (a p : Nat) := sWalk (walkList a) p walk0
     let w0 (a : Nat) := parseWalk ((s a 0).seenBytes ((s a 0).viewerOf 0 0) walk0.blockAddr 128)
     let at_ (a : Nat) := (w0 a).ptrList + 8 * 0
     let listed (a : Nat) : Bool := (s a 0).ownsStore (cfgTenant (cfgRec 0)) (at_ a) 8 && (at_ a - storeKey) / 0x20000000 == dieOf 0
     let p (p : Nat) := leNat ((((s storeKey p).seenBytes ((s storeKey p).viewerOf 0 0) (at_ storeKey / 256 * 256) 256).drop
       (at_ storeKey % 256)).take 8)
     listed storeKey = true ∧ listed (storeKey + 0x20000000) = false ∧ (w0 storeKey).pointerOk 2 (p 0x3FFF00018000) = true ∧
       (w0 storeKey).pointerOk 2 (p 1) = false) ∧
    (let s := sWalkIn (withCore {}) 0 7 walkNext 0 walk0
     s.engineRuns 0 = true ∧ ringBound 0 ((s.core 0).cfg 0) false false (parseWalk (s.seenBytes (s.viewerOf 0 0) walk0.blockAddr 128)) = false) := by
  decide +kernel

/-- The first unit of a started walk, and where it goes. -/
def firstUnit (s : State) (blk : List Byte) : Option WalkUnit :=
  match (walkAt blk 0).unitBytes with
  | some (_, l) => (s.walkCells 0 { walk := some (walkAt blk 0), ctr := 7 } 0 l).toOption
  | none => none

theorem witness_WalkerMoves_units :
    (let s := sWalk walkPlain 0 (walkAt walkPlain 0)
     (s.core 0).mayMove { ctr := 7 } = true ∧ (s.core 0).portPtr = 7 ∧ (firstUnit s walkPlain).isSome = true ∧
       ((firstUnit s walkPlain).map fun x => (x.cells.head?.map (·.1), x.cells.length, decide (x.cells.map (·.1)).Nodup, otherCores 0 x.reads)) =
         some (some (padWindow 0), 32, true, []) ∧
       ((firstUnit s walkPlain).map fun x => match s.walkWrite 0 7 0 x.cells x.mark with
         | .moved _ _ => true
         | _ => false) = some true) ∧
    (let s := sWalk walkFar 0 (walkAt walkFar 0)
     ((firstUnit s walkFar).map fun x => otherCores 0 x.reads) = some [1]) ∧
    (let s := sWalkIn (withCore {}) 0 7 walkNext 0 (walkAt walkNext 0)
     (s.core 0).mayMove { ctr := 7 } = true ∧ (walkAt walkNext 0).unitBytes.isSome = true ∧ (firstUnit s walkNext).isNone = true) ∧
    (let s := sWalkIn (sImage (some { ord := 1 }) {}) (cfgRec 0) 7 walkPlain 0 (walkAt walkPlain 0)
     s.engineRuns 0 = true ∧ ((firstUnit s walkPlain).map fun x => (decide (s.walkWrite 0 7 0 x.cells x.mark = .refused), otherCores 0 x.reads)) =
       some (true, [])) ∧
    ((sWalk walkPlain 0 walk0).portTurn 0).isNone = true := by decide +kernel

theorem witness_WalkerMoves_tiles :
    (let w := parseWalk walkRel
     w.rctr = 7 ∧ waitHolds (((sWalk walkRel 0 walk0).core 0).ctr 7) (0 + BitVec.ofNat 32 (1 - w.nbuf + 1)) = true ∧
       waitHolds (((sWalk walkRel 0 walk0).core 0).ctr 7) (0 + BitVec.ofNat 32 (2 - w.nbuf + 1)) = false) ∧
    (∀ blk ∈ [walkPlain, walkTiles], (walkAt blk 0).unitBytes.isSome = true ∧ (walkAt blk 1).unitBytes = none ∧
      (walkAt blk 1).releaseWait = false ∧ (walkAt blk 1).out = 0) ∧
    (parseWalk walkPlain).advance 0 0 = none ∧ (parseWalk walkTiles).advance 0 0 = some (0, 1) ∧ (parseWalk walkTiles).bmode ≠ 2 := by
  decide +kernel

theorem witness_MirroredStore : ((sImage (some { ord := 1 }) (coreWith 0 ready)).view 0).mayWrite (padWindow 0) = false := by decide +kernel

theorem witness_FoldSlots :
    (let s := sImage none { coreWith 0 {} with slotOpen := none }
     s.engineRuns 0 = true ∧ s.partOf 0 = some 0 ∧ img.vcore 0 = some 0 ∧ (s.core 0).slotDone = true ∧
     (Img.slots img.bytes (Img.slotListAt img.bytes 0 0))[0]? = some (16, 1000, 0, 0, 0) ∧ cfgFiller ((s.core 0).cfg 0) = false ∧
     ((s.core 0).thread 0).state ≠ .faulted ∧ bitOf (cfgField (1#256) 0 16) 0 = true) ∧
    (let k : Core := { coreWith 0 ready with cfgs := [(0, 1#256 ||| (1#256 <<< 224))] }
     (withCore k).engineRuns 0 = true ∧ k.fillerOpen = true ∧ bitOf (cfgField k.activeCfg 0 16) 0 = true ∧
     (k.thread 0).state ≠ .yielded ∧ (k.thread 0).state ≠ .faulted) := by decide +kernel
theorem witness_ReadsAndMirror :
    (let s := withRegs { sImage none (coreWith 0 ready) with vigil := { frozen := true } } [(obsPart 0, 8)]
     accRange 0x28000 1024 = true ∧ accRange 0x2FFE0 1 = true ∧ s.mgmt.dark = false ∧ (s.debugPart 0).isSome = true ∧ s.accFree 0 = true) ∧
    (let s := sImage (some { ord := 1 }) (coreWith 0 ready)
     s.isCore 0 = true ∧ s.engineRuns 0 = true ∧ s.partOf 0 = some 0 ∧ (s.part 0).mirroring = some { ord := 1 } ∧
       (s.part 0).image = some img ∧ 32 * (s.core 0).mirrored < img.coreSize 0 ∧ s.halted = false ∧ s.partStill 0 = false) ∧
    (s0.part 7).mirroring = none ∧ s0.partStill 7 = false := by decide +kernel

/-! ### Hypotheses met: the Almanac and the tick -/

/-- A rate change armed for count 5; the count stands at t. -/
def sArmed (t : Nat) : State := { State.reset with tick := t, alm := { armed := some 5 } }

theorem witness_RatesAndDroop :
    ((sArmed 5).alm.armed = some 5 ∧ 5 ≤ (sArmed 5).tick ∧ (sArmed 4).tick < 5 ∧ State.reset.alm.armed = none) ∧
    State.reset.anyImage = false ∧ State.reset.tick < State.reset.staged 0 (almReg 0x58) + 1 % 2 ^ 32 * 2 ^ 32 ∧
      State.reset.staged 0 (almReg 0x58) + 0 % 2 ^ 32 * 2 ^ 32 ≤ State.reset.tick ∧
      (sImage none (coreWith 0 ready)).anyImage = true ∧ State.reset.mgmt.dark = false := by decide +kernel

/-- Port 7 in service, its last symbol's SEQ 3; ALM_STATUS as given; a root heard there where `seen` says so. -/
def sPort (st : Nat) (seen : Bool) : State :=
  { withRegs State.reset [(linkReg 0xB0, 2), (almReg 0x14, st)] with alm := { sync := [(7, { sentSeq := 3, seen := seen, root := 1, depth := 254 })] } }

theorem witness_SymbolsAndOffset :
    (∀ st ∈ [0, 0x78, 0x68], let s := sPort st false
      s.portState 7 = 2 ∧ s.mgmt.dark = false ∧ bitsOf (2 ^ 64) 64 2 ≠ s.rate ∧ bitsOf (3 * 2 ^ 76) 64 2 = s.rate ∧
        bitsOf (3 * 2 ^ 76) 76 8 = (s.sync 7).sentSeq ∧ (s.sync 7).sentSeq ≠ 255 ∧ (s.hasParent = true ∧ s.parentPort = 7 ↔ st = 0x78) ∧
        s.alm.paired = false ∧ ({ s with alm := { s.alm with paired := true } }).alm.paired = true) ∧
    (State.reset.alm.stepped = false ∧ ({ State.reset with alm := { stepped := true } }).alm.stepped = true ∧
      State.reset.subtick < State.reset.cycles) ∧
    ((48 : Int).natAbs ≤ 48 ∧ 48 < (-49 : Int).natAbs ∧ (withRegs State.reset [(almReg 0x14, 1)]).locked = true ∧
      State.reset.locked = false ∧ 0 < State.reset.cycles ∧
      0 ≤ (State.reset.tick : Int) * State.reset.cycles + State.reset.subtick + 49 / 16) := by decide +kernel

theorem witness_LockAndHoldover :
    let r (v : Nat) : State := withRegs State.reset [(almReg 0x14, v)]
    (∀ n ∈ [15, 16], let m := { sPort 8 true with alm := { (sPort 8 true).alm with missed := n, good := n } }
      m.hasParent = true ∧ (16 ≤ m.alm.missed ↔ n = 16) ∧ (m.alm.good < 16 ↔ n = 15)) ∧
    ((r 2).lowerOffer = false ∧ (r 9).bestOffer = none ∧ (sPort 9 true).bestOffer.isSome = true ∧ (sPort 9 true).locked = true ∧
      (sPort 9 true).isRoot = false ∧ (sPort 9 true).inHoldover = false ∧
      (let x := withRegs (sPort 2 true) [(linkReg 0, 2)]
       x.isRoot = true ∧ x.hasParent = false)) ∧
    (r 2).isRoot = true ∧ (r 8).hasParent = true ∧ 16 ≤ ({ r 8 with alm := { good := 16 } }).alm.good ∧
      ((r 9).locked = true ∧ (r 9).isRoot = false ∧ (r 9).inHoldover = false) ∧ (r 5).inHoldover = true ∧
      ((r 8).locked = false ∧ (r 8).isRoot = false) ∧ (r 0).hasParent = false := by decide +kernel

/-- Partition 0 in the last cycle with a frame open, the sealed one not mirrored, and n slips, after which it was restored once before where
`again` says so. -/
def sSlips (n : Nat) (again : Bool) : State := { State.reset with subtick := State.reset.cycles - 1, parts := [(0, { onePart with
  sealed := some { ord := 2 }
  ord := 3
  frame := some { ord := 3 }
  slips := n
  stalled := if again then some 3 else none })] }

theorem witness_TickSlipAndLimit :
    ({ State.reset with mgmt := { State.reset.mgmt with dark := true } }).mgmt.dark = true ∧ State.reset.mgmt.dark = false ∧
      ({ State.reset with vigil := { frozen := true } }).vigil.frozen = true ∧
    (((sSlips 7 false).part 0).slips < (sSlips 7 false).slipLimit ∧ (sSlips 8 false).slipLimit ≤ ((sSlips 8 false).part 0).slips ∧
      (sSlips 8 false).halted = false ∧ (sSlips 8 false).partStill 0 = false ∧ ((sSlips 8 false).part 0).valid = true ∧
      (∀ b, (sSlips 8 b).checkFails 0 = true) ∧ ({ sSlips 8 false with subtick := 0 }).checkFails 0 = false ∧ ((sSlips 8 false).part 0).stalled ≠ some 3 ∧
      ((sSlips 8 true).part 0).stalled = some 3) := by decide +kernel

/-! ### Hypotheses met: queues and commands -/

/-- A module that is READY, locked, at tick 10, its function 1 enabled with 64 queues and partition 0, which opened a frame now; queue 63
is enabled with a ring of two commands and one of four records. -/
def sReady (regs : List (Nat × Nat)) (cmds : KMap (Option Cmd)) : State :=
  let s := withRegs { State.reset with
    tick := 10
    alm := { everLocked := true }
    parts := [(0, { onePart with frame := some { opened := 10 } })]
    cmds := cmds } ([(mgmtReg 0, 16), (almReg 0x14, 0xFF01), (cpReg 0x1010, 0x4001)] ++ regs)
  s.modQueue 1 63 fun _ => { on := true, sqLog := 1, cqLog := 2, sqBase := 0x1000, cqBase := 0x2000 }

/-- The host's words of a FENCE, HSEQ 0. -/
def fenceCells : List (Nat × BitVec 8) := [(0x1000, 0x23), (0x1001, 1)]

/-- A command of queue 63 of function 1. -/
def cmdOf (op : Nat) (accepted : Option Nat) (payload : Nat) : Cmd :=
  { func := 1, q := 63, opcode := op, accepted := accepted, payload := leBytes 64 payload }

theorem witness_QueueRegisters :
    let s := sReady [] []
    let off := s.modQueue 1 63 fun _ => {}
    s.queueExists 1 63 = true ∧ s.vigil.frozen = false ∧ 1 % 65536 < s.sqSize 1 63 ∧ s.sqSize 1 63 ≤ 2 % 65536 ∧
      3 % 131072 < s.cqSize 1 63 ∧ (s.queue 1 63).held = [] ∧ s.cqSize 1 63 ≤ 4 % 131072 ∧
      (off.queue 1 63).on = false ∧ (off.queue 1 63).unread = [] ∧ (off.queue 1 63).abandoned = [] ∧
      (let x := withRegs off [(queueReg 1 63 0x08, 16), (queueReg 1 63 0x1C, 17)]
       1 ≤ x.field (queueReg 1 63 0x08) 0 5 ∧ x.field (queueReg 1 63 0x08) 0 5 ≤ 16 ∧ 2 ≤ x.field (queueReg 1 63 0x1C) 0 5 ∧
         x.field (queueReg 1 63 0x1C) 0 5 ≤ 17 ∧ x.queueExists 1 63 = true) ∧ s.halted = false ∧
      ({ s with vigil := { frozen := true } }).vigil.writes.length < 64 ∧
      (let k := s.modQueue 1 63 fun u => { u with held := [{ type := 1 }] }
       s.canWrite 1 63 = true ∧ (k.queue 1 63).held = [{ type := 1 }] ∧ k.canWrite 1 63 = true ∧ 0 < (k.setReg (queueReg 1 63 0x20) 3).freeSlots 1 63) ∧
      ((s.queue 1 63).last = none ∧ s.field (queueReg 1 63 0x24) 0 17 = s.field (queueReg 1 63 0x20) 0 17) ∧
      (let w := (withRegs s [(queueReg 1 63 0x24, 1)]).modQueue 1 63 fun u => { u with last := some ({ type := 1 }, [7]) }
       (w.queue 1 63).last = some ({ type := 1 }, [7]) ∧ w.field (queueReg 1 63 0x24) 0 17 ≠ w.field (queueReg 1 63 0x20) 0 17) := by decide +kernel

theorem witness_FetchAndAccept :
    (let s := sReady [(queueReg 1 63 0x0C, 1)] []
     let s1 := s.hostCells fenceCells
     s.halted = false ∧ ((sReady [] []).hostCells []).fetchable = [] ∧ s1.fetchable = [(1, 63)] ∧ 2 ≤ s.freeSlots 1 63 ∧
       s.fetched 1 63 = [] ∧ (s1.readCommand 1 63 0).dup = false ∧ (s1.readCommand 1 63 0).opcode = 0x23 ∧ (s1.readCommand 1 63 0).refuse = none) ∧
    (let s := sReady [] [(5, some (cmdOf 0x23 none 0))]
     s.fetched 1 63 = [(5, cmdOf 0x23 none 0)] ∧ s.canWrite 1 63 = true ∧ (s.queue 1 63).held = [] ∧
       s.calendsBad (cmdOf 0x23 none 0) = false ∧ s.cp.released.contains 1 = false ∧ 5 ≠ s.cp.nextId ∧ s.colls.gates = []) ∧
    (let c : Cmd := { cmdOf 0x23 none 0 with refuse := some 0x13 }
     (sReady [] [(5, some c)]).fetched 1 63 = [(5, c)] ∧ c.refuse = some 0x13 ∧ c.dup = false) ∧
    (let c (n : Nat) : Cmd := { cmdOf 0x23 none 0 with flags := 1, calends := n }
     (∀ n ∈ [11, 10 + 2 ^ 32 + 1], (sReady [] [(5, some (c n))]).fetched 1 63 = [(5, c n)] ∧ (c n).refuse = none ∧
       (sReady [] [(5, some (c n))]).calendsBad (c n) = true) ∧
     (sReady [] []).calendsBad (c 12) = false) ∧
    (let c : Cmd := { cmdOf 0x23 none 0 with dup := true }
     (sReady [] [(5, some c)]).fetched 1 63 = [(5, c)] ∧ c.dup = true) := by decide +kernel

theorem witness_CommandAdmission :
    (let s := sReady [] [(5, some (cmdOf 0x23 (some 9) 0))]
     commandRow 0x23 1 63 = some (.fence 1 63) ∧ Admits s 1 63 5 (cmdOf 0x23 (some 9) 0) (.fence 1 63) ∧
       (cmdOf 0x23 (some 9) 0).opcode ≠ 0x22 ∧ queueHeads [] (sReady [] []).cmds = [] ∧ s.canWrite 1 63 = true ∧
       (s.queue 1 63).held = []) ∧
    (let s := sReady [] [(5, some (cmdOf 0x23 (some 10) 0))]
     s.admissible 5 (cmdOf 0x23 (some 10) 0) = false) ∧
    (let c := cmdOf 0x02 (some 9) 0xFF
     let s := sReady [] [(5, some c)]
     Admits s 1 63 5 c (.copy 1 63) ∧ (s.admitBad c).isSome = true ∧ c.skipped = false) ∧
    (let c : Cmd := { cmdOf 0x23 (some 9) 0 with skipped := true }
     let s := sReady [] [(5, some c)]
     Admits s 1 63 5 c (.fence 1 63) ∧ c.skipped = true ∧ c.fault = none ∧ c.umber = none) := by decide +kernel
/-- Memory with bytes from a on. -/
def memAt (a : Nat) (l : List Byte) : Mem := (l.mapIdx fun i b => (a + i, b)).filter fun c => c.2 != 0

/-- The ready module with a near page of function 1 that holds the image and a walk block, a store grant, a flash window, a window
limit of one, a carve buffer, and the image in its partition, one frame of which has been mirrored where `kept` says so. -/
def sLoaded (kept : Bool) (cmds : KMap (Option Cmd)) : State :=
  let s := sReady [(bar0 1 0xA040, 1), (bayReg 0, 3), (bar0 1 0x8000, 0x200001)] cmds
  { s with
    tiers := { s.tiers with
      pages := [(2 ^ 32, some { state := .resident })]
      carve := [(8, 0x100)]
      fwOn := [(0, some (0x101, 0))]
      blocks := [(0, 3)] }
    parts := [(0, { onePart with
      frame := some { opened := 10 }
      image := if kept then none else some img
      snap1 := { ord := 1, valid := kept } })]
    mem := memAt 0 img.bytes ++ memAt 0x1000
      (leBytes 28 0x200000000000 ++ leBytes 36 1 ++ leBytes 8 0x2000 ++ leBytes 1 0 ++ leBytes 7 1 ++ leBytes 3 8 ++ leBytes 45 4) }

/-- Does an accepted command of this opcode and payload run when its queue is considered? -/
def runs (kept : Bool) (c : Cmd) (i : Instr) : Bool :=
  let s := sLoaded kept [(5, some c)]
  decide (Admits s 1 63 5 c i) && !c.skipped && (s.admitBad c).isNone && c.fault.isNone && s.funcPart 1 == some 0

/-- A window of function 1 onto the first unit of core 0's W-pad. -/
def aWindow : Window := { store := false, func := 1, notifyCore := 0, ctr := 7, peerFunc := 1, peerAny := false, base := padKey, size := 1,
                          srcMatch := 0, srcMask := 0 }

/-- The payload of the WINDOW_OPEN that opens it. -/
def windowPay : Nat := 7 * 2 ^ 96 + 1 * 2 ^ 104 + padKey * 2 ^ 128 + 1 * 2 ^ 192

theorem witness_ShortCommands :
    runs false (cmdOf 0x22 (some 9) 0x500000001) (.event 1 63) = true ∧ runs false (cmdOf 0x23 (some 9) 0) (.fence 1 63) = true ∧
    (let c := cmdOf 0x19 (some 9) (7 + 63 * 2 ^ 32 + 2 ^ 48)
     let s (v : Nat) := withRegs (sLoaded false [(5, some c), (6, some (cmdOf 0x23 (some 9) 0))]) [(bar0 1 0xA108, v), (bar0 1 0xA104, 7)]
     (∀ v ∈ [1, 3], Admits (s v) 1 63 5 c (.commitStep 1 63) ∧ bitOf ((s v).reg (bar0 1 0xA108)) 0 = true ∧
       (s v).reg (bar0 1 0xA104) = c.pay 0 4 ∧ bitOf ((s v).reg (bar0 1 0xA108)) 1 = decide (v = 3)) ∧
     (s 3).acceptedAfter 1 63 5 = [6]) ∧
    (let c := cmdOf 0x20 (some 9) windowPay
     let s := sLoaded false [(5, some c)]
     runs false c (.windowOpen 1 63) = true ∧ bitsOf (leNat c.payload) 0 8 = 0 ∧
       parseWindow 1 (bitsOf (leNat c.payload) 64 256) = some aWindow ∧ s.freeWindow = some 0 ∧ s.winCount 1 < s.winMax 1 ∧
       s.windowOk 1 aWindow = true) ∧
    (let c := cmdOf 0x20 (some 9) 1
     runs false c (.windowOpen 1 63) = true ∧ bitsOf (leNat c.payload) 0 8 ≠ 0 ∧ (sLoaded false [(5, some c)]).freeStream = some 0) ∧
    (let c (k : Nat) := cmdOf 0x21 (some 9) (k + 0xFFF * 2 ^ 16)
     runs false (c 0) (.windowClose 1 63) = true ∧ runs false (c 1) (.windowClose 1 63) = true ∧
       bitsOf (leNat (c 0).payload) 0 8 = 0 ∧ bitsOf (leNat (c 1).payload) 0 8 ≠ 0 ∧ bitsOf (leNat (c 1).payload) 16 12 = 0xFFF) := by
  decide +kernel

/-- A message of stream 0xFFF. -/
def aMessage : HeldMsg := { stream := 0xFFF, part := 0, ord := 0, core := 0, xfer := 0, part_ := 0, offset := 0, data := [1], mark := false }

/-- A module with window and stream 0xFFF of function 1, the stream open, at fault, or with a message in the ring. -/
def sOpen (c : Cmd) (fault msg : Bool) : State :=
  let s := sLoaded false [(5, some c)]
  { s with links := { s.links with
      windows := [(0xFFF, some aWindow)]
      streams := [(0xFFF, some { func := 1, fault := fault })]
      ring := if msg then [aMessage] else [] } }

theorem witness_WindowCloses :
    (let c (k : Nat) := cmdOf 0x21 (some 9) (k + 0xFFF * 2 ^ 16)
     (∀ b, Admits (sOpen (c 0) b b) 1 63 5 (c 0) (.windowClose 1 63)) ∧ (sOpen (c 0) false true).win 0xFFF = some aWindow ∧
       (∀ b m, Admits (sOpen (c 1) b m) 1 63 5 (c 1) (.windowClose 1 63)) ∧
       (sOpen (c 1) false true).stream 0xFFF = some { func := 1 } ∧ (sOpen (c 1) true true).stream 0xFFF = some { func := 1, fault := true } ∧
       (∃ m, m ∈ (sOpen (c 1) false true).links.ring ∧ m.stream = 0xFFF) ∧ (sOpen (c 1) false false).links.ring = []) :=
  ⟨by decide +kernel, by decide +kernel, by decide +kernel, by decide +kernel, by decide +kernel, ⟨_, List.mem_singleton_self _, rfl⟩, rfl⟩

/-- Payloads: a span of one frame of the image; a copy of 256 B from the host; a walk at level 1; a VOTE over axis 0; a CHECKPOINT into
two blocks; a REPLAY of the image. -/
def spanPay : Nat := 400 * 2 ^ 64 + 2 ^ 128
def copyPay : Nat := 1 + 0x800000000000 * 2 ^ 64 + 0x3000 * 2 ^ 128 + 256 * 2 ^ 192
def walkPay : Nat := 0x1000 * 2 ^ 64
def votePay : Nat := 1
def ckptPay : Nat := 0x4000 + 0x400000000000 * 2 ^ 64 + 0x3000 * 2 ^ 128

theorem witness_LongCommands :
    runs false (cmdOf 0x01 (some 9) spanPay) (.runSpan 1 63) = true ∧ runs false (cmdOf 0x31 (some 9) spanPay) (.replay 1 63) = true ∧
      (cmdOf 0x31 (some 9) spanPay).rpCkpt = 0 ∧ runs false (cmdOf 0x02 (some 9) copyPay) (.copy 1 63) = true ∧
      runs false (cmdOf 0x02 (some 9) walkPay) (.copy 1 63) = true ∧ runs false (cmdOf 0x18 (some 9) votePay) (.vote 1 63) = true ∧
      isColl 0x18 = true ∧ runs true (cmdOf 0x30 (some 9) ckptPay) (.checkpoint 1 63) = true ∧ 5 < 2 ^ 40 := by decide +kernel
/-! ### Hypotheses met: images -/

/-- A host image with a bubble slot, and a filler that runs in it. -/
def hostImg : ImgHeld := { func := 1, bytes := ([0x200014c53544f, 0x57c3b05a00000180, 0x101010100000000, 0x3e8000927c0, 0x100010001, 0x3ec850e0, 8, 0, 0xc000000002, 0x100000040, 
    0x10000000003, 0x200000020, 0x12000000004, 0x100000004, 0x12800000009, 0x100000014, 0x1400000000a, 0x200000008, 0x1480000000b, 
    0x100000004, 0x1500000000c, 0x100000020, 0x1700000000e, 0x10, 1, 0, 0x3ff000bfe0000000, 0x3f80, 0x100000000, 0, 0, 0, 
    0xffffffffffff0000, 0xffffffffffffffff, 0xffffffffffff0000, 0xffffffffffffffff, 0x3c000000, 0x3e80001000000002, 
    0x44c003e900000000, 0x800, 0x12800000128, 0, 0x927c0, 1, 0x1800000003e8, 0, 0, 0]).flatMap (leBytes 8) }
def fillerBytes : List Byte := ([0x200014c53544f, 0xed91f76f00000178, 0x101010100000001, 0x44c000927c0, 0x100010001, 0x3ec850e000000000, 8, 0, 0xc000000002, 
    0x100000040, 0x10000000003, 0x200000020, 0x12000000004, 0x100000004, 0x12800000009, 0x10000000c, 0x1380000000a, 0x200000008, 
    0x1400000000b, 0x100000004, 0x1480000000c, 0x100000020, 0x1680000000e, 0x10, 2, 0, 0xffffffbffbff0000, 0x3fff, 0x100000000, 0, 0, 
    0, 0xffffffffffff0000, 0xffffffffffffffff, 0xffffffffffff0000, 0xffffffffffffffff, 0x3c000000, 0x44c003e900000001, 0, 
    0x12800000128, 0, 0x927c0, 1, 0x18000000044c, 0, 0, 0]).flatMap (leBytes 8)

/-- Function 1's span waits for its image, which has a mirror area that holds it; its partition holds none. -/
def sFinal : State :=
  let s := withRegs (sLoaded false [(5, some (cmdOf 0x01 (some 9) spanPay))]) [(bar0 1 0xA300, 1 + 1300 * 2 ^ 21)]
  { s with
    tiers := { s.tiers with carve := [(8, 128 * 256)] }
    parts := [(0, onePart)] }

/-- The image as it would be held. -/
def heldImg : ImgHeld := sFinal.sampleImage 1 onePart 0 img.bytes

/-- Function 2, a filler of partition 0, waits for its image. -/
def sFiller : State :=
  let s := withRegs (sLoaded false [(5, some { cmdOf 0x01 (some 9) (376 * 2 ^ 64 + 2 ^ 128) with func := 2 })]) [(cpReg 0x1020, 0x103)]
  { s with
    tiers := { s.tiers with pages := [(2 * 2 ^ 32, some { state := .resident })] }
    parts := [(0, { onePart with image := some hostImg })]
    mem := memAt 0 fillerBytes }

theorem fold_le (f : Nat → Nat) (n : Nat) (h : ∀ i, f i ≤ n) (l : List Nat) (a : Nat) :
    l.foldl (fun a j => a + f j) a ≤ a + l.length * n := by
  induction l generalizing a with
  | nil => simp
  | cons x l ih => have := ih (a + f x); have := h x; simp only [List.foldl_cons, List.length_cons, Nat.succ_mul]; omega

theorem heldImg_coreSize (c : Nat) : heldImg.coreSize c ≤ 6400 := by
  have h1 : (Img.sec heldImg.bytes 14).count = 1 := by decide +kernel
  have h2 : (Img.nat heldImg.bytes ((Img.sec heldImg.bytes 14).off + 16 + 24 * 0 + 8) 2) = 1 := by decide +kernel
  have h3 : List.range 1 = [0] := rfl
  unfold ImgHeld.coreSize
  cases heldImg.vcore c with
  | none => decide
  | some vi =>
    simp only [Img.mirrorSize, h1, h3, List.foldl_cons, List.foldl_nil, h2]
    split
    · split <;> decide
    · decide

theorem heldImg_mirrorSum : sFinal.mirrorSum heldImg 0 ≤ 128 * (48 * 6400) := by
  have h : sFinal.perRow = 48 := by decide +kernel
  have hi (hr a : Nat) : (List.range 48).foldl (fun a j => a + heldImg.coreSize (coreAt 0 (hr / 64) (hr % 64) j)) a =
      a + (List.range 48).foldl (fun a j => a + heldImg.coreSize (coreAt 0 (hr / 64) (hr % 64) j)) 0 := by
    generalize List.range 48 = l
    induction l generalizing a with
    | nil => simp
    | cons x l ih => simp only [List.foldl_cons]; rw [ih, ih (0 + _)]; omega
  have hb := fold_le (fun hr => (List.range 48).foldl (fun a j => a + heldImg.coreSize (coreAt 0 (hr / 64) (hr % 64) j)) 0) (48 * 6400)
    (fun hr => by simpa using fold_le (fun j => heldImg.coreSize (coreAt 0 (hr / 64) (hr % 64) j)) 6400 (fun j => heldImg_coreSize _) (List.range 48) 0)
    (List.range 128) 0
  unfold State.mirrorSum
  simp only [h]
  rw [show (fun a hr => (List.range 48).foldl (fun a j => a + heldImg.coreSize (coreAt 0 (hr / 64) (hr % 64) j)) a) =
    fun a hr => a + (List.range 48).foldl (fun a j => a + heldImg.coreSize (coreAt 0 (hr / 64) (hr % 64) j)) 0 from
    funext fun a => funext fun hr => hi hr a]
  simpa using hb

theorem heldImg_mirrorArea : sFinal.mirrorAreaOk heldImg 0 = true := by
  have ha : sFinal.areaOf 1 0 (heldImg.mirrorArea.getD 0 0) = some (0x200000000000, 1300 * 0x10000) := by decide +kernel
  have hf : heldImg.func = 1 := by decide +kernel
  have := heldImg_mirrorSum
  have hg : sFinal.areaInGrant 1 0 (heldImg.mirrorArea.getD 0 0) = true := by decide +kernel
  simp only [State.mirrorAreaOk, hf, ha, hg, Bool.and_true, decide_eq_true_eq]
  omega

/-- `crcFeed`, the register evaluated at each byte. -/
def feedNow (s : CrcSel) (r : Nat) : List Byte → Nat
  | [] => r
  | b :: bs => if crcByte s r b.toNat = 0 then feedNow s 0 bs else feedNow s (crcByte s r b.toNat) bs

theorem feedNow_eq (s : CrcSel) (l : List Byte) : ∀ r, feedNow s r l = crcFeed s r l := by
  induction l with
  | nil => intro r; rfl
  | cons b bs ih => intro r; unfold feedNow crcFeed; split <;> simp_all

/-- The check value of an image, the register evaluated at each byte. -/
def crcNow (b : Img) : Nat := feedNow (crcSel 0) 0xFFFFFFFF (b.slice 0 0x0C ++ [0, 0, 0, 0] ++ List.drop 0x10 b) ^^^ 0xFFFFFFFF

theorem crcNow_eq (b : Img) : Img.crcActual b = crcNow b := by
  simp only [Img.crcActual, crc32c, crcNow, feedNow_eq]

theorem img_crc : crcNow img.bytes = Img.crc img.bytes := by decide +kernel
theorem filler_crc : crcNow fillerBytes = Img.crc fillerBytes := by decide +kernel

theorem heldImg_checks : sFinal.checkImage 1 onePart heldImg = none := by
  have h0 : (Img.filler heldImg.bytes) = false := by decide +kernel
  have h1 : Img.checkHeader heldImg.bytes sFinal.rate = none := by
    unfold Img.checkHeader
    rw [show heldImg.bytes = img.bytes from rfl, crcNow_eq, img_crc]
    decide +kernel
  have h2 : sFinal.checkGrid onePart heldImg.bytes = none := by decide +kernel
  have h3 : Img.checkRecords heldImg.bytes = none := by decide +kernel
  have h4 : Img.checkRelocs heldImg.bytes (sFinal.resolveHeld heldImg) = none := by decide +kernel
  have h5 : Img.checkWords heldImg.bytes (sFinal.resolveHeld heldImg) = none := by decide +kernel
  have h6 : sFinal.checkHops heldImg.bytes heldImg.orgRow heldImg.orgCol = none := by decide +kernel
  have h7 : Img.checkFold heldImg.bytes = none := by decide +kernel
  have h8 : sFinal.fnFiller 1 = false := by decide +kernel
  have h9 : sFinal.quotaOk heldImg onePart.dies = true := by decide +kernel
  have h10 : onePart.dies = [0] := by decide +kernel
  have h11 : sFinal.ringOk heldImg 0 = true := by decide +kernel
  simp [State.checkImage, firstReason, h0, h1, h2, h3, h4, h5, h6, h7, h8, h10, h11, heldImg_mirrorArea, h10 ▸ h9]

theorem witness_ImagesAndChecks_finalisation :
    sFinal.halted = false ∧ sFinal.partStill 0 = false ∧ sFinal.alm.armed = none ∧ (sLoaded false []).unfinalised 0 = [] ∧
      (sFinal.unfinalised 0).map (·.1) = [5] ∧ sFinal.cmd 5 = some (cmdOf 0x01 (some 9) spanPay) ∧ sFinal.finalWanted 0 = false ∧
      sFinal.spanBad (cmdOf 0x01 (some 9) spanPay) = none ∧ sFinal.evictedRange 1 0 400 = false ∧ sFinal.tenantBytes 1 0 400 = img.bytes ∧
      Img.nat img.bytes 8 4 = 400 ∧ 0 + 1 ≤ Img.seqLen img.bytes ∧ Img.filler img.bytes = false := by decide +kernel

theorem fillerBytes_checks :
    sFiller.checkImage 2 (sFiller.part 0) (sFiller.sampleImage 2 (sFiller.part 0) 0 fillerBytes) = none := by
  have h : Img.checkHeader fillerBytes sFiller.rate = none := by
    unfold Img.checkHeader
    rw [crcNow_eq, filler_crc]
    decide +kernel
  unfold State.checkImage
  simp only [show (sFiller.sampleImage 2 (sFiller.part 0) 0 fillerBytes).bytes = fillerBytes from rfl, h]
  decide +kernel

theorem witness_ImagesAndChecks_others :
    (sFinal.checkGrid { onePart with cols := 2 } heldImg.bytes).isSome = true ∧
    (let c : Cmd := { cmdOf 0x01 (some 9) (376 * 2 ^ 64 + 2 ^ 128) with func := 2 }
     (sFiller.unfinalised 0).map (·.1) = [5] ∧ sFiller.cmd 5 = some c ∧ sFiller.fnFiller 2 = true ∧ sFiller.spanBad c = none ∧ sFiller.tenantBytes 2 0 376 = fillerBytes ∧
       Img.nat fillerBytes 8 4 = 376 ∧ Img.filler fillerBytes = true ∧ (sFiller.part 0).image = some hostImg ∧
       0 + 1 ≤ Img.seqLen fillerBytes) := by decide +kernel

/-- A stream check of a REPLAY, its last line next where `last` says so, and an image or a filler to load. -/
def sLoad (last : Bool) : State :=
  let s := sFinal
  { s with
    parts := [(0, { onePart with frame := some { load := true }, finalised := some heldImg, fillerNext := [heldImg] })]
    replays := [(5, some { func := 1, ranges := [(0, 512)], checking := true, off := if last then 256 else 0 })] }

theorem witness_ImagesAndChecks_load :
    (∀ vi, vi < Img.cores heldImg.bytes → ∀ k, k < 8 → (Img.holds heldImg.bytes vi k = true →
      Img.codeLen heldImg.bytes (Img.configIndex heldImg.bytes vi k) ≤ 256) ∧ heldImg.fillerIndex vi k < 8) ∧
    (let x := (sLoad false).part 0
     x.frame = some { load := true } ∧ x.finalised = some heldImg ∧ (x.fillerNext.find? fun o => !o.coded) = some heldImg) ∧
    (∀ b, (sLoad b).copiesRun 0 = true ∧ (kget none (sLoad b).replays 5).map (·.range) = some (some (0, 512)) ∧
      (kget none (sLoad b).replays 5).map (fun r => (r.checking, r.retryAt, decide (r.off + 256 < 512))) = some (true, none, !b)) := by
  decide +kernel
/-! ### Hypotheses met: copies, the pool, the tiers -/

/-- A flash walk at level 0: 8 FP32 elements at the start of flash, gathered to near address 0x3000. -/
def flashBlock : List Byte :=
  leBytes 28 0x3000 ++ leBytes 36 1 ++ leBytes 8 0x400000000000 ++ leBytes 1 0x40 ++ leBytes 7 1 ++ leBytes 3 8 ++ leBytes 45 4

/-- A copy of 512 B from the host to near address 0x3000, or of the flash walk. -/
def aCopy (async flash : Bool) : CopyRun :=
  { func := 1, part := 0, cmd := 5, home := 0, async := async
    form := if flash then .walk 0 flashBlock else .linear 0x800000000000 0x3000 512 }

/-- The module with a copy in progress, and a CHECKPOINT that has two pieces to write. -/
def sCopy (r : CopyRun) : State :=
  let s := sLoaded false []
  { s with
    subtick := 16
    tiers := { s.tiers with copies := [(5, some r)] }
    ckpts := [(6, some { func := 1, blob := [(0x400000000000, [1, 2]), (0x400000001000, [3])] })] }

/-- 1,024 entries of frame 0 in the slice of a copy's destination. -/
def heldFull : List Held := (List.range 1024).map fun i => { part := 0, ord := 0, base := 2 ^ 64 + 256 * (67 + 128 * i), home := 1 }

theorem witness_CopyLines :
    (∀ a, (sCopy (aCopy a false)).copyRun 5 = some (aCopy a false) ∧ (sCopy (aCopy a false)).copyMoves (aCopy a false) = true ∧
      (aCopy a false).fin = false ∧ (aCopy a false).flash = false) ∧
    (let s := sCopy (aCopy false false)
     (s.lineAt (aCopy false false) {} false).cells.head? = some (0x3000, 0) ∧ s.canHold 0 0 0 (markBase 0x3000) false = true) ∧
    (let s := sCopy (aCopy true true)
     kget none s.ckpts 5 = none ∧ (aCopy true true).fin = false ∧ (aCopy true true).flash = true ∧ s.copyMoves (aCopy true true) = true ∧
       s.asyncRuns 0 = true) := by decide +kernel

theorem witness_CopyLines_full :
    let s := { sCopy (aCopy false false) with held := heldFull }
    s.copyMoves (aCopy false false) = true ∧ s.canHold 0 0 0 (markBase 0x3000) false = false ∧
      (let l := (List.range 1024).map fun i => ({ part := 0, ord := 1, base := 2 ^ 64 + 256 * (67 + 128 * i), async := true, home := 1 } : Held)
       (∀ b, (⟨0, [(0x3000, 7)], false, b⟩ : Arrived).waited = b) ∧
         ({ sCopy (aCopy true false) with held := l }).canHold 0 0 1 (markBase 0x3000) true = false) := by decide +kernel

theorem witness_CopyLines_later :
    (let r : CopyRun := { aCopy false false with retry := [({}, 9)] }
     let s := sCopy r
     s.copyRun 5 = some r ∧ 9 < s.tick ∧ (sCopy { r with retry := [({}, 10)] }).tick ≤ 10 ∧
       (s.lineAt { r with retry := [] } {} true).cells.head? = some (0x3000, 0)) ∧
    (let v : Arrived := { ord := 0, cells := [(0x3000, 7)], mark := false }
     let r : CopyRun := { aCopy true false with arrived := [v] }
     let s := sCopy r
     s.copyRun 5 = some r ∧ (s.part 0).ord ≤ v.ord ∧
       (let t := { s with parts := [(0, { s.part 0 with ord := 1 })] }
        v.ord < (t.part 0).ord ∧ t.canHold 0 0 1 (markBase 0x3000) true = true)) ∧
    (let s := sCopy (aCopy true true)
     ((kget none s.ckpts 6).map fun r => (r.endOrd, r.blob.length)) = some (none, 2) ∧ s.asyncRuns 0 = true ∧
       (kget none ({ s with ckpts := [(6, some { func := 1 })] }).ckpts 6).map (·.blob) = some [] ∧ s.flashAt 1 0x400000000000 = some (flashKey 0 0) ∧
       s.flashAt 1 0x400000000001 = some (flashKey 0 1)) := by decide +kernel

theorem witness_PoolOperations :
    (∀ op ∈ [0, 4], ∀ busy ∈ [0, 1], ∀ n ∈ [1, 2 ^ 21],
      let s := withRegs State.reset [(bar0 255 0x9000, 2 * op), (bar0 255 0x9008, n), (bar0 255 0x9010, busy)]
      s.halted = false ∧ s.vigil.frozen = false ∧ bitsOf (s.reg (bar0 255 0x9000)) 1 3 = op ∧ s.bit (bar0 255 0x9010) 0 = decide (busy = 1) ∧
        s.reg (bar0 255 0x9008) = n) ∧
    (let s0 := withRegs State.reset [(tierReg 8, 1)]
     let s := { s0 with
       tiers := { s0.tiers with pages := [(255 * 2 ^ 32, some { state := .evicted })] }
       cmds := [(5, some { cmdOf 0x02 (some 9) copyPay with func := 255 })] }
     s.page 255 false 0 = some { state := .evicted } ∧ s.pageWanted 255 0 = true ∧ s.pageWanted 255 1 = false ∧ firstFree s.nearTaken (s.nearTaken.length + 1) 0 = 0 ∧ 0 < s.nearPages ∧
       s.held = [] ∧ Memory.wf s.mem = true) := by decide +kernel

/-- Function 254 holds 128 units from 128 on of die 7's carve-out. -/
def sCarve : State := withRegs State.reset [(tierReg (0x2000 + 32 * 254 + 28), 0x4040)]

theorem witness_TierLimits_cacheBase :
    256 % 512 ≤ 256 ∧ State.reset.imageOn 7 = false ∧ (∀ g, g < 256 → bitsOf (State.reset.carveReg g 7) 8 9 = 0) ∧
      bitsOf (sCarve.carveReg 254 7) 0 8 + bitsOf (sCarve.carveReg 254 7) 8 9 = 128 ∧
      ({ s0 with parts := [(0, { onePart with image := some img })] }).imageOn 0 = true := by decide +kernel

theorem witness_TierLimits_carve :
    (let cv := 0x4000
     bitsOf cv 0 8 + bitsOf cv 8 9 ≤ sCarve.cacheBase 7 ∧ bitsOf (sCarve.carveReg 255 7) 8 9 = 0 ∧
     (∀ g, g < 256 → g ≠ 255 →
       ¬(bitsOf cv 0 8 < bitsOf (sCarve.carveReg g 7) 0 8 + bitsOf (sCarve.carveReg g 7) 8 9 ∧
         bitsOf (sCarve.carveReg g 7) 0 8 < bitsOf cv 0 8 + bitsOf cv 8 9))) ∧
    (bitsOf 0x4100 0 8 < 128 ∧ bitsOf (sCarve.carveReg 254 7) 0 8 < bitsOf 0x4100 0 8 + bitsOf 0x4100 8 9) ∧
    sCarve.cacheBase 7 < bitsOf 0x8100 0 8 + bitsOf 0x8100 8 9 ∧ bitsOf 0x8100 8 9 ≤ 256 ∧
    (0 ≠ sCarve.carveReg 254 7 ∧ bitsOf (sCarve.carveReg 254 7) 8 9 ≠ 0 ∧ sCarve.holdsImage 254 = false ∧ sCarve.hasAdmitted 254 = false) ∧
    (let e := { State.reset with tiers := { State.reset.tiers with carve := [(8 * 254 + 7, 0x4040)] } }
     (∀ g, g < 256 → bitsOf (e.carveReg g 7) 8 9 = 0) ∧ (e.grant 254 7).1 + (e.grant 254 7).2 = 128) ∧
    ({ s0 with parts := [(0, { onePart with image := some img })] }).holdsImage 1 = true := by decide +kernel

theorem witness_TierLimits_shares :
    let s := withRegs State.reset [(tierReg (0x100C + 16 * 254), 0x00E), (tierReg 8, 1)]
    (∀ k, k < 3 → (List.range 256).foldl (fun a g => if g = 255 then a else a + s.shares g k) 0 + bitsOf 0x001 (4 * k) 4 ≤ 15) ∧
      15 < (List.range 256).foldl (fun a g => if g = 255 then a else a + s.shares g 0) 0 + bitsOf 0x002 0 4 ∧
      s.hasAdmitted 255 = false ∧ 0x001 ≠ s.field (tierReg (0x100C + 16 * 255)) 0 12 ∧
      (sReady [] [(5, some { cmdOf 0x23 (some 9) 0 with admitted := some 10 })]).hasAdmitted 1 = true ∧
      s.nearUse 255 ≤ 0 ∧ s.pinUse 255 ≤ 1 ∧ s.farUse 255 ≤ 0 ∧
      (List.range 256).foldl (fun a g => if g = 255 then a else a + s.field (tierReg (0x1004 + 16 * g)) 0 20) 1 ≤ s.nearPages ∧
      s.nearPages < (List.range 256).foldl (fun a g => if g = 255 then a else a + s.field (tierReg (0x1004 + 16 * g)) 0 20) 2 ∧
      0 < (sLoaded false []).nearUse 1 := by decide +kernel

theorem witness_WindowsBaysStacks :
    (let s := withRegs State.reset [(tierReg (0x100 + 16 * 15), 0x101)]
     s.vigil.frozen = false ∧ s.readsWindow 1 15 = false ∧ s.windowNext 15 = none ∧ s.windowMeets 15 0x101 0 = false) ∧
    (let s := withRegs (sLoaded false []) [(tierReg (0x100 + 16 * 15), 0x201)]
     bitOf (s.reg (tierReg (0x100 + 16 * 15))) 0 = true ∧ s.windowMeets 15 0x201 2 = true ∧ s.windowMeets 15 0x201 3 = false) ∧
    (sCopy (aCopy true true)).readsWindow 1 0 = true ∧ (sCopy (aCopy true true)).windowNext 0 = some (0x101, 0) ∧
    (let r (v : Nat) := withRegs State.reset [(bayReg 3, v)]
     (r 7).halted = false ∧ ((r 7).bit (bayReg 3) 2 = true ∧ (r 7).bit (bayReg 3) 3 = false ∧ (r 7).usesBay 3 = false) ∧
     (sCopy (aCopy true true)).usesBay 0 = true ∧ ((r 13).bit (bayReg 3) 0 = true ∧ (r 13).bayUsable 3 = false)) ∧
    (let r (v : Nat) := withRegs State.reset [(tierReg 0, v)]
     ((r 2).bit (tierReg 0) 1 = true ∧ (r 2).bit (tierReg 0) 2 = false ∧ (kget [] (r 2).remap.records 7).length < 64) ∧
     ((r 0).bit (tierReg 0) 1 = false ∧ (r 0).bit (tierReg 0) 2 = false) ∧
     ((r (6 + 8 * 14)).bit (tierReg 0) 2 = true ∧ (r (6 + 8 * 14)).field (tierReg 0) 3 4 = 14 ∧ (r (6 + 8 * 14)).halted = false)) := by
  decide +kernel
/-! ### Hypotheses met: links and collectives -/

/-- Port 0 in state `st` on an axis of two modules, a cable in it; `replays` rounds of replay with one block kept. -/
def sLink (st replays : Nat) : State :=
  let s := withRegs State.reset [(linkReg 0x40, st), (linkReg 4, 4), (linkReg 8, 1)]
  { s with
    links := { s.links with ports := [(0, { replay := [(0, 0, [1])], replays := replays })] }
    mgmt := { s.mgmt with cables := [(0, true)] } }

/-- A block of zeros of a kind with LSEQ n and its check value. -/
def zeroBlock (kind n : Nat) : List Byte :=
  let body := leBytes 8 (4 * n + kind) ++ List.replicate 512 0#8
  body ++ leBytes 8 (crcFeed (crcSel 3) 0 body)

theorem witness_PortsAndBlocks :
    (sLink 2 0).halted = false ∧ (sLink 2 0).portState 0 = 2 ∧ bitsOf 0 0 2 ≠ 1 ∧
      ((sLink 2 15).port 0).spentReplays 4095 = false ∧ ((sLink 2 16).port 0).spentReplays 4095 = true ∧
      (kget [] (sLink 2 0).remap.records (portDie 0)).length < 64 ∧ (sLink 2 0).vigil.frozen = false ∧
      (0 = (sLink 2 0).address ∧ 512 ≠ (sLink 2 0).address) ∧
      (sLink 3 0).portFitted 0 = true ∧ (sLink 3 0).portState 0 = 3 ∧ (sLink 1 0).portState 0 = 1 ∧
      setCoord 1 (sLink 1 0).address ((coordOf 1 (sLink 1 0).address + 1) % (sLink 1 0).axisLen 1) = 512 ∧
      (sLink 3 0).bit (linkReg 8) 0 = true ∧ portAxis 0 = 1 ∧ ((sLink 2 0).port 0).rxLast = 4095 := by decide +kernel

/-- Such a block checks: its body's value, the register evaluated at each byte, is the number that its last 8 bytes spell. -/
theorem witness_PortsAndBlocks_good : ∀ kind ∈ [0, 2], ∀ n ∈ [0, 1],
    (zeroBlock kind n).length = 528 ∧ crcFeed (crcSel 3) 0 ((zeroBlock kind n).take 520) = leNat ((zeroBlock kind n).drop 520) := by
  have h : ∀ kind ∈ [0, 2], ∀ n ∈ [0, 1],
      let c := feedNow (crcSel 3) 0 (leBytes 8 (4 * n + kind) ++ List.replicate 512 0#8)
      leNat (leBytes 8 c) = c := by decide +kernel
  intro kind hk n hn
  have hc := h kind hk n hn
  simp only [feedNow_eq] at hc
  have h8 : ∀ v, (leBytes 8 v).length = 8 := fun v => rfl
  have hl : (leBytes 8 (4 * n + kind) ++ List.replicate 512 0#8).length = 520 := by rw [List.length_append, h8, List.length_replicate]
  unfold zeroBlock
  refine ⟨by rw [List.length_append, hl, h8], ?_⟩
  rw [List.take_left' hl, List.drop_left' hl, hc]

/-- The header of a good block: its kind, its LSEQ, and bit 26. -/
theorem witness_PortsAndBlocks_headers :
    (∀ kind ∈ [0, 2], ∀ n ∈ [0, 1], bitsOf (4 * n + kind) 0 2 = kind ∧ bitsOf (4 * n + kind) 2 12 = n ∧ bitOf (4 * n + kind) 26 = false) ∧
      0 = (((sLink 2 0).port 0).rxLast + 1) % 4096 := by decide +kernel

/-- A WRITE message for window 0xFFF of stream 7 of this module: frame f, SEQ q, one unit. -/
def aWrite (f q : Nat) (last : Bool) : BitVec 256 :=
  BitVec.ofNat 256 (0xFFF * 2 ^ 40 + 7 * 2 ^ 52 + f * 2 ^ 64 + q * 2 ^ 112 + natOf last * 2 ^ 171 + 2 ^ 180)

/-- Port 0 in service, the window open, and stream 7's record at frame 3 with two messages taken. -/
def sWrites (closed : Bool) (w : Window) : State :=
  let s := sLink 2 0
  { s with links := { s.links with
      windows := [(0xFFF, some w)]
      isrs := [(4095, some { stream := 7, win := 0xFFF, lf := 3, ns := 2, closed := closed, unacked := 63 })] } }

theorem witness_WritesReceived :
    (let s := sWrites false aWindow
     s.portState 0 = 2 ∧ (parseHdr (aWrite 3 2 true)).dst = s.address ∧ (parseHdr (aWrite 3 2 true)).kind = 0 ∧ (sLink 2 0).win 0xFFF = none ∧
       s.win 0xFFF = some aWindow ∧ aWindow.parked = false ∧ aWindow.admits 0 1 = true ∧ aWindow.admits 0 2 = false ∧
       0 + 0 + 1 ≤ unitsOf aWindow.size ∧ unitsOf aWindow.size < 1 + 0 + 1 ∧ (parseHdr (aWrite 3 2 true)).func = 1 ∧
       (parseHdr (aWrite 3 2 true)).win = 0xFFF ∧ (s.isrOf 0 7).map (·.1) = some 4095 ∧
       (parseHdr (aWrite 3 1 false)).seq < 2 ∧ ((parseHdr (aWrite 2 5 false)).sframe : Int) < 3 ∧
       ((parseHdr (aWrite 3 2 true)).sframe : Int) = 3 ∧ (parseHdr (aWrite 3 2 true)).seq = 2) ∧
    ((3 : Int) < ((parseHdr (aWrite 4 0 false)).sframe : Int) ∧ (parseHdr (aWrite 4 0 false)).seq = 0 ∧
       ((sWrites true aWindow).isrOf 0 7).map (fun x => x.2.closed) = some true) ∧
    (let s := sWrites false aWindow
     aWindow.store = false ∧ ({ aWindow with parked := true }).parked = true ∧ (s.isrOf 0 8).isNone = true ∧ s.freeIsr = some 0 ∧
       (parseHdr (aWrite 3 2 true)).first = false ∧ (parseHdr (aWrite 3 0 true + 2 ^ 172)).first = true ∧
       (parseHdr (aWrite 3 0 true + 2 ^ 172)).seq = 0 ∧ (parseHdr (aWrite 3 2 true)).lenM1 = 0) ∧
    (let w := { aWindow with store := true, base := storeKey }
     let s := { sWrites false w with tiers := { (sWrites false w).tiers with carve := [(8, 0x100)] } }
     s.ownsStore w.func (w.base + 32 * 0) 32 = true ∧ (sWrites false w).ownsStore w.func (w.base + 32 * 0) 32 = false) ∧
    (let m (k t : Nat) := 512 + k * 2 ^ 32 + t * 2 ^ 174
     (∀ t ∈ [0, 1], ∀ k ∈ [1, 2], coordOf 1 (parseHdr (BitVec.ofNat 256 (m k t))).dst ≠ coordOf 1 (sLink 2 0).address ∧
       axisPort 1 (dirsBit (m k t) 1) = 0 ∧ (parseHdr (BitVec.ofNat 256 (m k t))).kind = k ∧ bitOf (m k t) 174 = decide (t = 1)) ∧
       (withRegs (sLink 2 0) [(linkReg 0x50, 2)]).portState 1 = 2 ∧ (withRegs (sLink 1 0) [(linkReg 0x50, 2)]).portState 0 ≠ 2 ∧ portAxis 1 = 1) ∧
    ((sWrites false aWindow).isrOf 0 7).map (fun x => decide (0 < x.2.unacked)) = some true := by decide +kernel

/-- A stream to module 512, after n rounds of resending, with a message that has gone and one that has not. -/
def sStream (n : Nat) (paused : Bool) (dst : Nat) (sent : Bool) : State :=
  let s := sLink 2 0
  { s with links := { s.links with
      routes := [(33, 1)]
      streams := [(4095, some { func := 1, dst := dst, rounds := n, paused := paused, retSframe := 3, retSeq := 2 })]
      ring := [{ aMessage with stream := 4095, seq := some 1, sent := sent }] } }

/-- An answer of kind k to stream 4095 from module 512: frame f, SEQ q, reason n. -/
def anAnswer (k f q n : Nat) : BitVec 256 :=
  BitVec.ofNat 256 (512 * 2 ^ 16 + k * 2 ^ 32 + 4095 * 2 ^ 52 + f * 2 ^ 64 + q * 2 ^ 112 + n * 2 ^ 188)

theorem witness_StreamAnswers :
    (∀ k ∈ [2, 3, 4, 5], ((sStream 6 false 512 true).mine (anAnswer k 3 3 6) k).isSome = true) ∧
    (2 < (parseHdr (anAnswer 3 3 3 0)).seq ∧ (parseHdr (anAnswer 3 3 2 0)).seq ≤ 2 ∧ (parseHdr (anAnswer 4 0 0 4)).nak = 4 ∧
      (parseHdr (anAnswer 4 0 0 2)).nak = 2 ∧ (parseHdr (anAnswer 4 0 0 5)).nak = 5 ∧ (parseHdr (anAnswer 4 0 0 1)).nak = 1 ∧
      (parseHdr (anAnswer 4 0 0 6)).nak = 6 ∧ (2 : Nat) < (parseHdr (anAnswer 3 3 3 6)).seq ∧ ((sStream 7 false 512 true).mine (anAnswer 4 0 0 6) 4).isSome = true) ∧
    (let s (sub : Nat) (next : KMap Nat) := { sStream 0 false 512 false with
        subtick := sub
        links := { (sStream 0 false 512 false).links with next := next } }
     (∀ sub ∈ [15, 16], (s sub []).halted = false ∧ (s sub []).subtick = sub ∧ ((s sub []).nextMsg 4095).isSome = true ∧
       ((s sub []).nextMsg 4095).map (fun m => (s sub []).nextSender (dieOf m.core) 0) = some (some 4095)) ∧
     (let t := { s 16 [(0, 0)] with links := { (s 16 [(0, 0)]).links with
        streams := [(4094, some { func := 1, dst := 512 }), (4095, some { func := 1, dst := 512 })]
        ring := [{ aMessage with stream := 4094, seq := some 1 }, { aMessage with stream := 4095, seq := some 1 }] } }
      (t.nextMsg 4095).map (fun m => t.nextSender (dieOf m.core) 0) = some (some 4094))) ∧
    (∀ n ∈ [7, 8], ((sStream n false 512 true).stream 4095).map (fun x => (x.fault, x.paused, x.rounds)) = some (false, false, n)) ∧
    ((sStream 7 true 512 true).stream 4095).map (·.paused) = some true ∧
    ((sStream 0 false 512 true).links.ring.any fun m => m.stream == 4095 && m.sent && !m.acked) = true ∧
    ((sStream 0 false 512 false).nextMsg 4095).isSome = true ∧ (sStream 0 false 512 false).reachable 512 = true ∧
    ({ sStream 0 false 512 false with links := { (sStream 0 false 512 false).links with routes := [(33, 3)] } }).reachable 512 = false := by
  decide +kernel

/-- A BROADCAST or VOTE of function 1 over the first axis, the group's other module its peer. -/
def aColl (op : Nat) (turn : Nat) : Coll :=
  { func := 1, op := op, axes := [1], origin := 512, fmt := 0, turn := turn, data := [([1], false)], pdig := 9 }

/-- A COLL message of that collective from module 512: payload digest, line. -/
def aCollMsg (phase pdig line : Nat) : BitVec 256 :=
  BitVec.ofNat 256 (512 * 2 ^ 16 + 2 ^ 32 + phase * 2 ^ 40 + 2 ^ 44 + pdig * 2 ^ 112 + 2 ^ 180 + line * 2 ^ 192)

/-- The module with that collective in progress. -/
def sColl (c : Coll) : State := { sLink 2 0 with
  colls := { run := [(5, some c)] }
  parts := [(0, onePart)] }

theorem witness_CollectiveLines :
    (let c := { aColl opAR 0 with expected := [(edgeKey 512 (upPhase opAR) 0 0, 3)] }
     let s := sColl c
     let m (d l : Nat) := parseColl (aCollMsg (upPhase opAR) d l) []
     s.portState 0 = 2 ∧ (m 9 3).dst = s.address ∧ bitsOf (aCollMsg (upPhase opAR) 9 3).toNat 32 4 = 1 ∧ (sLink 2 0).collOf 1 0 = none ∧
       s.collOf 1 0 = some (5, c) ∧ (s.part 0).stopped = false ∧ (s.part 0).recov = none ∧ (m 8 3).hdr.pdig ≠ c.pdig ∧
       (m 9 3).hdr.pdig = c.pdig ∧ s.incoming c (m 9 3) = some (2 ^ 32) ∧ (m 9 2).hdr.line < 3 ∧ (m 9 3).hdr.line = 3) ∧
    ((sColl (aColl opBC 1)).coll 5 = some (aColl opBC 1) ∧ (aColl opBC 1).turns ≤ (aColl opBC 1).turn ∧
      (sColl (aColl opBC 1)).lands (aColl opBC 1) = true ∧ (sColl (aColl opVT 1)).lands (aColl opVT 1) = false ∧
      (aColl opVT 1).done = false ∧ (sColl { aColl opBC 1 with origin := 0 }).lands { aColl opBC 1 with origin := 0 } = false ∧
      (aColl opBC 1).sent = [] ∧ ({ aColl opBC 1 with done := true }).done = true) ∧
    (let s (c : Coll) : State := sColl c
     let rest : CollMsg := { dst := 512, src := 0 }
     (s (aColl opAR 0)).lands (aColl opAR 0) = true ∧ (aColl opAR 0).turn < (aColl opAR 0).turns ∧ opAR ≠ opPM ∧
       (s { aColl opPM 0 with landed := 0 }).lands (aColl opPM 0) = true ∧
       (s { aColl opBC 0 with origin := 0 }).lands { aColl opBC 0 with origin := 0 } = false ∧ (aColl opBC 0).turn < (aColl opBC 0).turns ∧
       (aColl opVT 0).turn < (aColl opVT 0).turns ∧ ({ aColl opBC 1 with sent := [rest] }).sent ≠ [] ∧ (s {}).cp.powerDown = false ∧
       (s (aColl opBC 1)).outputLines (aColl opBC 1) = 1) ∧
    (let c := aColl opAR 0
     let m (src l : Nat) := parseColl (BitVec.ofNat 256 ((aCollMsg (upPhase opAR) 9 l).toNat + src * 2 ^ 16)) []
     (sColl c).incoming c (m 1 3) = none ∧ 2 ^ 32 - 1 < 2 ^ 32 ∧
       (let t := { sLink 2 0 with colls := { past := [(5, some c)] } }
        t.coll 5 = none ∧ kget none t.colls.past 5 = some c ∧ c.sent = [])) ∧
    (let t (x : Part) := { sColl (aColl opAR 0) with parts := [(0, x)] }
     ((t { onePart with stopped := true }).part 0).stopped = true ∧ ((t { onePart with recov := some { caseB := false, restoreOrd := none, firstOrd := 0, kind := 0, began := 0 } }).part 0).recov.isSome = true) := by
  decide +kernel

/-! ### Hypotheses met: faults, recovery, control -/

/-- Half-row 63 of half 1 of die 7 with its first n sites retired, partition 0 over the module. -/
def sRow (n : Nat) : State := { State.reset with
  parts := [(0, { onePart with rows := 2, cols := 4 })]
  remap := { State.reset.remap with sites := if n = 0 then [] else [(64 * 15 + 63, List.range n)] } }

theorem witness_SitesReplaced :
    (sRow 0).halted = false ∧ ((sRow 0).retiredNext 7 1 63).contains 47 = false ∧ ((sRow 2).retiredNext 7 1 63).contains 49 = false ∧
      ((sRow 0).logicalAt 7 1 63 47).isSome = true ∧ ((sRow 0).part 0).hasDie 7 = true ∧ (sRow 1).rowFull 7 1 63 = false ∧
      (sRow 2).rowFull 7 1 63 = true ∧ (sRow 0).isCore 49151 = true ∧ 49151 / 6144 = 7 ∧ 49151 / 3072 % 2 = 1 ∧ 49151 / 48 % 64 = 63 ∧
      (sRow 0).physOf 49151 = 47 ∧
    (let t (n m : Nat) := { sRow 0 with remap := { (sRow 0).remap with tracks := [(128 * 7 + 2 * 63 + 1, List.range n ++ (List.range m).map (512 + ·))] } }
     ((t 0 0).tracksNext 7 63 true).contains 511 = false ∧ trackServes ((t 0 0).tracksNext 7 63 true) 511 = true ∧
       nextSpare ((t 0 0).tracksNext 7 63 true) = some 512 ∧ nextSpare ((t 0 16).tracksNext 7 63 true) = none ∧
       trackServes ((t 0 0).tracksNext 7 63 true) 527 = false ∧ trackServes ((t 1 0).tracksNext 7 63 true) 512 = true ∧
       nextSpare ((t 1 0).tracksNext 7 63 true) = some 513) ∧
    (let x := withRegs (sRow 0) [(storeReg 7 0, 3)]
     x.sliceParity 7 1 = true ∧ x.spareServes 7 1 ≠ some 63 ∧ kget none x.remap.failedSlice 15 = none) ∧
    (isPadKey (padWindow 49151) = true ∧ dieOf ((padWindow 49151 - padKey) / 0x40000) = 7 ∧
      (sRow 0).runningOn ((padWindow 49151 - padKey) / 0x40000) = none ∧
      (let y := { sRow 0 with parts := [(0, { (sRow 0).part 0 with run := some 5 })] }
       y.runningOn ((padWindow 49151 - padKey) / 0x40000) = some 0 ∧ (y.part 0).valid = true ∧ (y.part 0).stopped = false)) := by
  decide +kernel

/-- Die 7 with a slice that failed, parity in service or not, and a record that waits. -/
def sRemap (go tgt parity : Nat) : State :=
  let s := withRegs (sRow 2) [(remapReg 7 4, go), (remapReg 7 8, tgt), (storeReg 7 0, parity)]
  { s with remap := { s.remap with failedSlice := [(15, some 63)], records := [(7, [5])] } }

theorem witness_RemapRegisters :
    (let s := sRemap 0 0 2
     s.halted = false ∧ kget none s.remap.failedSlice 15 = some 63 ∧ (storeKey + 7 * 0x20000000 - storeKey) / 0x20000000 < 8 ∧
       (sRemap 0 0 3).sliceParity 7 ((sRemap 0 0 3).sliceOf 0 (storeKey + 7 * 0x20000000) % 128 / 64) = true ∧
       (sRemap 0 0 0).sliceParity 7 ((sRemap 0 0 0).sliceOf 0 (storeKey + 7 * 0x20000000) % 128 / 64) = false ∧
       (let base := storeKey + 7 * 0x20000000
        let x (n : Nat) := withRegs (sRow 0) [(storeReg 7 0, 3)] |> fun x => { x with remap := { x.remap with badLines := [(x.sliceOf 0 base, n)] } }
        ∀ n ∈ [2, 3, 4], kget 0 (x n).remap.badLines ((x n).sliceOf 0 base) + 1 = n + 1 ∧
          (x n).sliceParity 7 ((x n).sliceOf 0 base % 128 / 64) = true ∧ (x n).spareServes 7 ((x n).sliceOf 0 base % 128 / 64) = none ∧
          kget none (x n).remap.failedSlice (2 * 7 + (x n).sliceOf 0 base % 128 / 64) = none) ∧
       s.mgmt.mcRestart = false ∧ kget (0, 0, 0) s.remap.scrubPtr 7 = (0, 0, 0) ∧
       ({ s with mgmt := { s.mgmt with mcRestart := true } }).mgmt.mcRestart = true ∧ s.scrubCopies 7 = (1, 1, 1) ∧ (0 : Nat) ≠ 1 ∧ s.mgmt.dark = false ∧ kget [] s.remap.records 7 = [5]) ∧
    (let site (row col : Nat) := 1 + 2 * row + 128 * col
     (sRemap 0 0 0).bit (remapReg 7 0) 0 = false ∧ (sRemap 0 0 0).remapInvalid 7 0 1 63 50 false = true ∧
       (sRemap 0 0 0).remapInvalid 7 0 1 63 49 false = false ∧ (sRemap 0 0 0).noSpare 7 0 1 63 false = true ∧
       (sRemap 0 0 0).noSpare 7 0 1 62 false = false ∧ (sRemap 0 0 0).remapInvalid 7 1 1 63 511 true = false ∧
       (sRemap 0 0 0).noSpare 7 1 1 63 true = false ∧ (withRegs (sRemap 0 0 2) [(remapReg 7 0, 1)]).bit (remapReg 7 0) 0 = true ∧
       (let x := withRegs (sRow 0) [(storeReg 7 0, 3)]
        x.remapInvalid 7 2 1 0 63 false = false ∧ x.noSpare 7 2 1 0 false = false ∧ (sRow 0).noSpare 7 2 1 0 false = true ∧
          kget none x.remap.failedSlice 15 = none ∧ x.remapInvalid 7 2 1 1 63 false = true) ∧ bitsOf (site 63 49) 1 6 = 63 ∧ bitsOf (site 63 49) 7 10 = 49) := by decide +kernel

/-- Partition 0 with a frame sealed, mirrored or not, and a command not yet accepted. -/
def sStrike (mirrored : Bool) : State := { State.reset with
  parts := [(0, { onePart with ord := 3, frame := some { ord := 3 }, sealed := some { ord := 2, mirrored := mirrored } })]
  cmds := [(5, some (cmdOf 0x23 none 0)), (6, some (cmdOf 0x23 (some 9) 0))]
  cp := { State.reset.cp with standby := true } }

theorem witness_StrikesAndFailover :
    (∀ b, ((sStrike b).part 0).valid = true ∧ ((sStrike b).part 0).stopped = false ∧ ((sStrike b).part 0).recov = none) ∧
      ((((sStrike false).strike 0 0 0).part 0).recov.map fun r => r.restored) = some false ∧ (sStrike true).cp.standby = true ∧
      State.reset.cp.standby = false ∧ State.reset.halted = false ∧ (5, some (cmdOf 0x23 none 0)) ∈ (sStrike true).cmds ∧
      ((sStrike true).subtick ≤ 15 ∧ ¬ ({ sStrike true with subtick := 16 }).subtick ≤ 15) ∧
      (let t := sReady [] [(6, some { cmdOf 0x01 (some 9) spanPay with admitted := some 9 })]
       t.cp.standby = false ∧ 6 ∈ t.spansOf 0 ∧ (t.cmd 6).isSome = true) := by
  refine ⟨by decide +kernel, by decide +kernel, rfl, rfl, rfl, List.mem_cons_self .., by decide +kernel, by decide +kernel⟩

/-- Function 1 enabled with 64 queues; CP_PART7 holds partition 7 of function 2 on die 7; partition 0 stopped or in use. -/
def sParts (x : Part) : State := { withRegs State.reset [(cpReg 0x1010, 0x4001), (cpReg 0x1014, 0x1000FFFF), (partReg 7, 0x0E0201)] with
  parts := [(0, x), (7, partRecord 0x0E0201)] }

theorem witness_RecordsAndRelease :
    (let s := sParts {}
     s.vigil.frozen = false ∧ s.partRefused 0 (partRecord 0x000101) = false ∧ s.partRefused 0 (partRecord 0x0E0101) = true ∧
       s.holdsDies 7 = true ∧ (s.partWritten 7).hasDie 7 = true ∧ (partRecord 0x0E0101).hasDie 7 = true ∧ bitsOf 0x4001 8 7 ≤ 64 ∧
       s.fnBusy 1 = false ∧ s.fnEnabled 1 = true ∧ s.fnEnabled 255 = false ∧ bitsOf 0x10000000 16 13 ≤ 4096 ∧
       (List.range 256).foldl (fun k g => if g = 255 then k else k + s.fnQueues g) 0 + bitsOf 0x4001 8 7 ≤ 4096) ∧
    (sReady [] [(5, some (cmdOf 0x23 (some 9) 0))]).fnBusy 1 = true ∧
    (let full := withRegs State.reset ((List.range 64).map fun g => (cpReg (0x1000 + 16 * g), 0x4001))
     4096 < (List.range 256).foldl (fun k g => if g = 255 then k else k + full.fnQueues g) 0 + bitsOf 0x101 8 7) ∧
    (let s := withRegs State.reset [(cpReg 0x1014, 0x0001FFFF)]
     s.evBase 1 = 0xFFFF ∧ s.evCount 1 = 1 ∧ bitsOf 0x1000EFFF 0 16 + bitsOf 0x1000EFFF 16 13 ≤ s.evBase 1) ∧
    (let x := { onePart with stopped := true }
     (sParts x).partRefused 0 (partRecord 0x000101) = false ∧ ((sParts x).part 0).stopped = true ∧ ((sParts x).part 0).resumeReq = false ∧
       (withRegs (sParts x) [(partReg 0, 0x000101)]).partWritten 0 = partRecord 0x000101 ∧ (partRecord 0x000101).valid = true) := by
  decide +kernel

/-- Partition 0 of function 1, whose 700 first near pages are pinned. -/
def sPinned : State := { State.reset with
  parts := [(0, onePart)]
  tiers := { State.reset.tiers with pages := (List.range 700).map fun i => (2 ^ 32 + i, some { state := .pinned }) } }

theorem kget_pinned (l : List Nat) (j : Nat) (h : j ∈ l) (b : Nat) (x : Option Page) :
    kget none (l.map fun i => (b + i, x)) (b + j) = x := by
  induction l with
  | nil => cases h
  | cons a l ih =>
    simp only [List.map_cons, kget]
    split
    · rfl
    · next hne => exact ih ((List.mem_cons.1 h).resolve_left fun he => hne (by rw [he]))

theorem witness_RecordsAndRelease_stop :
    (sPinned.part 0).valid = true ∧ (sPinned.part 0).stopped = false ∧ (sPinned.part 0).stopReq = none ∧
      sPinned.pinnedArea 1 (sPinned.wide (cpReg 0x28)) (sPinned.saveSize (sPinned.part 0)) = true ∧
      s0.pinnedArea 1 0 1 = false := by
  have hc : ∀ d, (sPinned.coresOfDie d).length = 6144 := by
    intro d
    have h : sPinned.perRow = 48 := by decide +kernel
    simp [State.coresOfDie, h, List.length_flatMap]
  have hs : sPinned.saveSize (sPinned.part 0) = 6144 * (6144 + 0x30000) := by
    have h : (sPinned.part 0).dies = [0] := by decide +kernel
    simp [State.saveSize, State.coresOf, h, hc]
  have hp : ∀ i, i < 700 → (sPinned.page 1 false i).map (·.state) = some .pinned := by
    intro i hi
    have h := kget_pinned (List.range 700) i (List.mem_range.2 hi) (2 ^ 32) (some { state := .pinned })
    have hk : 1 * 2 ^ 32 + natOf false * 2 ^ 31 + i = 2 ^ 32 + i := by simp [natOf]
    have ht : sPinned.tiers.pages = (List.range 700).map fun i => (2 ^ 32 + i, some { state := .pinned }) := by simp only [sPinned]
    rw [State.page, hk, ht, h]
    rfl
  have ha : sPinned.wide (cpReg 0x28) = 0 := by decide +kernel
  rw [hs, ha]
  refine ⟨by decide +kernel, by decide +kernel, by decide +kernel, ?_, by decide +kernel⟩
  have hl : pagesOf 0 (6144 * (6144 + 0x30000)) = (List.range 594).map fun i => (false, 0 / 2 ^ 21 + i) := by
    unfold pagesOf
    rw [if_neg (by decide), if_pos (by decide)]
    exact congrArg (fun n => (List.range n).map fun i => (false, 0 / 2 ^ 21 + i)) (by decide)
  unfold State.pinnedArea
  rw [hl]
  simp only [Bool.and_eq_true, decide_eq_true_eq, List.all_eq_true, List.mem_map, List.mem_range]
  refine ⟨by decide, ?_⟩
  rintro _ ⟨i, hi, rfl⟩
  have := hp i (by omega)
  simp only [Nat.zero_div, Nat.zero_add]
  simp [this]
theorem witness_ResetsAndPower :
    State.reset.mgmt.dark = false ∧ State.reset.vigil.frozen = false ∧ ({ s0 with vigil := { frozen := true } }).vigil.frozen = true ∧
      ({ State.reset with mgmt := { State.reset.mgmt with mbox := some 6 } }).mgmt.mbox = some 6 ∧ State.reset.mgmt.mcRestart = false ∧
      (((sReady [] []).modQueue 1 63 fun u => { u with unread := [{ type := 1 }] }).queue 1 63).unread ≠ [] ∧
      (s0.part 0).valid = true ∧ keptByFlr 0xA040 = true ∧ keptByFlr 0x0C = false := by decide +kernel

/-! ### Hypotheses met: observation -/

/-- The module past its tick window, core 0's partition under test and observed where `on` says so; a trace record waits. -/
def sTest (on : Bool) (sink : Nat) : State :=
  let s := withRegs (sImage none (coreWith 0 ready)) [(obsPart 0, 4), (obsReg 0x500, 0x03FE0000 + sink), (obsReg 0x514, 255)]
  { s with
    subtick := 16
    obs := { s.obs with
      consent := if on then [(1, 2)] else []
      sampleOn := true
      lost := 1
      buf := [⟨1, 1, 0, 0, 0, 0⟩] } }

theorem witness_TraceAndDumps :
    (State.reset.vigil.frozen = false ∧ 7 < countersOf 11 ∧ bitsOf 0x2FF 8 2 ≠ 3 ∧ bitsOf 0x300 8 2 = 3) ∧
    (let s := sTest true 1
     s.isCore 0 = true ∧ s.partOf 0 = some 0 ∧ s.halted = false ∧ s.bit (obsPart 0) 2 = true ∧ (s.part 0).frame.isSome = true ∧
       (let m : ImgHeld := { bytes := leBytes 0x30 0 ++ leBytes 16 1 ++ leBytes 16 (17 + 0x50 * 2 ^ 32 + 8 * 2 ^ 64 + 2 ^ 96) ++ leBytes 8 (5 + 7 * 2 ^ 16) }
        let t := { s with parts := [(0, { (s.part 0) with image := some m })] }
        t.issueRecord 0 5 7 = true ∧ t.issueRecord 0 4 7 = false ∧ t.bit (obsPart 0) 2 = true ∧ (7 : BitVec 20) ≠ 8) ∧
       s.obs.testHit.contains 0 = false ∧ s.bit (obsReg 0x500) 23 = true ∧ s.obs.buf.length < 32768 ∧
       ({ s with obs := { s.obs with testHit := [0] } }).obs.testHit.contains 0 = true ∧ 16 ≤ s.subtick ∧ s.sampleDue 0 = true ∧
       s.observer 0 = some 1 ∧ s.consents 1 1 = true ∧ s.bit (obsReg 0x500) 21 = true ∧ s.obs.lost ≠ 0 ∧ s.bit (obsReg 0x500) 25 = true ∧
       s.sepiaSink = 1 ∧ (255 + 1) % s.sepiaRing ≠ (s.field (obsReg 0x510) 0 24 + 1) % s.sepiaRing) ∧
    ((sTest false 1).observer 0).filter (fun f => (sTest false 1).consents f 1) = none ∧
    (let s := withRegs (sTest true 1) [(obsReg 0x514, 254)]
     (s.field (obsReg 0x514) 0 24 + 1) % s.sepiaRing ≠ s.field (obsReg 0x510) 0 24 % s.sepiaRing) ∧
    State.reset.obs.dumpBusy = false := by decide +kernel

/-- A dump waits to be written. -/
def sDump : State := { State.reset with obs := { State.reset.obs with dumpBusy := true } }

theorem dumpBytes_length (s : State) : s.dumpBytes.length ≤ 2 ^ 32 := by
  have h8 : ∀ n : Nat, (leBytes 8 n).length = 8 := fun n => rfl
  have hp : ∀ p, (s.dumpPart p).length = 16 := fun p => rfl
  have hf : ∀ l : List Nat, (l.flatMap (leBytes 8)).length = 8 * l.length := by
    intro l
    induction l with
    | nil => rfl
    | cons a l ih => rw [List.flatMap_cons, List.length_append, ih, h8, List.length_cons]; omega
  have hq : ((List.range 8).flatMap s.dumpPart).length = 128 := by
    simp [List.length_flatMap, hp]
  have hn : s.noncoreEntries.length ≤ 2 ^ 20 := by
    have : s.noncoreEntries.length = ((List.range 11).map fun i => instancesOf (i + 1) * countersOf (i + 1)).sum := by
      simp [State.noncoreEntries, List.length_flatMap]
    rw [this]
    decide
  have hg : ∀ (l : List Nat) (f : Nat → Nat → Nat), (l.flatMap fun c => (List.range 4).map (f c)).length = l.length * 4 := by
    intro l f
    induction l with
    | nil => rfl
    | cons a l ih => rw [List.flatMap_cons, List.length_append, ih, List.length_map, List.length_range, List.length_cons]; omega
  have hc : s.coreEntries.length = 49152 * 4 := (hg _ _).trans (by rw [List.length_range])
  simp only [State.dumpBytes, List.length_append, hf, hq, hc]
  have hl : ∀ n v, (leBytes n v).length = n := by
    intro n
    induction n with
    | zero => intro v; rfl
    | succ n ih => intro v; simp [leBytes, ih]
  simp only [hl]
  omega

theorem witness_TraceAndDumps_dump :
    sDump.halted = false ∧ sDump.obs.dumpBusy = true ∧ sDump.bit (obsReg 0) 1 = false ∧
      sDump.wide (obsReg 4) / 256 * 256 + sDump.obs.dumpNext % max 1 (sDump.field (obsReg 0x0C) 0 16) * 0x182D00 +
        sDump.dumpBytes.length ≤ 2 ^ 64 := by
  have h0 : sDump.wide (obsReg 4) / 256 * 256 + sDump.obs.dumpNext % max 1 (sDump.field (obsReg 0x0C) 0 16) * 0x182D00 = 0 := by
    decide +kernel
  have hb := dumpBytes_length sDump
  refine ⟨by decide +kernel, by decide +kernel, by decide +kernel, ?_⟩
  rw [h0]
  omega

/-- The module at tick 9, frozen or not, port 7 in service; a freeze armed for n, a resume due at n. -/
def sVigil (frozen : Bool) (n : Nat) : State :=
  let s := withRegs State.reset [(linkReg 0xB0, 2)]
  { s with
    tick := 9
    vigil := { frozen := frozen, armed := some n, resumeAt := some n } }

theorem witness_VigilAndScan :
    (let s := sVigil false 9
     s.halted = false ∧ s.vigil.armed = some 9 ∧ 9 ≤ s.tick ∧ s.portState 7 = 2 ∧ (sVigil false 10).tick < 10 ∧
       s.field (obsReg 0x700) 4 2 = 0 ∧ (withRegs s [(obsReg 0x700, 16)]).field (obsReg 0x700) 4 2 = 1 ∧
       (withRegs s [(obsReg 0x700, 32)]).field (obsReg 0x700) 4 2 = 2 ∧ kget none s.vigil.heard 0 ≠ some 0 ∧
       (let h := { s with vigil := { s.vigil with heard := [(0, some 0), (1, some 9), (2, some 11)] } }
        kget none h.vigil.heard 0 = some 0 ∧ kget none h.vigil.heard 1 = some 9 ∧ kget none h.vigil.heard 2 ≠ some 12)) ∧
    (let s := sVigil true 9
     s.vigil.frozen = true ∧ s.portState 7 = 2 ∧ s.mgmt.dark = false ∧ kget none s.vigil.heard 2 ≠ some 11 ∧ s.tick + 2 ≤ 11 ∧ s.tick + 2 ≤ (withRegs s [(obsReg 0x70C, 11)]).vigilResumeAt ∧
       (withRegs s [(obsReg 0x70C, 10)]).vigilResumeAt < s.tick + 2 ∧ s.vigil.resumeAt = some 9 ∧ s.mgmt.attnPending = false ∧
       s.vigil.scanBusy = false ∧ ({ s with vigil := { s.vigil with scanBusy := true } }).vigil.scanBusy = true) := by decide +kernel

/-! ### Hypotheses met: the management plane -/

/-- At step 6 of start-up, its coolant check due; die 0 and the near stacks named by `near` good. -/
def sStart (stage dies near : Nat) : State :=
  let s := withRegs State.reset [(mgmtReg 0, stage), (mgmtReg 0x208, 64)]
  { s with mgmt := { s.mgmt with powered := true, env := { dieOk := dies, stacksOk := near, journalOk := true } } }

theorem witness_StartupSteps :
    State.reset.mgmt.powered = false ∧ (∀ k, k < 3 → (State.reset.bootBank k).isSome = true) ∧
    (let t (dies : Nat) := ((sStart 6 dies 0xFFFF).clearBit (mgmtReg 0x208) 6).testDies (sStart 6 dies 0xFFFF).mgmt.env
     (sStart 6 1 0xFFFF).mgmt.powered = true ∧ (sStart 6 1 0xFFFF).hasFailed = false ∧ (sStart 6 1 0xFFFF).stage = 6 ∧
       (sStart 6 1 0xFFFF).bit (mgmtReg 0x208) 6 = true ∧ (t 0).field (mgmtReg 0) 16 8 = 0 ∧ (t 1).field (mgmtReg 0) 16 8 ≠ 0 ∧
       (∀ n, n < 16 → bitOf 0xFFFF n = true) ∧ bitOf 0xFFFC 0 = false ∧ bitOf 0xFFFC 1 = false ∧
       ∀ st ∈ [1, 2, 3, 7, 10], (sStart st 1 0).stage = st) ∧ State.reset.bit (mgmtReg 0x208) 6 = false := by decide +kernel

theorem witness_SensorsAndPins :
    State.reset.mgmt.dark = false ∧ 7500 < 7501 ∧ 7199 < 7200 ∧ (sLink 1 0).portState 0 = 1 ∧ (sLink 2 0).portState 0 = 2 ∧
      (sLink 3 0).bit (linkReg 8) 0 = true ∧ (sLink 3 0).portState 0 ≠ 2 ∧ (sLink 3 0).axisLen (portAxis 0) ≠ 1 := by decide +kernel

/-- Mailbox command k is in progress; the PF's carve buffer 0 is one unit of a grant of its own, at the start of die 0's store. -/
def sMbox (k n : Nat) : State :=
  let s := withRegs State.reset [(bar0 0 0x8000, 0x200001), (mgmtReg 0x108, n)]
  { s with
    tiers := { s.tiers with carve := [(0, 0x100)] }
    mgmt := { s.mgmt with mbox := some k, suc := some (List.replicate 64 7) } }

theorem witness_MailboxCommands :
    (∀ k ∈ [1, 2, 3, 4], (sMbox k 0x10000).mgmt.mbox = some k ∧ (sMbox k 0x10000).mgmt.mcRestart = false) ∧
      (sMbox 1 0).mboxBuffer ((sMbox 1 0).mboxArg 0) 64 = some storeKey ∧
      (sMbox 3 0x10000).mboxBuffer ((sMbox 3 0x10000).mboxArg 0) ((sMbox 3 0x10000).mboxArg 1) = some storeKey ∧
      (sMbox 3 0x10001).mboxBuffer ((sMbox 3 0x10001).mboxArg 0) ((sMbox 3 0x10001).mboxArg 1) = none ∧
      State.reset.mboxBuffer (State.reset.mboxArg 0) 64 = none ∧ (sMbox 2 0).mgmt.suc = some (List.replicate 64 7) ∧
      spdmCodes.contains 0xEC = true ∧ spdmCodes.contains 0xED = false := by decide +kernel

/-- Whether an image verifies lies in the cryptographic functions, which have no body: each image meets one of FW_STAGE's two clauses. -/
theorem witness_MailboxCommands_image (s : State) (b : List Byte) :
    s.imageRefused b = none ∨ ∃ code, s.imageRefused b = some code := by
  cases h : s.imageRefused b with
  | none => exact .inl rfl
  | some code => exact .inr ⟨code, rfl⟩

theorem witness_UartAndCheckValues :
    (64 ≤ (List.replicate 64 ((0 : Byte), false)).length ∧ State.reset.mgmt.uart.rx.length < 64 ∧
      ({ State.reset with mgmt := { State.reset.mgmt with uart := { tx := [7] } } }).mgmt.uart.tx = [7] ∧ (1#8 ≠ 0#8)) ∧
    ((sTest true 2).sepiaSink = 2 ∧ (sTest true 2).obs.buf = [⟨1, 1, 0, 0, 0, 0⟩]) ∧
    (cvuWritable 0 15 = true ∧ cvuWritable 0 7 = false ∧ cvuWritable 256 7 = true ∧ cvuWritable 256 8 = false) ∧
    ((State.reset.cvu 15).queue.length < 8 ∧ (State.reset.cvuSel 15).width ≠ 64 ∧
      ((withRegs State.reset [(cvuCtrl 15, 3)]).cvuSel 15).width = 64 ∧
      kget none ({ State.reset with stages := [(requesterKey 0 (cvuLo 15), some 5)] }).stages (requesterKey 0 (cvuLo 15)) = some 5) := by
  decide +kernel

theorem witness_RegisterAccess :
    (reaches 255 (bar0 255 0xA338) = true ∧ wideLow (bar0 255 0xA338) = true ∧ reaches 0 (cpReg 0) = true ∧ wideLow (cpReg 0) = false ∧ reaches 256 (mgmtReg 0) = true ∧
      reaches 254 (bar0 255 0) = false) ∧
    (State.reset.vigil.frozen = false ∧ obsReg 0x70C ∈ [cpReg 0x28, obsReg 0x704, obsReg 0x70C] ∧
      kget none ({ State.reset with stages := [(requesterKey 0 (obsReg 0x70C), some (2 ^ 32 - 1))] }).stages
        (requesterKey 0 (obsReg 0x70C)) = some (2 ^ 32 - 1)) ∧
    (runsFrozen (cpReg 0) = false ∧ runsFrozen (almReg 0) = true ∧
      ({ State.reset with vigil := { frozen := true, writes := List.replicate 63 ⟨0, 0, 0, 0⟩ } }).vigil.writes.length < 64 ∧
      64 ≤ ({ State.reset with vigil := { frozen := true, writes := List.replicate 64 ⟨0, 0, 0, 0⟩ } }).vigil.writes.length) ∧
    4096 % 8192 ≤ 4096 ∧ 0xFFFC < 0x10000 ∧ 0xFFFC % 4 = 0 := by decide +kernel


end Sys2Proof.Tests
end

section
/-! PROOFS. The core instructions of chapter 04: YIELD (R139), AREG and MOVV (R119, R120). -/

/-! ### Bit fields of numbers and words -/

namespace Sys2Proof.Machine

open Sys2Proof.Claims

/-- A replaced field stands between the bits above it and those below. -/
theorem putBits_eq (n lo len v : Nat) :
    putBits n lo len v = 2 ^ lo * (2 ^ len * (n / 2 ^ (lo + len)) + v % 2 ^ len) + n % 2 ^ lo := by
  have hlow : n = 2 ^ lo * (n / 2 ^ lo) + n % 2 ^ lo := (Nat.div_add_mod n (2 ^ lo)).symm
  have hmid : n / 2 ^ lo = 2 ^ len * (n / 2 ^ (lo + len)) + bitsOf n lo len := by
    rw [pow_add, ← Nat.div_div_eq_div_mul, bitsOf, Nat.div_add_mod]
  have hcut : n - bitsOf n lo len * 2 ^ lo = 2 ^ lo * (2 ^ len * (n / 2 ^ (lo + len))) + n % 2 ^ lo := by
    apply Nat.sub_eq_of_eq_add
    calc n = 2 ^ lo * (2 ^ len * (n / 2 ^ (lo + len)) + bitsOf n lo len) + n % 2 ^ lo := by rw [← hmid, ← hlow]
      _ = _ := by ring
  rw [putBits, hcut]
  ring

theorem testBit_putBits (n lo len v i : Nat) :
    (putBits n lo len v).testBit i = if lo ≤ i ∧ i < lo + len then v.testBit (i - lo) else n.testBit i := by
  rw [putBits_eq, Nat.testBit_two_pow_mul_add _ (Nat.mod_lt _ (Nat.two_pow_pos lo))]
  split
  case isTrue hlo => simp [Nat.testBit_mod_two_pow, hlo, Nat.not_le.mpr hlo]
  case isFalse hlo =>
    rw [Nat.testBit_two_pow_mul_add _ (Nat.mod_lt _ (Nat.two_pow_pos len))]
    split
    case isTrue hlen =>
      have hin : lo ≤ i ∧ i < lo + len := by omega
      simp [Nat.testBit_mod_two_pow, hlen, hin]
    case isFalse hlen =>
      have hout : ¬ (lo ≤ i ∧ i < lo + len) := by omega
      have hidx : lo + len + (i - lo - len) = i := by omega
      simp [hout, Nat.testBit_div_two_pow, hidx, Nat.add_comm]

theorem getElem_ofNat_putBits {w : Nat} (x : BitVec w) (lo len v i : Nat) (hi : i < w) :
    (BitVec.ofNat w (putBits x.toNat lo len v))[i] = if lo ≤ i ∧ i < lo + len then v.testBit (i - lo) else x[i] := by
  simp only [BitVec.getElem_eq_testBit_toNat, BitVec.toNat_ofNat, Nat.testBit_mod_two_pow, testBit_putBits, hi,
    decide_true, Bool.true_and]

/-- A replaced field reads as it was put. -/
theorem extractLsb'_ofNat_putBits_same {w : Nat} (x : BitVec w) (lo len : Nat) (v : BitVec len) (h : lo + len ≤ w) :
    (BitVec.ofNat w (putBits x.toNat lo len v.toNat)).extractLsb' lo len = v := by
  ext i hi
  have hw : lo + i < w := by omega
  rw [BitVec.getElem_extractLsb', BitVec.getLsbD_eq_getElem hw, getElem_ofNat_putBits]
  simp [hi, BitVec.getElem_eq_testBit_toNat]

/-- A field that does not meet the replaced one reads as before. -/
theorem extractLsb'_ofNat_putBits_apart {w : Nat} (x : BitVec w) (lo len v lo' len' : Nat) (h : lo' + len' ≤ w)
    (hd : lo' + len' ≤ lo ∨ lo + len ≤ lo') :
    (BitVec.ofNat w (putBits x.toNat lo len v)).extractLsb' lo' len' = x.extractLsb' lo' len' := by
  ext i hi
  have hw : lo' + i < w := by omega
  have hout : ¬ (lo ≤ lo' + i ∧ lo' + i < lo + len) := by omega
  rw [BitVec.getElem_extractLsb', BitVec.getLsbD_eq_getElem hw, getElem_ofNat_putBits, if_neg hout,
    BitVec.getElem_extractLsb', BitVec.getLsbD_eq_getElem hw]

theorem ofNat_putBits_eq_append (high len lo : Nat) (x : BitVec (high + len + lo)) (v : Nat) :
    BitVec.ofNat _ (putBits x.toNat lo len v) = x.extractLsb' (lo + len) high ++ BitVec.ofNat len v ++ x.setWidth lo := by
  ext i hi
  rw [getElem_ofNat_putBits]
  by_cases hlo : i < lo
  · have hout : ¬ (lo ≤ i ∧ i < lo + len) := by omega
    simp [BitVec.getElem_append, hlo, hout, BitVec.getLsbD_eq_getElem hi]
  · by_cases hlen : i - lo < len
    · have hin : lo ≤ i ∧ i < lo + len := by omega
      simp [hlo, hin, hlen, BitVec.getElem_eq_testBit_toNat]
    · have hout : ¬ (lo ≤ i ∧ i < lo + len) := by omega
      have hidx : lo + len + (i - lo - len) = i := by omega
      simp [BitVec.getElem_append, hlo, hout, hlen, BitVec.getLsbD_eq_getElem hi, hidx]

theorem ofNat_bitsOf {w : Nat} (x : BitVec w) (lo len : Nat) :
    BitVec.ofNat len (bitsOf x.toNat lo len) = x.extractLsb' lo len := by
  apply BitVec.eq_of_toNat_eq
  simp [bitsOf, Nat.shiftRight_eq_div_pow]

/-- AADD's sum of a 12-bit field, as a number, is that of the field as a word. -/
theorem bitsOf_add_mod_eq_toNat {w : Nat} (x : BitVec w) (lo : Nat) (imm : BitVec 12) :
    (bitsOf x.toNat lo 12 + imm.toNat) % 4096 = (x.extractLsb' lo 12 + imm).toNat := by
  simp [bitsOf, BitVec.toNat_add, Nat.shiftRight_eq_div_pow]

/-! ### Fields of a word written as an append

`no_index` lets simp use these where the width is written as the literal 32. -/

theorem extractLsb'_append_low {m n : Nat} (x : BitVec m) (y : BitVec n) :
    BitVec.extractLsb' (n := no_index (m + n)) 0 n (x ++ y) = y := by
  ext i hi
  simp [BitVec.getLsbD_append, hi]

theorem extractLsb'_append_high {m n : Nat} (x : BitVec m) (y : BitVec n) (lo len : Nat) (h : n ≤ lo) :
    BitVec.extractLsb' (n := no_index (m + n)) lo len (x ++ y) = x.extractLsb' (lo - n) len := by
  ext i hi
  simp [BitVec.getLsbD_append, show ¬ lo + i < n by omega, show lo + i - n = lo - n + i by omega]

theorem flag_eq_fld (w : Word) (i : Nat) : flag w i = (fld w i 1).getLsbD 0 := by
  simp [flag, fld]

/-! ### The decoder at MAJOR 0x0C, 0x0D and 0x0F -/

theorem decodeCore_of_major_areg (c : Nat) (t : BitVec 4) (w : Word) (h : fld w 26 6 = 0x0C#6) :
    decodeCore c t w =
      if !flag w 12 && aregLegal (fld w 21 2) (fld w 18 3) (fld w 13 5) (fld w 0 12) then
        some (.areg c t (fld w 23 3) (fld w 21 2) (fld w 18 3) (fld w 13 5) (fld w 0 12)) else none := by
  unfold decodeCore
  rw [h]
  rfl

theorem decodeCore_of_major_movv (c : Nat) (t : BitVec 4) (w : Word) (h : fld w 26 6 = 0x0D#6) :
    decodeCore c t w =
      if fld w 0 16 == 0 then some (.movv c t (fld w 21 5) (flag w 20) (fld w 18 2) (flag w 17) (flag w 16)) else none := by
  unfold decodeCore
  rw [h]
  rfl

theorem decodeCore_of_major_yield (c : Nat) (t : BitVec 4) (w : Word) (h : fld w 26 6 = 0x0F#6) :
    decodeCore c t w = if fld w 0 26 == 0 then some (.yield c t) else none := by
  unfold decodeCore
  rw [h]
  rfl

theorem decodeCore_areg_word (c : Nat) (t : BitVec 4) (a : BitVec 3) (func : BitVec 2) (field : BitVec 3) (g : BitVec 5)
    (r : BitVec 1) (imm : BitVec 12) :
    decodeCore c t (0x0C#6 ++ a ++ func ++ field ++ g ++ r ++ imm) =
      if !r.getLsbD 0 && aregLegal func field g imm then some (.areg c t a func field g imm) else none := by
  rw [decodeCore_of_major_areg] <;>
    simp only [flag_eq_fld, fld, extractLsb'_append_low, extractLsb'_append_high, BitVec.extractLsb'_eq_self,
      Nat.reduceLeDiff, Nat.reduceSub, Nat.sub_self, le_refl]

theorem decodeCore_movv_word (c : Nat) (t : BitVec 4) (r : BitVec 5) (v : Bool) (lane : BitVec 2) (word dir : Bool)
    (z : BitVec 16) :
    decodeCore c t (0x0D#6 ++ r ++ BitVec.ofBool v ++ lane ++ BitVec.ofBool word ++ BitVec.ofBool dir ++ z) =
      if z = 0 then some (.movv c t r v lane word dir) else none := by
  rw [decodeCore_of_major_movv] <;>
    simp only [flag_eq_fld, fld, extractLsb'_append_low, extractLsb'_append_high, BitVec.extractLsb'_eq_self,
      Nat.reduceLeDiff, Nat.reduceSub, Nat.sub_self, le_refl, BitVec.getLsbD_ofBool, decide_true, Bool.true_and, beq_iff_eq]

theorem aregLegal_iff (func : BitVec 2) (field : BitVec 3) (g : BitVec 5) (imm : BitVec 12) :
    aregLegal func field g imm = true ↔
      func.toNat ≤ 1 ∧ field = 0 ∧ imm = 0 ∧ (g.toNat % 2 = 0 ∧ g ≠ 0) ∨ func = 2 ∧ field.toNat < 2 ∧ g = 0 ∨
        func = 3 ∧ field.toNat < 6 ∧ g = 0 ∧ (4 ≤ field.toNat → imm.toNat < 256) := by
  have hfunc : func = 0#2 ∨ func = 1#2 ∨ func = 2#2 ∨ func = 3#2 := by
    have := func.isLt
    simp only [BitVec.toNat_eq, BitVec.toNat_ofNat]
    omega
  rcases hfunc with rfl | rfl | rfl | rfl
  · simp [aregLegal, pairField, and_assoc]
  · simp [aregLegal, pairField, and_assoc]
  · simp [aregLegal]
  · simp [aregLegal, and_assoc, or_iff_not_imp_left]

/-- No other MAJOR spells YIELD: each gives a constructor of its own, MAJOR 0x25 one of two, or none. -/
theorem major_of_decodeCore_yield {c : Nat} {t : BitVec 4} {w : Word} (h : decodeCore c t w = some (.yield c t)) :
    fld w 26 6 = 0x0F#6 := by
  simp only [decodeCore] at h
  split at h
  case h_15 hm => exact BitVec.eq_of_toNat_eq hm
  case h_31 => split at h <;> simp at h
  all_goals simp at h

/-- MAJOR and the 26 reserved bits are the whole word. -/
theorem eq_yieldWord_of_fld {w : Word} (hm : fld w 26 6 = 0x0F#6) (hr : fld w 0 26 = 0) : w = 0x3C000000#32 := by
  have hhigh : w.toNat / 2 ^ 26 % 2 ^ 6 = 15 := by
    simpa [fld, Nat.shiftRight_eq_div_pow] using congrArg BitVec.toNat hm
  have hlow : w.toNat % 2 ^ 26 = 0 := by simpa [fld] using congrArg BitVec.toNat hr
  apply BitVec.eq_of_toNat_eq
  have := w.isLt
  rw [BitVec.toNat_ofNat]
  omega

theorem decodeCore_eq_yield_iff (c : Nat) (t : BitVec 4) (w : Word) :
    decodeCore c t w = some (.yield c t) ↔ w = 0x3C000000#32 := by
  constructor
  · intro h
    have hm := major_of_decodeCore_yield h
    rw [decodeCore_of_major_yield c t w hm] at h
    exact eq_yieldWord_of_fld hm (by simpa using h)
  · rintro rfl
    rfl

/-! ### Threads and issue -/

@[simp] theorem Thread.setA_pc (th : Thread) (r : Nat) (x : DWord) : (th.setA r x).pc = th.pc := rfl

@[simp] theorem Thread.setV_pc (th : Thread) (n : Bool) (x : BitVec 256) : (th.setV n x).pc = th.pc := by
  unfold Thread.setV
  split <;> rfl

@[simp] theorem Thread.setPair_pc (th : Thread) (n : Nat) (x : DWord) : (th.setPair n x).pc = th.pc := by
  simp [Thread.setPair]

@[simp] theorem Thread.getV_setV_same (th : Thread) (n : Bool) (x : BitVec 256) : (th.setV n x).getV n = x := by
  cases n <;> rfl

@[simp] theorem noteIssue_mem (c : Nat) (array : Bool) (s r : State) : (noteIssue c array s r).mem = r.mem := by
  rw [noteIssue_only]

@[simp] theorem noteIssue_marks (c : Nat) (array : Bool) (s r : State) : (noteIssue c array s r).marks = r.marks := by
  rw [noteIssue_only]

theorem threadOnly_thread {c : Nat} {t : BitVec 4} {s u : State} {th : Thread} {cs : BitVec 8}
    (h : ThreadOnly c t s u th cs) : (u.core c).thread t.toNat = th := by
  obtain ⟨-, -, -, hthread, -⟩ := h
  exact hthread

/-- An instruction that only changes thread t by `g`, and leaves it at its own PC (R102): the slot's pointer moves, and no PC. -/
theorem issue_modT_begun {s : State} {c : Nat} {t : BitVec 4} {legal : Bool} {f : CoreView → Issue} {g : Thread → Thread}
    (h : HasTurn s c t false) (hl : legal = true) (hf : f (s.view c) = ⟨(s.view c).modT t.toNat g, .begun⟩) :
    ∃ u, issue c t false legal (onView c f) s = .next u ∧
      ThreadOnly c t s u (g ((s.core c).thread t.toNat)) (s.core c).cstat := by
  have hview : onView c f s = (s.putView c ((s.view c).modT t.toNat g), .begun) := by simp only [onView, hf]
  have hend : endIssue c t false ((s.core c).thread t.toNat).pc (onView c f s) =
      (s.putView c ((s.view c).modT t.toNat g)).modCore c (·.point false t) := by rw [hview]; rfl
  have hcore : ((s.putView c ((s.view c).modT t.toNat g)).modCore c (·.point false t)).core c =
      ((s.core c).modThread t.toNat g).point false t := by
    simp [CoreView.modT, State.view]
  refine ⟨_, issue_legal h hl (by simp [hview]), ?_⟩
  rw [hend]
  refine ⟨⟨?_, ?_⟩, ⟨noteIssue_mem .., noteIssue_marks .., ?_⟩, ?_, ?_, ?_⟩
  · rw [noteIssue_only]
    rfl
  · intro d hd
    rw [noteIssue_core, State.core_modCore_other _ _ hd.symm, State.core_putView_other _ _ hd.symm]
  · intro a
    rw [noteIssue_mem]
    rfl
  · intro r hr
    rw [noteIssue_core, hcore, Core.thread_point, Core.thread_modThread_other _ _ hr.symm]
  · rw [noteIssue_core, hcore, Core.thread_point, Core.thread_modThread_same]
  · rw [noteIssue_core, hcore]
    rfl

/-! ### The fields of a pad-address register (R70, R119) -/

theorem aregSet_base (x : DWord) (v : BitVec 12) : aregSet x 0 v.toNat = x.extractLsb' 12 52 ++ v :=
  (ofNat_putBits_eq_append 52 12 0 x v.toNat).trans (by simp)

/-- OFFSET set, and RCOUNT, bits 63 to 56, cleared. -/
theorem aregSet_offset (x : DWord) (v : BitVec 12) :
    aregSet x 1 v.toNat = 0#8 ++ x.extractLsb' 24 32 ++ v ++ x.setWidth 12 := by
  ext i hi
  have hset : (aregSet x 1 v.toNat)[i] = (putBits (putBits x.toNat 12 12 v.toNat) 56 8 0).testBit i := by
    simp [aregSet, aregField, BitVec.getElem_eq_testBit_toNat, Nat.testBit_mod_two_pow _ 64, hi]
  rw [hset, testBit_putBits, testBit_putBits]
  grind

theorem aregSet_stride (x : DWord) (v : BitVec 12) :
    aregSet x 2 v.toNat = x.extractLsb' 36 28 ++ v ++ x.setWidth 24 :=
  (ofNat_putBits_eq_append 28 12 24 x v.toNat).trans (by simp)

theorem aregSet_wrap (x : DWord) (v : BitVec 12) :
    aregSet x 3 v.toNat = x.extractLsb' 48 16 ++ v ++ x.setWidth 36 :=
  (ofNat_putBits_eq_append 16 12 36 x v.toNat).trans (by simp)

theorem aregSet_repeat (x : DWord) (v : BitVec 12) :
    aregSet x 4 v.toNat = x.extractLsb' 56 8 ++ v.setWidth 8 ++ x.setWidth 48 :=
  (ofNat_putBits_eq_append 8 8 48 x v.toNat).trans (by simp)

theorem aregSet_rcount (x : DWord) (v : BitVec 12) :
    aregSet x 5 v.toNat = v.setWidth 8 ++ x.setWidth 56 :=
  (ofNat_putBits_eq_append 0 8 56 x v.toNat).trans
    (congrArg (BitVec.append · (x.setWidth 56)) (BitVec.zero_width_append (x.extractLsb' 64 0) (v.setWidth 8)))

theorem aregAdd_base (x : DWord) (imm : BitVec 12) :
    aregSet x 0 ((bitsOf x.toNat 0 12 + imm.toNat) % 4096) = x.extractLsb' 12 52 ++ (x.setWidth 12 + imm) := by
  rw [bitsOf_add_mod_eq_toNat, aregSet_base, BitVec.setWidth_eq_extractLsb' (by decide)]

theorem aregAdd_offset (x : DWord) (imm : BitVec 12) :
    aregSet x 1 ((bitsOf x.toNat 12 12 + imm.toNat) % 4096) =
      0#8 ++ x.extractLsb' 24 32 ++ (x.extractLsb' 12 12 + imm) ++ x.setWidth 12 := by
  rw [bitsOf_add_mod_eq_toNat, aregSet_offset]

/-! ### What AREG and MOVV do (R119, R120) -/

section
variable {s : State} {c : Nat} {t : BitVec 4}

theorem exec_amov {g : BitVec 5} (h : Issues s c t) (hp : pairField g = true) (a : BitVec 3) :
    ∃ u, exec (.areg c t a 0 0 g 0) s = .next u ∧
      ThreadOnly c t s u (pcNext (((s.core c).thread t.toNat).setA a.toNat (((s.core c).thread t.toNat).getPair g.toNat)))
        (s.core c).cstat :=
  issue_modT (g := (·.setA _ _)) h hp rfl rfl

theorem exec_aget {g : BitVec 5} (h : Issues s c t) (hp : pairField g = true) (a : BitVec 3) :
    ∃ u, exec (.areg c t a 1 0 g 0) s = .next u ∧
      ThreadOnly c t s u (pcNext (((s.core c).thread t.toNat).setPair g.toNat (((s.core c).thread t.toNat).getA a.toNat)))
        (s.core c).cstat :=
  issue_modT (g := (·.setPair _ _)) h hp rfl (Thread.setPair_pc ..)

theorem exec_aadd {field : BitVec 3} {a : BitVec 3} {imm : BitVec 12} {y : DWord} (h : Issues s c t)
    (hl : aregLegal 2 field 0 imm = true)
    (hy : aregSet (((s.core c).thread t.toNat).getA a.toNat) field.toNat
      ((bitsOf (((s.core c).thread t.toNat).getA a.toNat).toNat (aregField field.toNat).1 12 + imm.toNat) % 4096) = y) :
    ∃ u, exec (.areg c t a 2 field 0 imm) s = .next u ∧
      ThreadOnly c t s u (pcNext (((s.core c).thread t.toNat).setA a.toNat y)) (s.core c).cstat := by
  subst hy
  exact issue_modT (g := (·.setA _ _)) h hl rfl rfl

theorem exec_aset {field : BitVec 3} {a : BitVec 3} {imm : BitVec 12} {y : DWord} (h : Issues s c t)
    (hl : aregLegal 3 field 0 imm = true)
    (hy : aregSet (((s.core c).thread t.toNat).getA a.toNat) field.toNat imm.toNat = y) :
    ∃ u, exec (.areg c t a 3 field 0 imm) s = .next u ∧
      ThreadOnly c t s u (pcNext (((s.core c).thread t.toNat).setA a.toNat y)) (s.core c).cstat := by
  subst hy
  exact issue_modT (g := (·.setA _ _)) h hl rfl rfl

theorem exec_movv_toG {v : Bool} (h : Issues s c t) (ho : HasOperands s c t (.v v)) (r : BitVec 5) (lane : BitVec 2)
    (word : Bool) :
    ∃ u, exec (.movv c t r v lane word true) s = .next u ∧
      ThreadOnly c t s u (pcNext (((s.core c).thread t.toNat).setG r.toNat
        ((((s.core c).thread t.toNat).getV v).extractLsb' (64 * lane.toNat + 32 * natOf word) 32))) (s.core c).cstat := by
  rw [← ofNat_bitsOf]
  exact issue_modT (g := (·.setG _ _)) h rfl (needing_ready ho) (Thread.setG_pc ..)

theorem exec_movv_toV {v : Bool} (h : Issues s c t) (ho : HasOperands s c t (.v v)) (r : BitVec 5) (lane : BitVec 2)
    (word : Bool) :
    ∃ u, exec (.movv c t r v lane word false) s = .next u ∧
      ThreadOnly c t s u (pcNext (((s.core c).thread t.toNat).setV v
        (BitVec.ofNat 256 (putBits (((s.core c).thread t.toNat).getV v).toNat (64 * lane.toNat + 32 * natOf word) 32
          (((s.core c).thread t.toNat).getG r.toNat).toNat)))) (s.core c).cstat :=
  issue_modT (g := (·.setV _ _)) h rfl (needing_ready ho) (Thread.setV_pc ..)

end

end Sys2Proof.Machine

/-! ### The statements -/

namespace Sys2Proof.Proofs

open Sys2Proof.Machine Sys2Proof.Claims

/-- Settles O12: only MAJOR 0x0F spells YIELD and it reserves every other bit; YIELD is begun, so its PC stays. -/
theorem yieldWord : Obligations.YieldWord := by
  unfold Obligations.YieldWord
  intro s c t
  exact ⟨decodeCore_eq_yield_iff c t, fun h => issue_modT_begun (f := doYield t.toNat) h rfl rfl⟩

/-- Settles O16: the two words field by field, then one clause per AREG function and field and per direction of MOVV. -/
theorem aregMovvResults : Obligations.AregMovvResults := by
  unfold Obligations.AregMovvResults
  intro s c t a func field g imm v lane word dir r z pair
  refine ⟨?_, ?_, decodeCore_movv_word c t r v lane word dir z, ?_⟩
  · rw [decodeCore_areg_word, ← aregLegal_iff]
    simp
  · rw [decodeCore_areg_word]
    rfl
  · intro h th old goes
    refine ⟨?_, exec_aadd h rfl (aregAdd_base old imm), exec_aadd h rfl (aregAdd_offset old imm),
      exec_aset h rfl (aregSet_base old imm), exec_aset h rfl (aregSet_offset old imm),
      exec_aset h rfl (aregSet_stride old imm), exec_aset h rfl (aregSet_wrap old imm), ?_, ?_⟩
    · rintro ⟨heven, hne⟩
      have hp : pairField g = true := by simpa [pairField, heven] using hne
      exact ⟨exec_amov h hp a, exec_aget h hp a⟩
    · intro hi
      exact ⟨exec_aset h (by simp [aregLegal, hi]) (aregSet_repeat old imm),
        exec_aset h (by simp [aregLegal, hi]) (aregSet_rcount old imm)⟩
    · intro ho at_
      have hat : at_ = 64 * lane.toNat + 32 * natOf word := by cases word <;> rfl
      have hword : natOf word ≤ 1 := by cases word <;> decide
      have hlane : lane.toNat < 4 := lane.isLt
      rw [hat]
      obtain ⟨u, hu, hframe⟩ := exec_movv_toV h ho r lane word
      have hv : ((u.core c).thread t.toNat).getV v = _ :=
        (congrArg (·.getV v) (threadOnly_thread hframe)).trans (Thread.getV_setV_same th v _)
      refine ⟨exec_movv_toG h ho r lane word, u, hu, ?_, ?_, ?_⟩ <;> rw [hv]
      · exact hframe
      · exact extractLsb'_ofNat_putBits_same _ _ _ _ (by omega)
      · intro i hi hne
        exact extractLsb'_ofNat_putBits_apart _ _ _ _ _ _ (by omega) (by omega)

end Sys2Proof.Proofs
end

section
/-! PROOFS. Number formats, chapter 05: the tables of results at the extremes (R161–R163). -/

namespace Sys2Proof.Proofs

open Sys2Proof.Machine Sys2Proof.Claims

/-- Settles O13: the rows are closed, so the model is run on them, table by table. The kernel evaluates,
not the elaborator: an FP64 row can round at a place 1,074 bits or more up, and a TMMA row sums 64 products. -/
theorem resultsAtTheExtremes : Obligations.ResultsAtTheExtremes := by
  unfold Obligations.ResultsAtTheExtremes
  dsimp only
  refine ⟨?fp32, ?fp64, ?tmma⟩
  case fp32 => decide +kernel
  case fp64 => decide +kernel
  case tmma => decide +kernel

end Sys2Proof.Proofs
end

section
/-! PROOFS. The decoder and the encoder of the core instruction words (R109–R140). -/

namespace Sys2Proof.Machine

/-! ### Fields of a word put together from fields -/

theorem flagAt_eq_at (i : Nat) (b : Bool) : flagAt i b = at_ i (BitVec.ofBool b) := rfl

@[simp] theorem fld_or (x y : Word) (lo n : Nat) : fld (x ||| y) lo n = fld x lo n ||| fld y lo n := by
  ext i hi
  simp [fld]

/-- A field reads as it was placed. -/
@[simp] theorem fld_at_same {n : Nat} (lo : Nat) (v : BitVec n) (h : lo + n ≤ 32) : fld (at_ lo v) lo n = v := by
  ext i hi
  simp [fld, at_, show lo + i < 32 by omega, BitVec.getLsbD_eq_getElem hi]

/-- A field below the one placed reads as zero. -/
@[simp] theorem fld_at_above {m : Nat} (lo n lo' : Nat) (v : BitVec m) (h : lo + n ≤ lo') : fld (at_ lo' v) lo n = 0 := by
  ext i hi
  simp [fld, at_, show lo + i < lo' by omega]

/-- A field above the one placed reads as zero. -/
@[simp] theorem fld_at_below {m : Nat} (lo n lo' : Nat) (v : BitVec m) (h : lo' + m ≤ lo) : fld (at_ lo' v) lo n = 0 := by
  ext i hi
  have hout : v.getLsbD (lo + i - lo') = false := BitVec.getLsbD_of_ge _ _ (by omega)
  simp [fld, at_, hout]

end Sys2Proof.Machine

namespace Sys2Proof.Proofs

open Sys2Proof.Machine

/-- Settles O7, one case per core instruction: MAJOR chooses the row, every field of the word reads as it was placed, the
bits between the fields read as zero, and the row's field rule is the instruction's own. -/
theorem decodeOfEncode : Obligations.DecodeOfEncode := by
  unfold Obligations.DecodeOfEncode
  intro i w hw hl hne
  cases i with
  | alu c t =>
    simp [Instr.legal] at hl
    exact ⟨c, t, by cases hw; simp [decodeCore, major, hl]⟩
  | addi c t =>
    exact ⟨c, t, by cases hw; simp [decodeCore, major]⟩
  | andi c t =>
    exact ⟨c, t, by cases hw; simp [decodeCore, major]⟩
  | ori c t =>
    exact ⟨c, t, by cases hw; simp [decodeCore, major]⟩
  | xori c t =>
    exact ⟨c, t, by cases hw; simp [decodeCore, major]⟩
  | lui c t =>
    exact ⟨c, t, by cases hw; simp [decodeCore, major]⟩
  | shi c t =>
    simp [Instr.legal] at hl
    exact ⟨c, t, by cases hw; simp [decodeCore, major, hl]⟩
  | b c t =>
    exact ⟨c, t, by cases hw; simp [decodeCore, major, flagAt_eq_at, flag_eq_fld]⟩
  | loop c t =>
    simp [Instr.legal] at hl
    exact ⟨c, t, by cases hw; simp [decodeCore, major, hl]⟩
  | ld c t =>
    simp [Instr.legal] at hl
    exact ⟨c, t, by cases hw; simp [decodeCore, major, flagAt_eq_at, flag_eq_fld, hl]⟩
  | st c t =>
    simp [Instr.legal] at hl
    exact ⟨c, t, by cases hw; simp [decodeCore, major, flagAt_eq_at, flag_eq_fld, hl]⟩
  | areg c t =>
    simp [Instr.legal] at hl
    exact ⟨c, t, by cases hw; simp [decodeCore, major, flag_eq_fld, hl]⟩
  | movv c t =>
    exact ⟨c, t, by cases hw; simp [decodeCore, major, flagAt_eq_at, flag_eq_fld]⟩
  | fstat c t =>
    simp [Instr.legal] at hl
    exact ⟨c, t, by cases hw; simp [decodeCore, major, hl]⟩
  | yield c t =>
    exact ⟨c, t, by cases hw; simp [decodeCore, major]⟩
  | tmma c t =>
    simp [Instr.legal] at hl
    exact ⟨c, t, by cases hw; simp [decodeCore, major, flagAt_eq_at, flag_eq_fld, hl]⟩
  | tmmaI8 c t =>
    simp [Instr.legal] at hl
    exact ⟨c, t, by cases hw; simp [decodeCore, major, flagAt_eq_at, flag_eq_fld, hl]⟩
  | tdrain c t =>
    simp [Instr.legal] at hl
    exact ⟨c, t, by cases hw; simp [decodeCore, major, flagAt_eq_at, flag_eq_fld, hl]⟩
  | vop c t =>
    simp [Instr.legal] at hl
    exact ⟨c, t, by cases hw; simp [decodeCore, major, flagAt_eq_at, flag_eq_fld, hl]⟩
  | cvt c t =>
    simp [Instr.legal] at hl
    exact ⟨c, t, by cases hw; simp [decodeCore, major, flagAt_eq_at, flag_eq_fld, hl]⟩
  | split c t =>
    simp [Instr.legal] at hl
    exact ⟨c, t, by cases hw; simp [decodeCore, major, flagAt_eq_at, flag_eq_fld, hl]⟩
  | merge c t =>
    simp [Instr.legal] at hl
    exact ⟨c, t, by cases hw; simp [decodeCore, major, flagAt_eq_at, flag_eq_fld, hl]⟩
  | sspk c t =>
    simp [Instr.legal] at hl
    exact ⟨c, t, by cases hw; simp [decodeCore, major, flagAt_eq_at, flag_eq_fld, hl]⟩
  | ssup c t =>
    exact ⟨c, t, by cases hw; simp [decodeCore, major, flagAt_eq_at, flag_eq_fld]⟩
  | rng c t =>
    simp [Instr.legal] at hl
    exact ⟨c, t, by cases hw; simp [decodeCore, major, flagAt_eq_at, flag_eq_fld, hl]⟩
  | qpush c t =>
    exact ⟨c, t, by cases hw; simp [decodeCore, major, flagAt_eq_at, flag_eq_fld]⟩
  | qpop c t =>
    exact ⟨c, t, by cases hw; simp [decodeCore, major, flagAt_eq_at, flag_eq_fld]⟩
  | walk c t =>
    simp [Instr.legal] at hl
    exact ⟨c, t, by cases hw; simp [decodeCore, major, flagAt_eq_at, flag_eq_fld, hl]⟩
  | dma c t =>
    simp [Instr.legal] at hl
    exact ⟨c, t, by cases hw; simp [decodeCore, major, hl]⟩
  | waitc c t =>
    exact ⟨c, t, by cases hw; simp [decodeCore, major]⟩
  | cntadd c t =>
    exact ⟨c, t, by cases hw; simp [decodeCore, major]⟩
  | cntrd c t =>
    exact ⟨c, t, by cases hw; simp [decodeCore, major]⟩
  | swap c t =>
    simp [Instr.legal] at hl
    exact ⟨c, t, by cases hw; simp [decodeCore, major, flagAt_eq_at, flag_eq_fld, hl]⟩
  | illegalEncoding c t w => exact absurd rfl (hne c t w)
  | _ => cases hw

end Sys2Proof.Proofs
end

section
/-! PROOFS. What every command keeps: the queue of waiting commands, the ordered part (R3, R4) and the canonical form of memory. One
lemma per function of the model that gives a state, in the order of the definitions; each follows its function's own branches. -/

namespace Sys2Proof.Machine

/-! ### The relation and its rules -/

/-- What no command changes: the queue of waiting commands and the ordered part (R3, R4). -/
def State.fixedPart (s : State) : List Instr × Bool × Bool × Nat × Nat × Nat :=
  (s.pending, s.gradeB44, s.stepB0, s.farFill, s.flashFill, s.serial)

/-- From b to s the queue and the ordered part stand, and memory in canonical form at b is so at s. -/
def Keeps (b s : State) : Prop :=
  s.fixedPart = b.fixedPart ∧ (Memory.wf b.mem = true → Memory.wf s.mem = true)

/-- Memory in canonical form at b is so in a core's view. -/
def ViewKept (b : State) (v : CoreView) : Prop := Memory.wf b.mem = true → Memory.wf v.mem = true

/-- The state of a result that gives one is kept. -/
def KeepsOpt {α : Type} (b : State) (π : α → State) (o : Option α) : Prop := ∀ r, o = some r → Keeps b (π r)

/-- The view of a result that gives one is kept. -/
def ViewKeptOpt {α : Type} (b : State) (π : α → CoreView) (o : Option α) : Prop := ∀ r, o = some r → ViewKept b (π r)

/-- The next state of an outcome is kept. -/
def KeepsOut (b : State) (o : Host.Outcome State Fault Refusal) : Prop := ∀ u, o = .next u → Keeps b u

variable {α β : Type} {b : State}

theorem Keeps.refl (s : State) : Keeps s s := ⟨rfl, id⟩

/-- An update of other fields. -/
theorem Keeps.same {r : State} {tick subtick : Nat} {regs latches : KMap Nat} {stages : KMap (Option Nat)} {rdata free : Nat}
    {marks : KMap Bool} {held : List Held} {cores : KMap Core} {events : KMap Nat} {cmds : KMap (Option Cmd)} {queues : KMap Queue} {cp : Cp} {parts : KMap Part} {alm : Alm} {tiers : Tiers} {links : Links} {colls : Colls} {remap : Remap} {obs : Obs}
    {vigil : Vigil} {ckpts : KMap (Option Ckpt)} {replays : KMap (Option Replay)} {saves : List (Nat × Saved)} {mgmt : Mgmt} (h : Keeps b r) :
    Keeps b ⟨r.pending, r.gradeB44, r.stepB0, r.farFill, r.flashFill, r.serial, tick, subtick, regs, latches, stages,
    rdata, free, r.mem, marks, held, cores, events, cmds, queues, cp, parts, alm, tiers, links, colls, remap, obs, vigil, ckpts,
    replays, saves, mgmt⟩ := h

/-- An update of memory that keeps its canonical form, and of other fields. -/
theorem Keeps.withMem {r : State} {tick subtick : Nat} {regs latches : KMap Nat} {stages : KMap (Option Nat)} {rdata free : Nat}
    {marks : KMap Bool} {held : List Held} {cores : KMap Core} {events : KMap Nat} {cmds : KMap (Option Cmd)} {queues : KMap Queue} {cp : Cp} {parts : KMap Part} {alm : Alm} {tiers : Tiers} {links : Links} {colls : Colls} {remap : Remap} {obs : Obs}
    {vigil : Vigil} {ckpts : KMap (Option Ckpt)} {replays : KMap (Option Replay)} {saves : List (Nat × Saved)} {mgmt : Mgmt} {mem : Mem}
    (h : Keeps b r) (hm : Memory.wf r.mem = true → Memory.wf mem = true) :
    Keeps b ⟨r.pending, r.gradeB44, r.stepB0, r.farFill, r.flashFill, r.serial, tick, subtick, regs, latches, stages,
    rdata, free, mem, marks, held, cores, events, cmds, queues, cp, parts, alm, tiers, links, colls, remap, obs, vigil, ckpts,
    replays, saves, mgmt⟩ :=
  ⟨h.1, fun hb => hm (h.2 hb)⟩

theorem Keeps.ite {p : Prop} [Decidable p] {r u : State} (hr : Keeps b r) (hu : Keeps b u) : Keeps b (if p then r else u) := by
  split
  · exact hr
  · exact hu

theorem Keeps.iteFst {p : Prop} [Decidable p] {r u : State × β} (hr : Keeps b r.1) (hu : Keeps b u.1) :
    Keeps b (if p then r else u).1 := by
  split
  · exact hr
  · exact hu

theorem Keeps.elim {o : Option α} {r : State} {f : α → State} (hr : Keeps b r) (hf : ∀ x, Keeps b (f x)) : Keeps b (o.elim r f) := by
  cases o with
  | none => exact hr
  | some x => exact hf x

theorem Keeps.foldl {s : State} {l : List α} {f : State → α → State} (h : Keeps b s)
    (hf : ∀ {s x}, Keeps b s → Keeps b (f s x)) : Keeps b (l.foldl f s) :=
  List.foldlRecOn (motive := Keeps b) l f h fun _ hs _ _ => hf hs

theorem Keeps.foldlFst {p : State × β} {l : List α} {f : State × β → α → State × β} (h : Keeps b p.1)
    (hf : ∀ {p x}, Keeps b p.1 → Keeps b (f p x).1) : Keeps b (l.foldl f p).1 :=
  List.foldlRecOn (motive := fun p => Keeps b p.1) l f h fun _ hs _ _ => hf hs

theorem ViewKept.same {r : CoreView} {id : Nat} {core : Core} {marks : KMap Bool} {noWrite : List (Nat × Nat)} (h : ViewKept b r) :
    ViewKept b ⟨id, core, r.mem, marks, noWrite⟩ := h

theorem ViewKept.withMem {r : CoreView} {id : Nat} {core : Core} {mem : Mem} {marks : KMap Bool} {noWrite : List (Nat × Nat)}
    (h : ViewKept b r) (hm : Memory.wf r.mem = true → Memory.wf mem = true) : ViewKept b ⟨id, core, mem, marks, noWrite⟩ :=
  fun hb => hm (h hb)

theorem ViewKept.ite {p : Prop} [Decidable p] {r u : CoreView} (hr : ViewKept b r) (hu : ViewKept b u) :
    ViewKept b (if p then r else u) := by
  split
  · exact hr
  · exact hu

theorem ViewKept.iteView {p : Prop} [Decidable p] {r u : Issue} (hr : ViewKept b r.view) (hu : ViewKept b u.view) :
    ViewKept b (if p then r else u).view := by
  split
  · exact hr
  · exact hu

theorem ViewKept.iteSnd {p : Prop} [Decidable p] {r u : β × CoreView} (hr : ViewKept b r.2) (hu : ViewKept b u.2) :
    ViewKept b (if p then r else u).2 := by
  split
  · exact hr
  · exact hu

theorem KeepsOpt.none {π : α → State} : KeepsOpt b π none := fun _ e => nomatch e

theorem KeepsOpt.some {π : α → State} {r : α} (h : Keeps b (π r)) : KeepsOpt b π (some r) := by
  rintro _ ⟨⟩
  exact h

theorem KeepsOpt.get {π : α → State} {o : Option α} {r : α} (h : KeepsOpt b π o) (e : o = Option.some r) : Keeps b (π r) := h r e

theorem KeepsOpt.ite {p : Prop} [Decidable p] {π : α → State} {r u : Option α} (hr : KeepsOpt b π r) (hu : KeepsOpt b π u) :
    KeepsOpt b π (if p then r else u) := by
  split
  · exact hr
  · exact hu

theorem KeepsOpt.getD {π : α → State} {o : Option α} {d : α} (h : KeepsOpt b π o) (hd : Keeps b (π d)) : Keeps b (π (o.getD d)) := by
  cases o with
  | none => exact hd
  | some r => exact h r rfl

theorem KeepsOpt.map {π : α → State} {ρ : β → State} {o : Option α} {f : α → β} (h : KeepsOpt b π o)
    (hf : ∀ {r}, Keeps b (π r) → Keeps b (ρ (f r))) : KeepsOpt b ρ (o.map f) := by
  cases o with
  | none => exact .none
  | some r => exact .some (hf (h r rfl))

theorem KeepsOpt.bind {π : α → State} {ρ : β → State} {o : Option α} {f : α → Option β} (h : KeepsOpt b π o)
    (hf : ∀ {r}, Keeps b (π r) → KeepsOpt b ρ (f r)) : KeepsOpt b ρ (o.bind f) := by
  cases o with
  | none => exact .none
  | some r => exact hf (h r rfl)

theorem KeepsOpt.ofMap {π : α → State} {o : Option β} {f : β → α} (hf : ∀ x, Keeps b (π (f x))) : KeepsOpt b π (o.map f) := by
  cases o with
  | none => exact .none
  | some x => exact .some (hf x)

theorem KeepsOpt.ofBind {π : α → State} {o : Option β} {f : β → Option α} (hf : ∀ x, KeepsOpt b π (f x)) :
    KeepsOpt b π (o.bind f) := by
  cases o with
  | none => exact .none
  | some x => exact hf x

theorem KeepsOpt.foldl {π : α → State} {o : Option α} {l : List β} {f : Option α → β → Option α} (h : KeepsOpt b π o)
    (hf : ∀ {o x}, KeepsOpt b π o → KeepsOpt b π (f o x)) : KeepsOpt b π (l.foldl f o) :=
  List.foldlRecOn (motive := KeepsOpt b π) l f h fun _ ho _ _ => hf ho

theorem ViewKeptOpt.none {π : α → CoreView} : ViewKeptOpt b π none := fun _ e => nomatch e

theorem ViewKeptOpt.some {π : α → CoreView} {r : α} (h : ViewKept b (π r)) : ViewKeptOpt b π (some r) := by
  rintro _ ⟨⟩
  exact h

theorem ViewKeptOpt.get {π : α → CoreView} {o : Option α} {r : α} (h : ViewKeptOpt b π o) (e : o = Option.some r) : ViewKept b (π r) :=
  h r e

theorem ViewKeptOpt.ite {p : Prop} [Decidable p] {π : α → CoreView} {r u : Option α} (hr : ViewKeptOpt b π r)
    (hu : ViewKeptOpt b π u) : ViewKeptOpt b π (if p then r else u) := by
  split
  · exact hr
  · exact hu

theorem KeepsOut.next {u : State} (h : Keeps b u) : KeepsOut b (.next u) := by
  rintro _ ⟨⟩
  exact h

theorem KeepsOut.fault {r : Fault} : KeepsOut b (.fault r) := fun _ e => nomatch e

theorem KeepsOut.ite {p : Prop} [Decidable p] {r u : Host.Outcome State Fault Refusal} (hr : KeepsOut b r) (hu : KeepsOut b u) :
    KeepsOut b (if p then r else u) := by
  split
  · exact hr
  · exact hu

end Sys2Proof.Machine
end

section
/-! PROOFS. What every command keeps, 1: registers, records, the functions of a core view. -/

namespace Sys2Proof.Machine

variable {b : State}

theorem Keeps.setReg {s : State} {a v : ℕ} (h : Keeps b s) : Keeps b (s.setReg a v) := h.same

theorem Keeps.setField {s : State} {a lo len v : ℕ} (h : Keeps b s) : Keeps b (s.setField a lo len v) := h.setReg

theorem Keeps.setBit {s : State} {a i : ℕ} (h : Keeps b s) : Keeps b (s.setBit a i) := h.setField

theorem Keeps.clearBit {s : State} {a i : ℕ} (h : Keeps b s) : Keeps b (s.clearBit a i) := h.setField

theorem Keeps.count {s : State} {a n : ℕ} (h : Keeps b s) : Keeps b (s.count a n) := h.setReg

theorem Keeps.setWide {s : State} {a v : ℕ} (h : Keeps b s) : Keeps b (s.setWide a v) := h.setReg.setReg

theorem Keeps.stageLow {s : State} {who lo v : ℕ} (h : Keeps b s) : Keeps b (s.stageLow who lo v) := h.same

theorem Keeps.commitWide {s : State} {who lo hi : ℕ} (h : Keeps b s) : Keeps b (s.commitWide who lo hi) := h.setReg.setReg.same

theorem Keeps.trace {s : State} {type func arg0 arg1 : ℕ} (h : Keeps b s) : Keeps b (s.trace type func arg0 arg1) :=
  .ite h (.ite h.same (.ite h.count.same h.count.same))

theorem Keeps.tally {s : State} {kind inst event n : ℕ} (h : Keeps b s) : Keeps b (s.tally kind inst event n) := h.same

theorem Keeps.modPart {s : State} {p : ℕ} {f : Part → Part} (h : Keeps b s) : Keeps b (s.modPart p f) := h.same

theorem Keeps.setCore {s : State} {c : ℕ} {k : Core} (h : Keeps b s) : Keeps b (s.setCore c k) := h.same

theorem Keeps.modCore {s : State} {c : ℕ} {f : Core → Core} (h : Keeps b s) : Keeps b (s.modCore c f) := h.setCore

theorem Keeps.setCmd {s : State} {id : ℕ} {c : Option Cmd} (h : Keeps b s) : Keeps b (s.setCmd id c) := h.same

theorem Keeps.modCmd {s : State} {id : ℕ} {f : Cmd → Cmd} (h : Keeps b s) : Keeps b (s.modCmd id f) := by
  unfold State.modCmd
  split
  · exact h
  · exact h.setCmd

theorem Keeps.modQueue {s : State} {f q : ℕ} {g : Queue → Queue} (h : Keeps b s) : Keeps b (s.modQueue f q g) := h.same

theorem Keeps.enqueueWrite {s : State} {who addr value mask : ℕ} (h : Keeps b s) : Keeps b (s.enqueueWrite who addr value mask) :=
  .ite h.same h.setBit

theorem Keeps.modPort {s : State} {p : ℕ} {f : Port → Port} (h : Keeps b s) : Keeps b (s.modPort p f) := h.same

theorem Keeps.pumpPort {s : State} {p : ℕ} (h : Keeps b s) : Keeps b (s.pumpPort p) := .ite h h.modPort.tally

theorem Keeps.portSend {s : State} {p : ℕ} {m : PortMsg} (h : Keeps b s) : Keeps b (s.portSend p m) := h.modPort.pumpPort

theorem Keeps.sendControl {s : State} {p : ℕ} {symbol : List Byte} (h : Keeps b s) : Keeps b (s.sendControl p symbol) := h.modPort

theorem Keeps.passOn {s : State} {p : ℕ} {m : List Byte} (h : Keeps b s) : Keeps b (s.passOn p m).1 := by
  unfold State.passOn
  split
  · exact h.modPort
  · exact h

theorem Keeps.passAny {s : State} {m : List Byte} (h : Keeps b s) : Keeps b (s.passAny m) := by
  unfold State.passAny
  split
  · exact h.passOn
  · exact h

theorem ViewKept.view {self : Issue} (h : ViewKept b self.view) : ViewKept b (Issue.view self) := h

theorem ViewKept.useA {cv : CoreView} {t r : ℕ} {pad : Pad} (h : ViewKept b cv) : ViewKeptOpt b (·.2) (cv.useA t r pad) := by
  unfold CoreView.useA
  dsimp only
  split
  · exact .none
  · exact .some h.same

theorem ViewKept.useAW {cv : CoreView} {t r : ℕ} {pad : Pad} (h : ViewKept b cv) : ViewKeptOpt b (·.2) (cv.useAW t r pad) := by
  unfold CoreView.useAW
  split
  · exact .none
  · exact .ite (.some (h.useA.get ‹_›)) .none

theorem Keeps.mirrorRec {s : State} {f q : ℕ} {r : Rec} {posted : Bool} (h : Keeps b s) : Keeps b (s.mirrorRec f q r posted) :=
  .ite h (.ite h.setReg.setReg h.setReg.setReg)

theorem Keeps.writeRecord {s : State} {f q : ℕ} {r : Rec} (h : Keeps b s) : Keeps b (s.writeRecord f q r) :=
  (h.withMem (Mem.wf_writeBytes _ _ _)).setReg.mirrorRec.modQueue

theorem Keeps.unwrite {s : State} {f q : ℕ} (h : Keeps b s) : Keeps b (s.unwrite f q) := by
  unfold State.unwrite
  dsimp only
  split
  · exact h
  · exact .ite h (h.withMem (Mem.wf_writeBytes _ _ _)).setReg.mirrorRec.modQueue

theorem Keeps.markHeld {s : State} {f q : ℕ} (h : Keeps b s) : Keeps b (s.markHeld f q) := h.setField

theorem Keeps.post {s : State} {f q slots : ℕ} {r : Rec} (h : Keeps b s) : Keeps b (s.post f q slots r) :=
  .ite h.modQueue.writeRecord h.modQueue.modQueue.markHeld

theorem Keeps.flushHeld {s : State} {f q x : ℕ} (h : Keeps b s) : Keeps b (s.flushHeld f q x) := by
  induction x generalizing s with
  | zero => exact h.markHeld
  | succ n ih =>
    unfold State.flushHeld
    split
    · exact h.markHeld
    · exact .ite (ih h.modQueue.writeRecord) h.markHeld

theorem Keeps.signal {s : State} {e : ℕ} (h : Keeps b s) : Keeps b (s.signal e) := .ite h h.same

theorem Keeps.signals {s : State} {x : List ℕ} (h : Keeps b s) : Keeps b (s.signals x) := by
  induction x generalizing s with
  | nil => exact h
  | cons e es ih => exact ih h.signal

theorem Keeps.orStep {s : State} {f bits : ℕ} (h : Keeps b s) : Keeps b (s.orStep f bits) := h.setReg

theorem Keeps.replayUnchecked {s : State} {f : ℕ} {expect : List ℕ} (h : Keeps b s) : Keeps b (s.replayUnchecked f expect) :=
  h.setReg

theorem Keeps.dropRuns {s : State} {id : ℕ} {c : Cmd} (h : Keeps b s) : Keeps b (s.dropRuns id c) :=
  .same (by split; exacts [h.replayUnchecked, .ite h.replayUnchecked h])

theorem Keeps.complete {s : State} {id status detail : ℕ} (h : Keeps b s) : Keeps b (s.complete id status detail) := by
  unfold State.complete
  dsimp only
  split
  · exact h
  · exact .same (.trace (.post (.dropRuns (.setCmd (.tally (.ite (.orStep (.setReg (.ite h.signals h))) (.setReg (.ite h.signals
    h))))))))

theorem Keeps.completeOwn {s : State} {id : ℕ} (h : Keeps b s) : Keeps b (s.completeOwn id) := by
  unfold State.completeOwn
  split
  · exact h
  · exact h.complete

theorem Keeps.deny {s : State} {id reason : ℕ} (h : Keeps b s) : Keeps b (s.deny id reason) := h.complete

theorem Keeps.faultCmd {s : State} {id : ℕ} {i : FaultInfo} (h : Keeps b s) : Keeps b (s.faultCmd id i) := h.modCmd

theorem Keeps.faultNow {s : State} {id : ℕ} {i : FaultInfo} (h : Keeps b s) : Keeps b (s.faultNow id i) := h.modCmd.completeOwn

theorem Keeps.completeEnding {s : State} (h : Keeps b s) : Keeps b (s.completeEnding) :=
  h.foldl fun h => by
    split
    · exact .ite h.completeOwn h
    · exact h

theorem Keeps.coreFault {s : State} {c t k : ℕ} {pc : BitVec 8} {cause : Cause} (h : Keeps b s) : Keeps b (s.coreFault c t k pc
    cause) := by
  unfold State.coreFault
  dsimp only
  split
  · exact h.modCore.trace
  · exact h.modCore.trace.faultCmd

theorem Keeps.idle {s : State} (h : Keeps b s) : Keeps b (s.idle) := h.same

theorem Keeps.takeRate {s : State} (h : Keeps b s) : Keeps b (s.takeRate) := by
  unfold State.takeRate
  dsimp only
  split
  · exact h
  · exact .ite h.setField.same h

theorem Keeps.execRateChange {s : State} (h : Keeps b s) : KeepsOut b (execRateChange s) := .next h.takeRate

theorem Keeps.armRate {s : State} {who value : ℕ} (h : Keeps b s) : Keeps b (s.armRate who value) :=
  .ite h.setBit h.commitWide.same

theorem Keeps.execRateArm {who value : ℕ} {s : State} (h : Keeps b s) : KeepsOut b (execRateArm who value s) :=
  .ite .fault (.next h.armRate)

theorem Keeps.modSync {s : State} {p : ℕ} {f : SyncPort → SyncPort} (h : Keeps b s) : Keeps b (s.modSync p f) := h.same

theorem Keeps.endInterval {s : State} {p : ℕ} (h : Keeps b s) : Keeps b (s.endInterval p) :=
  .ite (.ite h.same h.same) (.ite h.same h)

theorem Keeps.execSyncSymbolSend {p frac : ℕ} {s : State} (h : Keeps b s) : KeepsOut b (execSyncSymbolSend p frac s) :=
  .ite .fault (.ite (.next h) (.next h.endInterval.modSync.sendControl))

theorem Keeps.stepTime {s : State} {offset : ℤ} (h : Keeps b s) : Keeps b (s.stepTime offset) := h.same

theorem Keeps.slewTime {s : State} {offset : ℤ} (h : Keeps b s) : Keeps b (s.slewTime offset) := .ite h.same (.ite h.same h.same)

theorem Keeps.usePair {s : State} {offset : ℤ} (h : Keeps b s) : Keeps b (s.usePair offset) :=
  .ite h.setReg.same.slewTime (.ite h.setReg.same h.setReg.same.stepTime)

theorem Keeps.receiveSymbol {s : State} {p : ℕ} {sym : BitVec 128} {frac : ℕ} (h : Keeps b s) : Keeps b (s.receiveSymbol p sym
    frac) :=
  .ite h.modSync (.ite h.modSync.setReg.usePair h.modSync.setReg)

theorem Keeps.execSyncSymbolReceive {p : ℕ} {sym : BitVec 128} {frac : ℕ} {s : State} (h : Keeps b s) : KeepsOut b
    (execSyncSymbolReceive p sym frac s) :=
  .ite .fault (.ite (.next h) (.ite (.next h.setBit) (.next h.receiveSymbol)))

theorem Keeps.setTree {s : State} {root valid : Bool} {port depth addr : ℕ} (h : Keeps b s) : Keeps b (s.setTree root valid port
    depth addr) :=
  h.setReg

theorem Keeps.chooseParent {s : State} (h : Keeps b s) : Keeps b (s.chooseParent) := by
  unfold State.chooseParent
  dsimp only
  split
  · exact .ite (.trace (.setBit (.ite (.setTree (.same (.ite h.modSync h))) (.same (.setTree (.same (.ite h.modSync h))))))) (.ite
    (.setTree (.same (.ite h.modSync h))) (.same (.setTree (.same (.ite h.modSync h)))))
  · exact .ite (.setTree (.same (.ite h.modSync h))) (.ite (.setTree (.same (.ite h.modSync h))) (.same (.setTree (.same (.ite
    h.modSync h)))))

theorem Keeps.rootFrame {s : State} (h : Keeps b s) : Keeps b (s.rootFrame) := .ite h.same h

theorem Keeps.execLockAcquired {s : State} (h : Keeps b s) : KeepsOut b (execLockAcquired s) :=
  .ite (.next h.setBit.same) (.next h)

theorem Keeps.execParentChange {s : State} (h : Keeps b s) : KeepsOut b (execParentChange s) := .ite (.next h.same) (.next h)

theorem Keeps.execHoldover {s : State} (h : Keeps b s) : KeepsOut b (execHoldover s) :=
  .ite (.next h.setTree.setBit.count.trace) (.next h)

theorem Keeps.execLostLock {s : State} (h : Keeps b s) : KeepsOut b (execLostLock s) :=
  .ite (.next h.clearBit.clearBit.setBit.same.trace) (.next h)

theorem Keeps.acquire {s : State} (h : Keeps b s) : Keeps b (s.acquire) := .ite h.same h

theorem Keeps.execAcquire {s : State} (h : Keeps b s) : KeepsOut b (execAcquire s) := .next h.acquire

theorem Keeps.execSupplyDroop {n : ℕ} {s : State} (h : Keeps b s) : KeepsOut b (execSupplyDroop n s) :=
  .ite (.next h) (.next h.same.count)

theorem ViewKept.raise {cv : CoreView} {t bits : ℕ} (h : ViewKept b cv) : ViewKept b (cv.raise t bits) := h.same

theorem ViewKept.noteRead {cv : CoreView} {t key : ℕ} (h : ViewKept b cv) : ViewKept b (cv.noteRead t key) := .ite h.raise h

theorem ViewKept.writePart {cv : CoreView} {t key : ℕ} {bs : List Byte} (h : ViewKept b cv) : ViewKept b (cv.writePart t key bs)
    :=
  h.withMem (Mem.wf_writeBytes _ _ _)

theorem ViewKept.write256 {cv : CoreView} {t key : ℕ} {x : BitVec 256} (h : ViewKept b cv) : ViewKept b (cv.write256 t key x) :=
  h.writePart

theorem ViewKept.writeScattered {cv : CoreView} {t : ℕ} {x : List (ℕ × Byte)} (h : ViewKept b cv) : ViewKept b (cv.writeScattered
    t x) := by
  induction x generalizing cv with
  | nil => exact h
  | cons c cs ih => exact ih h.writePart

theorem ViewKept.done {cv : CoreView} (h : ViewKept b cv) : ViewKept b (cv.done).view := h

theorem ViewKept.failed {cv : CoreView} {c : Cause} (h : ViewKept b cv) : ViewKept b (cv.failed c).view := h

theorem ViewKept.modT {cv : CoreView} {t : ℕ} {f : Thread → Thread} (h : ViewKept b cv) : ViewKept b (cv.modT t f) := h.same

theorem ViewKept.putG {cv : CoreView} {t rd : ℕ} {w : Word} (h : ViewKept b cv) : ViewKept b (cv.putG t rd w).view := h.modT.done

theorem ViewKept.doAlu {t rd rs1 rs2 func ext : ℕ} {cv : CoreView} (h : ViewKept b cv) : ViewKept b (doAlu t rd rs1 rs2 func ext
    cv).view :=
  .iteView h.putG (.iteView h.putG (.iteView h.modT.done (.iteView h.modT.raise.done (.iteView h.modT.raise.done h.modT.done))))

theorem ViewKept.doAddi {t rd rs1 : ℕ} {imm : BitVec 16} {cv : CoreView} (h : ViewKept b cv) : ViewKept b (doAddi t rd rs1 imm
    cv).view :=
  h.putG

theorem ViewKept.doAndi {t rd rs1 : ℕ} {imm : BitVec 16} {cv : CoreView} (h : ViewKept b cv) : ViewKept b (doAndi t rd rs1 imm
    cv).view :=
  h.putG

theorem ViewKept.doOri {t rd rs1 : ℕ} {imm : BitVec 16} {cv : CoreView} (h : ViewKept b cv) : ViewKept b (doOri t rd rs1 imm
    cv).view :=
  h.putG

theorem ViewKept.doXori {t rd rs1 : ℕ} {imm : BitVec 16} {cv : CoreView} (h : ViewKept b cv) : ViewKept b (doXori t rd rs1 imm
    cv).view :=
  h.putG

theorem ViewKept.doLui {t rd : ℕ} {imm : BitVec 16} {cv : CoreView} (h : ViewKept b cv) : ViewKept b (doLui t rd imm cv).view :=
  h.putG

theorem ViewKept.doShi {t rd rs1 kind sh : ℕ} {cv : CoreView} (h : ViewKept b cv) : ViewKept b (doShi t rd rs1 kind sh cv).view :=
  h.putG

theorem ViewKept.doB {t p : ℕ} {neg : Bool} {target : BitVec 8} {cv : CoreView} (h : ViewKept b cv) : ViewKept b (doB t p neg
    target cv).view :=
  .iteView h h.done

theorem ViewKept.doLoop {t g : ℕ} {target : BitVec 8} {cv : CoreView} (h : ViewKept b cv) : ViewKept b (doLoop t g target cv).view
    :=
  .iteView h.modT h.modT.done

theorem ViewKept.doLd {t rd rs1 size : ℕ} {pad sign : Bool} {off : BitVec 12} {cv : CoreView} (h : ViewKept b cv) : ViewKept b
    (doLd t rd rs1 size pad sign off cv).view := by
  unfold Machine.doLd
  dsimp only
  split
  · exact h.failed
  · exact h.noteRead.putG

theorem ViewKept.doSt {t rs2 rs1 size : ℕ} {pad : Bool} {off : BitVec 12} {cv : CoreView} (h : ViewKept b cv) : ViewKept b (doSt t
    rs2 rs1 size pad off cv).view := by
  unfold Machine.doSt
  split
  · exact h.failed
  · exact .iteView h.writePart.done h.failed

theorem ViewKept.doAreg {t a func field g : ℕ} {imm : BitVec 12} {cv : CoreView} (h : ViewKept b cv) : ViewKept b (doAreg t a func
    field g imm cv).view := by
  unfold Machine.doAreg
  dsimp only
  split
  · exact h.modT.done
  · exact h.modT.done
  · exact h.modT.done
  · exact h.modT.done

theorem ViewKept.doMovv {t g : ℕ} {v : Bool} {lane : ℕ} {word dir : Bool} {cv : CoreView} (h : ViewKept b cv) : ViewKept b (doMovv
    t g v lane word dir cv).view :=
  .iteView h.putG h.modT.done

theorem ViewKept.doFstat {t rd : ℕ} {clr : BitVec 8} {mode : ℕ} {cv : CoreView} (h : ViewKept b cv) : ViewKept b (doFstat t rd clr
    mode cv).view :=
  .iteView h.modT h.modT.done

theorem ViewKept.doYield {t : ℕ} {cv : CoreView} (h : ViewKept b cv) : ViewKept b (doYield t cv).view := h.modT

theorem ViewKept.doVop {t func : ℕ} {fp64 va src2 vb : Bool} {areg : ℕ} {pad dst vd hi : Bool} {lmask : ℕ} {cv : CoreView} (h :
    ViewKept b cv) : ViewKept b (doVop t func fp64 va src2 vb areg pad dst vd hi lmask cv).view := by
  unfold Machine.doVop
  dsimp only
  split
  · split
    · exact h.failed
    · rename_i key cv1 e
      have h1 : ViewKept b cv1 := h.useA.get e
      have h2 : ViewKept b (if func == 13 || func == 15 then cv1.noteRead t key else cv1) := .ite h1.noteRead h1
      exact .iteView h1.noteRead.modT.raise.done (.iteView h.failed (ViewKept.done (ViewKept.raise (.ite h2.write256
        (.ite (h2.withMem (Mem.wf_writeNat _ _ _ _)) h2.writePart)))))
  · exact h.modT.raise.done

theorem ViewKept.cvtDeliver {t : ℕ} {s d : Fmt} {part : ℕ} {dst : VDest} {r : BitVec 256 × Flags × List ℕ} {cv : CoreView} (h :
    ViewKept b cv) : ViewKept b (cvtDeliver t s d part dst r cv) := by
  unfold Machine.cvtDeliver
  dsimp only
  split
  · exact h.modT.raise
  · exact h.writePart.raise

theorem ViewKept.source {cv : CoreView} {t : ℕ} {fromPad vn : Bool} {r : ℕ} {pad : Bool} (h : ViewKept b cv) : ViewKeptOpt b (·.2)
    (cv.source t fromPad vn r pad) := by
  unfold CoreView.source
  split
  · split
    · exact .none
    · exact .some (h.useA.get ‹_›).noteRead
  · exact .some h

theorem ViewKept.destination {cv : CoreView} {t : ℕ} {toPad vn : Bool} {r : ℕ} {pad : Bool} (h : ViewKept b cv) : ViewKeptOpt b
    (·.2) (cv.destination t toPad vn r pad) := by
  unfold CoreView.destination
  split
  · split
    · exact .none
    · exact .some (h.useAW.get ‹_›)
  · exact .some h

theorem ViewKept.request {cv : CoreView} {t : ℕ} {i : GenInput} {u : GenUse} (h : ViewKept b cv) : ViewKept b (cv.request t i u)
    :=
  h.same

theorem ViewKept.doCvt {t : ℕ} {s d : Fmt} {rnd : ℕ} {src : Bool} {as_ : ℕ} {spad dst : Bool} {ad : ℕ} {dpad : Bool} {part gb : ℕ}
    {cv : CoreView} (h : ViewKept b cv) : ViewKept b (doCvt t s d rnd src as_ spad dst ad dpad part gb cv).view := by
  unfold Machine.doCvt
  dsimp only
  split
  · exact h.failed
  · split
    · exact h.failed
    · exact .iteView ((h.source.get ‹_›).destination.get ‹_›).modT.request.done ((h.source.get ‹_›).destination.get
    ‹_›).cvtDeliver.done

theorem ViewKept.doSplit {t : ℕ} {ve : Bool} {j k : ℕ} {src : Bool} {as_ : ℕ} {spad : Bool} {ad : ℕ} {dpad : Bool} {part : ℕ} {cv
    : CoreView} (h : ViewKept b cv) : ViewKept b (doSplit t ve j k src as_ spad ad dpad part cv).view := by
  unfold Machine.doSplit
  dsimp only
  split
  · exact h.failed
  · split
    · exact h.failed
    · exact ((h.source.get ‹_›).useAW.get ‹_›).writePart.raise.done

theorem ViewKept.doMerge {t : ℕ} {vd vs : Bool} {as_ : ℕ} {spad hi : Bool} {gs : ℕ} {cv : CoreView} (h : ViewKept b cv) : ViewKept
    b (doMerge t vd vs as_ spad hi gs cv).view := by
  unfold Machine.doMerge
  dsimp only
  split
  · exact h.failed
  · exact (h.useA.get ‹_›).noteRead.modT.raise.done

theorem ViewKept.sspkDeliver {t : ℕ} {xs : List ℕ} {fp32 ftz : Bool} {rnd o : ℕ} {keys : List ℕ} {cv : CoreView} (h : ViewKept b
    cv) : ViewKept b (sspkDeliver t xs fp32 ftz rnd o keys cv) :=
  h.writeScattered.raise

theorem ViewKept.doSspk {t ga as_ : ℕ} {spad dpad sfmt : Bool} {rnd gb : ℕ} {cv : CoreView} (h : ViewKept b cv) : ViewKept b
    (doSspk t ga as_ spad dpad sfmt rnd gb cv).view := by
  unfold Machine.doSspk
  dsimp only
  split
  · exact h.failed
  · rename_i k1 cv1 e1
    have h1 : ViewKept b cv1 := h.useA.get e1
    split
    · exact h.failed
    · rename_i k2 cv2 e2
      have h2 : ViewKept b cv2 := ViewKeptOpt.get (.ite h1.useA (.some h1)) e2
      split
      · exact h.failed
      · exact .iteView h.failed (.iteView h2.noteRead.noteRead.modT.request.done h2.noteRead.noteRead.sspkDeliver.done)

theorem ViewKept.noteReads {t : ℕ} {x : List ℕ} {cv : CoreView} (h : ViewKept b cv) : ViewKept b (noteReads t x cv) := by
  induction x generalizing cv with
  | nil => exact h
  | cons k ks ih => exact ih h.noteRead

theorem ViewKept.doSsup {t ga ad : ℕ} {dpad spad : Bool} {cv : CoreView} (h : ViewKept b cv) : ViewKept b (doSsup t ga ad dpad
    spad cv).view := by
  unfold Machine.doSsup
  dsimp only
  split
  · exact h.failed
  · split
    · exact h.failed
    · exact (h.useAW.get ‹_›).noteReads.writePart.raise.done

theorem ViewKept.doRng {t gb : ℕ} {vd half inc : Bool} {cv : CoreView} (h : ViewKept b cv) : ViewKept b (doRng t gb vd half inc
    cv).view :=
  .done (.request (.ite h.modT h))

theorem ViewKept.genFinish {r : GenReq} {cv : CoreView} (h : ViewKept b cv) : ViewKept b (genFinish r cv) := by
  unfold Machine.genFinish
  dsimp only
  split
  · exact h.modT
  · exact h.cvtDeliver
  · exact h.sspkDeliver

theorem ViewKept.genServe {cv : CoreView} (h : ViewKept b cv) : ViewKept b (genServe cv) := by
  unfold Machine.genServe
  dsimp only
  split
  · exact h
  · exact h.same.genFinish.modT

theorem ViewKept.needing {t : ℕ} {n : Needs} {f : CoreView → Issue} {cv : CoreView} (h : ViewKept b cv) (hf : ∀ {cv : CoreView},
    ViewKept b cv → ViewKept b (f cv).view) : ViewKept b (needing t n f cv).view :=
  .iteView h.modT (hf h)

theorem ViewKept.tmmaOne {op : TmmaOp} {t : ℕ} {cv : CoreView} (h : ViewKept b cv) : ViewKeptOpt b id (tmmaOne op t cv) := by
  unfold Machine.tmmaOne
  split
  · exact .none
  · rename_i e1
    have h1 := h.useA.get e1
    split
    · exact .none
    · rename_i e2
      have h2 := h1.useA.get e2
      split
      · exact .none
      · rename_i kp cv3 e3
        exact .some ((h2.useAW.get e3).noteRead.noteRead.withMem (Mem.wf_writeNat _ _ _ _)).raise

theorem ViewKept.doTmma {op : TmmaOp} {t x : ℕ} {cv : CoreView} (h : ViewKept b cv) : ViewKept b (doTmma op t x cv).view := by
  induction x generalizing cv with
  | zero => exact h.done
  | succ n ih =>
    unfold Machine.doTmma
    split
    · exact h.failed
    · exact ih (h.tmmaOne.get ‹_›)

theorem ViewKept.useBlocks {t r x : ℕ} {cv : CoreView} (h : ViewKept b cv) : ViewKeptOpt b (·.2) (useBlocks t r x cv) := by
  induction x generalizing cv with
  | zero => exact .some h
  | succ n ih =>
    unfold Machine.useBlocks
    dsimp only
    split
    · exact .none
    · rename_i e1
      split
      · exact .none
      · rename_i e2
        have h2 := (ih (h.useA.get e1)).get e2
        exact .some h2

theorem ViewKept.usesBefore {t r x : ℕ} {cv : CoreView} (h : ViewKept b cv) : ViewKept b (usesBefore t r x cv).2 := by
  induction x generalizing cv with
  | zero => exact h
  | succ n ih =>
    unfold Machine.usesBefore
    dsimp only
    split
    · exact h
    · exact ih (h.useA.get ‹_›)

theorem ViewKept.doTdrain {t ap cm1 : ℕ} {dest : Bool} {ad : BitVec 3} {dfmt rnd gb : ℕ} {cinc : Bool} {ctr : BitVec 3} {acc :
    Bool} {cv : CoreView} (h : ViewKept b cv) : ViewKept b (doTdrain t ap cm1 dest ad dfmt rnd gb cinc ctr acc cv).view := by
  unfold Machine.doTdrain
  dsimp only
  split
  · exact h.failed
  · split
    · exact h.modT
    · split
      · exact .failed (.same (.ite h.usesBefore.modT h.usesBefore))
      · exact .same (.ite (h.useBlocks.get ‹_›).modT (h.useBlocks.get ‹_›))

theorem ViewKept.drainWrite {d : Drain} {half : Bool} {e : QEntry} {cv : CoreView} (h : ViewKept b cv) : ViewKeptOpt b (·.2)
    (drainWrite d half e cv) := by
  unfold Machine.drainWrite
  dsimp only
  split
  · exact .ite (.some h.same.raise) .none
  · exact .ite (.some (h.withMem (Mem.wf_writeBytes _ _ _))) (.some h)

theorem ViewKept.drainFlush {d : Drain} {x : List QEntry} {cv : CoreView} (h : ViewKept b cv) : ViewKept b (drainFlush d x cv).2.2
    := by
  induction x generalizing cv with
  | nil => exact h
  | cons e es ih =>
    unfold Machine.drainFlush
    split
    · exact h
    · exact h.drainWrite.get ‹_›
    · exact ih (h.drainWrite.get ‹_›)

theorem ViewKept.drainEnd {d : Drain} {cv : CoreView} (h : ViewKept b cv) : ViewKept b (drainEnd d cv) := h.same

theorem ViewKept.drainRead {d : Drain} {b' : ℕ} {cv : CoreView} (h : ViewKept b cv) : ViewKept b (drainRead d b' cv).2 := h.raise

theorem ViewKept.drainSettle {d : Drain} {f : List QEntry × Bool × CoreView} (h : ViewKept b f.2.2) : ViewKept b (drainSettle d
    f).2 := by
  unfold Machine.drainSettle
  dsimp only
  split
  · exact h.same
  · split
    · exact h.same
    · split
      · exact h.drainEnd
      · split
        · exact (h.drainWrite.get ‹_›).drainEnd
        · exact (h.drainWrite.get ‹_›).same
        · exact h.same

theorem ViewKept.drainTurn {cv : CoreView} (h : ViewKept b cv) : ViewKept b (drainTurn cv).2 := by
  unfold Machine.drainTurn
  dsimp only
  split
  · exact h
  · split
    · exact h.drainFlush.drainSettle
    · exact .iteSnd h.drainFlush.drainSettle h.drainFlush.drainRead.drainFlush.drainSettle

theorem ViewKept.pushSome {t q r : ℕ} {pad : Bool} {x : ℕ} {cv : CoreView} (h : ViewKept b cv) : ViewKept b (pushSome t q r pad x
    cv).2.2 := by
  induction x generalizing cv with
  | zero => exact h
  | succ n ih =>
    unfold Machine.pushSome
    dsimp only
    split
    · split
      · exact h
      · exact ih (h.useA.get ‹_›).noteRead.same
    · exact h

theorem ViewKept.popSome {t q r : ℕ} {pad : Bool} {x : ℕ} {cv : CoreView} (h : ViewKept b cv) : ViewKept b (popSome t q r pad x
    cv).2.2 := by
  induction x generalizing cv with
  | zero => exact h
  | succ n ih =>
    unfold Machine.popSome
    dsimp only
    split
    · exact h
    · split
      · exact h
      · have h1 := h.useAW.get ‹_›
        exact ih (ViewKept.write256 (.same (.ite h1.raise h1)))

theorem ViewKept.queueEnd {t : ℕ} {rest : PendOp} {r : ℕ × Bool × CoreView} (h : ViewKept b r.2.2) : ViewKept b (queueEnd t rest
    r).view :=
  .iteView h.modT (.iteView h.modT h.modT)

theorem ViewKept.doQpush {t q r : ℕ} {pad : Bool} {n : ℕ} {cv : CoreView} (h : ViewKept b cv) : ViewKept b (doQpush t q r pad n
    cv).view :=
  .iteView h.failed h.pushSome.queueEnd

theorem ViewKept.doQpop {t q r : ℕ} {pad : Bool} {n : ℕ} {cv : CoreView} (h : ViewKept b cv) : ViewKept b (doQpop t q r pad n
    cv).view :=
  .iteView h.failed h.popSome.queueEnd

theorem ViewKept.doWaitc {t ctr gt : ℕ} {imm : BitVec 12} {cv : CoreView} (h : ViewKept b cv) : ViewKept b (doWaitc t ctr gt imm
    cv).view :=
  .iteView h.failed (.iteView h.done h.modT.done)

theorem ViewKept.doCntadd {t ctr g : ℕ} {imm : BitVec 16} {cv : CoreView} (h : ViewKept b cv) : ViewKept b (doCntadd t ctr g imm
    cv).view :=
  .iteView h.failed h.same.done

theorem ViewKept.doCntrd {t ctr g : ℕ} {cv : CoreView} (h : ViewKept b cv) : ViewKept b (doCntrd t ctr g cv).view :=
  .iteView h.failed h.putG

theorem ViewKept.doSwap {t : ℕ} {sw sa : Bool} {cv : CoreView} (h : ViewKept b cv) : ViewKept b (doSwap t sw sa cv).view :=
  .iteView h.failed (.iteView h.modT h.same.done)

end Sys2Proof.Machine
end

section
/-! PROOFS. What every command keeps, 2: visibility, carried state, issue, engines of the cores, links. -/

namespace Sys2Proof.Machine

variable {b : State}

theorem Keeps.setPage {s : State} {f : ℕ} {far : Bool} {v : ℕ} {p : Option Page} (h : Keeps b s) : Keeps b (s.setPage f far v p)
    :=
  h.same

theorem Keeps.hold {s : State} {part ord home : ℕ} {async mark : Bool} {base : ℕ} {cells : List (ℕ × Byte)} {outs : optParam (List
    ℕ) []} (h : Keeps b s) : Keeps b (s.hold part ord home async mark base cells outs) :=
  h.same.tally

theorem Keeps.holdBytes {s : State} {part ord home : ℕ} {async mark : Bool} {k : ℕ} {bs : List Byte} {outs : optParam (List ℕ) []}
    (h : Keeps b s) : Keeps b (s.holdBytes part ord home async mark k bs outs) :=
  h.foldl (fun h => h.hold)

theorem Keeps.applyEntry {s : State} {h' : Held} (h : Keeps b s) : Keeps b (s.applyEntry h') := h.withMem (Mem.wf_writeCells _ _)

theorem Keeps.applyDue {s : State} (h : Keeps b s) : Keeps b (s.applyDue) := (h.foldl (fun h => h.applyEntry)).same

theorem Keeps.commitHeld {s : State} {part ord : ℕ} (h : Keeps b s) : Keeps b (s.commitHeld part ord) :=
  (h.foldl (fun h => h.applyEntry)).same

theorem Keeps.discardHeld {s : State} {part ord : ℕ} (h : Keeps b s) : Keeps b (s.discardHeld part ord) := h.same

theorem Keeps.writeMarked {s : State} {k : ℕ} {bs : List Byte} {mark : Bool} (h : Keeps b s) : Keeps b (s.writeMarked k bs mark)
    :=
  h.foldl (fun h => h.applyEntry)

theorem Keeps.writeTenant {s : State} {f a : ℕ} {bs : List Byte} (h : Keeps b s) : Keeps b (s.writeTenant f a bs) :=
  h.foldl fun h => by
    split
    · exact h.writeMarked
    · exact h

theorem Keeps.view {s : State} {c : ℕ} (h : Keeps b s) : ViewKept b (s.view c) := h.2

theorem Keeps.putView {s : State} {c : ℕ} {cv : CoreView} (h : Keeps b s) (hv : ViewKept b cv) : Keeps b (s.putView c cv) :=
  ⟨h.1, hv⟩

theorem Keeps.endThread {c : ℕ} {t : BitVec 4} {pc : BitVec 8} {s : State} {e : IssueEnd} (h : Keeps b s) : Keeps b (endThread c t
    pc s e) := by
  unfold Machine.endThread
  dsimp only
  split
  · exact .ite h.coreFault h.modCore
  · exact h.modCore
  · exact h
  · exact h
  · exact h.coreFault

theorem Keeps.endIssue {c : ℕ} {t : BitVec 4} {array : Bool} {pc : BitVec 8} {r : State × IssueEnd} (h : Keeps b r.1) : Keeps b
    (endIssue c t array pc r) :=
  h.modCore.endThread

theorem Keeps.noteIssue {c : ℕ} {array : Bool} {s r : State} (h : Keeps b r) : Keeps b (noteIssue c array s r) :=
  .tally (.ite (.tally (.ite h h.tally)) (.ite h h.tally))

theorem Keeps.countBlocks {c n : ℕ} {r : State × IssueEnd} (h : Keeps b r.1) : Keeps b (countBlocks c n r).1 := by
  unfold Machine.countBlocks
  split
  · exact h.tally
  · exact h

theorem Keeps.issue {c : ℕ} {t : BitVec 4} {array legal : Bool} {f : State → State × IssueEnd} {s : State} (h : Keeps b s) (hf : ∀
    {s : State}, Keeps b s → Keeps b (f s).1) : KeepsOut b (issue c t array legal f s) :=
  .ite .fault (.ite (.next h) (.ite (.next (.iteFst (hf h) h)) (.next (.noteIssue (.endIssue (.iteFst (hf h) h))))))

theorem Keeps.onView {c : ℕ} {f : CoreView → Issue} {s : State} (h : Keeps b s) (hf : ∀ {cv : CoreView}, ViewKept b cv → ViewKept
    b (f cv).view) : Keeps b (onView c f s).1 :=
  h.putView (hf h.view)

theorem Keeps.execAlu {c : ℕ} {t : BitVec 4} {rd rs1 rs2 func : BitVec 5} {ext : BitVec 6} {s : State} (h : Keeps b s) : KeepsOut
    b (execAlu c t rd rs1 rs2 func ext s) :=
  h.issue (fun h => h.onView (fun h => h.doAlu))

theorem Keeps.execAddi {c : ℕ} {t : BitVec 4} {rd rs1 : BitVec 5} {imm : BitVec 16} {s : State} (h : Keeps b s) : KeepsOut b
    (execAddi c t rd rs1 imm s) :=
  h.issue (fun h => h.onView (fun h => h.doAddi))

theorem Keeps.execAndi {c : ℕ} {t : BitVec 4} {rd rs1 : BitVec 5} {imm : BitVec 16} {s : State} (h : Keeps b s) : KeepsOut b
    (execAndi c t rd rs1 imm s) :=
  h.issue (fun h => h.onView (fun h => h.doAndi))

theorem Keeps.execOri {c : ℕ} {t : BitVec 4} {rd rs1 : BitVec 5} {imm : BitVec 16} {s : State} (h : Keeps b s) : KeepsOut b
    (execOri c t rd rs1 imm s) :=
  h.issue (fun h => h.onView (fun h => h.doOri))

theorem Keeps.execXori {c : ℕ} {t : BitVec 4} {rd rs1 : BitVec 5} {imm : BitVec 16} {s : State} (h : Keeps b s) : KeepsOut b
    (execXori c t rd rs1 imm s) :=
  h.issue (fun h => h.onView (fun h => h.doXori))

theorem Keeps.execLui {c : ℕ} {t : BitVec 4} {rd : BitVec 5} {imm : BitVec 16} {s : State} (h : Keeps b s) : KeepsOut b (execLui c
    t rd imm s) :=
  h.issue (fun h => h.onView (fun h => h.doLui))

theorem Keeps.execShi {c : ℕ} {t : BitVec 4} {rd rs1 : BitVec 5} {kind : BitVec 2} {sh : BitVec 5} {s : State} (h : Keeps b s) :
    KeepsOut b (execShi c t rd rs1 kind sh s) :=
  h.issue (fun h => h.onView (fun h => h.doShi))

theorem Keeps.execB {c : ℕ} {t : BitVec 4} {p : BitVec 3} {neg : Bool} {target : BitVec 8} {s : State} (h : Keeps b s) : KeepsOut
    b (execB c t p neg target s) :=
  h.issue (fun h => h.onView (fun h => h.doB))

theorem Keeps.execLoop {c : ℕ} {t : BitVec 4} {g : BitVec 5} {target : BitVec 8} {s : State} (h : Keeps b s) : KeepsOut b
    (execLoop c t g target s) :=
  h.issue (fun h => h.onView (fun h => h.doLoop))

theorem Keeps.execLd {c : ℕ} {t : BitVec 4} {rd rs1 : BitVec 5} {size : BitVec 2} {pad sign : Bool} {off : BitVec 12} {s : State}
    (h : Keeps b s) : KeepsOut b (execLd c t rd rs1 size pad sign off s) :=
  h.issue (fun h => h.onView (fun h => h.needing (fun h => h.doLd)))

theorem Keeps.execSt {c : ℕ} {t : BitVec 4} {rs2 rs1 : BitVec 5} {size : BitVec 2} {pad : Bool} {off : BitVec 12} {s : State} (h :
    Keeps b s) : KeepsOut b (execSt c t rs2 rs1 size pad off s) :=
  h.issue (fun h => h.onView (fun h => h.doSt))

theorem Keeps.execAreg {c : ℕ} {t : BitVec 4} {a : BitVec 3} {func : BitVec 2} {field : BitVec 3} {g : BitVec 5} {imm : BitVec 12}
    {s : State} (h : Keeps b s) : KeepsOut b (execAreg c t a func field g imm s) :=
  h.issue (fun h => h.onView (fun h => h.doAreg))

theorem Keeps.execMovv {c : ℕ} {t : BitVec 4} {g : BitVec 5} {v : Bool} {lane : BitVec 2} {word dir : Bool} {s : State} (h : Keeps
    b s) : KeepsOut b (execMovv c t g v lane word dir s) :=
  h.issue (fun h => h.onView (fun h => h.needing (fun h => h.doMovv)))

theorem Keeps.execFstat {c : ℕ} {t : BitVec 4} {rd : BitVec 5} {clr : BitVec 8} {mode : BitVec 2} {s : State} (h : Keeps b s) :
    KeepsOut b (execFstat c t rd clr mode s) :=
  h.issue (fun h => h.onView (fun h => h.doFstat))

theorem Keeps.execYield {c : ℕ} {t : BitVec 4} {s : State} (h : Keeps b s) : KeepsOut b (execYield c t s) :=
  h.issue (fun h => h.onView (fun h => h.doYield))

theorem Keeps.execTmma {c : ℕ} {t : BitVec 4} {aw aa ap : BitVec 3} {left : Bool} {nm1 : BitVec 4} {wf af zero : Bool} {s : State}
    (h : Keeps b s) : KeepsOut b (execTmma c t aw aa ap left nm1 wf af zero s) :=
  h.issue (fun h => (h.onView (fun h => h.needing (fun h => h.doTmma))).countBlocks)

theorem Keeps.execTmmaI8 {c : ℕ} {t : BitVec 4} {aw aa ap : BitVec 3} {left : Bool} {nm1 : BitVec 4} {wf af zero : Bool} {s :
    State} (h : Keeps b s) : KeepsOut b (execTmmaI8 c t aw aa ap left nm1 wf af zero s) :=
  h.issue (fun h => (h.onView (fun h => h.needing (fun h => h.doTmma))).countBlocks)

theorem Keeps.execTdrain {c : ℕ} {t : BitVec 4} {ap : BitVec 3} {cm1 : BitVec 6} {dest : Bool} {ad : BitVec 3} {dfmt : BitVec 4}
    {rnd gb : BitVec 2} {cinc : Bool} {ctr : BitVec 3} {acc : Bool} {s : State} (h : Keeps b s) : KeepsOut b (execTdrain c t ap
    cm1 dest ad dfmt rnd gb cinc ctr acc s) :=
  h.issue (fun h => h.onView (fun h => h.doTdrain))

theorem Keeps.execVop {c : ℕ} {t : BitVec 4} {func : BitVec 5} {fp64 va src2 vb : Bool} {areg : BitVec 3} {pad dst vd hi : Bool}
    {lmask : BitVec 4} {s : State} (h : Keeps b s) : KeepsOut b (execVop c t func fp64 va src2 vb areg pad dst vd hi lmask s) :=
  h.issue (fun h => h.onView (fun h => h.needing (fun h => h.doVop)))

theorem Keeps.execCvt {c : ℕ} {t sfmt dfmt : BitVec 4} {rnd : BitVec 2} {src : Bool} {as_ : BitVec 3} {spad dst : Bool} {ad :
    BitVec 3} {dpad : Bool} {part : BitVec 3} {gb : BitVec 2} {s : State} (h : Keeps b s) : KeepsOut b (execCvt c t sfmt dfmt rnd
    src as_ spad dst ad dpad part gb s) :=
  h.issue (fun h => h.onView (fun h => h.needing (fun h => h.doCvt)))

theorem Keeps.execSplit {c : ℕ} {t : BitVec 4} {ve : Bool} {j k : BitVec 4} {src : Bool} {as_ : BitVec 3} {spad : Bool} {ad :
    BitVec 3} {dpad : Bool} {part : BitVec 3} {s : State} (h : Keeps b s) : KeepsOut b (execSplit c t ve j k src as_ spad ad dpad
    part s) :=
  h.issue (fun h => h.onView (fun h => h.needing (fun h => h.doSplit)))

theorem Keeps.execMerge {c : ℕ} {t : BitVec 4} {vd vs : Bool} {as_ : BitVec 3} {spad hi : Bool} {gs : BitVec 5} {s : State} (h :
    Keeps b s) : KeepsOut b (execMerge c t vd vs as_ spad hi gs s) :=
  h.issue (fun h => h.onView (fun h => h.needing (fun h => h.doMerge)))

theorem Keeps.execSspk {c : ℕ} {t : BitVec 4} {ga : BitVec 5} {as_ : BitVec 3} {spad dpad sfmt : Bool} {rnd gb : BitVec 2} {s :
    State} (h : Keeps b s) : KeepsOut b (execSspk c t ga as_ spad dpad sfmt rnd gb s) :=
  h.issue (fun h => h.onView (fun h => h.needing (fun h => h.doSspk)))

theorem Keeps.execSsup {c : ℕ} {t : BitVec 4} {ga : BitVec 5} {ad : BitVec 3} {dpad spad : Bool} {s : State} (h : Keeps b s) :
    KeepsOut b (execSsup c t ga ad dpad spad s) :=
  h.issue (fun h => h.onView (fun h => h.needing (fun h => h.doSsup)))

theorem Keeps.execRng {c : ℕ} {t : BitVec 4} {gb : BitVec 2} {vd half inc : Bool} {s : State} (h : Keeps b s) : KeepsOut b
    (execRng c t gb vd half inc s) :=
  h.issue (fun h => h.onView (fun h => h.needing (fun h => h.doRng)))

theorem Keeps.execQpush {c : ℕ} {t : BitVec 4} {q : BitVec 2} {areg : BitVec 3} {pad : Bool} {nm1 : BitVec 4} {s : State} (h :
    Keeps b s) : KeepsOut b (execQpush c t q areg pad nm1 s) :=
  h.issue (fun h => h.onView (fun h => h.needing (fun h => h.doQpush)))

theorem Keeps.execQpop {c : ℕ} {t : BitVec 4} {q : BitVec 2} {areg : BitVec 3} {pad : Bool} {nm1 : BitVec 4} {s : State} (h :
    Keeps b s) : KeepsOut b (execQpop c t q areg pad nm1 s) :=
  h.issue (fun h => h.onView (fun h => h.doQpop))

theorem Keeps.execWaitc {c : ℕ} {t : BitVec 4} {ctr : BitVec 3} {gt : BitVec 5} {imm : BitVec 12} {s : State} (h : Keeps b s) :
    KeepsOut b (execWaitc c t ctr gt imm s) :=
  h.issue (fun h => h.onView (fun h => h.doWaitc))

theorem Keeps.execCntadd {c : ℕ} {t : BitVec 4} {ctr : BitVec 3} {g : BitVec 5} {imm : BitVec 16} {s : State} (h : Keeps b s) :
    KeepsOut b (execCntadd c t ctr g imm s) :=
  h.issue (fun h => h.onView (fun h => h.doCntadd))

theorem Keeps.execCntrd {c : ℕ} {t : BitVec 4} {ctr : BitVec 3} {g : BitVec 5} {s : State} (h : Keeps b s) : KeepsOut b (execCntrd
    c t ctr g s) :=
  h.issue (fun h => h.onView (fun h => h.doCntrd))

theorem Keeps.execSwap {c : ℕ} {t : BitVec 4} {sw sa : Bool} {s : State} (h : Keeps b s) : KeepsOut b (execSwap c t sw sa s) :=
  h.issue (fun h => h.onView (fun h => h.doSwap))

theorem Keeps.execIllegalEncoding {c : ℕ} {t : BitVec 4} {word : Word} {s : State} (h : Keeps b s) : KeepsOut b
    (execIllegalEncoding c t word s) :=
  .ite (.next h) (h.issue (fun h => h))

theorem Keeps.setSlot {s : State} {c i : ℕ} {d : Option DmaSlot} (h : Keeps b s) : Keeps b (s.setSlot c i d) := h.modCore

theorem Keeps.waitSlot {c : ℕ} {t : BitVec 4} {s : State} (h : Keeps b s) : Keeps b (waitSlot c t s).1 := h.modCore

theorem Keeps.dmaIssue {c : ℕ} {t : BitVec 4} {gs gd gl : ℕ} {ctr : BitVec 3} {s : State} (h : Keeps b s) : Keeps b (dmaIssue c t
    gs gd gl ctr s).1 := by
  unfold Machine.dmaIssue
  dsimp only
  split
  · exact h.waitSlot
  · split
    · exact h
    · split
      · exact h
      · split
        · exact h
        · exact h
        · exact h.setSlot.same

theorem Keeps.execDma {c : ℕ} {t : BitVec 4} {gs gd gl : BitVec 5} {ctr : BitVec 3} {s : State} (h : Keeps b s) : KeepsOut b
    (execDma c t gs gd gl ctr s) :=
  h.issue (fun h => h.dmaIssue)

theorem Keeps.slotFault {s : State} {c i : ℕ} {sl : DmaSlot} {cause : Cause} (h : Keeps b s) : Keeps b (s.slotFault c i sl cause)
    :=
  (h.modCore.foldl (fun h => h.modCore)).coreFault

theorem Keeps.slotEnd {s : State} {c i : ℕ} {sl : DmaSlot} {count : Bool} (h : Keeps b s) : Keeps b (s.slotEnd c i sl count) :=
  h.tally.modCore

theorem Keeps.ownWrite {s : State} {c key : ℕ} {data : BitVec 256} {mark : Bool} (h : Keeps b s) : KeepsOpt b id (s.ownWrite c key
    data mark) :=
  .ite .none (.some (h.withMem (Mem.wf_writeNat _ _ _ _)))

theorem Keeps.writeRing {s : State} {area : ℕ × ℕ} {n : ℕ} {data : List Byte} {mark : Bool} (h : Keeps b s) : Keeps b (s.writeRing
    area n data mark) :=
  Keeps.foldlFst (p := (s, n)) h fun h => h.withMem (Mem.wf_write _ _ _)

theorem Keeps.holdMsg {s : State} {c part h' : ℕ} {sl : DmaSlot} {o : ℕ} {data : List Byte} {mark : Bool} (h : Keeps b s) :
    KeepsOpt b id (s.holdMsg c part h' sl o data mark) := by
  unfold State.holdMsg
  dsimp only
  split
  · exact .ite (.some h.same.writeRing) .none
  · exact .ite (.some h.same.writeRing) .none

theorem Keeps.engine {c : ℕ} {f : State → State} {s : State} (h : Keeps b s) (hf : ∀ {s : State}, Keeps b s → Keeps b (f s)) :
    KeepsOut b (engine c f s) :=
  .ite .fault (.ite (.next (hf h)) (.next h))

theorem Keeps.walkIssue {c : ℕ} {t : BitVec 4} {gd : ℕ} {ctr : BitVec 3} {cpt : Bool} {s : State} (h : Keeps b s) : Keeps b
    (walkIssue c t gd ctr cpt s).1 := by
  unfold Machine.walkIssue
  dsimp only
  split
  · exact h.waitSlot
  · split
    · exact h
    · split
      · exact h
      · exact h.setSlot

theorem Keeps.execWalk {c : ℕ} {t : BitVec 4} {gd : BitVec 5} {ctr : BitVec 3} {cpt : Bool} {s : State} (h : Keeps b s) : KeepsOut
    b (execWalk c t gd ctr cpt s) :=
  h.issue (fun h => h.walkIssue)

theorem Keeps.rereadWalks {s : State} {c : ℕ} (h : Keeps b s) : Keeps b (s.rereadWalks c) :=
  h.foldl fun h => by
    split
    · split
      · exact h.setSlot
      · exact h
    · exact h

theorem Keeps.walkStart {c i : ℕ} {s : State} (h : Keeps b s) : Keeps b (walkStart c i s) := by
  unfold Machine.walkStart
  dsimp only
  split
  · exact h
  · split
    · exact h
    · split
      · exact h
      · split
        · split
          · exact h.slotFault
          · exact h.setSlot
        · exact h.slotFault

theorem Keeps.execWalkerStart {c : ℕ} {slot : BitVec 3} {s : State} (h : Keeps b s) : KeepsOut b (execWalkerStart c slot s) :=
  h.engine (fun h => h.walkStart)

theorem Keeps.walkWrite {s y : State} {c i out : ℕ} {cfg : BitVec 3} {cells : List (ℕ × Byte)} {mark : Bool} (h : Keeps b s) (e :
    s.walkWrite c i cfg cells mark = .moved y out) : Keeps b y := by
  unfold State.walkWrite at e
  dsimp only at e
  split at e
  · cases e
    exact h
  · split at e
    · split at e
      · cases e
      · cases e
        exact h.withMem (Mem.wf_writeCells _ _)
    · split at e
      · cases e
        exact h.modCore
      · split at e
        · cases e
        · split at e
          · cases e
            exact h.hold
          · cases e

theorem Keeps.walkMove {c i : ℕ} {sl : DmaSlot} {run : WalkRun} {u : ℕ} {x : WalkUnit} {s : State} (h : Keeps b s) : KeepsOpt b id
    (walkMove c i sl run u x s) := by
  unfold Machine.walkMove
  split
  · exact .some h.slotFault
  · exact .none
  · rename_i e
    exact .some (h.walkWrite e).setSlot

theorem Keeps.walkTurn {c i : ℕ} {sl : DmaSlot} {run : WalkRun} {s : State} (h : Keeps b s) : KeepsOpt b id (walkTurn c i sl run
    s) := by
  unfold Machine.walkTurn
  split
  · exact .none
  · split
    · exact .none
    · split
      · exact .some h.slotFault
      · split
        · exact h.walkMove
        · exact .none
        · split
          · exact h.walkMove
          · exact .some (h.setSlot.foldl (fun h => h.modCore))

theorem Keeps.walkRead {c i : ℕ} {s : State} (h : Keeps b s) : Keeps b (walkRead c i s) := by
  unfold Machine.walkRead
  dsimp only
  split
  · exact h
  · split
    · exact h
    · exact .ite (h.setSlot.walkTurn.getD h.setSlot) h.setSlot

theorem Keeps.walkRelease {c i : ℕ} {s : State} (h : Keeps b s) : Keeps b (walkRelease c i s) := by
  unfold Machine.walkRelease
  dsimp only
  split
  · exact h
  · split
    · exact h
    · exact .ite h.setSlot h

theorem Keeps.execWalkerReleaseWaitEnd {c : ℕ} {slot : BitVec 3} {s : State} (h : Keeps b s) : KeepsOut b
    (execWalkerReleaseWaitEnd c slot s) :=
  h.engine (fun h => h.walkRelease)

theorem Keeps.tileArrive {c i : ℕ} {s : State} (h : Keeps b s) : Keeps b (tileArrive c i s) := by
  unfold Machine.tileArrive
  dsimp only
  split
  · exact h
  · split
    · exact h
    · split
      · exact h
      · split
        · exact h.slotEnd
        · split
          · exact .slotFault (.ite h.tally.modCore h.tally)
          · exact .modCore (.setSlot (.ite h.tally.modCore h.tally))

theorem Keeps.execTileArrival {c : ℕ} {slot : BitVec 3} {s : State} (h : Keeps b s) : KeepsOut b (execTileArrival c slot s) :=
  h.engine (fun h => h.tileArrive)

theorem Keeps.writeOut {c i : ℕ} {sl : DmaSlot} {u : UnitBuf} {s : State} (h : Keeps b s) : KeepsOpt b id (writeOut c i sl u s) :=
    by
  unfold Machine.writeOut
  dsimp only
  split
  · exact .none
  · split
    · exact h.holdMsg.map fun h => h.setSlot
    · exact .ite (.some h.setSlot.modCore) (.ite (.some h.holdBytes.setSlot) .none)

theorem Keeps.landRead {c i : ℕ} {sl : DmaSlot} {off : ℕ} {data : BitVec 256} {mark : Bool} {s : State} (h : Keeps b s) : Keeps b
    (landRead c i sl off data mark s) := by
  unfold Machine.landRead
  dsimp only
  split
  · split
    · exact h.slotFault
    · exact (h.ownWrite.get ‹_›).setSlot
  · exact h.setSlot

theorem Keeps.dmaTurn {c i : ℕ} {sl : DmaSlot} {s : State} (h : Keeps b s) : KeepsOpt b id (dmaTurn c i sl s) := by
  unfold Machine.dmaTurn
  dsimp only
  split
  · exact .none
  · split
    · exact h.writeOut
    · exact .ite .none (.ite h.writeOut (.ite (.some h.setSlot.modCore) (.some h.landRead)))

theorem Keeps.slotTurn {c i : ℕ} {s : State} (h : Keeps b s) : KeepsOpt b id (slotTurn c i s) := by
  unfold Machine.slotTurn
  split
  · exact .none
  · split
    · exact .none
    · split
      · exact h.walkTurn
      · exact h.dmaTurn

theorem Keeps.holdFrom {s : State} {c1 : ℕ} {slot : Option ℕ} {base : ℕ} {cells : List (ℕ × Byte)} {mark : Bool} (h : Keeps b s) :
    KeepsOpt b id (s.holdFrom c1 slot base cells mark) := by
  unfold State.holdFrom
  dsimp only
  split
  · exact .none
  · exact .ite (.some h.hold) .none

theorem Keeps.landed {s : State} {c1 : ℕ} {slot : Option ℕ} (h : Keeps b s) : Keeps b (s.landed c1 slot) := by
  unfold State.landed
  split
  · exact h
  · exact h.modCore

theorem Keeps.landExt {s : State} {c : ℕ} {x : ExtReq} (h : Keeps b s) : KeepsOpt b id (s.landExt c x) := by
  unfold State.landExt
  split
  · exact h.holdFrom.map fun h => h.landed
  · exact h.holdFrom.map fun h => h.landed
  · dsimp only
    split
    · exact .some h.writeMarked.modCore
    · exact .some h.writeMarked
  · exact .none

theorem Keeps.inboundTurn {c : ℕ} {s : State} (h : Keeps b s) : KeepsOpt b id (inboundTurn c s) := by
  unfold Machine.inboundTurn
  dsimp only
  split
  · exact .none
  · split
    · exact .none
    · exact h.setCore.landExt

theorem Keeps.outboundTurn {c : ℕ} {s : State} (h : Keeps b s) : KeepsOpt b id (outboundTurn c s) := by
  unfold Machine.outboundTurn
  dsimp only
  split
  · exact .none
  · split
    · split
      · exact .some h.setCore
      · exact .some h.setCore.landRead
    · exact .some h.setCore.walkRead
    · exact .none

theorem Keeps.portServe {c n : ℕ} {s : State} (h : Keeps b s) : KeepsOpt b id (portServe c n s) :=
  .ite h.slotTurn (.ite h.inboundTurn h.outboundTurn)

theorem Keeps.portNext {c : ℕ} {s : State} {x y : ℕ} (h : Keeps b s) : KeepsOpt b (·.2) (portNext c s x y) := by
  induction x generalizing y with
  | zero => exact .none
  | succ left ih =>
    unfold Machine.portNext
    split
    · exact .some (h.portServe.get ‹_›)
    · exact ih

theorem Keeps.portTurn {s : State} {c : ℕ} (h : Keeps b s) : KeepsOpt b (·.2) (s.portTurn c) := h.portNext.map fun h => h.modCore

theorem Keeps.execStorePortTurn {c : ℕ} {s : State} (h : Keeps b s) : KeepsOut b (execStorePortTurn c s) :=
  h.engine fun h => by
    split
    · exact (h.portTurn.get ‹_›)
    · exact h

theorem Keeps.execWalkerUnit {c : ℕ} {slot : BitVec 3} {s : State} (h : Keeps b s) : KeepsOut b (execWalkerUnit c slot s) :=
  h.engine fun h => by
    split
    · exact .ite (h.portTurn.get ‹_›) h
    · exact h

theorem Keeps.ownMove {c : ℕ} {sl : DmaSlot} {x : ℕ} {s : State} (h : Keeps b s) : KeepsOpt b id (ownMove c sl x s) := by
  induction x generalizing s with
  | zero => exact .some h
  | succ n ih =>
    unfold Machine.ownMove
    dsimp only
    split
    · exact .none
    · exact ih (h.ownWrite.get ‹_›)

theorem Keeps.dmaArrive {c i : ℕ} {s : State} (h : Keeps b s) : Keeps b (dmaArrive c i s) := by
  unfold Machine.dmaArrive
  split
  · exact h
  · split
    · exact h
    · split
      · split
        · exact h
        · split
          · exact h.slotFault
          · exact (h.ownMove.get ‹_›).slotEnd
      · exact .ite h.slotEnd h

theorem Keeps.execDmaArrival {c : ℕ} {slot : BitVec 3} {s : State} (h : Keeps b s) : KeepsOut b (execDmaArrival c slot s) :=
  h.engine (fun h => h.dmaArrive)

theorem Keeps.drainStep {c : ℕ} {s : State} (h : Keeps b s) : Keeps b (drainStep c s) := by
  unfold Machine.drainStep
  dsimp only
  split
  · exact h.modCore
  · exact .ite (h.modCore.putView h.modCore.view.drainTurn) (h.modCore.putView h.modCore.view.drainTurn).modCore.coreFault

theorem Keeps.execDrainBlock {c : ℕ} {s : State} (h : Keeps b s) : KeepsOut b (execDrainBlock c s) :=
  h.engine (fun h => h.drainStep.tally)

theorem Keeps.execGeneratorRequest {c : ℕ} {s : State} (h : Keeps b s) : KeepsOut b (execGeneratorRequest c s) :=
  h.engine (fun h => (h.putView h.view.genServe).tally)

theorem Keeps.queueResume {c q : ℕ} {push : Bool} {s : State} {t : ℕ} (h : Keeps b s) : Keeps b (queueResume c q push s t) := by
  unfold Machine.queueResume
  dsimp only
  split
  · exact h
  · split
    · exact .ite (h.onView (fun h => h.pushSome.queueEnd)).endThread h
    · exact .ite (h.onView (fun h => h.popSome.queueEnd)).endThread h
    · exact h

theorem Keeps.queueMove {c q : ℕ} {s : State} (h : Keeps b s) : Keeps b (queueMove c q s) := by
  unfold Machine.queueMove
  dsimp only
  split
  · exact h
  · split
    · exact h
    · exact .ite ((h.modCore.modCore.tally.foldl (fun h => h.queueResume)).foldl (fun h => h.queueResume)).tally h

theorem Keeps.execQueueEntryMove {c : ℕ} {q : BitVec 2} {s : State} (h : Keeps b s) : KeepsOut b (execQueueEntryMove c q s) :=
  h.engine (fun h => h.queueMove)

theorem Keeps.foldOpen {c : ℕ} {s : State} (h : Keeps b s) : Keeps b (foldOpen c s) := by
  unfold Machine.foldOpen
  dsimp only
  split
  · exact h
  · split
    · split
      · split
        · exact h
        · split
          · exact h
          · split
            · exact h.setCore.tally
            · split
              · exact h.setCore.tally
              · exact h.setCore
      · exact h
    · exact h

theorem Keeps.execFoldSlotOpen {c : ℕ} {s : State} (h : Keeps b s) : KeepsOut b (execFoldSlotOpen c s) :=
  h.engine (fun h => h.foldOpen)

theorem Keeps.execFillerSlotEnd {c : ℕ} {s : State} (h : Keeps b s) : KeepsOut b (execFillerSlotEnd c s) :=
  h.engine (fun h => .ite h.modCore h)

theorem Keeps.execFillerPortCutoff {c : ℕ} {s : State} (h : Keeps b s) : KeepsOut b (execFillerPortCutoff c s) :=
  h.engine (fun h => .ite h.modCore h)

theorem Keeps.showRecords {s : State} {d : ℕ} (h : Keeps b s) : Keeps b (s.showRecords d) := h.setReg.foldl (fun h => h.setReg)

theorem Keeps.queueRecord {s : State} {d r : ℕ} (h : Keeps b s) : Keeps b (s.queueRecord d r) := .ite h.count h.same.showRecords

theorem Keeps.dueRecord {s : State} {d r : ℕ} (h : Keeps b s) : Keeps b (s.dueRecord d r) := h.same

theorem Keeps.queueDue {s : State} (h : Keeps b s) : Keeps b (s.queueDue) := (h.foldl (fun h => h.queueRecord)).same

theorem Keeps.popRecord {s : State} {d : ℕ} (h : Keeps b s) : Keeps b (s.popRecord d) := h.same.showRecords

theorem Keeps.retireStack {s : State} {n : ℕ} (h : Keeps b s) : Keeps b (s.retireStack n) := h.setBit.setField.queueRecord

theorem Keeps.buildShadow {s : State} (h : Keeps b s) : Keeps b (s.buildShadow) := h.setBit.same

theorem Keeps.emit {s : State} {axis dir hdr : ℕ} {payload : List Byte} {fwd : Bool} {came : optParam (Option ℕ) none} (h : Keeps
    b s) : Keeps b (s.emit axis dir hdr payload fwd came) :=
  .ite h.portSend (.ite h (.ite h.count (.ite (.portSend (.ite h.count h)) (.count (.ite h.count h)))))

theorem Keeps.launch {s : State} {hdr : ℕ} {payload : List Byte} {fwd : Bool} (h : Keeps b s) : Keeps b (s.launch hdr payload
    fwd).1 := by
  unfold State.launch
  dsimp only
  split
  · exact h
  · exact .iteFst h.emit (.iteFst h.emit h)

/-- As an equation of functions: an equation of values would have the kernel run the routing tables of its right side. -/
theorem State.sendMsg_eq : State.sendMsg = fun s h => (s.launch ({ h with src := s.address } : Hdr).bits []).1 := rfl

theorem Keeps.sendMsg {s : State} {h' : Hdr} (h : Keeps b s) : Keeps b (s.sendMsg h') := by
  rw [State.sendMsg_eq]
  exact h.launch

theorem Keeps.setStream {s : State} {h' : ℕ} {x : Option Stream} (h : Keeps b s) : Keeps b (s.setStream h' x) := h.same

theorem Keeps.modStream {s : State} {h' : ℕ} {f : Stream → Stream} (h : Keeps b s) : Keeps b (s.modStream h' f) := by
  unfold State.modStream
  split
  · exact h.setStream
  · exact h

theorem Keeps.setIsr {s : State} {i : ℕ} {x : Option Isr} (h : Keeps b s) : Keeps b (s.setIsr i x) := h.same

theorem Keeps.setRing {s : State} {l : List HeldMsg} (h : Keeps b s) : Keeps b (s.setRing l) := h.same

theorem Keeps.streamFault {s : State} {h' cause : ℕ} (h : Keeps b s) : Keeps b (s.streamFault h' cause) := by
  unfold State.streamFault
  dsimp only
  split
  · exact h
  · split
    · exact h
    · split
      · exact h.setStream.trace
      · exact h.setStream.trace.modCmd

theorem Keeps.swapRoutes {s : State} (h : Keeps b s) : Keeps b (s.swapRoutes) :=
  .ite (h.setReg.same.foldl (fun h => (by split; exacts [.ite h h.streamFault, h]))) h

theorem Keeps.resendRound {s : State} {h' : ℕ} (h : Keeps b s) : Keeps b (s.resendRound h') := by
  unfold State.resendRound
  split
  · exact h
  · exact .ite h (.ite h.streamFault h.setStream.setRing)

theorem Keeps.acknowledge {s : State} {h' f q : ℕ} (h : Keeps b s) : Keeps b (s.acknowledge h' f q) := .ite h h.setRing.modStream

theorem Keeps.sequenceStream {s : State} {part ord h' : ℕ} (h : Keeps b s) : Keeps b (s.sequenceStream part ord h') :=
  .ite h h.setRing.modStream

theorem Keeps.sequence {s : State} {part ord : ℕ} (h : Keeps b s) : Keeps b (s.sequence part ord) :=
  h.foldl (fun h => h.sequenceStream)

theorem Keeps.onStream {h' : ℕ} {f : State → State} {s : State} (h : Keeps b s) (hf : ∀ {s : State}, Keeps b s → Keeps b (f s)) :
    KeepsOut b (onStream h' f s) :=
  .ite .fault (.ite (.next h) (.next (hf h)))

theorem Keeps.transmit {s : State} {h' : ℕ} (h : Keeps b s) : Keeps b (s.transmit h') := by
  unfold State.transmit
  dsimp only
  split
  · exact .ite h (.ite h.streamFault (.ite h h.launch.setRing.same))
  · exact h

theorem Keeps.execMessageTransmit {stream : ℕ} {s : State} (h : Keeps b s) : KeepsOut b (execMessageTransmit stream s) :=
  h.onStream (fun h => h.transmit)

theorem Keeps.execResendTimeout {stream : ℕ} {s : State} (h : Keeps b s) : KeepsOut b (execResendTimeout stream s) :=
  h.onStream (fun h => .ite (.ite h h.resendRound) h)

theorem Keeps.execParkedRepeat {stream : ℕ} {s : State} (h : Keeps b s) : KeepsOut b (execParkedRepeat stream s) :=
  h.onStream fun h => by
    split
    · exact .ite h.setRing h
    · exact h

theorem Keeps.answer {s : State} {kind dst stream lf ns : ℕ} {closed : Bool} {reason : ℕ} (h : Keeps b s) : Keeps b (s.answer kind
    dst stream lf ns closed reason) :=
  h.sendMsg

theorem Keeps.landMsg {s : State} {n : ℕ} {w : Window} {h' : Hdr} {payload : List Byte} (h : Keeps b s) : Keeps b (s.landMsg n w
    h' payload) :=
  .ite h.same.writeMarked.modCore h.same.modCore

theorem Keeps.orderRule {s : State} {n i : ℕ} {w : Window} {r : Isr} {h' : Hdr} {payload : List Byte} (h : Keeps b s) : Keeps b
    (s.orderRule n i w r h' payload) :=
  .ite h.count.answer (.ite (.ite h.landMsg.setIsr.answer h.landMsg.setIsr) h.answer)

theorem Keeps.receiveWrite {s : State} {hdr : BitVec 256} {payload : List Byte} (h : Keeps b s) : Keeps b (s.receiveWrite hdr
    payload) := by
  unfold State.receiveWrite
  dsimp only
  split
  · exact h.count.answer
  · split
    · exact h.answer
    · split
      · exact h.count.answer
      · split
        · exact h.count.answer
        · split
          · exact h.orderRule
          · split
            · exact h.answer
            · split
              · exact h.setBit.answer
              · exact h.setIsr.orderRule

theorem Keeps.onLine {p : ℕ} {f : State → State} {s : State} (h : Keeps b s) (hf : ∀ {s : State}, Keeps b s → Keeps b (f s)) :
    KeepsOut b (onLine p f s) :=
  .ite .fault (.ite (.next h) (.next (hf h)))

theorem Keeps.onPort {p : ℕ} {f : State → State} {s : State} (h : Keeps b s) (hf : ∀ {s : State}, Keeps b s → Keeps b (f s)) :
    KeepsOut b (onPort p f s) :=
  .ite .fault (.ite (.next h) (.next (hf h)))

theorem Keeps.execWriteMessageReceive {p : ℕ} {hdr : BitVec 256} {payload : List (BitVec 8)} {s : State} (h : Keeps b s) :
    KeepsOut b (execWriteMessageReceive p hdr payload s) :=
  h.onPort (fun h => .ite h.passOn.receiveWrite h)

theorem Keeps.execMessageForward {p : ℕ} {hdr : BitVec 256} {payload : List (BitVec 8)} {s : State} (h : Keeps b s) : KeepsOut b
    (execMessageForward p hdr payload s) :=
  h.onPort (fun h => .ite h (.ite h.passOn.emit h.passOn.launch))

theorem Keeps.execRetire {hdr : BitVec 256} {s : State} (h : Keeps b s) : KeepsOut b (execRetire hdr s) := by
  unfold Machine.execRetire
  dsimp only
  split
  · exact .next h
  · split
    · exact .next h
    · exact .ite (.next h.passAny) (.next h.passAny.setRing.setStream)

theorem Keeps.execRewind {hdr : BitVec 256} {s : State} (h : Keeps b s) : KeepsOut b (execRewind hdr s) := by
  unfold Machine.execRewind
  dsimp only
  split
  · exact .next h
  · split
    · exact .next h
    · exact .next h.passAny.setRing

theorem Keeps.nakStream {s : State} {h' : Hdr} (h : Keeps b s) : Keeps b (s.nakStream h') := by
  unfold State.nakStream
  split
  · exact h.acknowledge.resendRound
  · exact h.streamFault
  · exact h.streamFault
  · exact h.streamFault
  · exact h.modStream
  · exact h.resendRound
  · exact h

theorem Keeps.execAckTimer {src stream : ℕ} {s : State} (h : Keeps b s) : KeepsOut b (execAckTimer src stream s) := by
  unfold Machine.execAckTimer
  split
  · exact .next h
  · split
    · exact .ite (.next h.setIsr.answer) (.next h)
    · exact .next h

theorem Keeps.sendRetires {s : State} {p : ℕ} {mirrored : KMap Isr} (h : Keeps b s) : Keeps b (s.sendRetires p mirrored) :=
  h.foldl fun h => by
    split
    · exact .ite h.setIsr.answer h
    · exact h

theorem Keeps.setPortState {s : State} {p st : ℕ} (h : Keeps b s) : Keeps b (s.setPortState p st) := h.setField

theorem Keeps.sendLinkState {s : State} {axis coord : ℕ} {up : Bool} (h : Keeps b s) : Keeps b (s.sendLinkState axis coord up) :=
  h.foldl (fun h => .ite h.emit h)

theorem Keeps.noteLink {s : State} {axis coord : ℕ} {up : Bool} (h : Keeps b s) : Keeps b (s.noteLink axis coord up) :=
  h.same.buildShadow

theorem Keeps.portDown {s : State} {p cause : ℕ} (h : Keeps b s) : Keeps b (s.portDown p cause) :=
  h.setPortState.count.trace.queueRecord.modPort.noteLink.sendLinkState.foldl (fun h => .ite h h.emit)

theorem Keeps.execPortFail {p cause : ℕ} {s : State} (h : Keeps b s) : KeepsOut b (execPortFail p cause s) :=
  h.onPort (fun h => .ite h.portDown h)

theorem Keeps.linkReplay {s : State} {p acked : ℕ} (h : Keeps b s) : Keeps b (s.linkReplay p acked) :=
  .ite h.portDown h.modPort.tally.pumpPort

theorem Keeps.execLinkReplay {p acked : ℕ} {s : State} (h : Keeps b s) : KeepsOut b (execLinkReplay p acked s) :=
  h.onLine (fun h => h.linkReplay)

theorem Keeps.blockHeader {s : State} {p hdr : ℕ} (h : Keeps b s) : Keeps b (s.blockHeader p hdr) :=
  .ite h.modPort.count.linkReplay h.modPort.pumpPort

theorem Keeps.blockReceive {s : State} {p : ℕ} {good corr : Bool} {blk : List Byte} (h : Keeps b s) : Keeps b (s.blockReceive p
    good corr blk) :=
  .ite (.ite (.ite h.count.tally h) (.modPort (.tally (.count (.ite h.count.tally h))))) (.ite (.blockHeader (.ite h.count.tally
    h)) (.ite (.modPort (.tally (.blockHeader (.ite h.count.tally h)))) (.modPort (.tally (.count (.blockHeader (.ite
    h.count.tally h)))))))

theorem Keeps.execLinkBlockReceive {p : ℕ} {good corr : Bool} {blk : List (BitVec 8)} {s : State} (h : Keeps b s) : KeepsOut b
    (execLinkBlockReceive p good corr blk s) :=
  h.onLine (fun h => h.blockReceive)

theorem Keeps.portRequest {s : State} {p : ℕ} {up : Bool} (h : Keeps b s) : Keeps b (s.portRequest p up) :=
  .ite (.ite h.setField.setPortState h.setField) (.ite h.setField.setPortState (.ite h.setField.portDown h.setField))

theorem Keeps.execPortUpRequest {p : ℕ} {up : Bool} {s : State} (h : Keeps b s) : KeepsOut b (execPortUpRequest p up s) :=
  .ite (.next h.enqueueWrite) (h.onPort (fun h => h.portRequest))

theorem Keeps.portTrained {s : State} {p nb delay : ℕ} (h : Keeps b s) : Keeps b (s.portTrained p nb delay) :=
  .ite h.setField.setPortState.setBit (.ite h.setField.setPortState.setBit
    h.setField.setPortState.setReg.modPort.noteLink.sendLinkState)

theorem Keeps.execPortUp {p neighbour delay : ℕ} {s : State} (h : Keeps b s) : KeepsOut b (execPortUp p neighbour delay s) :=
  h.onPort (fun h => .ite h.portTrained h)

theorem Keeps.execPortTrainingRepeat {p : ℕ} {s : State} (h : Keeps b s) : KeepsOut b (execPortTrainingRepeat p s) :=
  h.onPort (fun h => .ite h.setPortState h)

theorem Keeps.execLinkState {p src : ℕ} {link : TorusLink} {up : Bool} {s : State} (h : Keeps b s) : KeepsOut b (execLinkState p
    src link up s) :=
  h.onPort (fun h => .ite h (.ite h.passOn h.passOn.noteLink.emit))

theorem Keeps.openWindow {s : State} {id : ℕ} {c : Cmd} (h : Keeps b s) : Keeps b (s.openWindow id c) := by
  unfold State.openWindow
  dsimp only
  split
  · split
    · exact .ite h.same h.deny
    · exact h.deny
  · split
    · exact h.deny
    · exact h.setStream.complete

theorem Keeps.closeStreams {s : State} (h : Keeps b s) : Keeps b (s.closeStreams) :=
  h.foldl fun h => by
    split
    · split
      · exact .ite h.setRing.setStream.completeOwn h
      · exact h
    · exact h

theorem Keeps.closeWindow {s : State} {id : ℕ} {c : Cmd} (h : Keeps b s) : Keeps b (s.closeWindow id c) := by
  unfold State.closeWindow
  dsimp only
  split
  · split
    · exact .ite h.same h.deny
    · exact h.deny
  · split
    · exact .ite h.setStream.closeStreams h.deny
    · exact h.deny

theorem Keeps.swapWindows {s : State} (h : Keeps b s) : Keeps b (s.swapWindows) :=
  h.same.foldl fun h => by
  dsimp only
  split
  · exact h.same
  · exact h.same.complete

theorem Keeps.park {s : State} {p : ℕ} {on : Bool} (h : Keeps b s) : Keeps b (s.park p on) := h.same

end Sys2Proof.Machine
end

section
/-! PROOFS. What every command keeps, 3: queues, images, collectives, the pool, the tiers. -/

namespace Sys2Proof.Machine

variable {b : State}

theorem Keeps.onQueue {f q : ℕ} {g : State → State} {s : State} (h : Keeps b s) (hg : ∀ {s : State}, Keeps b s → Keeps b (g s)) :
    KeepsOut b (onQueue f q g s) :=
  .ite .fault (.ite (.next (hg h)) (.next h))

theorem Keeps.writeTail {s : State} {f q tail : ℕ} (h : Keeps b s) : Keeps b (s.writeTail f q tail) := .ite h.setBit h.setReg

theorem Keeps.writeCqHead {s : State} {f q head : ℕ} (h : Keeps b s) : Keeps b (s.writeCqHead f q head) :=
  .ite h.setBit h.setReg.flushHeld

theorem Keeps.execDoorbell {f q tail : ℕ} {s : State} (h : Keeps b s) : KeepsOut b (execDoorbell f q tail s) :=
  h.onQueue (fun h => .ite h.enqueueWrite h.writeTail)

theorem Keeps.execCqHeadWrite {f q head : ℕ} {s : State} (h : Keeps b s) : KeepsOut b (execCqHeadWrite f q head s) :=
  h.onQueue (fun h => .ite h.enqueueWrite h.writeCqHead)

theorem Keeps.abandonPending {s : State} (h : Keeps b s) : Keeps b (s.abandonPending) := h.setField

theorem Keeps.enableQueue {s : State} {f q : ℕ} (h : Keeps b s) : Keeps b (s.enableQueue f q) :=
  .ite h h.modQueue.setBit.setBit.abandonPending.flushHeld

theorem Keeps.disableQueue {s : State} {f q : ℕ} (h : Keeps b s) : Keeps b (s.disableQueue f q) := h.modQueue.clearBit.clearBit

theorem Keeps.execQueueEnable {f q : ℕ} {s : State} (h : Keeps b s) : KeepsOut b (execQueueEnable f q s) :=
  h.onQueue (fun h => .ite h.enqueueWrite h.enableQueue)

theorem Keeps.execQueueDisable {f q : ℕ} {s : State} (h : Keeps b s) : KeepsOut b (execQueueDisable f q s) :=
  h.onQueue (fun h => .ite h.enqueueWrite h.disableQueue)

theorem Keeps.execHostAccessFail {f q : ℕ} {write : Bool} {s : State} (h : Keeps b s) : KeepsOut b (execHostAccessFail f q write
    s) :=
  h.onQueue (fun h => .ite h (.markHeld (.setBit (.clearBit (.modQueue (.ite h.unwrite h))))))

theorem Keeps.nextHseq {s : State} {f q : ℕ} (h : Keeps b s) : Keeps b (s.nextHseq f q) := h.setReg

theorem Keeps.turnAway {s : State} {id : ℕ} {c : Cmd} (h : Keeps b s) : Keeps b (s.turnAway id c) :=
  .ite h.setCmd.post (.post (.ite (.replayUnchecked (.ite h.setCmd h.setCmd.nextHseq)) (.ite h.setCmd h.setCmd.nextHseq)))

theorem Keeps.consumeRefused {s : State} {f q x : ℕ} (h : Keeps b s) : Keeps b (s.consumeRefused f q x) := by
  induction x generalizing s with
  | zero => exact h
  | succ n ih =>
    unfold State.consumeRefused
    split
    · exact .ite (ih h.turnAway) h
    · exact h

theorem Keeps.noteAccept {s : State} (h : Keeps b s) : Keeps b (s.noteAccept) := h.same

theorem Keeps.accept {s : State} {id : ℕ} {c : Cmd} (h : Keeps b s) : Keeps b (s.accept id c) := by
  unfold State.accept
  dsimp only
  split
  · exact .deny (by split; exacts [h.setCmd.setCmd.same.nextHseq.noteAccept.tally.count.count.post.same.modCmd,
    h.setCmd.setCmd.same.nextHseq.noteAccept.tally.count.count.post])
  · split
    · exact h.setCmd.setCmd.same.nextHseq.noteAccept.tally.count.count.post.same.modCmd
    · exact h.setCmd.setCmd.same.nextHseq.noteAccept.tally.count.count.post

theorem Keeps.acceptNext {s : State} {f q : ℕ} (h : Keeps b s) : Keeps b (s.acceptNext f q) := by
  unfold State.acceptNext
  dsimp only
  split
  · exact h
  · exact .consumeRefused (.ite h.turnAway (.ite h.turnAway h.accept))

theorem Keeps.execCommandAccept {f q : ℕ} {s : State} (h : Keeps b s) : KeepsOut b (execCommandAccept f q s) :=
  .ite .fault (.ite (.next h) (.next h.acceptNext))

theorem Keeps.fetchOne {s : State} {f q : ℕ} (h : Keeps b s) : Keeps b (s.fetchOne f q) :=
  .ite h (.ite h.setBit h.clearBit.modQueue.setReg.setCmd.same.consumeRefused)

theorem Keeps.hostCells {s : State} {cells : List (ℕ × BitVec 8)} (h : Keeps b s) : Keeps b (s.hostCells cells) :=
  h.withMem (Mem.wf_writeCells _ _)

theorem Keeps.execFetchRound {cells : List (ℕ × BitVec 8)} {s : State} (h : Keeps b s) : KeepsOut b (execFetchRound cells s) :=
  .ite (.next h.hostCells) (.next (h.hostCells.foldl (fun h => h.fetchOne)))

theorem Keeps.finalise {s : State} {p id : ℕ} {c : Cmd} (h : Keeps b s) : Keeps b (s.finalise p id c) := by
  unfold State.finalise
  dsimp only
  split
  · exact h.deny
  · split
    · exact h
    · split
      · exact h.deny
      · split
        · exact h.deny
        · split
          · exact h.deny
          · split
            · split
              · exact h.modPart.tally
              · exact h
            · exact h.modPart.tally

theorem Keeps.execFinalisation {p : ℕ} {s : State} (h : Keeps b s) : KeepsOut b (execFinalisation p s) := by
  unfold Machine.execFinalisation
  split
  · exact .fault
  · split
    · exact .next h
    · split
      · exact .ite (.next h) (.next h.finalise)
      · exact .next h

theorem Keeps.writeConfig {s : State} {m : ImgHeld} {vi k i : ℕ} (h : Keeps b s) : Keeps b (s.writeConfig m vi k i) :=
  h.withMem (Mem.wf_writeBytes _ _ _)

theorem Keeps.writeCode {s : State} {m : ImgHeld} {index : ℕ → ℕ → ℕ} (h : Keeps b s) : Keeps b (s.writeCode m index) :=
  h.foldl (fun h => h.foldl (fun h => h.writeConfig))

theorem Keeps.writeDescs {s : State} {m : ImgHeld} {dies : List ℕ} (h : Keeps b s) : Keeps b (s.writeDescs m dies) :=
  h.foldl (fun h => h.writeMarked)

theorem Keeps.zeroAcc {s : State} {c : ℕ} (h : Keeps b s) : Keeps b (s.zeroAcc c) := h.withMem (Mem.wf_zero _ _ _)

theorem Keeps.startPart {s : State} {p : ℕ} {m : ImgHeld} (h : Keeps b s) : Keeps b (s.startPart p m) :=
  h.foldl (fun h => h.setCore.zeroAcc)

theorem Keeps.writeLoad {s : State} {p : ℕ} {m : ImgHeld} (h : Keeps b s) : Keeps b (s.writeLoad p m) :=
  h.writeCode.writeDescs.modPart

theorem Keeps.execLoadFrame {p : ℕ} {s : State} (h : Keeps b s) : KeepsOut b (execLoadFrame p s) := by
  unfold Machine.execLoadFrame
  split
  · exact .fault
  · split
    · exact .next h
    · split
      · exact .ite (.next h.writeLoad) (.next h)
      · exact .next h

theorem Keeps.execFillerLoad {p : ℕ} {s : State} (h : Keeps b s) : KeepsOut b (execFillerLoad p s) := by
  unfold Machine.execFillerLoad
  split
  · exact .fault
  · split
    · exact .next h
    · split
      · exact .next h.writeCode.writeDescs.modPart
      · exact .next h

/-- As equations of functions, for the reason of `State.sendMsg_eq`. -/
theorem State.sendColl_eq : State.sendColl = fun s m => (s.launch (m.bits 1 0) m.payload).1 := rfl

theorem Keeps.sendColl {s : State} {m : CollMsg} (h : Keeps b s) : Keeps b (s.sendColl m) := by
  rw [State.sendColl_eq]
  exact h.launch

theorem Keeps.sendColls {s : State} {l : List CollMsg} (h : Keeps b s) : Keeps b (l.foldl State.sendColl s) :=
  h.foldl Keeps.sendColl

theorem State.answerColl_eq : State.answerColl = fun s m kind reason =>
    (s.launch (CollMsg.bits { m with dst := m.src, src := s.address, payload := [], dirs := 0, turned := false } kind reason) []).1 :=
  rfl

theorem Keeps.answerColl {s : State} {m : CollMsg} {kind reason : ℕ} (h : Keeps b s) : Keeps b (s.answerColl m kind reason) := by
  rw [State.answerColl_eq]
  exact h.launch

theorem Keeps.setColl {s : State} {id : ℕ} {c : Option Coll} (h : Keeps b s) : Keeps b (s.setColl id c) := h.same

theorem Keeps.sendEdge {s : State} {id : ℕ} {e : Sending} {upto : ℕ} (h : Keeps b s) : Keeps b (s.sendEdge id e upto) := by
  unfold State.sendEdge
  dsimp only
  split
  · exact h
  · exact h.sendColls.setColl

theorem Keeps.collSettle {s : State} {id : ℕ} (h : Keeps b s) : Keeps b (s.collSettle id) := by
  unfold State.collSettle
  split
  · exact h
  · exact .ite h.setColl h

theorem Keeps.collPump {s : State} {id x : ℕ} (h : Keeps b s) : Keeps b (s.collPump id x) := by
  induction x generalizing s with
  | zero => exact h
  | succ fuel ih =>
    unfold State.collPump
    dsimp only
    split
    · exact h
    · rename_i c _
      have h1 : Keeps b ((s.sendSteps c).foldl (fun s e => s.sendEdge id e.1 e.2) s) := h.foldl fun h => h.sendEdge
      split
      · exact h
      · split
        · exact h1
        · split
          · split
            · exact ih h1.setColl.orStep
            · exact h1
          · exact h1

theorem Keeps.collRun {s : State} {id : ℕ} (h : Keeps b s) : Keeps b (s.collRun id) := .ite h h.collPump.collSettle

theorem Keeps.collFail {s : State} {id reason : ℕ} (h : Keeps b s) : Keeps b (s.collFail id reason) := h.setColl.faultCmd

theorem Keeps.takeLine {s : State} {id : ℕ} {c : Coll} {m : CollMsg} {edge : ℕ} (h : Keeps b s) : Keeps b (s.takeLine id c m edge)
    :=
  h.setColl.orStep.answerColl.collRun

theorem Keeps.rideStatus {s : State} {f : ℕ} {m : CollMsg} (h : Keeps b s) : Keeps b (s.rideStatus f m) := .ite h.orStep h

theorem Keeps.receiveColl {s : State} {m : CollMsg} (h : Keeps b s) : Keeps b (s.receiveColl m) := by
  unfold State.receiveColl
  dsimp only
  split
  · exact h.count.answerColl
  · split
    · exact h.rideStatus.answerColl
    · split
      · exact h.rideStatus.setBit.collFail
      · split
        · exact h.rideStatus.answerColl
        · exact .ite h.rideStatus.count.answerColl (.ite h.rideStatus.answerColl h.rideStatus.takeLine)

theorem Keeps.execCollMessageReceive {p : ℕ} {hdr : BitVec 256} {payload : List (BitVec 8)} {s : State} (h : Keeps b s) : KeepsOut
    b (execCollMessageReceive p hdr payload s) :=
  h.onPort (fun h => .ite h.passOn.receiveColl h)

theorem Keeps.putColl {s : State} {id : ℕ} {c : Coll} (h : Keeps b s) : Keeps b (s.putColl id c) := .ite h.setColl h.same

theorem Keeps.collAck {s : State} {a : CollMsg} (h : Keeps b s) : Keeps b (s.collAck a) := by
  unfold State.collAck
  split
  · exact h.putColl.collSettle
  · exact h

theorem Keeps.collNak {s : State} {a : CollMsg} {reason : ℕ} (h : Keeps b s) : Keeps b (s.collNak a reason) := by
  unfold State.collNak
  split
  · exact .ite (h.foldl (fun h => h.sendColl)) (.ite h.putColl h)
  · exact h

theorem Keeps.repeatRefused {s : State} {id : ℕ} {c : Coll} (h : Keeps b s) : Keeps b (s.repeatRefused id c) :=
  h.putColl.foldl (fun h => h.sendColl)

theorem Keeps.execCollNotreadyRepeat {id : ℕ} {s : State} (h : Keeps b s) : KeepsOut b (execCollNotreadyRepeat id s) := by
  unfold Machine.execCollNotreadyRepeat
  split
  · exact .next h
  · split
    · exact .next h.repeatRefused
    · exact .next h.repeatRefused
    · exact .next h

theorem Keeps.execCollTimeout {id : ℕ} {s : State} (h : Keeps b s) : KeepsOut b (execCollTimeout id s) := by
  unfold Machine.execCollTimeout
  split
  · exact .next h
  · split
    · exact .ite (.next h) (.next h.setBit.collFail)
    · exact .next h

theorem Keeps.execNak {hdr : BitVec 256} {s : State} (h : Keeps b s) : KeepsOut b (execNak hdr s) := by
  unfold Machine.execNak
  dsimp only
  split
  · exact .next h
  · split
    · exact .ite (.next h.passAny.collNak) (.next h.passAny.nakStream)
    · exact .ite (.next h.passAny.collNak) (.next h)

theorem Keeps.execAck {hdr : BitVec 256} {s : State} (h : Keeps b s) : KeepsOut b (execAck hdr s) := by
  unfold Machine.execAck
  dsimp only
  split
  · exact .next h
  · split
    · exact .next h.passAny.acknowledge
    · exact .ite (.next h.passAny.collAck) (.next h)

theorem Keeps.holdAsync {s : State} {part ord home : ℕ} {mark : Bool} {k : ℕ} {bs : List Byte} (h : Keeps b s) : KeepsOpt b id
    (s.holdAsync part ord home mark k bs) :=
  KeepsOpt.foldl (.some h) fun h => h.bind fun h => .ite (.some h.hold) .none

theorem Keeps.countWait {s : State} {home k : ℕ} (h : Keeps b s) : Keeps b (s.countWait home k) := h.count

theorem Keeps.holdLanding {s : State} {c : Coll} {ord : ℕ} {x : Landing} (h : Keeps b s) : KeepsOpt b id (s.holdLanding c ord x)
    :=
  KeepsOpt.foldl (.some h) fun h => h.bind fun h => by
  split
  · exact h.holdAsync
  · exact .some h

theorem Keeps.landLines {s : State} {id ord x : ℕ} (h : Keeps b s) : Keeps b (s.landLines id ord x) := by
  induction x generalizing s with
  | zero => exact h
  | succ fuel ih =>
    unfold State.landLines
    dsimp only
    split
    · exact h
    · split
      · exact h
      · split
        · exact .ite h h.setColl.countWait
        · have h1 := h.holdLanding.get ‹_›
          exact ih (.ite h1.setColl.modCmd h1.setColl)

theorem Keeps.collLand {s : State} {id : ℕ} (h : Keeps b s) : Keeps b (s.collLand id) := by
  unfold State.collLand
  dsimp only
  split
  · exact h
  · split
    · exact h
    · split
      · exact h.collSettle
      · split
        · exact h.landLines
        · exact .ite h.landLines.setColl h.landLines

theorem Keeps.execCollLanding {id : ℕ} {s : State} (h : Keeps b s) : KeepsOut b (execCollLanding id s) :=
  .ite (.next h) (.next h.collLand)

theorem Keeps.collDone {s : State} {id : ℕ} {c : Coll} (h : Keeps b s) : Keeps b (s.collDone id c) := by
  unfold State.collDone
  dsimp only
  split
  · split
    · exact h.setColl.putColl.setReg.setReg
    · exact h.setColl.putColl.setReg.setReg.complete
  · exact h.setColl.putColl.completeOwn

theorem Keeps.putColls {s : State} {p : ℕ} {k : KMap Coll} (h : Keeps b s) : Keeps b (s.putColls p k) :=
  h.foldl (fun h => h.setColl.sendColls.collRun)

theorem Keeps.collsCommit {s : State} {p ord : ℕ} (h : Keeps b s) : Keeps b (s.collsCommit p ord) :=
  h.foldl fun h => by
    split
    · split
      · exact .ite h.collDone h
      · exact h
    · exact h

theorem Keeps.startColl {s : State} {id p : ℕ} {c : Cmd} (h : Keeps b s) : Keeps b (s.startColl id p c) :=
  .collRun (.setColl (.ite h.setReg h))

theorem Keeps.commitStep {s : State} {id : ℕ} {c : Cmd} (h : Keeps b s) : Keeps b (s.commitStep id c) :=
  .ite h.deny (.ite h.same.completeOwn (h.same.foldl (fun h => h.modCmd)).same.modCmd.completeOwn)

theorem Keeps.countStalls {s : State} (h : Keeps b s) : Keeps b (s.countStalls) := by
  unfold State.countStalls
  dsimp only
  split
  · exact h
  · exact h.same

theorem Keeps.tierErr {s : State} {i : ℕ} (h : Keeps b s) : Keeps b (s.tierErr i) := h.setBit

theorem Keeps.settleRange {s : State} {a n : ℕ} (h : Keeps b s) : Keeps b (s.settleRange a n) :=
  (h.foldl (fun h => h.applyEntry)).same

theorem Keeps.uncache {s : State} {a n : ℕ} (h : Keeps b s) : Keeps b (s.uncache a n) := h.same

theorem Keeps.clearRange {s : State} {a n : ℕ} (h : Keeps b s) : Keeps b (s.clearRange a n) :=
  h.settleRange.uncache.withMem (Mem.wf_zero _ _ _)

theorem Keeps.moveRange {s : State} {src dst n : ℕ} (h : Keeps b s) : Keeps b (s.moveRange src dst n) :=
  h.settleRange.clearRange.withMem (Mem.wf_writeCells _ _)

theorem Keeps.evict {s : State} {f v : ℕ} {p : Page} (h : Keeps b s) : Keeps b (s.evict f v p) := h.moveRange.setPage.count

theorem Keeps.takeNear {s : State} {more : List (ℕ × ℕ)} (h : Keeps b s) : KeepsOpt b (·.1) (s.takeNear more) :=
  .ite (.some h) (.ofMap fun _ => h.evict)

theorem Keeps.poolPage {s : State} {more : List (ℕ × ℕ)} {r : PoolReq} {v : ℕ} (h : Keeps b s) : KeepsOpt b id (s.poolPage more r
    v) := by
  unfold State.poolPage
  dsimp only
  split
  · exact .ofBind fun q => .ite (.some h.clearRange.setPage) (h.takeNear.map fun h => h.clearRange.setPage)
  · exact h.takeNear.map fun h => h.clearRange.setPage
  · exact .some h.setPage
  · exact .ite (h.takeNear.map fun h => h.moveRange.setPage) (.some h.setPage)
  · exact .ofMap fun q => h.setPage
  · exact .some h

theorem Keeps.poolPages {s : State} {more : List (ℕ × ℕ)} {r : PoolReq} {x y : ℕ} (h : Keeps b s) : Keeps b (s.poolPages more r x
    y).1 := by
  induction x generalizing s y with
  | zero => exact h
  | succ n ih =>
    unfold State.poolPages
    split
    · exact ih (h.poolPage.get ‹_›)
    · exact h

theorem Keeps.poolResult {s : State} {f code pages : ℕ} (h : Keeps b s) : Keeps b (s.poolResult f code pages) := h.setReg

theorem Keeps.poolRun {s : State} {more : List (ℕ × ℕ)} {r : PoolReq} (h : Keeps b s) : Keeps b (s.poolRun more r) := by
  unfold State.poolRun
  dsimp only
  split
  · exact h.poolResult
  · exact h.poolPages.poolResult

theorem Keeps.poolSwap {s : State} {more : List (ℕ × ℕ)} (h : Keeps b s) : Keeps b (s.poolSwap more) :=
  h.same.foldl (fun h => .ite h.same h.poolRun)

theorem Keeps.poolGo {s : State} {f : ℕ} (h : Keeps b s) : Keeps b (s.poolGo f) := .ite h h.setReg.same

theorem Keeps.poolCommand {op f : ℕ} {s : State} (h : Keeps b s) : KeepsOut b (poolCommand op f s) :=
  .ite .fault (.ite (.next h.enqueueWrite) (.ite (.next h) (.next h.poolGo)))

theorem Keeps.execMap {f : ℕ} {s : State} (h : Keeps b s) : KeepsOut b (execMap f s) := h.poolCommand

theorem Keeps.execMapPinned {f : ℕ} {s : State} (h : Keeps b s) : KeepsOut b (execMapPinned f s) := h.poolCommand

theorem Keeps.execUnmap {f : ℕ} {s : State} (h : Keeps b s) : KeepsOut b (execUnmap f s) := h.poolCommand

theorem Keeps.execPin {f : ℕ} {s : State} (h : Keeps b s) : KeepsOut b (execPin f s) := h.poolCommand

theorem Keeps.execUnpin {f : ℕ} {s : State} (h : Keeps b s) : KeepsOut b (execUnpin f s) := h.poolCommand

theorem Keeps.refill {s : State} {f v : ℕ} (h : Keeps b s) : Keeps b (s.refill f v) := by
  unfold State.refill
  split
  · split
    · split
      · exact (h.takeNear.get ‹_›).moveRange.setPage.count
      · exact h
    · exact h
  · exact h

theorem Keeps.touch {s : State} {d k : ℕ} {marked : Bool} (h : Keeps b s) : Keeps b (s.touch d k marked) := by
  unfold State.touch
  dsimp only
  split
  · exact h
  · exact .ite h.same h

theorem Keeps.writeCacheBase {s : State} {d value : ℕ} (h : Keeps b s) : Keeps b (s.writeCacheBase d value) :=
  .ite h (.ite h.tierErr h.setReg.same)

theorem Keeps.execCacheBaseWrite {d value : ℕ} {s : State} (h : Keeps b s) : KeepsOut b (execCacheBaseWrite d value s) :=
  .ite .fault (.ite (.next h.enqueueWrite) (.next h.writeCacheBase))

theorem Keeps.writeCarve {s : State} {f d value : ℕ} (h : Keeps b s) : Keeps b (s.writeCarve f d value) :=
  .ite h (.ite h.tierErr h.setReg)

theorem Keeps.execCarveWrite {f d value : ℕ} {s : State} (h : Keeps b s) : KeepsOut b (execCarveWrite f d value s) :=
  .ite .fault (.ite (.next h.enqueueWrite) (.next h.writeCarve))

theorem Keeps.takeCarve {s : State} {f d : ℕ} (h : Keeps b s) : Keeps b (s.takeCarve f d) :=
  (h.foldl (fun h => h.clearRange)).same

theorem Keeps.takeCarves {s : State} (h : Keeps b s) : Keeps b (s.takeCarves) := h.foldl (fun h => h.takeCarve)

theorem Keeps.writeShares {s : State} {f value : ℕ} (h : Keeps b s) : Keeps b (s.writeShares f value) := .ite h.tierErr h.setReg

theorem Keeps.execSharesWrite {f value : ℕ} {s : State} (h : Keeps b s) : KeepsOut b (execSharesWrite f value s) :=
  .ite .fault (.ite (.next h.enqueueWrite) (.next h.writeShares))

theorem Keeps.writeQuota {s : State} {f k value : ℕ} (h : Keeps b s) : Keeps b (s.writeQuota f k value) := .ite h.tierErr h.setReg

theorem Keeps.execQuotaWrite {f kind value : ℕ} {s : State} (h : Keeps b s) : KeepsOut b (execQuotaWrite f kind value s) :=
  .ite .fault (.ite (.next h.enqueueWrite) (.next h.writeQuota))

theorem Keeps.swapFlash {s : State} (h : Keeps b s) : Keeps b (s.swapFlash) := h.same

theorem Keeps.setUsable {s : State} {b' : ℕ} {on : Bool} (h : Keeps b s) : Keeps b (s.setUsable b' on) := h.setField.setField

theorem Keeps.execOfflineReq {b' : ℕ} {s : State} (h : Keeps b s) : KeepsOut b (execOfflineReq b' s) :=
  .ite .fault (.ite (.next h.enqueueWrite) (.next h.setBit))

theorem Keeps.bayUp {s : State} {b' reason blocks : ℕ} (h : Keeps b s) : Keeps b (s.bayUp b' reason blocks) :=
  h.setField.setUsable.same

theorem Keeps.execBayOnline {b' reason blocks : ℕ} {s : State} (h : Keeps b s) : KeepsOut b (execBayOnline b' reason blocks s) :=
  .ite .fault (.ite (.next h) (.ite (.next h.clearBit.clearBit.bayUp) (.next h.clearBit.clearBit)))

theorem Keeps.execDrivePull {b' : ℕ} {present : Bool} {s : State} (h : Keeps b s) : KeepsOut b (execDrivePull b' present s) :=
  .ite .fault (.ite (.next h.setBit) (.next h.clearBit.setUsable))

theorem Keeps.stackError {s : State} {n : ℕ} (h : Keeps b s) : Keeps b (s.stackError n) := .ite h.same.retireStack h.same

theorem Keeps.setCopy {s : State} {id : ℕ} {r : Option CopyRun} (h : Keeps b s) : Keeps b (s.setCopy id r) := h.same

theorem Keeps.countUmber {s : State} {r : CopyRun} (h : Keeps b s) : Keeps b (s.countUmber r) := h.count.count.tally

theorem Keeps.holdLine {s : State} {r : CopyRun} {ord : ℕ} {cells : List (ℕ × Byte)} {mark : Bool} (h : Keeps b s) : KeepsOpt b id
    (s.holdLine r ord cells mark) := by
  unfold State.holdLine
  dsimp only
  split
  · exact .some h
  · exact .ite (.some h.hold) .none

theorem Keeps.cacheLines {s : State} {r : CopyRun} {p : CopyPos} {fail : Bool} (h : Keeps b s) : Keeps b (s.cacheLines r p fail)
    :=
  .ite (h.foldl (fun h => h.touch)) h

theorem Keeps.deliver {s : State} {r : CopyRun} {p : CopyPos} {fail : Bool} (h : Keeps b s) : KeepsOpt b (·.1) (s.deliver r p
    fail) := by
  unfold State.deliver
  dsimp only
  have h1 : Keeps b (if (s.lineAt r p fail).zeroed then (s.cacheLines r p fail).countUmber r else s.cacheLines r p fail) :=
    .ite h.cacheLines.countUmber h.cacheLines
  exact .ite (.some h1) (h1.holdLine.map fun h => h)

theorem Keeps.noteFailed {s : State} {r : CopyRun} (h : Keeps b s) : Keeps b (s.noteFailed r) := by
  unfold State.noteFailed
  dsimp only
  split
  · exact h.foldl (fun h => h.trace)
  · exact (h.foldl (fun h => h.trace)).modCmd

theorem Keeps.putCopy {s : State} {id : ℕ} {r : CopyRun} (h : Keeps b s) : Keeps b (s.putCopy id r) :=
  .ite h.setCopy.noteFailed h.setCopy

theorem Keeps.onCopy {id : ℕ} {f : CopyRun → State → State} {s : State} (h : Keeps b s) (hf : ∀ {r : CopyRun} {s : State}, Keeps b
    s → Keeps b (f r s)) : KeepsOut b (onCopy id f s) := by
  unfold Machine.onCopy
  split
  · exact .next h
  · exact .ite (.next (hf h)) (.next h)

theorem Keeps.countCorrected {s : State} {r : CopyRun} {p : CopyPos} (h : Keeps b s) : Keeps b (s.countCorrected r p) :=
  .ite h.count h

theorem Keeps.countFailed {s : State} {r : CopyRun} {p : CopyPos} (h : Keeps b s) : Keeps b (s.countFailed r p) :=
  h.foldl (fun h => .ite h.stackError h)

theorem Keeps.copyLine {id : ℕ} {ok corr : Bool} {r : CopyRun} {s : State} (h : Keeps b s) : Keeps b (copyLine id ok corr r s) :=
    by
  unfold Machine.copyLine
  dsimp only
  split
  · exact h
  · split
    · exact h.countFailed.putCopy
    · split
      · exact h.setCopy
      · have h1 := h.deliver.get ‹_›
        exact .putCopy (.ite h1.countCorrected h1)

theorem Keeps.execTierLineArrival {id : ℕ} {ok corr : Bool} {s : State} (h : Keeps b s) : KeepsOut b (execTierLineArrival id ok
    corr s) :=
  h.onCopy (fun h => h.copyLine)

theorem Keeps.copyRetry {id : ℕ} {line : LineRead} {r : CopyRun} {s : State} (h : Keeps b s) : Keeps b (copyRetry id line r s) :=
    by
  unfold Machine.copyRetry
  split
  · exact h
  · split
    · exact h
    · split
      · exact h
      · have h1 := h.deliver.get ‹_›
        dsimp only
        split
        · exact h1.countFailed.count.putCopy
        · exact h1.count.putCopy
        · exact h1.countCorrected.count.putCopy

theorem Keeps.execLineRetry {id : ℕ} {line : LineRead} {s : State} (h : Keeps b s) : KeepsOut b (execLineRetry id line s) :=
  h.onCopy (fun h => h.copyRetry)

theorem Keeps.readLines {s : State} {seq : ℕ} {f : CopyRun → State → State × CopyRun} {x : ℕ} {y : ℕ × ℕ} {z : CopyRun} (h : Keeps
    b s) (hf : ∀ {r : CopyRun} {s : State}, Keeps b s → Keeps b (f r s).1) : Keeps b (s.readLines seq f x y z).1 := by
  induction x generalizing s y z with
  | zero => exact h
  | succ n ih =>
    unfold State.readLines
    split
    · exact h
    · split
      · exact h
      · exact ih (hf h)

theorem Keeps.readDone {s : State} {id : ℕ} {f : CopyRun → State → State × CopyRun} {r : CopyRun} (h : Keeps b s) (hf : ∀ {r :
    CopyRun} {s : State}, Keeps b s → Keeps b (f r s).1) : Keeps b (s.readDone id f r) :=
  .ite h (.putCopy (by split; exacts [(hf h).readLines (hf), hf h]))

theorem Keeps.readLine {fail : Bool} {r : CopyRun} {s : State} (h : Keeps b s) : Keeps b (readLine fail r s).1 := h.deliver.getD h

theorem Keeps.readAgain {r : CopyRun} {s : State} (h : Keeps b s) : Keeps b (readAgain r s).1 := h

theorem Keeps.copyWrite {id : ℕ} {r : CopyRun} {s : State} (h : Keeps b s) : Keeps b (copyWrite id r s) := by
  unfold Machine.copyWrite
  dsimp only
  split
  · exact h
  · split
    · exact h
    · split
      · exact (h.holdLine.get ‹_›).putCopy
      · exact .ite h h.setCopy.countWait

theorem Keeps.copiesCommit {s : State} {p ord : ℕ} (h : Keeps b s) : Keeps b (s.copiesCommit p ord) :=
  h.foldl fun h => by
    split
    · exact .ite (.ite (by split; exacts [h.setCopy.signal, h.setCopy]) h.setCopy.completeOwn) h
    · exact h

theorem Keeps.startCopy {s : State} {id p ord : ℕ} {c : Cmd} (h : Keeps b s) : Keeps b (s.startCopy id p ord c) := h.putCopy

theorem Keeps.startLayers {s : State} {p id k : ℕ} (h : Keeps b s) : Keeps b (s.startLayers p id k) := by
  unfold State.startLayers
  dsimp only
  split
  · exact h
  · exact .ite h (h.foldl (fun h => (by split; exacts [.ite h h.putCopy, h])))

end Sys2Proof.Machine
end

section
/-! PROOFS. What every command keeps, 4: scan, replay, admission, power, recovery, the tick. -/

namespace Sys2Proof.Machine

variable {b : State}

theorem Keeps.mirrorUnit {s : State} {m : ImgHeld} {snap : Snap} {c n : ℕ} (h : Keeps b s) : Keeps b (s.mirrorUnit m snap c n) :=
  h.writeMarked

theorem Keeps.mirrorTurn {s : State} {c : ℕ} (h : Keeps b s) : Keeps b (s.mirrorTurn c) := by
  unfold State.mirrorTurn
  dsimp only
  split
  · exact h
  · split
    · exact .ite h h.mirrorUnit.modCore
    · exact h

theorem Keeps.execMirrorTurn {c : ℕ} {s : State} (h : Keeps b s) : KeepsOut b (execMirrorTurn c s) :=
  .ite .fault (.ite (.next h) (.next h.mirrorTurn))

theorem Keeps.mirrorRest {s : State} {m : ImgHeld} {snap : Snap} {c : ℕ} (h : Keeps b s) : Keeps b (s.mirrorRest m snap c) :=
  h.writeMarked.modCore

theorem Keeps.writeHeader {s : State} {m : ImgHeld} {fr : Frame} {d : ℕ} (h : Keeps b s) : Keeps b (s.writeHeader m fr d) :=
  h.writeMarked

theorem Keeps.mirrorComplete {s : State} {p : ℕ} (h : Keeps b s) : Keeps b (s.mirrorComplete p) := by
  unfold State.mirrorComplete
  dsimp only
  split
  · exact h
  · exact .modPart (by split; exacts [h, (h.foldl (fun h => h.mirrorRest)).foldl (fun h => h.writeHeader)])

theorem Keeps.execMirrorComplete {p : ℕ} {s : State} (h : Keeps b s) : KeepsOut b (execMirrorComplete p s) :=
  .ite .fault (.ite (.next h) (.next h.mirrorComplete))

theorem Keeps.putCores {s : State} {p : ℕ} {cores : KMap Core} (h : Keeps b s) : Keeps b (s.putCores p cores) :=
  h.same.foldl (fun h => h.rereadWalks)

theorem Keeps.putRanges {s : State} {ranges : KMap (List Byte)} {marks : List ℕ} (h : Keeps b s) : Keeps b (s.putRanges ranges
    marks) :=
  h.foldl fun h => h.withMem (Mem.wf_writeBytes _ _ _)

theorem Keeps.readSources {s : State} {m : ImgHeld} {v : Viewer} (h : Keeps b s) : Keeps b (s.readSources m v) :=
  h.foldl fun h => by
    split
    · exact h
    · exact h.foldlFst (fun h => h.writeMarked)

theorem Keeps.putOpened {s : State} {id opened : ℕ} (h : Keeps b s) : Keeps b (s.putOpened id opened) := h.modCmd

theorem Keeps.putCopies {s : State} {p ord : ℕ} {copies : KMap CopyRun} (h : Keeps b s) : Keeps b (s.putCopies p ord copies) :=
  (h.foldl (fun h => (by split; exacts [.ite h (.ite h.setCopy h.setCopy), h]))).same.foldl (fun h => h.setCopy)

theorem Keeps.putRecord {s : State} {p : ℕ} {k : Snap} (h : Keeps b s) : Keeps b (s.putRecord p k) := by
  refine .putCopies (.putColls (.foldl (.foldl (.setReg (.foldl ?_ fun h => h.putOpened)) fun h => .ite h h.setIsr) fun h => h.setIsr))
  split
  · exact h.putOpened
  · exact h

theorem Keeps.restoreSnap {s : State} {p : ℕ} {k : Snap} (h : Keeps b s) : Keeps b (s.restoreSnap p k) :=
  .putRecord (by split; exacts [h.putCores.putRanges.readSources, h.putCores.putRanges])

theorem Keeps.restoreStart {s : State} {p : ℕ} {m : ImgHeld} (h : Keeps b s) : Keeps b (s.restoreStart p m) :=
  h.writeCode.writeDescs.startPart.putRecord

theorem Keeps.zeroPads {s : State} {p : ℕ} (h : Keeps b s) : Keeps b (s.zeroPads p) := h.withMem (kwf_filter _ _ _)

theorem Keeps.putSaved {s : State} {p : ℕ} {v : Saved} (h : Keeps b s) : Keeps b (s.putSaved p v) :=
  Keeps.putCores (h.zeroPads.withMem fun hm => List.foldlRecOn (motive := fun m => Memory.wf m = true) _ _ hm fun _ hm _ _ =>
  Mem.wf_write _ _ _ hm)

theorem Keeps.startCkpt {s : State} {id p : ℕ} {c : Cmd} (h : Keeps b s) : Keeps b (s.startCkpt id p c) := by
  unfold State.startCkpt
  dsimp only
  split
  · exact h
  · exact h.same

theorem Keeps.ckptHold {s : State} {id : ℕ} {r : Ckpt} (h : Keeps b s) : Keeps b (s.ckptHold id r) := by
  unfold State.ckptHold
  dsimp only
  split
  · rename_i s1 e
    have hall : KeepsOpt b (fun s => s) (some s1) := e ▸ KeepsOpt.foldl (.some h) fun h => h.bind fun h => by
      split
      · exact h.holdAsync
      · exact .some h
    exact (hall.get rfl).same
  · exact .ite h.same (Keeps.countWait h.same)

theorem Keeps.ckptWrite {s : State} {id : ℕ} {r : Ckpt} {ok : Bool} (h : Keeps b s) : Keeps b (s.ckptWrite id r ok) := by
  unfold State.ckptWrite
  dsimp only
  split
  · exact h
  · split
    · split
      · exact h.same
      · split
        · exact .ite (h.withMem (Mem.wf_writeBytes _ _ _)).ckptHold (h.withMem (Mem.wf_writeBytes _ _ _))
        · exact h.same
    · exact h

theorem Keeps.ckptEnd {s : State} {id : ℕ} {r : Ckpt} {ok : Bool} (h : Keeps b s) : Keeps b (s.ckptEnd id r ok) :=
  .ite h.ckptWrite h

theorem Keeps.execAsyncCopyLine {id : ℕ} {s : State} (h : Keeps b s) : KeepsOut b (execAsyncCopyLine id s) := by
  unfold Machine.execAsyncCopyLine
  split
  · exact .ite (.next h.ckptHold) (.next h)
  · exact h.onCopy (fun h => h.copyWrite)

theorem Keeps.execNvmeCompletion {id : ℕ} {ok : Bool} {s : State} (h : Keeps b s) : KeepsOut b (execNvmeCompletion id ok s) := by
  unfold Machine.execNvmeCompletion
  split
  · exact .next h.ckptEnd
  · refine h.onCopy fun h => h.readDone fun h => ?_
    split
    · exact h.readLine
    · exact h.readAgain

theorem Keeps.execNvmeTimeout {id : ℕ} {s : State} (h : Keeps b s) : KeepsOut b (execNvmeTimeout id s) := by
  unfold Machine.execNvmeTimeout
  split
  · exact .next h.ckptEnd
  · exact h.onCopy (fun h => h.readDone (fun h => h.readLine))

theorem Keeps.ckptsCommit {s : State} {p ord : ℕ} (h : Keeps b s) : Keeps b (s.ckptsCommit p ord) :=
  h.foldl fun h => by
    split
    · split
      · exact .ite h (.ite h.faultNow h.same.modCmd.completeOwn)
      · exact h
    · exact h

theorem Keeps.putSlotCore {s : State} {m : ImgHeld} {known : Option Core} {c : ℕ} {b' : List Byte} (h : Keeps b s) : Keeps b
    (s.putSlotCore m known c b') :=
  Keeps.foldlFst (p := (_, 6144)) h.setCore fun h => h.withMem (Mem.wf_writeBytes _ _ _)

theorem Keeps.putSlot {s : State} {x : Part} {m : ImgHeld} {saved : Option Saved} {v : ℕ} {b' : List Byte} (h : Keeps b s) : Keeps
    b (s.putSlot x m saved v b') :=
  h.foldlFst (fun h => .ite h.putSlotCore h)

theorem Keeps.putPads {s : State} {x : Part} {v : ℕ} {b' : List Byte} (h : Keeps b s) : Keeps b (s.putPads x v b') :=
  h.foldlFst (fun h => .ite h.writeMarked h)

theorem Keeps.putSavedRecord {s : State} {p : ℕ} {saved : Option Saved} {b' : List Byte} (h : Keeps b s) : Keeps b
    (s.putSavedRecord p saved b') := by
  unfold State.putSavedRecord
  dsimp only
  split
  · exact h.setReg
  · exact (h.setReg.foldl (fun h => .ite h h.setIsr)).foldl (fun h => .ite h.setIsr h)

theorem Keeps.putManifest {s : State} {p : ℕ} {c : Cmd} {m : ImgHeld} (h : Keeps b s) : Keeps b (s.putManifest p c m) := by
  unfold State.putManifest
  dsimp only
  refine .readSources ?_
  split
  · refine Keeps.same (h.foldl fun h => ?_)
    split
    · exact .ite h.putSlot (.ite h.putPads (.ite h.putSavedRecord h))
    · exact h
  · refine h.foldl fun h => ?_
    split
    · exact .ite h.putSlot (.ite h.putPads (.ite h.putSavedRecord h))
    · exact h

theorem Keeps.startReplay {s : State} {id p : ℕ} {c : Cmd} {m : ImgHeld} (h : Keeps b s) : Keeps b (s.startReplay id p c m) :=
  .ite h.same.faultNow (.writeMarked (.settleRange (.ite h.same.zeroPads.startPart h.same.startPart.putManifest)))

theorem Keeps.streamLine {s : State} {id : ℕ} {r : Replay} {ok : Bool} (h : Keeps b s) : Keeps b (s.streamLine id r ok) := by
  unfold State.streamLine
  dsimp only
  split
  · exact h
  · exact .ite h (.ite h.same (.ite (.count (.ite h.same.count.count.trace h.same)) (.ite h.same.count.count.trace h.same)))

theorem Keeps.execStreamCheck {id : ℕ} {ok : Bool} {s : State} (h : Keeps b s) : KeepsOut b (execStreamCheck id ok s) := by
  unfold Machine.execStreamCheck
  split
  · exact .next h
  · exact .ite (.next h.streamLine) (.next h)

theorem Keeps.replayDone {s : State} {id : ℕ} {r : Replay} (h : Keeps b s) : Keeps b (s.replayDone id r) := by
  unfold State.replayDone
  dsimp only
  split
  · exact (h.foldl (fun h => h.setReg)).modCmd
  · exact .ite (.ite (h.foldl (fun h => h.setReg)).modCmd.completeOwn (h.foldl (fun h => h.setReg)).modCmd.complete) (.setReg
    (.ite (h.foldl (fun h => h.setReg)).modCmd.completeOwn (h.foldl (fun h => h.setReg)).modCmd.complete))

theorem Keeps.replaysCommit {s : State} {p ord : ℕ} (h : Keeps b s) : Keeps b (s.replaysCommit p ord) :=
  h.foldl fun h => by
    split
    · exact .ite h (.ite (by split; exacts [.ite h.replayDone h, h]) (by split; exacts [.ite h (.ite h.replayDone h.same), h]))
    · exact h

theorem Keeps.noteAdmitted {s : State} {id : ℕ} {c : Cmd} (h : Keeps b s) : Keeps b (s.noteAdmitted id c) := by
  refine .trace (.count (.tally (.same (.ite (h.modCmd.foldl fun h => ?_) (.countStalls (h.modCmd.foldl fun h => ?_)))))) <;> split
  · exact h.setPage
  · exact h
  · exact h.setPage
  · exact h

theorem Keeps.eventOp {s : State} {c : Cmd} (h : Keeps b s) : Keeps b (s.eventOp c) := h.same

theorem Keeps.startSpan {s : State} {id p : ℕ} {c : Cmd} (h : Keeps b s) : Keeps b (s.startSpan id p c) := by
  unfold State.startSpan
  dsimp only
  split
  · exact .ite h h.modPart.same
  · split
    · exact .startReplay (.ite h h.modPart.same)
    · exact .ite h h.modPart.same

theorem Keeps.startCmd {s : State} {id : ℕ} {c : Cmd} (h : Keeps b s) : Keeps b (s.startCmd id c) := by
  unfold State.startCmd
  split
  · exact h.eventOp.completeOwn
  · exact h.completeOwn
  · exact h.commitStep
  · exact h.openWindow
  · exact h.closeWindow
  · split
    · exact h
    · exact .ite h.startSpan (.ite h.startCopy (.ite h.startCkpt h.startColl))

theorem Keeps.admitCmd {s : State} {id : ℕ} {c : Cmd} (h : Keeps b s) : Keeps b (s.admitCmd id c) := by
  unfold State.admitCmd
  dsimp only
  split
  · exact h.deny
  · split
    · exact h.noteAdmitted
    · split
      · exact h.noteAdmitted.completeOwn
      · split
        · exact h.noteAdmitted.deny
        · exact h.noteAdmitted.startCmd

theorem Keeps.admitAll {s : State} {allow : Cmd → Bool} {x : ℕ} (h : Keeps b s) : Keeps b (s.admitAll allow x) := by
  induction x generalizing s with
  | zero => exact h
  | succ n ih =>
    unfold State.admitAll
    split
    · exact h
    · split
      · exact ih h.admitCmd
      · exact h

theorem Keeps.admissions {s : State} (h : Keeps b s) : Keeps b (s.admissions) := h.admitAll.admitAll

theorem Keeps.openedBy {s : State} {id ord : ℕ} (h : Keeps b s) : Keeps b (s.openedBy id ord) := h.modCmd

theorem Keeps.dressFrame {s : State} {p : ℕ} (h : Keeps b s) : Keeps b (s.dressFrame p) := by
  unfold State.dressFrame
  dsimp only
  split
  · split
    · exact h
    · split
      · exact h
      · exact .ite h (h.modPart.openedBy.startLayers.foldl (fun h => h.openedBy.startLayers))
  · exact h

theorem Keeps.openFrame {s : State} {p : ℕ} {fast load : Bool} (h : Keeps b s) : Keeps b (s.openFrame p fast load) :=
  h.modPart.same.dressFrame

theorem Keeps.considerCommand {op f q : ℕ} {s : State} (h : Keeps b s) : KeepsOut b (considerCommand op f q s) := by
  unfold Machine.considerCommand
  split
  · exact .fault
  · split
    · exact .next h
    · split
      · exact .next h
      · exact .ite (.next (h.admitCmd.foldl (fun h => h.dressFrame))) (.next h)

theorem Keeps.execRunSpan {f q : ℕ} {s : State} (h : Keeps b s) : KeepsOut b (execRunSpan f q s) := h.considerCommand

theorem Keeps.execCopy {f q : ℕ} {s : State} (h : Keeps b s) : KeepsOut b (execCopy f q s) := h.considerCommand

theorem Keeps.execReduceScatter {f q : ℕ} {s : State} (h : Keeps b s) : KeepsOut b (execReduceScatter f q s) := h.considerCommand

theorem Keeps.execAllGather {f q : ℕ} {s : State} (h : Keeps b s) : KeepsOut b (execAllGather f q s) := h.considerCommand

theorem Keeps.execAllReduce {f q : ℕ} {s : State} (h : Keeps b s) : KeepsOut b (execAllReduce f q s) := h.considerCommand

theorem Keeps.execBroadcast {f q : ℕ} {s : State} (h : Keeps b s) : KeepsOut b (execBroadcast f q s) := h.considerCommand

theorem Keeps.execPermute {f q : ℕ} {s : State} (h : Keeps b s) : KeepsOut b (execPermute f q s) := h.considerCommand

theorem Keeps.execRotate {f q : ℕ} {s : State} (h : Keeps b s) : KeepsOut b (execRotate f q s) := h.considerCommand

theorem Keeps.execVote {f q : ℕ} {s : State} (h : Keeps b s) : KeepsOut b (execVote f q s) := h.considerCommand

theorem Keeps.execCommitStep {f q : ℕ} {s : State} (h : Keeps b s) : KeepsOut b (execCommitStep f q s) := h.considerCommand

theorem Keeps.execWindowOpen {f q : ℕ} {s : State} (h : Keeps b s) : KeepsOut b (execWindowOpen f q s) := h.considerCommand

theorem Keeps.execWindowClose {f q : ℕ} {s : State} (h : Keeps b s) : KeepsOut b (execWindowClose f q s) := h.considerCommand

theorem Keeps.execEvent {f q : ℕ} {s : State} (h : Keeps b s) : KeepsOut b (execEvent f q s) := h.considerCommand

theorem Keeps.execFence {f q : ℕ} {s : State} (h : Keeps b s) : KeepsOut b (execFence f q s) := h.considerCommand

theorem Keeps.execCheckpoint {f q : ℕ} {s : State} (h : Keeps b s) : KeepsOut b (execCheckpoint f q s) := h.considerCommand

theorem Keeps.execReplay {f q : ℕ} {s : State} (h : Keeps b s) : KeepsOut b (execReplay f q s) := h.considerCommand

theorem Keeps.armWindow {s : State} {n value : ℕ} (h : Keeps b s) : Keeps b (s.armWindow n value) :=
  .ite h.tierErr (.ite h.tierErr h.commitWide.same)

theorem Keeps.execFlashWindowArm {n value : ℕ} {s : State} (h : Keeps b s) : KeepsOut b (execFlashWindowArm n value s) :=
  .ite .fault (.ite (.next h.enqueueWrite) (.next h.armWindow))

theorem Keeps.execBayOffline {b' : ℕ} {s : State} (h : Keeps b s) : KeepsOut b (execBayOffline b' s) :=
  .ite .fault (.ite (.next h) (.next h.setBit.setUsable))

theorem Keeps.execRefill {f vpage : ℕ} {s : State} (h : Keeps b s) : KeepsOut b (execRefill f vpage s) :=
  .ite .fault (.ite (.next h) (.next h.refill))

theorem Keeps.takeEnergy {s : State} {energy : ℕ} {parts : List ℕ} {ended : ℕ → Option Frame} (h : Keeps b s) : Keeps b
    (s.takeEnergy energy parts ended) :=
  h.same.setField.setField

theorem Keeps.selectFast {s : State} {x : ℤ} {y : List ℕ} (h : Keeps b s) : Keeps b (s.selectFast x y) := by
  induction y generalizing s x with
  | nil => exact h
  | cons p l ih => exact .ite (ih h.modPart) h

theorem Keeps.chooseFast {s : State} (h : Keeps b s) : Keeps b (s.chooseFast) :=
  .ite h.clearBit (.ite h.clearBit.setBit.count h.clearBit.selectFast)

theorem Keeps.noteFast {s : State} {p : ℕ} {fast : Bool} (h : Keeps b s) : Keeps b (s.noteFast p fast) := h.same

theorem Keeps.execPowerLimit {watts : ℕ} {s : State} (h : Keeps b s) : KeepsOut b (execPowerLimit watts s) :=
  .ite (.next h) (.ite (.next h.setBit) (.ite (.next h.clearBit) (.next h)))

theorem Keeps.execCoolantWarn {flow inlet temp : ℕ} {s : State} (h : Keeps b s) : KeepsOut b (execCoolantWarn flow inlet temp s)
    :=
  .ite (.next h) (.next h.setField.setField.setField.setField.setField)

theorem Keeps.stopSpans {s : State} {p reason source unit : ℕ} (h : Keeps b s) : Keeps b (s.stopSpans p reason source unit) :=
  h.foldl (fun h => h.faultCmd)

theorem Keeps.recheck {s : State} {p : ℕ} (h : Keeps b s) : Keeps b (s.recheck p) := by
  unfold State.recheck
  dsimp only
  split
  · exact h
  · split
    · exact h.modPart
    · split
      · exact h.modPart.faultCmd
      · exact h.modPart

theorem Keeps.discardFrom {s : State} {p ord : ℕ} (h : Keeps b s) : Keeps b (s.discardFrom p ord) := h.discardHeld.setRing

theorem Keeps.strike {s : State} {p kind first : ℕ} (h : Keeps b s) : Keeps b (s.strike p kind first) :=
  .ite h (.ite h.stopSpans h.modPart.discardFrom.count.setWide.setReg.same.park.trace.recheck)

theorem Keeps.restorePart {s : State} {p : ℕ} {r : Recov} (h : Keeps b s) : Keeps b (s.restorePart p r) := by
  unfold State.restorePart
  dsimp only
  split
  · exact .ite h.restoreSnap.modPart h.modPart
  · exact h.modPart
  · exact h.restoreStart.modPart
  · exact .ite h.restoreStart.modPart (.ite h.restoreSnap.modPart h.stopSpans.modPart)

theorem Keeps.execRecovery {p : ℕ} {s : State} (h : Keeps b s) : KeepsOut b (execRecovery p s) := by
  unfold Machine.execRecovery
  split
  · exact .fault
  · split
    · exact .next h
    · split
      · exact .next h
      · exact .ite (.next h) (.next h.restorePart)

theorem Keeps.execRemapRecPop {d : ℕ} {s : State} (h : Keeps b s) : KeepsOut b (execRemapRecPop d s) :=
  .ite .fault (.ite (.next h.enqueueWrite) (.next h.popRecord))

theorem Keeps.execMcRemapRecordRemoval {d : ℕ} {s : State} (h : Keeps b s) : KeepsOut b (execMcRemapRecordRemoval d s) := by
  unfold Machine.execMcRemapRecordRemoval
  dsimp only
  split
  · exact .fault
  · split
    · exact .next h
    · split
      · exact .next h
      · exact .next h.same.popRecord

theorem Keeps.strikeAll {s : State} {kind first : ℕ} {l : List ℕ} (h : Keeps b s) : Keeps b (s.strikeAll kind first l) :=
  h.foldl (fun h => h.strike)

theorem Keeps.exhaustRow {s : State} {d h' r : ℕ} (h : Keeps b s) : Keeps b (s.exhaustRow d h' r) :=
  h.setBit.queueRecord.foldl (fun h => h.stopSpans)

theorem Keeps.retireSite {s : State} {d h' r col : ℕ} {software : Bool} (h : Keeps b s) : Keeps b (s.retireSite d h' r col
    software) :=
  .ite h.same.setReg.setBit.dueRecord.strikeAll h.same.setReg.setBit.dueRecord

theorem Keeps.failSite {s : State} {d h' r col : ℕ} (h : Keeps b s) : Keeps b (s.failSite d h' r col) :=
  .ite h (.ite h.exhaustRow h.retireSite)

theorem Keeps.retireTrack {s : State} {d r index : ℕ} {dir software : Bool} (h : Keeps b s) : Keeps b (s.retireTrack d r index dir
    software) :=
  .ite h.same.setBit.dueRecord.strikeAll h.same.setBit.dueRecord

theorem Keeps.failTrack {s : State} {d r index : ℕ} {dir : Bool} (h : Keeps b s) : Keeps b (s.failTrack d r index dir) :=
  .ite h (.ite (h.foldl (fun h => h.stopSpans)) h.retireTrack)

theorem Keeps.markLines {s : State} {l : List ℕ} (h : Keeps b s) : Keeps b (s.markLines l) := h.same

theorem Keeps.loseSlices {s : State} {d h' : ℕ} {l : List ℕ} (h : Keeps b s) : Keeps b (s.loseSlices d h' l) :=
  (h.foldl (fun h => h.markLines.count)).foldl (fun h => h.stopSpans)

theorem Keeps.endRebuild {s : State} {d h' : ℕ} (h : Keeps b s) : Keeps b (s.endRebuild d h') := h.same.clearBit.setField.clearBit

theorem Keeps.failSpareSlice {s : State} {d h' : ℕ} (h : Keeps b s) : Keeps b (s.failSpareSlice d h') := by
  unfold State.failSpareSlice
  split
  · exact h.loseSlices
  · exact h.endRebuild.loseSlices
  · exact .ite h.clearBit.dueRecord h

theorem Keeps.failSlice {s : State} {d h' slice : ℕ} {software : Bool} (h : Keeps b s) : Keeps b (s.failSlice d h' slice software)
    := by
  unfold State.failSlice
  dsimp only
  split
  · exact h
  · split
    · exact h.failSpareSlice
    · split
      · exact h
      · split
        · exact h.loseSlices
        · exact .ite h.same.setBit.setField.setBit.strikeAll h.loseSlices

theorem Keeps.execSliceRebuild {d half : ℕ} {s : State} (h : Keeps b s) : KeepsOut b (execSliceRebuild d half s) := by
  unfold Machine.execSliceRebuild
  dsimp only
  split
  · exact .fault
  · split
    · exact .next h
    · split
      · exact .next h
      · exact .next h.same.endRebuild.setBit.dueRecord

theorem Keeps.countBadLine {s : State} {sl : ℕ} (h : Keeps b s) : Keeps b (s.countBadLine sl) := .ite h.same.failSlice h.same

theorem Keeps.badStoreLine {s : State} {base : ℕ} {rebuilt : Bool} (h : Keeps b s) : Keeps b (s.badStoreLine base rebuilt) :=
  .ite h (.countBadLine (.ite h.count h.markLines.count))

theorem Keeps.execLineParityRebuild {base : ℕ} {s : State} (h : Keeps b s) : KeepsOut b (execLineParityRebuild base s) :=
  .ite (.next h) (.next h.badStoreLine)

theorem Keeps.failStack {s : State} {n : ℕ} (h : Keeps b s) : Keeps b (s.failStack n) :=
  .ite h.retireStack (.ite h (h.same.foldl (fun h => h.stopSpans)))

theorem Keeps.execStackRetire {stack : ℕ} {s : State} (h : Keeps b s) : KeepsOut b (execStackRetire stack s) :=
  .ite .fault (.ite (.next h) (.next h.failStack))

theorem Keeps.badPad {s : State} {k : ℕ} (h : Keeps b s) : Keeps b (s.badPad k) := by
  unfold State.badPad
  dsimp only
  split
  · exact h.count.strike
  · exact h.count.markLines

theorem Keeps.reloadCode {s : State} {c : ℕ} (h : Keeps b s) : Keeps b (s.reloadCode c) := by
  unfold State.reloadCode
  dsimp only
  split
  · exact h
  · refine Keeps.foldl (Keeps.foldl h fun h => ?_) fun h => ?_ <;> split
    · exact h
    · exact h.foldl fun h => h.writeConfig
    · exact h
    · exact h.foldl fun h => h.writeConfig

theorem Keeps.badCode {s : State} {c word : ℕ} (h : Keeps b s) : Keeps b (s.badCode c word) := by
  unfold State.badCode
  dsimp only
  split
  · exact .strike (.reloadCode (.elim h.count.trace fun _ => h.count.trace.modCore))
  · exact .elim h.count fun _ => h.count.coreFault

theorem Keeps.failCore {s : State} {c : ℕ} (h : Keeps b s) : Keeps b (s.failCore c) := h.failSite

theorem Keeps.execWatchdogExpiry {c : ℕ} {s : State} (h : Keeps b s) : KeepsOut b (execWatchdogExpiry c s) :=
  .ite .fault (.ite (.next h) (.next h.failCore))

theorem Keeps.unfetch {s : State} (h : Keeps b s) : Keeps b (s.unfetch) :=
  h.foldl fun h => by
    split
    · exact .ite h h.setCmd.setReg.modQueue
    · exact h

theorem Keeps.failCp {s : State} (h : Keeps b s) : Keeps b (s.failCp) :=
  .ite h.same.setField.clearBit.count.unfetch (h.foldl (fun h => h.stopSpans))

theorem Keeps.failCpNow {s : State} (h : Keeps b s) : Keeps b (s.failCpNow) := h.same.failCp

theorem Keeps.execCpFailover {s : State} (h : Keeps b s) : KeepsOut b (execCpFailover s) := .ite (.next h) (.next h.failCpNow)

theorem Keeps.detect {s : State} {x : Detected} (h : Keeps b s) : Keeps b (s.detect x) := by
  unfold State.detect
  dsimp only
  split
  · exact .ite (.count (.ite h.count h)) (.ite h.count h)
  · exact .ite h.badPad h
  · exact .ite h.badCode h
  · exact .ite h.failCore h
  · exact h.failTrack
  · exact h.failSlice
  · exact h.badStoreLine
  · exact .ite h.portDown h
  · exact h.failStack
  · exact h.count
  · exact h.stackError
  · exact h.failCpNow
  · exact h.same
  · exact h.stopSpans

theorem Keeps.execFaultDetection {what : Detected} {s : State} (h : Keeps b s) : KeepsOut b (execFaultDetection what s) :=
  .ite .fault (.ite (.next h) (.next h.detect))

theorem Keeps.substitute {s : State} {d kind half row index : ℕ} {dir software : Bool} (h : Keeps b s) : Keeps b (s.substitute d
    kind half row index dir software) := by
  unfold State.substitute
  split
  · exact .ite h.failSite (.ite h h.retireSite)
  · exact .ite h.failTrack (.ite h h.retireTrack)
  · exact .ite h h.failSlice
  · exact h

theorem Keeps.execRemapSubstitution {d kind half row index : ℕ} {dir software : Bool} {s : State} (h : Keeps b s) : KeepsOut b
    (execRemapSubstitution d kind half row index dir software s) :=
  .ite .fault (.ite (.next h) (.next h.substitute))

theorem Keeps.execRowExhausted {d half row : ℕ} {s : State} (h : Keeps b s) : KeepsOut b (execRowExhausted d half row s) :=
  .ite .fault (.ite (.next h) (.next h.exhaustRow))

theorem Keeps.remapResult {s : State} {d code : ℕ} (h : Keeps b s) : Keeps b (s.remapResult d code) := h.setReg

theorem Keeps.remapRequest {s : State} {d kind : ℕ} (h : Keeps b s) : Keeps b (s.remapRequest d kind) :=
  .ite h.setField (.ite h.remapResult (.ite h.remapResult h.substitute.remapResult))

theorem Keeps.writeRemapCtrl {s : State} {d v : ℕ} (h : Keeps b s) : Keeps b (s.writeRemapCtrl d v) :=
  .ite h.setField (.ite (.remapRequest (.ite h h.setReg)) (.ite h h.setReg))

theorem Keeps.execRemapGo {d : ℕ} {s : State} (h : Keeps b s) : KeepsOut b (execRemapGo d s) :=
  .ite .fault (.ite (.next h.enqueueWrite) (.next h.writeRemapCtrl))

theorem Keeps.execScrubVoteCorrect {d : ℕ} {copy : ScrubCopy} {bad : ℕ} {s : State} (h : Keeps b s) : KeepsOut b
    (execScrubVoteCorrect d copy bad s) := by
  unfold Machine.execScrubVoteCorrect
  dsimp only
  split
  · exact .fault
  · split
    · exact .next h
    · split
      · exact .next (.same (.setReg (.ite h h.count)))
      · exact .next (.same (.ite h h.count))

theorem Keeps.writeScrub {s : State} {d v : ℕ} (h : Keeps b s) : Keeps b (s.writeScrub d v) := h.setReg.same

theorem Keeps.scrubWindow {s : State} (h : Keeps b s) : Keeps b (s.scrubWindow) :=
  h.foldl (fun h => .ite h (.ite h.same.count h.same))

theorem Keeps.deviceReset {s : State} (h : Keeps b s) : Keeps b (s.deviceReset) :=
  (h.foldl (fun h => .ite h h.strike)).same.setReg.unfetch

theorem Keeps.serveAcc {s : State} {c off n : ℕ} (h : Keeps b s) : Keeps b (s.serveAcc c off n) := .ite h h.same

theorem Keeps.serveWaiting {s : State} (h : Keeps b s) : Keeps b (s.serveWaiting) := h.same.foldl (fun h => h.serveAcc)

theorem Keeps.serveReads {s : State} (h : Keeps b s) : Keeps b (s.serveReads) := h.same.serveWaiting

theorem Keeps.execDebugAccRead {f c off n : ℕ} {s : State} (h : Keeps b s) : KeepsOut b (execDebugAccRead f c off n s) :=
  .ite .fault (.ite (.next h) (.next h.serveAcc))

theorem Keeps.newTick {s : State} (h : Keeps b s) : Keeps b (s.newTick) := h.setField.same

theorem Keeps.frozenTick {s : State} (h : Keeps b s) : Keeps b (s.frozenTick) := h.takeRate.same.count.rootFrame.chooseParent

theorem Keeps.latch {s : State} (h : Keeps b s) : Keeps b (s.latch) := .same (.ite h.count h)

theorem Keeps.sampleConsent {s : State} (h : Keeps b s) : Keeps b (s.sampleConsent) := h.same

theorem Keeps.takeModes {s : State} (h : Keeps b s) : Keeps b (s.takeModes) := h.foldl (fun h => h.setField)

theorem Keeps.countSlips {s : State} {p n : ℕ} (h : Keeps b s) : Keeps b (s.countSlips p n) :=
  (h.foldl (fun h => h.modCmd)).same.count.tally

theorem Keeps.halt {s : State} {p : ℕ} (h : Keeps b s) : Keeps b (s.halt p) := h.park.modPart

theorem Keeps.limitReached {s : State} {p : ℕ} (h : Keeps b s) : Keeps b (s.limitReached p) :=
  .ite h.stopSpans.halt h.modPart.strike

theorem Keeps.slip {s : State} {p : ℕ} (h : Keeps b s) : Keeps b (s.slip p) := .ite h.limitReached h.modPart.countSlips.trace

theorem Keeps.execSlipLimitReached {p : ℕ} {s : State} (h : Keeps b s) : KeepsOut b (execSlipLimitReached p s) :=
  .ite .fault (.ite (.next h) (.next h.limitReached))

theorem Keeps.endLoad {s : State} {p : ℕ} {fr : Frame} (h : Keeps b s) : Keeps b (s.endLoad p fr) := by
  unfold State.endLoad
  dsimp only
  split
  · exact h
  · exact .recheck (.modPart (.startPart (.foldl (.ite h h.writeLoad) (fun h => h.faultNow))))

theorem Keeps.endFillers {s : State} {p : ℕ} (h : Keeps b s) : Keeps b (s.endFillers p) := h.same

theorem Keeps.noteHolds {s : State} {p ord : ℕ} (h : Keeps b s) : Keeps b (s.noteHolds p ord) := h.foldl (fun h => h.setReg)

theorem Keeps.seal {s : State} {p : ℕ} {fr : Frame} (h : Keeps b s) : Keeps b (s.seal p fr) :=
  .same (.modPart (.noteHolds (.ite h.endLoad h.endFillers)))

theorem Keeps.noteMarks {s : State} {p : ℕ} {fr : Frame} (h : Keeps b s) : Keeps b (s.noteMarks p fr) :=
  h.foldl fun h => by
  dsimp only
  split
  · exact h
  · exact h.modCmd

theorem Keeps.spanEvents {s : State} {m : ImgHeld} {c : Cmd} {k : ℕ} (h : Keeps b s) : Keeps b (s.spanEvents m c k) :=
  h.foldl (fun h => .ite h.signal h)

theorem Keeps.commitRun {s : State} {p id ord k : ℕ} {m : Option ImgHeld} (h : Keeps b s) : Keeps b (s.commitRun p id ord k m) :=
    by
  unfold State.commitRun
  dsimp only
  split
  · exact h
  · split
    · exact .ite (.spanEvents (.ite h h.orStep)) (.ite h h.orStep)
    · exact .ite h h.orStep

theorem Keeps.endSpans {s : State} {p ord : ℕ} (h : Keeps b s) : Keeps b (s.endSpans p ord) :=
  h.foldl fun h => by
    split
    · exact .ite h.completeOwn h
    · exact h

theorem Keeps.commit {s : State} {p : ℕ} {fr : Frame} (h : Keeps b s) : Keeps b (s.commit p fr) := by
  refine .modPart (.sendRetires (.endSpans (.replaysCommit (.ckptsCommit (.collsCommit (.copiesCommit (.sequence
    (.foldl ?_ fun h => h.commitRun))))))))
  split
  · exact h.noteMarks.commitHeld.trace.commitRun
  · exact h.noteMarks.commitHeld.trace

theorem Keeps.checkPart {late : Bool} {s : State} {p : ℕ} (h : Keeps b s) : Keeps b (State.checkPart late s p) := by
  unfold State.checkPart
  dsimp only
  have h1 : ∀ {o : Option Frame}, Keeps b (match o with | none => s | some fr => if s.complete? p fr late then s.seal p fr else s.slip p) := by
    rintro (_ | fr)
    · exact h
    · exact .ite h.seal h.slip
  split
  · exact h.trace
  · split
    · exact .ite h1 h1.commit
    · exact h1

theorem Keeps.reopen {s : State} {p : ℕ} (h : Keeps b s) : Keeps b (s.reopen p) := by
  unfold State.reopen
  dsimp only
  split
  · exact h
  · refine .ite h (.foldl (.park (.modPart ?_)) fun h => h.answer)
    split
    · exact .ite h.countSlips.commit h.countSlips
    · exact h.countSlips

theorem Keeps.takePart {s : State} {p : ℕ} (h : Keeps b s) : Keeps b (s.takePart p) := .ite h (.ite h.modPart h.modPart.same)

theorem Keeps.swapRemap {s0 : State} (h : Keeps b s0) : Keeps b (s0.swapRemap) :=
  .ite (h.queueDue.foldl (fun h => h.clearBit)) (.ite ((h.queueDue.same.foldl (fun h => h.clearBit)).foldl (fun h => h.recheck))
    (h.queueDue.same.foldl (fun h => h.clearBit)))

theorem Keeps.swapFillers {s : State} {p : ℕ} (h : Keeps b s) : Keeps b (s.swapFillers p) :=
  h.foldl (fun h => (h.foldl (fun h => h.modCore)).modPart)

theorem Keeps.journalReads {s : State} (h : Keeps b s) : Keeps b (s.journalReads) := h.same

theorem Keeps.swapBanks {s : State} (h : Keeps b s) : Keeps b (s.swapBanks) :=
  ((h.swapRoutes.swapWindows.closeStreams.swapRemap.takeCarves.swapFlash.foldl (fun h => h.takePart)).foldl (fun h =>
    h.swapFillers)).poolSwap.journalReads

theorem Keeps.writeSave {s : State} {f a n : ℕ} (h : Keeps b s) : Keeps b (s.writeSave f a n) := h.writeTenant.same

theorem Keeps.stopPart {s : State} {p area : ℕ} (h : Keeps b s) : Keeps b (s.stopPart p area) :=
  h.applyDue.mirrorComplete.modPart.same.writeSave.halt

theorem Keeps.resumePart {s : State} {p : ℕ} (h : Keeps b s) : Keeps b (s.resumePart p) := by
  unfold State.resumePart
  dsimp only
  split
  · exact h
  · split
    · exact h.modPart.park
    · refine .ite h (.recheck (.putSaved (.foldl ?_ fun h => h.writeCode.writeDescs)))
      split
      · exact h.modPart.modPart.park.writeCode.writeDescs
      · exact h.modPart.modPart.park

theorem Keeps.openEarly {s : State} {p : ℕ} (h : Keeps b s) : Keeps b (s.openEarly p) := by
  unfold State.openEarly
  dsimp only
  split
  · exact h
  · split
    · exact h.stopPart
    · exact .ite h.openFrame.count.noteFast.same (.ite h.openFrame.trace.noteFast h)

theorem Keeps.openLate {s : State} {p : ℕ} (h : Keeps b s) : Keeps b (s.openLate p) := .ite h.openFrame.noteFast h

theorem Keeps.abandon {s : State} {reason : ℕ} (h : Keeps b s) : Keeps b (s.abandon reason) :=
  h.foldl fun h => by
    split
    · exact .ite h h.modQueue
    · exact h

theorem Keeps.powerOff {s : State} {reason : ℕ} (h : Keeps b s) : Keeps b (s.powerOff reason) :=
  (h.abandon.clearBit.foldl fun h => h.setPortState).withMem (kwf_filter _ _ _)

theorem Keeps.beginPowerDown {s : State} (h : Keeps b s) : Keeps b (s.beginPowerDown) := h.same

theorem Keeps.beginRemoval {s : State} (h : Keeps b s) : Keeps b (s.beginRemoval) := .ite h.same h.same.setBit.beginPowerDown

theorem Keeps.takeOut {s : State} (h : Keeps b s) : Keeps b (s.takeOut) :=
  (h.foldl (fun h => h.sendLinkState)).powerOff.setBit.same

theorem Keeps.drainDown {s : State} (h : Keeps b s) : Keeps b (s.drainDown) :=
  .ite h (.ite h.same (.ite (.ite h.same.takeOut h.same.powerOff) h.same))

theorem Keeps.endCp {s : State} (h : Keeps b s) : Keeps b (s.endCp) := .ite h.same.failCp h

theorem Keeps.startTests {s : State} (h : Keeps b s) : Keeps b (s.startTests) := h.same

theorem Keeps.tickWindow {s : State} {late : Bool} {energy : ℕ} {parts : List ℕ} (h : Keeps b s) : Keeps b (s.tickWindow late
    energy parts) :=
  (((((h.countStalls.sampleConsent.latch.takeModes.rootFrame.chooseParent.foldl (fun h => h.checkPart)).foldl (fun h =>
    h.reopen)).completeEnding.swapBanks.foldl (fun h => h.resumePart)).completeEnding.takeEnergy.chooseFast.takeRate.foldl (fun h
    => h.openEarly)).admissions.endCp.foldl (fun h => h.openLate)).applyDue.scrubWindow.startTests.serveReads.drainDown

theorem Keeps.execTick {energy : ℕ} {parts : List ℕ} {s : State} (h : Keeps b s) : KeepsOut b (execTick energy parts s) :=
  .ite (.next h.newTick) (.ite (.next h.newTick.frozenTick) (.next h.newTick.tickWindow))

end Sys2Proof.Machine
end

section
/-! PROOFS. What every command keeps, 5: control, observation, start-up, management, register access, every command. -/

namespace Sys2Proof.Machine

variable {b : State}

theorem Keeps.cpErr {s : State} {i : ℕ} (h : Keeps b s) : Keeps b (s.cpErr i) := h.setBit

theorem Keeps.writePart {s : State} {p value : ℕ} (h : Keeps b s) : Keeps b (s.writePart p value) := .ite h.cpErr h.setReg

theorem Keeps.execCpPartWrite {p value : ℕ} {s : State} (h : Keeps b s) : KeepsOut b (execCpPartWrite p value s) :=
  .ite .fault (.ite (.next h.enqueueWrite) (.next h.writePart))

theorem Keeps.writeFnCfg {s : State} {f value : ℕ} (h : Keeps b s) : Keeps b (s.writeFnCfg f value) :=
  .ite h (.ite h.cpErr h.setReg.same)

theorem Keeps.writeFnEvents {s : State} {f value : ℕ} (h : Keeps b s) : Keeps b (s.writeFnEvents f value) :=
  .ite h.cpErr h.same.setReg

theorem Keeps.execFnCfgWrite {f : ℕ} {events : Bool} {value : ℕ} {s : State} (h : Keeps b s) : KeepsOut b (execFnCfgWrite f events
    value s) :=
  .ite .fault (.ite (.next h.enqueueWrite) (.next (.ite h.writeFnEvents h.writeFnCfg)))

theorem Keeps.preemptStop {s : State} {p : ℕ} (h : Keeps b s) : Keeps b (s.preemptStop p) := .ite h.cpErr h.modPart

theorem Keeps.preemptResume {s : State} {p : ℕ} (h : Keeps b s) : Keeps b (s.preemptResume p) := .ite h.cpErr h.modPart

theorem Keeps.execPreemptStop {p : ℕ} {s : State} (h : Keeps b s) : KeepsOut b (execPreemptStop p s) :=
  .ite .fault (.ite (.next h.enqueueWrite) (.next h.preemptStop))

theorem Keeps.execPreemptResume {p : ℕ} {s : State} (h : Keeps b s) : KeepsOut b (execPreemptResume p s) :=
  .ite .fault (.ite (.next h.enqueueWrite) (.next h.preemptResume))

theorem Keeps.release {s : State} {f : ℕ} (h : Keeps b s) : Keeps b (s.release f) := .ite h.cpErr (h.same.foldl (fun h => h.deny))

theorem Keeps.execFnRelease {f : ℕ} {s : State} (h : Keeps b s) : KeepsOut b (execFnRelease f s) :=
  .ite .fault (.ite (.next h.enqueueWrite) (.next h.release))

theorem Keeps.functionReset {s : State} {f : ℕ} (h : Keeps b s) : Keeps b (s.functionReset f) :=
  h.same.foldl (fun h => h.markHeld)

theorem Keeps.execFunctionReset {f : ℕ} {s : State} (h : Keeps b s) : KeepsOut b (execFunctionReset f s) :=
  .ite .fault (.next h.functionReset)

theorem Keeps.execDeviceReset {s : State} (h : Keeps b s) : KeepsOut b (execDeviceReset s) :=
  .ite (.next h) (.ite (.next h.enqueueWrite) (.next h.deviceReset))

theorem Keeps.execOrderlyPowerDown {s : State} (h : Keeps b s) : KeepsOut b (execOrderlyPowerDown s) :=
  .ite (.next h) (.next h.beginPowerDown)

theorem Keeps.execInputLoss {s : State} (h : Keeps b s) : KeepsOut b (execInputLoss s) :=
  .ite (.next h.setBit) (.next h.setBit.powerOff)

theorem Keeps.execPowerDip {s : State} (h : Keeps b s) : KeepsOut b (execPowerDip s) := .next h.count

theorem Keeps.flushQueues {s : State} (h : Keeps b s) : Keeps b (s.flushQueues) := h.foldl (fun h => .ite h.flushHeld h)

theorem Keeps.execHostPowerState {d3hot : Bool} {s : State} (h : Keeps b s) : KeepsOut b (execHostPowerState d3hot s) :=
  .next (.ite h.same h.same.flushQueues)

theorem Keeps.writeCntCfg {s : State} {kind k value : ℕ} (h : Keeps b s) : Keeps b (s.writeCntCfg kind k value) :=
  .ite h h.setReg.same

theorem Keeps.execCntCfgWrite {kind k value : ℕ} {s : State} (h : Keeps b s) : KeepsOut b (execCntCfgWrite kind k value s) :=
  .ite .fault (.ite (.next h.enqueueWrite) (.next h.writeCntCfg))

theorem Keeps.writeSink {s : State} {near : Bool} {a : ℕ} {b' : List Byte} (h : Keeps b s) : Keeps b (s.writeSink near a b') :=
  .ite h.writeTenant h.writeMarked

theorem Keeps.writeDump {s : State} (h : Keeps b s) : Keeps b (s.writeDump) := h.writeSink.setReg.same

theorem Keeps.execDump {s : State} (h : Keeps b s) : KeepsOut b (execDump s) := .ite (.next h) (.next h.writeDump)

theorem Keeps.execObsConsentWrite {f value : ℕ} {s : State} (h : Keeps b s) : KeepsOut b (execObsConsentWrite f value s) :=
  .ite .fault (.ite (.next h.enqueueWrite) (.next h.setReg))

theorem Keeps.writeObsPart {s : State} {p value : ℕ} (h : Keeps b s) : Keeps b (s.writeObsPart p value) := h.setField

theorem Keeps.execObsPartWrite {p value : ℕ} {s : State} (h : Keeps b s) : KeepsOut b (execObsPartWrite p value s) :=
  .ite .fault (.ite (.next h.enqueueWrite) (.next h.writeObsPart))

theorem Keeps.execTestMismatch {c : ℕ} {pc : BitVec 8} {expected actual : BitVec 20} {s : State} (h : Keeps b s) : KeepsOut b
    (execTestMismatch c pc expected actual s) := by
  unfold Machine.execTestMismatch
  dsimp only
  split
  · exact .fault
  · split
    · exact .next h
    · exact .ite (.next h) (.next h.trace.same)

theorem Keeps.takeSample {s : State} {c skid : ℕ} {pc : BitVec 8} (h : Keeps b s) : Keeps b (s.takeSample c skid pc) := by
  unfold State.takeSample
  dsimp only
  split
  · exact h.same.count
  · exact h.same.trace

theorem Keeps.execThreadSample {c skid : ℕ} {pc : BitVec 8} {s : State} (h : Keeps b s) : KeepsOut b (execThreadSample c skid pc
    s) :=
  .ite .fault (.ite (.next h) (.next h.takeSample))

theorem Keeps.drainSepia {s : State} (h : Keeps b s) : Keeps b (s.drainSepia) := by
  unfold State.drainSepia
  dsimp only
  split
  · exact h
  · exact .ite h (h.withMem (Mem.wf_writeBytes _ _ _)).setReg.same

theorem Keeps.execSepiaRecord {s : State} (h : Keeps b s) : KeepsOut b (execSepiaRecord s) := .next h.drainSepia

theorem Keeps.execLost {s : State} (h : Keeps b s) : KeepsOut b (execLost s) := .ite (.next h) (.next h.same.trace)

theorem Keeps.execSepiaHeadWrite {head : ℕ} {s : State} (h : Keeps b s) : KeepsOut b (execSepiaHeadWrite head s) :=
  .ite (.next h.enqueueWrite) (.next h.setReg)

theorem Keeps.freeze {s : State} {source : ℕ} {scheduled : Bool} (h : Keeps b s) : Keeps b (s.freeze source scheduled) :=
  .ite h h.setReg.setWide.same.serveWaiting

theorem Keeps.flood {s : State} {but : Option ℕ} {kind count : ℕ} (h : Keeps b s) : Keeps b (s.flood but kind count) :=
  h.same.foldl (fun h => h.sendControl.sendControl.sendControl)

theorem Keeps.armFreeze {s : State} {at_ source : ℕ} (h : Keeps b s) : Keeps b (s.armFreeze at_ source) :=
  .same (.setBit (.ite h.setBit h))

theorem Keeps.armResume {s : State} {at_ : ℕ} (h : Keeps b s) : Keeps b (s.armResume at_) := .ite h (.ite h.setBit h.same)

theorem Keeps.execVigilPin {s : State} (h : Keeps b s) : KeepsOut b (execVigilPin s) := by
  unfold Machine.execVigilPin
  split
  · exact .next h
  · split
    · exact .next h.freeze
    · exact .next h.freeze.flood
    · exact .next h

theorem Keeps.execNow {s : State} (h : Keeps b s) : KeepsOut b (execNow s) := .next h.freeze

theorem Keeps.execNowSys {s : State} (h : Keeps b s) : KeepsOut b (execNowSys s) := .next h.freeze.flood

theorem Keeps.execSched {s : State} (h : Keeps b s) : KeepsOut b (execSched s) := .next h.armFreeze

theorem Keeps.execSchedSys {s : State} (h : Keeps b s) : KeepsOut b (execSchedSys s) := .next h.armFreeze.flood

theorem Keeps.execResume {s : State} (h : Keeps b s) : KeepsOut b (execResume s) := .next h.armResume

theorem Keeps.execResumeSys {s : State} (h : Keeps b s) : KeepsOut b (execResumeSys s) := .next h.armResume.flood

theorem Keeps.execScheduledFreeze {s : State} (h : Keeps b s) : KeepsOut b (execScheduledFreeze s) := by
  unfold Machine.execScheduledFreeze
  split
  · exact .ite (.next h.freeze) (.next h)
  · exact .next h

theorem Keeps.execFloodReceive {p kind count : ℕ} {s : State} (h : Keeps b s) : KeepsOut b (execFloodReceive p kind count s) := by
  unfold Machine.execFloodReceive
  split
  · exact .fault
  · refine .ite (.next h) ?_
    split
    · exact .next h.freeze.flood
    · exact .next h.armFreeze.flood
    · exact .next h.armResume.flood
    · exact .next h

theorem Keeps.writeVigil {s : State} {v : ℕ} (h : Keeps b s) : Keeps b (s.writeVigil v) :=
  .ite h (.ite (.flood (.armResume (.ite (.armResume (.ite (.flood (.freeze (.ite (.freeze (.ite (.flood (.armFreeze (.ite
    h.setReg.armFreeze h.setReg))) (.ite h.setReg.armFreeze h.setReg))) (.ite (.flood (.armFreeze (.ite h.setReg.armFreeze
    h.setReg))) (.ite h.setReg.armFreeze h.setReg))))) (.ite (.freeze (.ite (.flood (.armFreeze (.ite h.setReg.armFreeze
    h.setReg))) (.ite h.setReg.armFreeze h.setReg))) (.ite (.flood (.armFreeze (.ite h.setReg.armFreeze h.setReg))) (.ite
    h.setReg.armFreeze h.setReg))))) (.ite (.flood (.freeze (.ite (.freeze (.ite (.flood (.armFreeze (.ite h.setReg.armFreeze
    h.setReg))) (.ite h.setReg.armFreeze h.setReg))) (.ite (.flood (.armFreeze (.ite h.setReg.armFreeze h.setReg))) (.ite
    h.setReg.armFreeze h.setReg))))) (.ite (.freeze (.ite (.flood (.armFreeze (.ite h.setReg.armFreeze h.setReg))) (.ite
    h.setReg.armFreeze h.setReg))) (.ite (.flood (.armFreeze (.ite h.setReg.armFreeze h.setReg))) (.ite h.setReg.armFreeze
    h.setReg))))))) (.ite (.armResume (.ite (.flood (.freeze (.ite (.freeze (.ite (.flood (.armFreeze (.ite h.setReg.armFreeze
    h.setReg))) (.ite h.setReg.armFreeze h.setReg))) (.ite (.flood (.armFreeze (.ite h.setReg.armFreeze h.setReg))) (.ite
    h.setReg.armFreeze h.setReg))))) (.ite (.freeze (.ite (.flood (.armFreeze (.ite h.setReg.armFreeze h.setReg))) (.ite
    h.setReg.armFreeze h.setReg))) (.ite (.flood (.armFreeze (.ite h.setReg.armFreeze h.setReg))) (.ite h.setReg.armFreeze
    h.setReg))))) (.ite (.flood (.freeze (.ite (.freeze (.ite (.flood (.armFreeze (.ite h.setReg.armFreeze h.setReg))) (.ite
    h.setReg.armFreeze h.setReg))) (.ite (.flood (.armFreeze (.ite h.setReg.armFreeze h.setReg))) (.ite h.setReg.armFreeze
    h.setReg))))) (.ite (.freeze (.ite (.flood (.armFreeze (.ite h.setReg.armFreeze h.setReg))) (.ite h.setReg.armFreeze
    h.setReg))) (.ite (.flood (.armFreeze (.ite h.setReg.armFreeze h.setReg))) (.ite h.setReg.armFreeze h.setReg))))))

theorem Keeps.startScan {s : State} (h : Keeps b s) : Keeps b (s.startScan) := .ite h h.setReg.same

theorem State.wf_scanOne {s : State} {base c : ℕ} {pads : Bool} {m : Mem} (hm : Memory.wf m = true) : Memory.wf (s.scanOne base
    pads m c) = true := by
  unfold State.scanOne
  dsimp only
  split
  · exact Mem.wf_writeBytes _ _ _ (Mem.wf_writeBytes _ _ _ hm)
  · exact Mem.wf_writeBytes _ _ _ hm

theorem Keeps.execScanGo {s : State} (h : Keeps b s) : KeepsOut b (execScanGo s) := .next h.startScan

theorem State.wf_scanAll {s : State} {base : ℕ} {pads : Bool} {m : Mem} {l : List ℕ} (hm : Memory.wf m = true) : Memory.wf
    (l.foldl (s.scanOne base pads) m) = true :=
  List.foldlRecOn (motive := fun m => Memory.wf m = true) _ _ hm fun _ hm _ _ => State.wf_scanOne hm

theorem Keeps.endScan {s : State} (h : Keeps b s) : Keeps b (s.endScan) := by
  unfold State.endScan
  dsimp only
  generalize List.filter s.isCore (List.range 49152) = l
  split
  · exact h.count.setBit.setReg.withMem State.wf_scanAll
  · exact h.count.setReg.withMem State.wf_scanAll

theorem Keeps.execScanDone {s : State} (h : Keeps b s) : KeepsOut b (execScanDone s) := .ite (.next h.endScan) (.next h)

theorem Keeps.writeNearCfg {s : State} {v : ℕ} (h : Keeps b s) : Keeps b (s.writeNearCfg v) := h.setReg.same

theorem Keeps.atStage {s : State} {n : ℕ} (h : Keeps b s) : Keeps b (s.atStage n) := h.setField

theorem Keeps.failStart {s : State} {reason : ℕ} (h : Keeps b s) : Keeps b (s.failStart reason) := h.setBit.setField

theorem Keeps.showStraps {s : State} {pins : ℕ} (h : Keeps b s) : Keeps b (s.showStraps pins) := h.setField

theorem Keeps.execSlotIdStrapChange {pins : ℕ} {s : State} (h : Keeps b s) : KeepsOut b (execSlotIdStrapChange pins s) :=
  .next h.showStraps

theorem Keeps.execPrsntChange {made : Bool} {s : State} (h : Keeps b s) : KeepsOut b (execPrsntChange made s) := .next h.same

theorem Keeps.changeCable {s : State} {p : ℕ} {fit : Bool} (h : Keeps b s) : Keeps b (s.changeCable p fit) :=
  .ite h.same (.ite (.ite h.same.setPortState h.same) (.ite h.same.portDown (.ite h.same.setPortState h.same)))

theorem Keeps.execCableChange {p : ℕ} {inserted qualified : Bool} {s : State} (h : Keeps b s) : KeepsOut b (execCableChange p
    inserted qualified s) :=
  .ite .fault (.next h.changeCable)

theorem Keeps.measure {s : State} {i : ℕ} {b' : List Byte} (h : Keeps b s) : Keeps b (s.measure i b') := h.same

theorem Keeps.bootKind {s : State} {k : ℕ} (h : Keeps b s) : KeepsOpt b id (s.bootKind k) :=
  .ofMap fun _ => h.measure.setField.setField

theorem Keeps.raiseSvn {s : State} {k : ℕ} (h : Keeps b s) : Keeps b (s.raiseSvn k) := .ite h h.same.setField

theorem Keeps.showLoad {s : State} (h : Keeps b s) : Keeps b (s.showLoad) := h.setReg.same

theorem Keeps.applyRecord {s : State} {r : List Byte} (h : Keeps b s) : Keeps b (s.applyRecord r) :=
  h.setReg.setField.setField.setField.setReg

theorem Keeps.standalone {s : State} (h : Keeps b s) : Keeps b (s.standalone) := h.setBit.setField

theorem Keeps.readCarrier {s : State} {pins : ℕ} {rec : List Byte} (h : Keeps b s) : Keeps b (s.readCarrier pins rec) :=
  .ite (.setField (.same (.ite h.showStraps.setField h.showStraps))) (.ite h.showStraps.setField h.showStraps)

theorem Keeps.applySettings {s : State} {env : StartEnv} (h : Keeps b s) : Keeps b (s.applySettings env) :=
  .measure (.readCarrier (by split; exacts [h.applyRecord, h.standalone]))

theorem Keeps.bistSite {s : State} {d h' r col : ℕ} (h : Keeps b s) : Keeps b (s.bistSite d h' r col) :=
  .ite h (.ite h.setBit h.same.setField)

theorem Keeps.applyHistory {s : State} {x : ℕ × ℕ} (h : Keeps b s) : Keeps b (s.applyHistory x) := by
  unfold State.applyHistory
  dsimp only
  split
  · exact h.bistSite
  · exact h.same
  · exact h.same
  · exact h.setBit
  · exact h

theorem Keeps.startParity {s : State} (h : Keeps b s) : Keeps b (s.startParity) := h.foldl (fun h => h.setField)

theorem Keeps.testDies {s : State} {env : StartEnv} (h : Keeps b s) : Keeps b (s.testDies env) :=
  ((h.foldl (fun h => h.applyHistory)).foldl (fun h => h.bistSite)).startParity.foldl (fun h => h.setField)

theorem Keeps.startNear {s : State} {env : StartEnv} (h : Keeps b s) : KeepsOpt b id (s.startNear env) := by
  unfold State.startNear
  dsimp only
  split
  · exact .some h.setBit.setField.setReg
  · exact .ite (.some h.setBit.setField.setReg.setField) .none
  · exact .none

theorem Keeps.startFar {s : State} {env : StartEnv} (h : Keeps b s) : Keeps b (s.startFar env) := by
  unfold State.startFar
  split
  · exact h.setField
  · exact h.setField.setReg

theorem Keeps.startBays {s : State} {env : StartEnv} (h : Keeps b s) : Keeps b (s.startBays env) :=
  h.foldl fun h => by
    split
    · exact h.setBit.bayUp
    · exact h

theorem Keeps.startPorts {s : State} (h : Keeps b s) : Keeps b (s.startPorts) := h.foldl (fun h => .ite h.setPortState h)

theorem Keeps.becomeReady {s : State} (h : Keeps b s) : Keeps b (s.becomeReady) := h.atStage.setBit.foldl (fun h => h.raiseSvn)

theorem Keeps.startCp {s : State} {env : StartEnv} (h : Keeps b s) : Keeps b (s.startCp env) :=
  .ite h.atStage h.atStage.setReg.abandonPending.same.becomeReady

theorem Keeps.startTiers {s : State} {env : StartEnv} (h : Keeps b s) : Keeps b (s.startTiers env) := by
  unfold State.startTiers
  dsimp only
  split
  · exact h.atStage.failStart
  · exact (h.atStage.startNear.get ‹_›).startFar.startBays.atStage.startPorts.atStage.startCp

theorem Keeps.startDies {s : State} {env : StartEnv} (h : Keeps b s) : Keeps b (s.startDies env) :=
  .ite h.clearBit.testDies.failStart h.clearBit.testDies.startTiers

theorem Keeps.execCoolantCheckPass {s : State} (h : Keeps b s) : KeepsOut b (execCoolantCheckPass s) :=
  .ite (.next h.startDies) (.next h)

theorem Keeps.startFirmware {s : State} {env : StartEnv} (h : Keeps b s) : Keeps b (s.startFirmware env) := by
  unfold State.startFirmware
  dsimp only
  split
  · exact h.atStage.failStart
  · split
    · exact h.atStage.failStart
    · have h3 := h.atStage.measure.bootKind.get ‹_›
      split
      · exact h3.showLoad.atStage.failStart
      · rename_i s4 e
        have h4 := (h3.showLoad.atStage.bootKind.bind fun h => h.bootKind).get e
        exact h4.atStage.applySettings.atStage.atStage.setBit

theorem Keeps.powerOn {s : State} {env : StartEnv} (h : Keeps b s) : Keeps b (s.powerOn env) := h.withMem (kwf_filter _ _ _)

theorem Keeps.execStartup {env : StartEnv} {s : State} (h : Keeps b s) : KeepsOut b (execStartup env s) :=
  .ite (.next h) (.next (.ite h.powerOn.atStage.startFirmware h.powerOn.atStage))

theorem Keeps.execStartupStepTimeout {s : State} (h : Keeps b s) : KeepsOut b (execStartupStepTimeout s) := by
  unfold Machine.execStartupStepTimeout
  split
  · exact .next h
  · split
    · exact .next h.failStart
    · exact .next h

theorem Keeps.execMcHeartbeatMiss {s : State} (h : Keeps b s) : KeepsOut b (execMcHeartbeatMiss s) := .next h.count.same

theorem Keeps.telemetry {s : State} {temp flow inlet : ℕ} (h : Keeps b s) : Keeps b (s.telemetry temp flow inlet) :=
  .ite h.same.showLoad.count h.same.showLoad.same

theorem Keeps.execTelemetrySample {temp flow inlet : ℕ} {s : State} (h : Keeps b s) : KeepsOut b (execTelemetrySample temp flow
    inlet s) :=
  .next h.telemetry

theorem Keeps.execThermalTrip {s : State} (h : Keeps b s) : KeepsOut b (execThermalTrip s) := .ite (.next h) (.next h.powerOff)

theorem Keeps.requestPowerDown {s : State} (h : Keeps b s) : Keeps b (s.requestPowerDown) := .ite h h.beginPowerDown

theorem Keeps.requestRemoval {s : State} (h : Keeps b s) : Keeps b (s.requestRemoval) := .ite h.setBit.takeOut h.beginRemoval

theorem Keeps.execCoolantFailure {s : State} (h : Keeps b s) : KeepsOut b (execCoolantFailure s) := .next h.requestPowerDown

theorem Keeps.execRefclkLoss {s : State} (h : Keeps b s) : KeepsOut b (execRefclkLoss s) := .next h.same.requestPowerDown

theorem Keeps.execAttnN {s : State} (h : Keeps b s) : KeepsOut b (execAttnN s) := .next h.requestRemoval

theorem Keeps.mboxReply {s : State} {code : ℕ} (h : Keeps b s) : Keeps b (s.mboxReply code) := h.setReg.same

theorem Keeps.mboxGo {s : State} (h : Keeps b s) : Keeps b (s.mboxGo) := .ite h (.ite h.same h.mboxReply)

theorem Keeps.onMailbox {code : ℕ} {f : State → State} {s : State} (h : Keeps b s) (hf : ∀ {s : State}, Keeps b s → Keeps b (f s))
    : KeepsOut b (onMailbox code f s) :=
  .ite (.next h) (.ite (.next (hf h)) (.next h))

theorem Keeps.sucStore {s : State} (h : Keeps b s) : Keeps b (s.sucStore) := by
  unfold State.sucStore
  dsimp only
  split
  · exact h.mboxReply
  · exact .ite h.same.mboxReply h.mboxReply

theorem Keeps.execSucWrite {s : State} (h : Keeps b s) : KeepsOut b (execSucWrite s) := h.onMailbox (fun h => h.sucStore)

theorem Keeps.sucLoad {s : State} (h : Keeps b s) : Keeps b (s.sucLoad) := by
  unfold State.sucLoad
  split
  · exact h.mboxReply
  · exact .mboxReply (by split; exacts [h.writeMarked, h])

theorem Keeps.execSucRead {s : State} (h : Keeps b s) : KeepsOut b (execSucRead s) := h.onMailbox (fun h => h.sucLoad)

theorem Keeps.stageImage {s : State} {b' : List Byte} (h : Keeps b s) : Keeps b (s.stageImage b') := h.same

theorem Keeps.fwStage {s : State} (h : Keeps b s) : Keeps b (s.fwStage) := by
  unfold State.fwStage
  dsimp only
  split
  · exact h.mboxReply
  · split
    · exact h.mboxReply
    · exact h.stageImage.mboxReply

theorem Keeps.execFwStage {s : State} (h : Keeps b s) : KeepsOut b (execFwStage s) := h.onMailbox (fun h => h.fwStage)

theorem Keeps.writeInventory {s : State} (h : Keeps b s) : Keeps b (s.writeInventory) := by
  unfold State.writeInventory
  dsimp only
  split
  · exact h.mboxReply
  · exact h.writeMarked.same.mboxReply

theorem Keeps.execInventory {s : State} (h : Keeps b s) : KeepsOut b (execInventory s) := h.onMailbox (fun h => h.writeInventory)

theorem Keeps.execRemove {s : State} (h : Keeps b s) : KeepsOut b (execRemove s) :=
  h.onMailbox (fun h => h.mboxReply.requestRemoval)

theorem Keeps.execPowerDown {s : State} (h : Keeps b s) : KeepsOut b (execPowerDown s) :=
  h.onMailbox (fun h => h.mboxReply.requestPowerDown)

theorem Keeps.setDoe {s : State} {f : ℕ} {d : Doe} (h : Keeps b s) : Keeps b (s.setDoe f d) := h.same

theorem Keeps.spdmAnswer {s : State} {f code : ℕ} {req : List Byte} (h : Keeps b s) : Keeps b (s.spdmAnswer f code req) :=
  h.same.setDoe

theorem Keeps.execSpdmRequest {f : ℕ} {bytes : List (BitVec 8)} {s : State} (h : Keeps b s) : KeepsOut b (execSpdmRequest f bytes
    s) := by
  unfold Machine.execSpdmRequest
  dsimp only
  split
  · exact .fault
  · split
    · exact .ite (.ite (.next h.spdmAnswer) (.next h.setDoe)) (.ite (.next h.setDoe) (.next h))
    · exact .next h

theorem Keeps.setUart {s : State} {u : Uart} (h : Keeps b s) : Keeps b (s.setUart u) := h.same

theorem Keeps.execUartReceiveCharacter {data : BitVec 8} {stop : Bool} {s : State} (h : Keeps b s) : KeepsOut b
    (execUartReceiveCharacter data stop s) :=
  .ite (.next h.count) (.ite (.next (.count (.ite h h.count))) (.next (.setUart (.ite h h.count))))

theorem Keeps.execUartTransmitCharacter {s : State} (h : Keeps b s) : KeepsOut b (execUartTransmitCharacter s) := by
  unfold Machine.execUartTransmitCharacter
  dsimp only
  split
  · exact .next h
  · exact .next h.setUart

theorem Keeps.execUartSepiaFrame {s : State} (h : Keeps b s) : KeepsOut b (execUartSepiaFrame s) := by
  unfold Machine.execUartSepiaFrame
  dsimp only
  split
  · exact .next h
  · exact .ite (.next h) (.next h.setUart.same)

theorem Keeps.setCvu {s : State} {c : ℕ} {x : CvuCh} (h : Keeps b s) : Keeps b (s.setCvu c x) := h.same

theorem Keeps.cvuSettle {s : State} {c : ℕ} (h : Keeps b s) : Keeps b (s.cvuSettle c) := h.setCvu

theorem Keeps.feed {s : State} {who c bytes value : ℕ} (h : Keeps b s) : Keeps b (s.feed who c bytes value) := .ite h h.setCvu

theorem Keeps.execCvuFeed {who ch bytes value : ℕ} {s : State} (h : Keeps b s) : KeepsOut b (execCvuFeed who ch bytes value s) :=
  .ite .fault (.next h.feed)

theorem Keeps.initCvu {s : State} {c : ℕ} (h : Keeps b s) : Keeps b (s.initCvu c) := h.setCvu

theorem Keeps.execCvuInit {who ch : ℕ} {s : State} (h : Keeps b s) : KeepsOut b (execCvuInit who ch s) :=
  .ite .fault (.ite (.next h.initCvu) (.next h))

theorem Keeps.writeCvuCtrl {s : State} {who c v : ℕ} (h : Keeps b s) : Keeps b (s.writeCvuCtrl who c v) :=
  .ite h (.ite h.cvuSettle.setReg.initCvu h.cvuSettle.setReg)

theorem Keeps.writeCvuValue {s : State} {who c : ℕ} {high : Bool} {value : ℕ} (h : Keeps b s) : Keeps b (s.writeCvuValue who c
    high value) :=
  .ite h (.ite (.ite h.setCvu.same h.stageLow) (.ite h h.setCvu))

theorem Keeps.execCvuValueWrite {who ch : ℕ} {high : Bool} {value : ℕ} {s : State} (h : Keeps b s) : KeepsOut b (execCvuValueWrite
    who ch high value s) :=
  .ite .fault (.next h.writeCvuValue)

theorem Keeps.readWide {s : State} {who lo : ℕ} {high : Bool} {v : ℕ} (h : Keeps b s) : Keeps b (s.readWide who lo high v) :=
  .ite h.same h.same

theorem Keeps.execCvuValueRead {who ch : ℕ} {high : Bool} {s : State} (h : Keeps b s) : KeepsOut b (execCvuValueRead who ch high
    s) :=
  .ite .fault (.next h.cvuSettle.readWide)

theorem Keeps.execCvuResultRead {who ch : ℕ} {high : Bool} {s : State} (h : Keeps b s) : KeepsOut b (execCvuResultRead who ch high
    s) :=
  .ite .fault (.next h.cvuSettle.readWide)

theorem Keeps.readLow {s : State} {who a : ℕ} (h : Keeps b s) : Keeps b (s.readLow who a) := h.same

theorem Keeps.execWideLowRead {who addr : ℕ} {s : State} (h : Keeps b s) : KeepsOut b (execWideLowRead who addr s) :=
  .ite .fault (.ite (.next h.readLow) (.next h.same))

theorem Keeps.writeRw {s : State} {a fields v : ℕ} (h : Keeps b s) : Keeps b (s.writeRw a fields v) := h.setReg

theorem Keeps.writeW1c {s : State} {a fields v : ℕ} (h : Keeps b s) : Keeps b (s.writeW1c a fields v) := h.setReg

theorem Keeps.writeIf {s : State} {ok : Bool} {f : State → State} (h : Keeps b s) (hf : ∀ {s : State}, Keeps b s → Keeps b (f s))
    : Keeps b (s.writeIf ok f) :=
  .ite (hf h) h

theorem Keeps.stageWide {s : State} {who lo : ℕ} {r : WideReg} {v : ℕ} (h : Keeps b s) : Keeps b (s.stageWide who lo r v) :=
  .ite h h.stageLow

theorem Keeps.commitReg {s : State} {who lo : ℕ} {r : WideReg} {v : ℕ} (h : Keeps b s) : Keeps b (s.commitReg who lo r v) :=
  .ite h h.commitWide

theorem Keeps.writeWide {s : State} {who lo : ℕ} {high : Bool} {r : WideReg} {v : ℕ} (h : Keeps b s) : Keeps b (s.writeWide who lo
    high r v) :=
  .ite h.commitReg h.stageWide

theorem Keeps.writeGid {s : State} {a v w : ℕ} (h : Keeps b s) : Keeps b (s.writeGid a v w) := .ite h.writeW1c (.ite h.writeRw h)

theorem Keeps.writeAlm {s : State} {who a v w : ℕ} (h : Keeps b s) : Keeps b (s.writeAlm who a v w) := by
  unfold State.writeAlm
  split
  · exact .ite h.writeRw.acquire h.writeRw
  · exact h.writeRw
  · exact h.writeW1c
  · exact .ite h.setBit (h.writeIf fun h => h.writeRw)
  · exact .ite h.setBit h.stageWide
  · exact h.armRate
  · exact h

theorem Keeps.writePreempt {s : State} {w : ℕ} (h : Keeps b s) : Keeps b (s.writePreempt w) := by
  unfold State.writePreempt
  split
  · exact h.preemptStop
  · exact h.preemptResume
  · exact h

theorem Keeps.writeCp {s : State} {who a v w : ℕ} (h : Keeps b s) : Keeps b (s.writeCp who a v w) := by
  unfold State.writeCp
  dsimp only
  split
  · split
    · exact h.writeFnCfg
    · exact h.writeFnEvents
    · exact h
  · split
    · exact .ite h.writePart h
    · split
      · exact .ite h.deviceReset h
      · exact h.writeW1c
      · exact .ite h.release h
      · exact h.writePreempt
      · exact h.stageWide
      · exact h.commitReg
      · exact h

theorem Keeps.writeTier {s : State} {who a v w : ℕ} (h : Keeps b s) : Keeps b (s.writeTier who a v w) := by
  unfold State.writeTier
  dsimp only
  split
  · exact h.writeNearCfg
  · split
    · exact h.writeW1c
    · split
      · exact h.writeCacheBase
      · split
        · exact h.setField
        · split
          · split
            · exact h.writeRw
            · exact h.stageWide
            · exact h.armWindow
            · exact h
          · exact .ite (.ite h.writeShares h.writeQuota) (.ite h.writeCarve h)

theorem Keeps.writeTor {s : State} {a keep v : ℕ} (h : Keeps b s) : Keeps b (s.writeTor a keep v) := .ite h.setReg h.setBit

theorem Keeps.writeLinkCtrl {s : State} {v mask : ℕ} (h : Keeps b s) : Keeps b (s.writeLinkCtrl v mask) :=
  .ite (h.foldl (fun h => h.portRequest)) h

theorem Keeps.writeShare {s : State} {a v : ℕ} (h : Keeps b s) : Keeps b (s.writeShare a v) := .ite h.setBit h.writeRw

theorem Keeps.writeLink {s : State} {a v w mask : ℕ} (h : Keeps b s) : Keeps b (s.writeLink a v w mask) := by
  unfold State.writeLink
  dsimp only
  split
  · exact h.writeShare
  · split
    · exact h.writeTor
    · exact h.writeIf (fun h => h.writeTor)
    · exact h.writeLinkCtrl
    · exact h.writeW1c
    · exact h.writeRw
    · exact h.writeW1c
    · exact h

theorem Keeps.writeScanCtrl {s : State} {v w : ℕ} (h : Keeps b s) : Keeps b (s.writeScanCtrl v w) :=
  .ite h (.ite h.writeRw.startScan h.writeRw)

theorem Keeps.writeObs {s : State} {who a v w : ℕ} (h : Keeps b s) : Keeps b (s.writeObs who a v w) := by
  unfold State.writeObs
  dsimp only
  split
  · exact h.writeIf (fun h => h.writeCntCfg)
  · split
    · exact h.writeObsPart
    · split
      · exact h.writeRw
      · exact h.stageWide
      · exact h.commitReg
      · exact h.writeRw
      · exact h.writeRw
      · exact h.writeRw
      · exact h.writeIf (fun h => h.writeRw)
      · exact h.stageWide
      · exact h.commitReg
      · exact h.writeIf (fun h => h.writeRw)
      · exact h.writeRw
      · exact h.writeVigil
      · exact h.stageWide
      · exact h.commitReg
      · exact h.stageWide
      · exact h.commitReg
      · exact h.writeScanCtrl
      · exact h.stageWide
      · exact h.commitReg
      · exact h

theorem Keeps.writeCvu {s : State} {who c off v w : ℕ} (h : Keeps b s) : Keeps b (s.writeCvu who c off v w) := by
  unfold State.writeCvu
  split
  · exact h.writeCvuCtrl
  · exact h.writeCvuValue
  · exact h.writeCvuValue
  · exact h.feed
  · exact h.feed
  · exact h.feed
  · exact h

theorem Keeps.writeMgmt {s : State} {who a v w : ℕ} (h : Keeps b s) : Keeps b (s.writeMgmt who a v w) := by
  unfold State.writeMgmt
  dsimp only
  split
  · exact h.writeCvu
  · split
    · exact h.writeCvu
    · split
      · exact h.writeCvu
      · split
        · exact h.writeRw
        · split
          · exact h.writeRw
          · exact .ite h.mboxGo h
          · exact h.writeRw
          · exact h.writeIf (fun h => h.writeRw)
          · exact h.writeRw
          · exact h.writeIf (fun h => h.writeRw)
          · exact h

theorem Keeps.writeDie {s : State} {d o v w : ℕ} (h : Keeps b s) : Keeps b (s.writeDie d o v w) := by
  unfold State.writeDie
  split
  · exact h.writeRw
  · exact h.writeRemapCtrl
  · exact h.writeRw
  · exact .ite h.popRecord h
  · exact h.writeScrub
  · exact h

theorem Keeps.writeQueue {s : State} {f q off v w : ℕ} (h : Keeps b s) : Keeps b (s.writeQueue f q off v w) := by
  unfold State.writeQueue
  dsimp only
  split
  · exact h.stageWide
  · exact h.commitReg
  · exact h.writeIf (fun h => h.writeRw)
  · exact h.writeTail
  · exact h.stageWide
  · exact h.commitReg
  · exact h.writeIf (fun h => h.writeRw)
  · exact h.writeCqHead
  · exact .ite h.enableQueue h.disableQueue
  · exact h.writeW1c
  · exact h.writeIf (fun h => h.writeRw)
  · exact h

theorem Keeps.writeBar0 {s : State} {f o v w : ℕ} (h : Keeps b s) : Keeps b (s.writeBar0 f o v w) := by
  unfold State.writeBar0
  dsimp only
  split
  · exact .ite h.writeQueue h
  · split
    · exact h.writeWide
    · split
      · exact h.writeWide
      · split
        · exact h.writeIf (fun h => h.writeRw)
        · split
          · exact h.writeIf (fun h => h.writeRw)
          · exact h.writeRw
          · exact h.writeIf (fun h => h.writeRw)
          · exact .ite h.poolGo h
          · exact h.writeRw
          · exact h

theorem Keeps.writeAlias {s : State} {f o v : ℕ} (h : Keeps b s) : Keeps b (s.writeAlias f o v) :=
  .ite (h.writeIf (fun h => h.writeRw)) h.setBit

theorem Keeps.land {s : State} {who a value mask : ℕ} (h : Keeps b s) : Keeps b (s.land who a value mask) :=
  .ite h.writeGid (.ite h.writeAlm (.ite h.writeCp (.ite h.writeTier (.ite h.writeLink (.ite h.writeObs (.ite h.writeMgmt (.ite
    h.writeDie (.ite (.ite h.writeBar0 h.writeAlias) h))))))))

theorem Keeps.writeReg {s : State} {who a value mask : ℕ} (h : Keeps b s) : Keeps b (s.writeReg who a value mask) :=
  .ite h.enqueueWrite h.land

theorem Keeps.onWrite {who a value mask : ℕ} {s : State} (h : Keeps b s) : KeepsOut b (onWrite who a value mask s) :=
  .ite .fault (.next h.writeReg)

theorem Keeps.execRegisterWrite {who addr value mask : ℕ} {s : State} (h : Keeps b s) : KeepsOut b (execRegisterWrite who addr
    value mask s) :=
  h.onWrite

theorem Keeps.execFrozenWrite {who addr value mask : ℕ} {s : State} (h : Keeps b s) : KeepsOut b (execFrozenWrite who addr value
    mask s) :=
  h.onWrite

theorem Keeps.execWideLowWrite {who addr value : ℕ} {s : State} (h : Keeps b s) : KeepsOut b (execWideLowWrite who addr value s)
    :=
  h.onWrite

theorem Keeps.execWideHighWrite {who addr value : ℕ} {s : State} (h : Keeps b s) : KeepsOut b (execWideHighWrite who addr value s)
    :=
  h.onWrite

theorem Keeps.execAliasWrite {f off value : ℕ} {s : State} (h : Keeps b s) : KeepsOut b (execAliasWrite f off value s) :=
  .ite .fault (.next h.writeReg)

theorem Keeps.unfreeze {s : State} (h : Keeps b s) : Keeps b (s.unfreeze) :=
  .ite ((h.setReg.same.trace.foldl (fun h => h.pumpPort)).foldl (fun h => h.land)).beginRemoval ((h.setReg.same.trace.foldl (fun h
    => h.pumpPort)).foldl (fun h => h.land))

theorem Keeps.execVigilResumePoint {s : State} (h : Keeps b s) : KeepsOut b (execVigilResumePoint s) := by
  unfold Machine.execVigilResumePoint
  split
  · exact .next h
  · exact .ite (.next h) (.ite (.next h.setBit) (.next h.unfreeze))

theorem Keeps.exec {i : Instr} {s : State} (h : Keeps b s) : KeepsOut b (exec i s) := by
  unfold Machine.exec
  split
  · exact h.execAlu
  · exact h.execAddi
  · exact h.execAndi
  · exact h.execOri
  · exact h.execXori
  · exact h.execLui
  · exact h.execShi
  · exact h.execB
  · exact h.execLoop
  · exact h.execLd
  · exact h.execSt
  · exact h.execAreg
  · exact h.execMovv
  · exact h.execFstat
  · exact h.execYield
  · exact h.execTmma
  · exact h.execTmmaI8
  · exact h.execTdrain
  · exact h.execVop
  · exact h.execCvt
  · exact h.execSplit
  · exact h.execMerge
  · exact h.execSspk
  · exact h.execSsup
  · exact h.execRng
  · exact h.execQpush
  · exact h.execQpop
  · exact h.execWalk
  · exact h.execDma
  · exact h.execWaitc
  · exact h.execCntadd
  · exact h.execCntrd
  · exact h.execSwap
  · exact h.execIllegalEncoding
  · exact h.execDrainBlock
  · exact h.execGeneratorRequest
  · exact h.execQueueEntryMove
  · exact h.execStorePortTurn
  · exact h.execDmaArrival
  · exact h.execWalkerStart
  · exact h.execWalkerUnit
  · exact h.execWalkerReleaseWaitEnd
  · exact h.execTileArrival
  · exact h.execFoldSlotOpen
  · exact h.execFillerSlotEnd
  · exact h.execFillerPortCutoff
  · exact h.execDebugAccRead
  · exact h.execTick
  · exact h.execSlipLimitReached
  · exact h.execRateChange
  · exact h.execRateArm
  · exact h.execMirrorComplete
  · exact h.execMirrorTurn
  · exact h.execSupplyDroop
  · exact h.execSyncSymbolSend
  · exact h.execSyncSymbolReceive
  · exact h.execLockAcquired
  · exact h.execParentChange
  · exact h.execHoldover
  · exact h.execLostLock
  · exact h.execAcquire
  · exact h.execDoorbell
  · exact h.execCqHeadWrite
  · exact h.execFetchRound
  · exact h.execCommandAccept
  · exact h.execHostAccessFail
  · exact h.execQueueEnable
  · exact h.execQueueDisable
  · exact h.execRunSpan
  · exact h.execCopy
  · exact h.execReduceScatter
  · exact h.execAllGather
  · exact h.execAllReduce
  · exact h.execBroadcast
  · exact h.execPermute
  · exact h.execRotate
  · exact h.execVote
  · exact h.execCommitStep
  · exact h.execWindowOpen
  · exact h.execWindowClose
  · exact h.execEvent
  · exact h.execFence
  · exact h.execCheckpoint
  · exact h.execReplay
  · exact h.execStreamCheck
  · exact h.execFinalisation
  · exact h.execLoadFrame
  · exact h.execFillerLoad
  · exact h.execTierLineArrival
  · exact h.execLineRetry
  · exact h.execNvmeCompletion
  · exact h.execNvmeTimeout
  · exact h.execAsyncCopyLine
  · exact h.execMap
  · exact h.execMapPinned
  · exact h.execUnmap
  · exact h.execPin
  · exact h.execUnpin
  · exact h.execRefill
  · exact h.execCacheBaseWrite
  · exact h.execCarveWrite
  · exact h.execSharesWrite
  · exact h.execQuotaWrite
  · exact h.execFlashWindowArm
  · exact h.execOfflineReq
  · exact h.execBayOffline
  · exact h.execBayOnline
  · exact h.execStackRetire
  · exact h.execLinkBlockReceive
  · exact h.execLinkReplay
  · exact h.execPortFail
  · exact h.execPortUpRequest
  · exact h.execPortUp
  · exact h.execFloodReceive
  · exact h.execLinkState
  · exact h.execWriteMessageReceive
  · exact h.execMessageForward
  · exact h.execAck
  · exact h.execRetire
  · exact h.execNak
  · exact h.execRewind
  · exact h.execAckTimer
  · exact h.execResendTimeout
  · exact h.execParkedRepeat
  · exact h.execMessageTransmit
  · exact h.execCollMessageReceive
  · exact h.execCollNotreadyRepeat
  · exact h.execCollTimeout
  · exact h.execCollLanding
  · exact h.execWatchdogExpiry
  · exact h.execFaultDetection
  · exact h.execRecovery
  · exact h.execRemapSubstitution
  · exact h.execRowExhausted
  · exact h.execSliceRebuild
  · exact h.execLineParityRebuild
  · exact h.execRemapGo
  · exact h.execRemapRecPop
  · exact h.execScrubVoteCorrect
  · exact h.execCpFailover
  · exact h.execFunctionReset
  · exact h.execDeviceReset
  · exact h.execOrderlyPowerDown
  · exact h.execInputLoss
  · exact h.execPowerDip
  · exact h.execPreemptStop
  · exact h.execPreemptResume
  · exact h.execFnRelease
  · exact h.execCpPartWrite
  · exact h.execFnCfgWrite
  · exact h.execHostPowerState
  · exact h.execDump
  · exact h.execCntCfgWrite
  · exact h.execThreadSample
  · exact h.execSepiaRecord
  · exact h.execLost
  · exact h.execSepiaHeadWrite
  · exact h.execTestMismatch
  · exact h.execObsConsentWrite
  · exact h.execObsPartWrite
  · exact h.execVigilPin
  · exact h.execNow
  · exact h.execNowSys
  · exact h.execSched
  · exact h.execSchedSys
  · exact h.execResume
  · exact h.execResumeSys
  · exact h.execScheduledFreeze
  · exact h.execVigilResumePoint
  · exact h.execScanGo
  · exact h.execScanDone
  · exact h.execMcHeartbeatMiss
  · exact h.execTelemetrySample
  · exact h.execThermalTrip
  · exact h.execCoolantFailure
  · exact h.execCoolantWarn
  · exact h.execPowerLimit
  · exact h.execStartup
  · exact h.execStartupStepTimeout
  · exact h.execCoolantCheckPass
  · exact h.execAttnN
  · exact h.execRefclkLoss
  · exact h.execCableChange
  · exact h.execPrsntChange
  · exact h.execSucWrite
  · exact h.execSucRead
  · exact h.execFwStage
  · exact h.execInventory
  · exact h.execRemove
  · exact h.execPowerDown
  · exact h.execSpdmRequest
  · exact h.execUartReceiveCharacter
  · exact h.execUartTransmitCharacter
  · exact h.execUartSepiaFrame
  · exact h.execCvuFeed
  · exact h.execCvuInit
  · exact h.execCvuValueWrite
  · exact h.execCvuValueRead
  · exact h.execCvuResultRead
  · exact h.execWideLowRead
  · exact h.execWideLowWrite
  · exact h.execWideHighWrite
  · exact h.execFrozenWrite
  · exact h.execAliasWrite
  · exact h.execRegisterWrite
  · exact h.execDrivePull
  · exact h.execSlotIdStrapChange
  · exact h.execPortTrainingRepeat
  · exact h.execMcRemapRecordRemoval

end Sys2Proof.Machine

/-! ### The statements -/

namespace Sys2Proof.Proofs

open Sys2Proof.Machine

/-- Settles O5: the empty queue moves the sub-tick alone, and a command keeps what it runs on, whose memory is the state's own. -/
theorem stepKeepsMemory : Obligations.StepKeepsMemory := by
  unfold Obligations.StepKeepsMemory Safety.MemoryKept
  intro s u hs hstep
  unfold step at hstep
  split at hstep
  · cases hstep
    exact (Keeps.refl s).idle.2 hs
  · exact ((Keeps.refl _).exec u hstep).2 hs

/-- Settles O6: the fixed part, field by field, of what every command keeps. -/
theorem execKeepsQueueAndPart : Obligations.ExecKeepsQueueAndPart := by
  unfold Obligations.ExecKeepsQueueAndPart
  intro s u i hexec
  have hfixed := ((Keeps.refl s).exec u hexec).1
  simpa only [State.fixedPart, Prod.mk.injEq] using hfixed

end Sys2Proof.Proofs
end

section
/-! PROOFS. The machine as a whole (R44, R536) and the register file (R69–R71). -/

namespace Sys2Proof.Machine

/-! ### The idle step (R44) -/

theorem State.idle_subtick (s : State) (h : s.subtick < s.cycles) :
    s.idle.subtick = if s.subtick + 1 < s.cycles then s.subtick + 1 else s.subtick := by
  have hmin : s.idle.subtick = min (s.subtick + 1) (s.cycles - 1) := rfl
  rw [hmin]
  split <;> omega

/-! ### Reset (R536) -/

theorem State.reset_reg (a : Nat) : State.reset.reg a = resetWord a := rfl

/-- Outside the two families of die registers and the words that the tables name, a reset word is 0. -/
theorem resetWord_eq_zero {a : Nat}
    (hn : a ∉ [almReg 0x14, almReg 0x40, collReg 0, obsReg 0, obsReg 0x0C, obsReg 0x500, obsReg 0x50C, mgmtReg 0x200, mgmtReg 0x20C,
      mgmtReg 0x220, mgmtReg 0x400, gidReg 8])
    (ht : ¬ (tierReg 0x40 ≤ a ∧ a < tierReg 0x60))
    (hd : 0x2000000 ≤ a → a < 0xA000000 → a % 0x1000000 ≠ 0x400018 ∧ a % 0x1000000 ≠ 0xC00000) : resetWord a = 0 := by
  simp only [List.mem_cons, List.not_mem_nil, or_false, not_or] at hn
  obtain ⟨h1, h2, h3, h4, h5, h6, h7, h8, h9, h10, h11, h12⟩ := hn
  have htier : (decide (tierReg 0x40 ≤ a) && decide (a < tierReg 0x60)) = false := by simpa using ht
  unfold resetWord
  simp only [beq_iff_eq, h1, h2, h3, h4, h5, h6, h7, h8, h9, h10, h11, h12, htier, if_false, Bool.false_eq_true]
  split
  next h =>
    simp only [Bool.and_eq_true, decide_eq_true_eq] at h
    obtain ⟨hstore, hscrub⟩ := hd h.1 h.2
    simp [hstore, hscrub]
  next => rfl

/-- The reset words of the eight dies. -/
theorem resetWord_dies (d : Nat) (h : d < 8) :
    resetWord (tierReg (0x40 + 4 * d)) = 0x80 ∧ resetWord (storeReg d 0x18) = 0x400 ∧ resetWord (scrubReg d 0) = 1 := by
  interval_cases d <;> decide

/-! ### Fields of a replaced number -/

theorem bitsOf_putBits_same (n lo len v : Nat) : bitsOf (putBits n lo len v) lo len = v % 2 ^ len := by
  apply Nat.eq_of_testBit_eq
  intro i
  simp only [bitsOf, Nat.testBit_mod_two_pow, Nat.testBit_div_two_pow, testBit_putBits]
  by_cases hi : i < len
  · have hin : lo ≤ i + lo ∧ i + lo < lo + len := by omega
    simp [hi, hin]
  · simp [hi]

theorem bitsOf_putBits_apart (n lo len v lo' len' : Nat) (hd : lo' + len' ≤ lo ∨ lo + len ≤ lo') :
    bitsOf (putBits n lo len v) lo' len' = bitsOf n lo' len' := by
  apply Nat.eq_of_testBit_eq
  intro i
  simp only [bitsOf, Nat.testBit_mod_two_pow, Nat.testBit_div_two_pow, testBit_putBits]
  by_cases hi : i < len'
  · have hout : ¬ (lo ≤ i + lo' ∧ i + lo' < lo + len) := by omega
    simp [hi, hout]
  · simp [hi]

/-- A field of a number kept in a word wide enough for it. -/
theorem bitsOf_toNat_ofNat (w n lo len : Nat) (h : lo + len ≤ w) : bitsOf (BitVec.ofNat w n).toNat lo len = bitsOf n lo len := by
  apply Nat.eq_of_testBit_eq
  intro i
  simp only [bitsOf, Nat.testBit_mod_two_pow, Nat.testBit_div_two_pow, BitVec.toNat_ofNat]
  by_cases hi : i < len
  · have hw : i + lo < w := by omega
    simp [hi, hw]
  · simp [hi]

theorem bitsOf_lt (n lo len : Nat) : bitsOf n lo len < 2 ^ len := Nat.mod_lt _ (Nat.two_pow_pos len)

/-! ### Predicates (R69) -/

theorem Thread.getP_setP (th : Thread) (r q : Nat) (b : Bool) (hr : r ≠ 0) (hq : q < 8) :
    (th.setP r b).getP q = if q = r then b else th.getP q := by
  have hbit : (BitVec.ofNat 8 (putBits th.p.toNat r 1 (natOf b))).getLsbD q = if q = r then b else th.p.getLsbD q := by
    rw [BitVec.getLsbD_eq_getElem hq, getElem_ofNat_putBits]
    by_cases h : q = r
    · subst h
      cases b <;> simp [natOf]
    · have hout : ¬ (r ≤ q ∧ q < r + 1) := by omega
      rw [if_neg hout, if_neg h, BitVec.getLsbD_eq_getElem hq]
  simp only [Thread.getP, Thread.setP, hr, if_false, hbit]
  by_cases hqr : q = r
  · simp [hqr, hr]
  · simp only [if_neg hqr]

/-! ### Pad-address registers (R70, R71) -/

/-- A use that finds RCOUNT below REPEAT only counts. -/
theorem aregAdvance_count {a : DWord} (h : bitsOf a.toNat 56 8 ≠ bitsOf a.toNat 48 8) :
    aregAdvance a = BitVec.ofNat 64 (putBits a.toNat 56 8 (bitsOf a.toNat 56 8 + 1)) := by
  simp [aregAdvance, h]

/-- OFFSET one STRIDE on, once round WRAP where WRAP is not 0. -/
def aregOffset (n : Nat) : Int :=
  let off : Int := bitsOf n 12 12 + (BitVec.ofNat 12 (bitsOf n 24 12)).toInt
  let wrap : Int := bitsOf n 36 12
  if wrap = 0 then off else if wrap ≤ off then off - wrap else if off < 0 then off + wrap else off

/-- A use that finds RCOUNT at REPEAT clears it and moves OFFSET. -/
theorem aregAdvance_step {a : DWord} (h : bitsOf a.toNat 56 8 = bitsOf a.toNat 48 8) :
    aregAdvance a = BitVec.ofNat 64 (putBits (putBits a.toNat 56 8 0) 12 12 (aregOffset a.toNat % 4096).toNat) := by
  simp only [aregAdvance, h, beq_self_eq_true, if_true, aregOffset, bne_iff_ne, ne_eq, ge_iff_le, Nat.cast_eq_zero, ite_not]

end Sys2Proof.Machine

namespace Sys2Proof.Proofs

open Sys2Proof.Machine Sys2Proof.Claims

/-- Settles O1: the tables of the reset state are empty, so a register word is its `resetWord`. -/
theorem resetValues : Obligations.ResetValues := by
  unfold Obligations.ResetValues
  dsimp only
  simp only [State.reset_reg]
  refine ⟨rfl, rfl, rfl, rfl, rfl, rfl, rfl, rfl, rfl, rfl, rfl, rfl, resetWord_dies, ?_, rfl, fun _ => rfl, fun _ => rfl,
    fun _ _ => rfl, fun _ => rfl⟩
  intro a ha hn
  rw [not_or] at hn
  obtain ⟨hlist, hdies⟩ := hn
  refine resetWord_eq_zero hlist ?_ ?_
  · intro ht
    simp only [tierReg] at ht
    exact hdies ⟨(a - 0x400040) / 4, by omega, .inl (by simp only [tierReg]; omega)⟩
  · intro hlo hhi
    constructor <;> intro hd
    · exact hdies ⟨(a - 0x2000000) / 0x1000000, by omega, .inr (.inl (by simp only [storeReg]; omega))⟩
    · exact hdies ⟨(a - 0x2000000) / 0x1000000, by omega, .inr (.inr (by simp only [scrubReg]; omega))⟩

/-- Settles O2: memory lists no byte right after reset. -/
theorem resetMemoryKept : Obligations.ResetMemoryKept := by
  unfold Obligations.ResetMemoryKept Safety.MemoryKept
  rfl

/-- Settles O3: `step` looks at the head of the queue alone. -/
theorem stepRunsFront : Obligations.StepRunsFront := by
  unfold Obligations.StepRunsFront
  intro s i rest
  rfl

/-- Settles O4: `State.idle` is the whole of such a step. -/
theorem idleStep : Obligations.IdleStep := by
  unfold Obligations.IdleStep
  intro s hp hlt
  have hstep : step s = .next s.idle := by simp only [step, hp]
  have hsub := s.idle_subtick hlt
  refine ⟨s.idle, hstep, rfl, ?_, hsub⟩
  rw [hsub]
  split <;> assumption

/-- Settles O8: each word run through the decoder. -/
theorem wordsOfTheTables : Obligations.WordsOfTheTables := by
  unfold Obligations.WordsOfTheTables
  intro c t
  exact ⟨rfl, rfl, rfl, rfl, rfl, rfl, rfl, rfl⟩

/-- Settles O10: reads after writes of a register file, then the two uses of a pad-address register. -/
theorem registerFile : Obligations.RegisterFile := by
  unfold Obligations.RegisterFile
  constructor
  · intro th r q w b
    refine ⟨rfl, rfl, fun h => Thread.getG_setG_same th w h, fun h => Thread.getG_setG_other th w (Ne.symm h), ?_, ?_, rfl, rfl⟩
    · intro hr h8
      rw [Thread.getP_setP th r r b hr h8, if_pos rfl]
    · intro hq h8 _
      by_cases hr : r = 0
      · rw [hr, Thread.setP_zero]
      · rw [Thread.getP_setP th r q b hr h8, if_neg hq]
  · intro a
    by_cases h : bitsOf a.toNat 56 8 = bitsOf a.toNat 48 8
    · have hlt : (aregOffset a.toNat % 4096).toNat < 2 ^ 12 := by omega
      have hoff : ((aregOffset a.toNat % 4096).toNat : Int) = aregOffset a.toNat % 4096 := by omega
      simp only [aregAdvance_step h, bitsOf_toNat_ofNat, bitsOf_putBits_same, bitsOf_putBits_apart, Nat.reduceAdd, Nat.reduceLeDiff,
        true_or, or_true, h, ne_eq, not_true, false_implies, true_and, Nat.zero_mod, true_implies, Nat.mod_eq_of_lt hlt, hoff]
      rfl
    · simp only [aregAdvance_count h, bitsOf_toNat_ofNat, bitsOf_putBits_same, bitsOf_putBits_apart, Nat.reduceAdd, Nat.reduceLeDiff,
        true_or, h, ne_eq, not_false_iff, false_implies, and_self, true_implies, Nat.reducePow]

end Sys2Proof.Proofs
end

section
/-! PROOFS. Issue and the scalar core instructions (R102, R106, R115–R118, R138). -/

namespace Sys2Proof.Machine

open Sys2Proof.Claims

/-! ### What stands through a trace record and a core fault (R106) -/

/-- A trace record changes the trace and its counts alone. -/
theorem State.trace_only (s : State) (type func arg0 arg1 : Nat) :
    s.trace type func arg0 arg1 = { s with regs := (s.trace type func arg0 arg1).regs, obs := (s.trace type func arg0 arg1).obs } := by
  unfold State.trace
  split
  · rfl
  · split
    · rfl
    · split <;> rfl

@[simp] theorem State.trace_core (s : State) (type func arg0 arg1 d : Nat) : (s.trace type func arg0 arg1).core d = s.core d := by
  rw [State.trace_only]; rfl

@[simp] theorem State.trace_mem (s : State) (type func arg0 arg1 : Nat) : (s.trace type func arg0 arg1).mem = s.mem := by
  rw [State.trace_only]

@[simp] theorem State.trace_marks (s : State) (type func arg0 arg1 : Nat) : (s.trace type func arg0 arg1).marks = s.marks := by
  rw [State.trace_only]

/-- A change of a command changes the commands alone. -/
theorem State.modCmd_only (s : State) (id : Nat) (f : Cmd → Cmd) : s.modCmd id f = { s with cmds := (s.modCmd id f).cmds } := by
  unfold State.modCmd
  split <;> rfl

/-- A core fault stops the thread; the other changes are in the trace, its counts and the commands. -/
theorem State.coreFault_only (s : State) (c t k : Nat) (pc : BitVec 8) (cause : Cause) :
    let u := s.coreFault c t k pc cause
    u = { s.modCore c (fun x => x.modThread t fun th => { th with state := .faulted }) with
      regs := u.regs, obs := u.obs, cmds := u.cmds } := by
  unfold State.coreFault
  dsimp only
  split
  · rw [State.trace_only]
  · unfold State.faultCmd
    rw [State.modCmd_only, State.trace_only]

theorem State.coreFault_core (s : State) (c t k : Nat) (pc : BitVec 8) (cause : Cause) (d : Nat) :
    (s.coreFault c t k pc cause).core d = (s.modCore c fun x => x.modThread t fun th => { th with state := .faulted }).core d := by
  rw [State.coreFault_only]; rfl

@[simp] theorem State.coreFault_mem (s : State) (c t k : Nat) (pc : BitVec 8) (cause : Cause) :
    (s.coreFault c t k pc cause).mem = s.mem := by
  rw [State.coreFault_only]; rfl

@[simp] theorem State.coreFault_marks (s : State) (c t k : Nat) (pc : BitVec 8) (cause : Cause) :
    (s.coreFault c t k pc cause).marks = s.marks := by
  rw [State.coreFault_only]; rfl

/-! ### The ends of an instruction (R102, R106) -/

/-- The thread stopped by a core fault. -/
def Core.stop (k : Core) (t : BitVec 4) : Core := k.modThread t.toNat fun th => { th with state := .faulted }

theorem Core.thread_stop_same (k : Core) (t : BitVec 4) : (k.stop t).thread t.toNat = { k.thread t.toNat with state := .faulted } := by
  simp [Core.stop]

theorem Core.thread_stop_other (k : Core) (t : BitVec 4) {r : Nat} (h : r ≠ t.toNat) : (k.stop t).thread r = k.thread r :=
  Core.thread_modThread_other k _ h.symm

/-- An end that stops the thread: a core fault, or going on past PC 255. -/
def IssueEnd.stops (pc : BitVec 8) (e : IssueEnd) : Prop := (∃ cause, e = .fault cause) ∨ (e = .seq ∧ pc = 255#8)

theorem endThread_of_stops {c : Nat} {t : BitVec 4} {pc : BitVec 8} {e : IssueEnd} (h : e.stops pc) (s : State) :
    ∃ cause, endThread c t pc s e = s.coreFault c t.toNat (s.core c).openCfg pc cause := by
  rcases h with ⟨cause, rfl⟩ | ⟨rfl, rfl⟩
  · exact ⟨cause, rfl⟩
  · exact ⟨.pcOverflow, rfl⟩

/-- An instruction that leaves its core's view as `v` and then stops its thread: the core, memory and marks after it. -/
theorem issue_stops {s : State} {c : Nat} {t : BitVec 4} {array legal : Bool} {f : CoreView → Issue} {v : CoreView} {e : IssueEnd}
    (h : HasTurn s c t array) (hl : legal = true) (hf : f (s.view c) = ⟨v, e⟩) (he : e.stops ((s.core c).thread t.toNat).pc) :
    ∃ u, issue c t array legal (onView c f) s = .next u ∧ u.core c = (v.core.point array t).stop t ∧ u.mem = v.mem ∧
      u.marks = v.marks ∧ ∀ d, d ≠ c → u.core d = s.core d := by
  have hview : onView c f s = (s.putView c v, e) := by simp only [onView, hf]
  have hstay : e ≠ .stay := by
    rcases he with ⟨cause, rfl⟩ | ⟨rfl, -⟩ <;> simp
  obtain ⟨cause, hend⟩ := endThread_of_stops (c := c) (t := t) he ((s.putView c v).modCore c (·.point array t))
  refine ⟨_, issue_legal h hl (by simpa [hview] using hstay), ?_⟩
  rw [hview, endIssue, hend]
  refine ⟨?_, ?_, ?_, ?_⟩
  · simp [State.coreFault_core, Core.stop]
  · simp [State.putView]
  · simp [State.putView]
  · intro d hd
    rw [noteIssue_core, State.coreFault_core, State.core_modCore_other _ _ hd.symm, State.core_modCore_other _ _ hd.symm,
      State.core_putView_other _ _ hd.symm]

/-- A view that differs from another in thread t and CSTAT alone. -/
def CoreView.Touched (t : Nat) (v w : CoreView) (th : Thread) (cs : BitVec 8) : Prop :=
  w = { v with core := { v.core with threads := w.core.threads, cstat := cs } } ∧ w.core.thread t = th ∧
    ∀ r, r ≠ t → w.core.thread r = v.core.thread r

namespace CoreView.Touched

theorem rfl' (t : Nat) (v : CoreView) : v.Touched t v (v.core.thread t) v.core.cstat := ⟨rfl, rfl, fun _ _ => rfl⟩

theorem trans {t : Nat} {v w x : CoreView} {th th' : Thread} {cs cs' : BitVec 8} (h : v.Touched t w th cs)
    (h' : w.Touched t x th' cs') : v.Touched t x th' cs' := by
  obtain ⟨hw, -, ho⟩ := h
  obtain ⟨hx, hth, ho'⟩ := h'
  refine ⟨?_, hth, fun r hr => (ho' r hr).trans (ho r hr)⟩
  rw [hx, hw]

theorem mem {t : Nat} {v w : CoreView} {th : Thread} {cs : BitVec 8} (h : v.Touched t w th cs) : w.mem = v.mem := by
  rw [h.1]

theorem marks {t : Nat} {v w : CoreView} {th : Thread} {cs : BitVec 8} (h : v.Touched t w th cs) : w.marks = v.marks := by
  rw [h.1]

theorem id {t : Nat} {v w : CoreView} {th : Thread} {cs : BitVec 8} (h : v.Touched t w th cs) : w.id = v.id := by
  rw [h.1]

theorem noWrite {t : Nat} {v w : CoreView} {th : Thread} {cs : BitVec 8} (h : v.Touched t w th cs) : w.noWrite = v.noWrite := by
  rw [h.1]

theorem thread {t : Nat} {v w : CoreView} {th : Thread} {cs : BitVec 8} (h : v.Touched t w th cs) : w.core.thread t = th := h.2.1

theorem other {t : Nat} {v w : CoreView} {th : Thread} {cs : BitVec 8} (h : v.Touched t w th cs) {r : Nat} (hr : r ≠ t) :
    w.core.thread r = v.core.thread r := h.2.2 r hr

theorem cstat {t : Nat} {v w : CoreView} {th : Thread} {cs : BitVec 8} (h : v.Touched t w th cs) : w.core.cstat = cs := by
  rw [h.1]

theorem core {t : Nat} {v w : CoreView} {th : Thread} {cs : BitVec 8} (h : v.Touched t w th cs) :
    w.core = { v.core with threads := w.core.threads, cstat := cs } := by
  conv_lhs => rw [h.1]

/-- Where a granule lies does not depend on what the thread's instruction touches. -/
theorem granule {t : Nat} {v w : CoreView} {th : Thread} {cs : BitVec 8} (h : v.Touched t w th cs) (pad : Pad) (g : Nat) :
    w.granule pad g = v.granule pad g := by
  rw [h.1]; rfl

theorem mayWrite {t : Nat} {v w : CoreView} {th : Thread} {cs : BitVec 8} (h : v.Touched t w th cs) (k : Nat) :
    w.mayWrite k = v.mayWrite k := by
  rw [h.1]; rfl

theorem read256 {t : Nat} {v w : CoreView} {th : Thread} {cs : BitVec 8} (h : v.Touched t w th cs) (k : Nat) :
    w.read256 k = v.read256 k := by
  rw [h.1]; rfl

theorem modT (v : CoreView) (t : Nat) (g : Thread → Thread) : v.Touched t (v.modT t g) (g (v.core.thread t)) v.core.cstat :=
  ⟨rfl, Core.thread_modThread_same .., fun _ hr => Core.thread_modThread_other _ _ hr.symm⟩

theorem raise (v : CoreView) (t bits : Nat) :
    v.Touched t (v.raise t bits) (withFlags (v.core.thread t) bits) (statAfter v.core.cstat bits) :=
  ⟨rfl, Core.thread_modThread_same v.core t (withFlags · bits),
    fun _ hr => Core.thread_modThread_other v.core (withFlags · bits) hr.symm⟩

end CoreView.Touched

@[simp] theorem withFlags_zero (th : Thread) : withFlags th 0 = th := by simp [withFlags]

@[simp] theorem statAfter_zero (cs : BitVec 8) : statAfter cs 0 = cs := by simp [statAfter]

@[simp] theorem withFlags_pc (th : Thread) (bits : Nat) : (withFlags th bits).pc = th.pc := rfl

/-- The bits that a read of a granule raises, in a view. -/
def CoreView.readBits (v : CoreView) (key : Nat) : Nat := if v.marked key then 64 else 0

@[simp] theorem readBits_view (s : State) (c key : Nat) : (s.view c).readBits key = Claims.readBits s key := rfl

namespace CoreView.Touched

theorem noteRead (v : CoreView) (t key : Nat) :
    v.Touched t (v.noteRead t key) (withFlags (v.core.thread t) (v.readBits key)) (statAfter v.core.cstat (v.readBits key)) := by
  unfold CoreView.noteRead CoreView.readBits
  split
  · exact raise v t 64
  · simpa using rfl' t v

theorem readBits {t : Nat} {v w : CoreView} {th : Thread} {cs : BitVec 8} (h : v.Touched t w th cs) (k : Nat) :
    w.readBits k = v.readBits k := by
  rw [h.1]; rfl

end CoreView.Touched

/-- An instruction of the general slot that touches its thread alone and goes on in sequence. -/
theorem issue_touched {s : State} {c : Nat} {t : BitVec 4} {legal : Bool} {f : CoreView → Issue} {v : CoreView} {th : Thread}
    {cs : BitVec 8} (h : Issues s c t) (hl : legal = true) (hf : f (s.view c) = ⟨v, .seq⟩) (hv : (s.view c).Touched t.toNat v th cs)
    (hpc : th.pc = ((s.core c).thread t.toNat).pc) :
    ∃ u, issue c t false legal (onView c f) s = .next u ∧ ThreadOnly c t s u (pcNext th) cs := by
  have := issue_threadOnly h hl hf hv.mem hv.marks (by rw [hv.core]; rfl) (fun r hr => hv.other hr) (by rw [hv.thread, hpc])
  rwa [hv.thread, hv.cstat] at this

/-- An instruction that changes its thread alone and takes a branch (R117). -/
theorem issue_jump {s : State} {c : Nat} {t : BitVec 4} {legal : Bool} {f : CoreView → Issue} {v : CoreView} {th : Thread}
    {cs : BitVec 8} {target : BitVec 8} (h : HasTurn s c t false) (hl : legal = true) (hf : f (s.view c) = ⟨v, .jump target⟩)
    (hv : (s.view c).Touched t.toNat v th cs) :
    ∃ u, issue c t false legal (onView c f) s = .next u ∧ ThreadOnly c t s u { th with pc := target } cs := by
  have hview : onView c f s = (s.putView c v, .jump target) := by simp only [onView, hf]
  have hend : endIssue c t false ((s.core c).thread t.toNat).pc (s.putView c v, .jump target) =
      ((s.putView c v).modCore c (·.point false t)).modCore c fun x => x.modThread t.toNat fun th => { th with pc := target } := rfl
  refine ⟨_, issue_legal h hl (by simp [hview]), ?_⟩
  rw [hview, hend]
  refine ⟨⟨?_, ?_⟩, ⟨?_, ?_, ?_⟩, ?_, ?_, ?_⟩
  · rw [noteIssue_only]
    rfl
  · intro d hd
    rw [noteIssue_core, State.core_modCore_other _ _ hd.symm, State.core_modCore_other _ _ hd.symm,
      State.core_putView_other _ _ hd.symm]
  · rw [noteIssue_mem]
    exact hv.mem
  · rw [noteIssue_marks]
    exact hv.marks
  · intro a
    rw [noteIssue_mem]
    exact congrArg (Mem.read · a) hv.mem
  · intro r hr
    rw [noteIssue_core, State.core_modCore_same, Core.thread_modThread_other _ _ hr.symm]
    rw [State.core_modCore_same, State.core_putView_same, Core.thread_point]
    exact hv.other hr
  · simp [hv.thread]
  · simp only [noteIssue_core, State.core_modCore_same, State.core_putView_same]
    rw [hv.core]
    rfl

/-! ### The ALU (R115) -/

/-- MULH: the high word of the signed product. -/
theorem aluInt_mulh (a b : Word) : aluInt 9 a b = BitVec.ofInt 32 (a.toInt * b.toInt / 2 ^ 32) := by
  have hprod : (a.signExtend 64 * b.signExtend 64).toNat = (a.toInt * b.toInt % 2 ^ 64).toNat := by
    rw [← BitVec.ofInt_toInt (x := a.signExtend 64), ← BitVec.ofInt_toInt (x := b.signExtend 64), ← BitVec.ofInt_mul,
      BitVec.toNat_ofInt, BitVec.toInt_signExtend_of_le (by decide), BitVec.toInt_signExtend_of_le (by decide)]
    rfl
  apply BitVec.eq_of_toNat_eq
  simp only [aluInt, BitVec.extractLsb'_toNat, hprod, BitVec.toNat_ofInt, Nat.shiftRight_eq_div_pow]
  generalize a.toInt * b.toInt = z
  omega

/-- MULHU: the high word of the unsigned product. -/
theorem aluInt_mulhu (a b : Word) : aluInt 10 a b = BitVec.ofNat 32 (a.toNat * b.toNat / 2 ^ 32) := by
  have ha := a.isLt
  have hb := b.isLt
  have hlt : a.toNat * b.toNat < 2 ^ 64 := by nlinarith
  apply BitVec.eq_of_toNat_eq
  simp only [aluInt, BitVec.extractLsb'_toNat, BitVec.toNat_mul, BitVec.toNat_setWidth, BitVec.toNat_ofNat,
    Nat.shiftRight_eq_div_pow, Nat.mod_eq_of_lt (show a.toNat < 2 ^ 64 by omega), Nat.mod_eq_of_lt (show b.toNat < 2 ^ 64 by omega),
    Nat.mod_eq_of_lt hlt]

theorem aluInt_min (a b : Word) : aluInt 11 a b = if a.toInt < b.toInt then a else b := by simp [aluInt, BitVec.slt]

theorem aluInt_max (a b : Word) : aluInt 12 a b = if a.toInt < b.toInt then b else a := by simp [aluInt, BitVec.slt]

theorem aluInt_minu (a b : Word) : aluInt 13 a b = if a.toNat < b.toNat then a else b := by simp [aluInt, BitVec.ult]

theorem aluInt_maxu (a b : Word) : aluInt 14 a b = if a.toNat < b.toNat then b else a := by simp [aluInt, BitVec.ult]

theorem aluCmp_eq (a b : Word) : aluCmp 16 a b = decide (a = b) := by simp [aluCmp, beq_eq_decide]

/-- An instruction whose whole effect is a write of g[rd]. -/
theorem issue_putG {s : State} {c : Nat} {t : BitVec 4} {legal : Bool} {f : CoreView → Issue} {rd : Nat} {w : Word}
    (h : Issues s c t) (hl : legal = true) (hf : f (s.view c) = (s.view c).putG t.toNat rd w) :
    ∃ u, issue c t false legal (onView c f) s = .next u ∧
      ThreadOnly c t s u (pcNext (((s.core c).thread t.toNat).setG rd w)) (s.core c).cstat :=
  issue_modT (g := (·.setG rd w)) h hl hf (Thread.setG_pc ..)

theorem setWidth_shiftLeft_eq_append (imm : BitVec 16) : imm.setWidth 32 <<< 16 = imm ++ 0#16 := by
  have himm := imm.isLt
  apply BitVec.eq_of_toNat_eq
  simp only [BitVec.toNat_shiftLeft, BitVec.toNat_setWidth, BitVec.toNat_append, BitVec.toNat_ofNat, Nat.shiftLeft_eq, Nat.zero_mod,
    Nat.or_zero]
  omega

/-- SHI's kinds 0 to 2 are the ALU's three shifts by the immediate. -/
theorem aluInt_shift (a : Word) (kind : BitVec 2) (sh : BitVec 5) (hk : kind ≠ 3) :
    aluInt (5 + kind.toNat) a (BitVec.ofNat 32 sh.toNat) =
      if kind = 0 then a <<< sh.toNat else if kind = 1 then a >>> sh.toNat else a.sshiftRight sh.toNat := by
  have hsh : sh.toNat % 32 = sh.toNat := Nat.mod_eq_of_lt sh.isLt
  have hkind : kind = 0#2 ∨ kind = 1#2 ∨ kind = 2#2 := by
    have hlt := kind.isLt
    simp only [BitVec.toNat_eq, ne_eq, BitVec.ofNat_eq_ofNat, BitVec.toNat_ofNat] at hk ⊢
    omega
  rcases hkind with rfl | rfl | rfl <;> simp [aluInt, hsh]

/-! ### Classes of ALU functions -/

section
variable {s : State} {c : Nat} {t : BitVec 4} {rd rs1 rs2 func : BitVec 5} {ext : BitVec 6}

theorem exec_alu_int (h : Issues s c t) (hl : aluLegal rd rs1 rs2 func ext = true) (hf : func.toNat ≤ 14) :
    let th := (s.core c).thread t.toNat
    ∃ u, exec (.alu c t rd rs1 rs2 func ext) s = .next u ∧
      ThreadOnly c t s u (pcNext (th.setG rd.toNat (aluInt func.toNat (th.getG rs1.toNat) (th.getG rs2.toNat)))) (s.core c).cstat :=
  issue_modT (g := (·.setG _ _)) h hl (by rw [doAlu, if_pos hf]; rfl) (Thread.setG_pc ..)

theorem exec_alu_sel (h : Issues s c t) (hl : aluLegal rd rs1 rs2 func ext = true) (hf : func.toNat = 15) :
    let th := (s.core c).thread t.toNat
    ∃ u, exec (.alu c t rd rs1 rs2 func ext) s = .next u ∧
      ThreadOnly c t s u (pcNext (th.setG rd.toNat
        (if th.getP (ext.toNat / 8) then th.getG rs1.toNat else th.getG rs2.toNat))) (s.core c).cstat :=
  issue_modT (g := (·.setG _ _)) h hl (by simp only [doAlu, hf]; rfl) (Thread.setG_pc ..)

theorem exec_alu_cmp (h : Issues s c t) (hl : aluLegal rd rs1 rs2 func ext = true) (hlo : 16 ≤ func.toNat) (hhi : func.toNat ≤ 18) :
    let th := (s.core c).thread t.toNat
    ∃ u, exec (.alu c t rd rs1 rs2 func ext) s = .next u ∧
      ThreadOnly c t s u (pcNext (th.setP rd.toNat (aluCmp func.toNat (th.getG rs1.toNat) (th.getG rs2.toNat)))) (s.core c).cstat :=
  issue_modT (g := (·.setP _ _)) h hl
    (by
      have h15 : (func.toNat == 15) = false := by simpa using (by omega : func.toNat ≠ 15)
      rw [doAlu, if_neg (by omega), h15, if_neg (by decide), if_pos hhi]
      rfl)
    (Thread.setP_pc ..)

/-- The predicate functions 27 to 29. -/
def aluPred (func : Nat) (x y : Bool) : Bool := if func == 27 then x && y else if func == 28 then x || y else x != y

theorem exec_alu_pred (h : Issues s c t) (hl : aluLegal rd rs1 rs2 func ext = true) (hlo : 27 ≤ func.toNat) :
    let th := (s.core c).thread t.toNat
    ∃ u, exec (.alu c t rd rs1 rs2 func ext) s = .next u ∧
      ThreadOnly c t s u (pcNext (th.setP rd.toNat (aluPred func.toNat (th.getP rs1.toNat) (th.getP rs2.toNat)))) (s.core c).cstat :=
  issue_modT (g := (·.setP _ _)) h hl
    (by
      have h15 : (func.toNat == 15) = false := by simpa using (by omega : func.toNat ≠ 15)
      rw [doAlu, if_neg (by omega), h15, if_neg (by decide), if_neg (by omega), if_neg (by omega), if_neg (by omega)]
      rfl)
    (Thread.setP_pc ..)

/-- The FP32 functions that write a g register. -/
theorem exec_alu_fp (h : Issues s c t) (hl : aluLegal rd rs1 rs2 func 0 = true) (hlo : 19 ≤ func.toNat) (hhi : func.toNat ≤ 23) :
    let th := (s.core c).thread t.toNat
    let r := aluFp func.toNat th.ftz (th.getG rs1.toNat).toNat (th.getG rs2.toNat).toNat
    ∃ u, exec (.alu c t rd rs1 rs2 func 0) s = .next u ∧
      ThreadOnly c t s u (pcNext (withFlags (th.setG rd.toNat (BitVec.ofNat 32 r.1)) r.2.bits)) (statAfter (s.core c).cstat r.2.bits) := by
  intro th r
  have htouch := (CoreView.Touched.modT (s.view c) t.toNat (·.setG rd.toNat (BitVec.ofNat 32 r.1))).trans
    (CoreView.Touched.raise _ t.toNat r.2.bits)
  rw [(CoreView.Touched.modT (s.view c) t.toNat (·.setG rd.toNat (BitVec.ofNat 32 r.1))).thread] at htouch
  refine issue_touched h hl ?_ htouch ((Thread.setG_pc ..).trans rfl)
  have h15 : (func.toNat == 15) = false := by simpa using (by omega : func.toNat ≠ 15)
  rw [doAlu, if_neg (by omega), h15, if_neg (by decide), if_neg (by omega), if_pos hhi]
  rfl

/-- The FP32 comparisons, which write a predicate. -/
theorem exec_alu_fpCompare (h : Issues s c t) (hl : aluLegal rd rs1 rs2 func 0 = true) (hlo : 24 ≤ func.toNat)
    (hhi : func.toNat ≤ 26) :
    let th := (s.core c).thread t.toNat
    let k := fpCompare .fp32 th.ftz (func.toNat - 24) (th.getG rs1.toNat).toNat (th.getG rs2.toNat).toNat
    ∃ u, exec (.alu c t rd rs1 rs2 func 0) s = .next u ∧
      ThreadOnly c t s u (pcNext (withFlags (th.setP rd.toNat k.1) k.2.bits)) (statAfter (s.core c).cstat k.2.bits) := by
  intro th k
  have htouch := (CoreView.Touched.modT (s.view c) t.toNat (·.setP rd.toNat k.1)).trans
    (CoreView.Touched.raise _ t.toNat k.2.bits)
  rw [(CoreView.Touched.modT (s.view c) t.toNat (·.setP rd.toNat k.1)).thread] at htouch
  refine issue_touched h hl ?_ htouch ((Thread.setP_pc ..).trans rfl)
  have h15 : (func.toNat == 15) = false := by simpa using (by omega : func.toNat ≠ 15)
  rw [doAlu, if_neg (by omega), h15, if_neg (by decide), if_neg (by omega), if_neg (by omega), if_pos hhi]
  rfl

end

theorem toNat_lt_of_aluLegal {rd rs1 rs2 func : BitVec 5} {ext : BitVec 6} (h : aluLegal rd rs1 rs2 func ext = true) :
    func.toNat < 30 := by
  simp only [aluLegal, Bool.and_eq_true, decide_eq_true_eq] at h
  exact h.1.2

theorem aluLegal_fp {rd rs1 rs2 func : BitVec 5} (hlo : 19 ≤ func.toNat) (hhi : func.toNat ≤ 26) (hrd : 24 ≤ func.toNat → rd.toNat < 8) :
    aluLegal rd rs1 rs2 func 0 = true := by
  have h15 : (func.toNat == 15) = false := by simpa using (by omega : func.toNat ≠ 15)
  have h18 : ¬ func.toNat ≤ 18 := by omega
  have h27 : ¬ 27 ≤ func.toNat := by omega
  by_cases h24 : 24 ≤ func.toNat
  · have := hrd h24
    simp [aluLegal, h15, h18, h24, hhi, this, show func.toNat < 30 by omega]
  · simp [aluLegal, h15, h18, h24, h27, show func.toNat < 30 by omega]

end Sys2Proof.Machine

namespace Sys2Proof.Proofs

open Sys2Proof.Machine Sys2Proof.Claims

/-- Settles O9: each immediate form is `putG` of its result. -/
theorem immediateResults : Obligations.ImmediateResults := by
  unfold Obligations.ImmediateResults
  intro s c t rd rs1 imm kind sh h th a writes
  refine ⟨issue_putG h rfl rfl, issue_putG h rfl rfl, issue_putG h rfl rfl, issue_putG h rfl rfl, ?_, ?_⟩
  · rw [← setWidth_shiftLeft_eq_append]
    exact issue_putG h rfl rfl
  · intro hk
    rw [← aluInt_shift a kind sh hk]
    exact issue_putG h (by simpa using hk) rfl

/-- Settles O11: a class of functions at a time, each with the arm of `doAlu` that it takes. -/
theorem aluResults : Obligations.AluResults := by
  unfold Obligations.AluResults
  constructor
  · intro s c t rd rs1 rs2 func ext h hl hfp th a b p q
    have hlt := toNat_lt_of_aluLegal hl
    have hclass : func.toNat ≤ 14 ∨ func.toNat = 15 ∨ (16 ≤ func.toNat ∧ func.toNat ≤ 18) ∨ 27 ≤ func.toNat := by omega
    rcases hclass with hint | hsel | ⟨hlo, hhi⟩ | hpred
    · obtain ⟨u, hu, hframe⟩ := exec_alu_int h hl hint
      refine ⟨u, hu, ?_⟩
      generalize func.toNat = n at hint hframe ⊢
      interval_cases n <;> try simp only [aluInt_mulh, aluInt_mulhu, aluInt_min, aluInt_max, aluInt_minu, aluInt_maxu] at hframe
      all_goals exact hframe
    · obtain ⟨u, hu, hframe⟩ := exec_alu_sel h hl hsel
      refine ⟨u, hu, ?_⟩
      rw [hsel]
      exact hframe
    · obtain ⟨u, hu, hframe⟩ := exec_alu_cmp h hl hlo hhi
      refine ⟨u, hu, ?_⟩
      generalize func.toNat = n at hlo hhi hframe ⊢
      interval_cases n
      · rwa [aluCmp_eq] at hframe
      · exact hframe
      · exact hframe
    · obtain ⟨u, hu, hframe⟩ := exec_alu_pred h hl hpred
      refine ⟨u, hu, ?_⟩
      generalize func.toNat = n at hpred hlt hframe ⊢
      interval_cases n <;> exact hframe
  · intro s c t rd rs1 rs2 func h hlo hhi hrd th a b r k
    have hl := aluLegal_fp (rs1 := rs1) (rs2 := rs2) hlo hhi hrd
    by_cases h23 : func.toNat ≤ 23
    · obtain ⟨u, hu, hframe⟩ := exec_alu_fp h hl hlo h23
      exact ⟨u, hu, fun _ => hframe, fun _ => by omega⟩
    · obtain ⟨u, hu, hframe⟩ := exec_alu_fpCompare h hl (by omega) hhi
      exact ⟨u, hu, fun _ => by omega, fun _ => hframe⟩

end Sys2Proof.Proofs
end

section
/-! PROOFS. Branches, FSTAT, pad loads and stores (R117, R118, R138). -/

namespace Sys2Proof.Machine

open Sys2Proof.Claims

/-! ### Branches and FSTAT -/

section
variable {s : State} {c : Nat} {t : BitVec 4}

theorem exec_b (h : Issues s c t) (p : BitVec 3) (neg : Bool) (target : BitVec 8) :
    let th := (s.core c).thread t.toNat
    ∃ u, exec (.b c t p neg target) s = .next u ∧
      ThreadOnly c t s u { th with pc := if th.getP p.toNat = neg then th.pc + 1 else target } (s.core c).cstat := by
  intro th
  by_cases hp : th.getP p.toNat = neg
  · rw [if_pos hp]
    refine issue_touched h rfl ?_ (CoreView.Touched.rfl' t.toNat (s.view c)) rfl
    exact if_neg (show ¬ (th.getP p.toNat != neg) = true by simpa using hp)
  · rw [if_neg hp]
    refine issue_jump h.1 rfl ?_ (CoreView.Touched.rfl' t.toNat (s.view c))
    exact if_pos (show (th.getP p.toNat != neg) = true by simpa using hp)

theorem exec_loop (h : Issues s c t) {g : BitVec 5} (hg : g ≠ 0) (target : BitVec 8) :
    let th := (s.core c).thread t.toNat
    let w := th.getG g.toNat - 1
    ∃ u, exec (.loop c t g target) s = .next u ∧
      ThreadOnly c t s u { th.setG g.toNat w with pc := if w = 0 then th.pc + 1 else target } (s.core c).cstat := by
  intro th w
  have hl : (g != 0) = true := by simpa using hg
  have htouch := CoreView.Touched.modT (s.view c) t.toNat (·.setG g.toNat w)
  by_cases hw : w = 0
  · rw [if_pos hw, ← Thread.setG_pc th g.toNat w]
    refine issue_touched h hl ?_ htouch (Thread.setG_pc ..)
    exact if_neg (show ¬ (w != 0) = true by simpa using hw)
  · rw [if_neg hw]
    refine issue_jump h.1 hl ?_ htouch
    exact if_pos (show (w != 0) = true by simpa using hw)

theorem exec_fstat (h : Issues s c t) {mode : BitVec 2} (hm : mode ≠ 3) (hf : flagsPending (s.view c) t.toNat = false)
    (rd : BitVec 5) (clr : BitVec 8) :
    let th := (s.core c).thread t.toNat
    ∃ u, exec (.fstat c t rd clr mode) s = .next u ∧
      ThreadOnly c t s u (pcNext { th.setG rd.toNat th.tstat with
        tstat := if mode = 1 then (th.tstat &&& ~~~(clr.setWidth 32)) &&& ~~~0x100#32
          else if mode = 2 then (th.tstat &&& ~~~(clr.setWidth 32)) ||| 0x100#32
          else th.tstat &&& ~~~(clr.setWidth 32) }) (s.core c).cstat := by
  intro th
  have hmode (n : Nat) (hn : n < 4) : (mode.toNat == n) = decide (mode = BitVec.ofNat 2 n) := by
    simp [BitVec.toNat_eq, Nat.mod_eq_of_lt hn, beq_eq_decide]
  refine issue_modT (g := fun x => { x.setG rd.toNat th.tstat with tstat := _ }) h (by simpa using hm) ?_ (Thread.setG_pc th rd.toNat _)
  simp only [doFstat, hf, hmode 1 (by decide), hmode 2 (by decide), decide_eq_true_eq]
  rfl

theorem exec_fstat_waits (h : HasTurn s c t false) {mode : BitVec 2} (hm : mode ≠ 3) (hf : flagsPending (s.view c) t.toNat = true)
    (rd : BitVec 5) (clr : BitVec 8) : exec (.fstat c t rd clr mode) s = .next (waiting s c t .waitOperand) :=
  issue_waits h (by simpa using hm) (onView_waits (by simp only [doFstat, hf, if_true]))

/-! ### Going on past PC 255, and other core faults (R102, R106) -/

/-- An instruction that touches its thread alone and then stops it. -/
theorem issue_touched_stops {array legal : Bool} {f : CoreView → Issue} {v : CoreView} {th : Thread} {cs : BitVec 8} {e : IssueEnd}
    (h : HasTurn s c t array) (hl : legal = true) (hf : f (s.view c) = ⟨v, e⟩) (hv : (s.view c).Touched t.toNat v th cs)
    (he : e.stops ((s.core c).thread t.toNat).pc) :
    ∃ u, issue c t array legal (onView c f) s = .next u ∧ OtherThreads c t.toNat s u ∧
      (u.core c).thread t.toNat = { th with state := .faulted } := by
  obtain ⟨u, hu, hcore, -, -, -⟩ := issue_stops h hl hf he
  refine ⟨u, hu, ?_, ?_⟩
  · intro r hr
    rw [hcore, Core.thread_stop_other _ _ hr, Core.thread_point]
    exact hv.other hr
  · rw [hcore, Core.thread_stop_same, Core.thread_point, hv.thread]

/-- An instruction that is a core fault before it does anything. -/
theorem issue_failed {array legal : Bool} {f : CoreView → Issue} {cause : Cause}
    (h : HasTurn s c t array) (hl : legal = true) (hf : f (s.view c) = (s.view c).failed cause) :
    ∃ u, issue c t array legal (onView c f) s = .next u ∧ OtherThreads c t.toNat s u ∧
      (u.core c).thread t.toNat = { (s.core c).thread t.toNat with state := .faulted } :=
  issue_touched_stops h hl hf (CoreView.Touched.rfl' t.toNat (s.view c)) (.inl ⟨cause, rfl⟩)

end

/-! ### Numbers in memory -/

theorem Mem.readBytes_length (m : Mem) (a n : Nat) : (m.readBytes a n).length = n := by
  induction n generalizing a with
  | zero => rfl
  | succ n ih => simp [Mem.readBytes, ih]

theorem leNat_lt (bs : List Byte) : leNat bs < 256 ^ bs.length := by
  induction bs with
  | nil => simp [leNat]
  | cons b bs ih =>
    have := b.isLt
    simp only [leNat, List.length_cons, pow_succ]
    omega

theorem Mem.readNat_lt (m : Mem) (a n : Nat) : m.readNat a n < 2 ^ (8 * n) := by
  have := leNat_lt (m.readBytes a n)
  rwa [Mem.readBytes_length, show (256 : Nat) = 2 ^ 8 by rfl, ← pow_mul] at this

theorem leBytes_getElem (n v i : Nat) (h : i < (leBytes n v).length) : (leBytes n v)[i] = BitVec.ofNat 8 (v / 256 ^ i) := by
  induction n generalizing v i with
  | zero => simp at h
  | succ n ih =>
    cases i with
    | zero => simp [leBytes]
    | succ i =>
      simp only [leBytes, List.getElem_cons_succ]
      rw [ih, Nat.div_div_eq_div_mul, pow_succ, Nat.mul_comm]

/-- The top bit of a number that has no higher one. -/
theorem bitOf_top {n k : Nat} (h : n < 2 ^ (k + 1)) : bitOf n k = decide (2 ^ k ≤ n) := by
  have hq : n / 2 ^ k < 2 := Nat.div_lt_of_lt_mul (by rwa [← pow_succ])
  by_cases hle : 2 ^ k ≤ n
  · have : 1 ≤ n / 2 ^ k := (Nat.one_le_div_iff (Nat.two_pow_pos k)).mpr hle
    simp [bitOf, hle, show n / 2 ^ k = 1 by omega]
  · simp [bitOf, hle, Nat.div_eq_of_lt (Nat.lt_of_not_le hle)]

/-! ### LD and ST (R118) -/

section
variable {s : State} {c : Nat} {t : BitVec 4}

/-- The word that LD delivers of n, 2^size bytes. -/
def loadWord (size : Nat) (sign : Bool) (n : Nat) : Word :=
  if sign && decide (2 ^ (8 * 2 ^ size - 1) ≤ n) then BitVec.ofInt 32 ((n : Int) - 2 ^ (8 * 2 ^ size)) else BitVec.ofNat 32 n

theorem doLd_of_byteKey {v : CoreView} {rd rs1 size : Nat} {pad sign : Bool} {off : BitVec 12} {k : Nat} {t : Nat}
    (hk : v.byteKey (padOf pad) (lsAddress ((v.th t).getG rs1) off size) = some k) :
    doLd t rd rs1 size pad sign off v = (v.noteRead t k).putG t rd (loadWord size sign (v.mem.readNat k (2 ^ size))) := by
  have htop : bitOf (v.mem.readNat k (2 ^ size)) (8 * 2 ^ size - 1) = decide (2 ^ (8 * 2 ^ size - 1) ≤ v.mem.readNat k (2 ^ size)) := by
    have hpos : 0 < 2 ^ size := Nat.two_pow_pos size
    refine bitOf_top ?_
    rw [show 8 * 2 ^ size - 1 + 1 = 8 * 2 ^ size by omega]
    exact Mem.readNat_lt ..
  simp only [doLd, hk, htop, loadWord]

theorem exec_ld {rd rs1 : BitVec 5} {size : BitVec 2} {pad sign : Bool} {off : BitVec 12} {k : Nat} (h : Issues s c t)
    (ho : HasOperands s c t (.pad pad)) (hl : (size != 3 && !(size == 2 && sign)) = true)
    (hk : (s.view c).byteKey (padOf pad) (lsAddress (((s.core c).thread t.toNat).getG rs1.toNat) off size.toNat) = some k) :
    let th := (s.core c).thread t.toNat
    ∃ u, exec (.ld c t rd rs1 size pad sign off) s = .next u ∧
      ThreadOnly c t s u (pcNext ((withFlags th (readBits s k)).setG rd.toNat
        (loadWord size.toNat sign (Mem.readNat s.mem k (2 ^ size.toNat))))) (statAfter (s.core c).cstat (readBits s k)) := by
  intro th
  have hread := CoreView.Touched.noteRead (s.view c) t.toNat k
  have htouch := hread.trans (CoreView.Touched.modT _ t.toNat (·.setG rd.toNat (loadWord size.toNat sign (Mem.readNat s.mem k (2 ^ size.toNat)))))
  rw [hread.thread, hread.cstat] at htouch
  refine issue_touched h hl ?_ htouch (Thread.setG_pc ..)
  rw [needing_ready ho, doLd_of_byteKey hk]
  rfl

theorem exec_st {rs2 rs1 : BitVec 5} {size : BitVec 2} {pad : Bool} {off : BitVec 12} {k : Nat} (h : Issues s c t)
    (hl : (size != 3) = true)
    (hk : (s.view c).byteKey (padOf pad) (lsAddress (((s.core c).thread t.toNat).getG rs1.toNat) off size.toNat) = some k)
    (hw : (s.view c).mayWrite k = true) :
    let v := (s.view c).writePart t.toNat k (leBytes (2 ^ size.toNat) (((s.core c).thread t.toNat).getG rs2.toNat).toNat)
    ∃ u, exec (.st c t rs2 rs1 size pad off) s = .next u ∧ OneCore c s u ∧ OtherThreads c t.toNat s u ∧
      (u.core c).thread t.toNat = pcNext ((s.core c).thread t.toNat) ∧
      u.core c = { s.core c with threads := (u.core c).threads, generalPtr := t } ∧ u.mem = v.mem ∧ u.marks = v.marks := by
  intro v
  have hf : doSt t.toNat rs2.toNat rs1.toNat size.toNat pad off (s.view c) = ⟨v, .seq⟩ := by
    have hk' : (s.view c).byteKey (padOf pad) (lsAddress (((s.view c).th t.toNat).getG rs1.toNat) off size.toNat) = some k := hk
    simp only [doSt, hk', hw, if_true]
    rfl
  obtain ⟨u, hu, hone, hmem, hmarks, hother, hthread, hcore⟩ := issue_seq (array := false) h.1 h.2 hl hf
  exact ⟨u, hu, hone, hother, hthread, hcore, hmem, hmarks⟩

/-- Bytes shorter than a granule, within one: the store's marks. -/
theorem CoreView.writePart_marks_of_short (v : CoreView) (t key : Nat) (bs : List Byte) (h : bs.length ≠ 32) :
    (v.writePart t key bs).marks = if (v.core.thread t).umber then kset false v.marks (key / 32 * 32) true else v.marks := by
  simp [CoreView.writePart, h]

end

end Sys2Proof.Machine

namespace Sys2Proof.Proofs

open Sys2Proof.Machine Sys2Proof.Claims

/-- Settles O14: the taken and the other branch of each, and at PC 255 the end in sequence is a core fault. -/
theorem branchStatusAndPc : Obligations.BranchStatusAndPc := by
  unfold Obligations.BranchStatusAndPc
  refine ⟨?_, ?_, ?_⟩
  · intro s c t p neg g target h th w
    exact ⟨exec_b h p neg target, fun hg => exec_loop h hg target⟩
  · intro s c t rd clr mode h th
    exact ⟨fun hm hf => exec_fstat h hm hf rd clr, fun hm hf => exec_fstat_waits h.1 hm hf rd clr,
      issue_modT_begun (f := doYield t.toNat) h.1 rfl rfl⟩
  · intro s c t rd rs1 imm target h hpc th
    have hstop : IssueEnd.stops th.pc .seq := .inr ⟨rfl, hpc⟩
    constructor
    · obtain ⟨u, hu, -, hthread⟩ := issue_touched_stops (f := doOri t.toNat rd.toNat rs1.toNat imm) h rfl rfl
        (CoreView.Touched.modT (s.view c) t.toNat _) hstop
      exact ⟨u, hu, hthread⟩
    · obtain ⟨u, hu, -, hthread⟩ := issue_touched_stops (f := doB t.toNat 0 true target) h rfl rfl
        (CoreView.Touched.rfl' t.toNat (s.view c)) hstop
      exact ⟨u, hu, hthread⟩

/-- Settles O15: the key in bounds gives the bytes and marks, and a key out of bounds or one that may not be written the fault. -/
theorem loadStoreResults : Obligations.LoadStoreResults := by
  unfold Obligations.LoadStoreResults
  have legal {size : BitVec 2} {sign : Bool} (h3 : size ≠ 3) (h2 : size = 2 → sign = false) :
      (size != 3 && !(size == 2 && sign)) = true := by
    by_cases hs : size = 2
    · simp [hs, h2 hs]
    · rw [bne_iff_ne.mpr h3, beq_eq_false_iff_ne.mpr hs]
      rfl
  refine ⟨?_, ?_, ?_⟩
  · intro s c t rd rs1 size pad sign off k h ho h3 h2 hk
    exact exec_ld h ho (legal h3 h2) hk
  · intro s c t rs2 rs1 size pad off k h h3 hk hw th
    obtain ⟨u, hu, hone, hother, hthread, hcore, hmem, hmarks⟩ := exec_st (rs2 := rs2) h (by simpa using h3) hk hw
    have hsize : 2 ^ size.toNat ≠ 32 := by
      have := size.isLt
      interval_cases size.toNat <;> decide
    refine ⟨u, hu, hone, hother, hthread, hcore, ?_, ?_, ?_⟩
    · intro i hi
      rw [hmem]
      refine (Mem.read_writeBytes_inside _ _ _ _ (by simpa using hi)).trans ?_
      rw [leBytes_getElem]
      apply BitVec.eq_of_toNat_eq
      simp [Nat.shiftRight_eq_div_pow, pow_mul, th]
    · intro a ha
      rw [hmem]
      exact Mem.read_writeBytes_outside _ _ _ _ (by simpa using ha)
    · rw [hmarks]
      exact CoreView.writePart_marks_of_short _ _ _ _ (by simpa using hsize)
  · intro s c t rd rs1 size pad sign off h ho h3 h2 place faults
    have st_fails (hf : doSt t.toNat rd.toNat rs1.toNat size.toNat pad off (s.view c) = (s.view c).failed .bounds) :
        faults (.st c t rd rs1 size pad off) := issue_failed h.1 (by simpa using h3) hf
    constructor
    · intro hplace
      have hplace' : (s.view c).byteKey (padOf pad) (lsAddress (((s.view c).th t.toNat).getG rs1.toNat) off size.toNat) = none := hplace
      refine ⟨issue_failed (cause := .bounds) h.1 (legal h3 h2) ?_, st_fails ?_⟩
      · rw [needing_ready ho]
        simp only [doLd, hplace']
      · simp only [doSt, hplace']
    · intro k hplace hw
      have hplace' : (s.view c).byteKey (padOf pad) (lsAddress (((s.view c).th t.toNat).getG rs1.toNat) off size.toNat) = some k := hplace
      refine st_fails ?_
      simp only [doSt, hplace', hw, Bool.false_eq_true, if_false]

end Sys2Proof.Proofs
end

section
/-! PROOFS. Illegal encodings, instructions that do not issue, and units that the module does not have (R15, R75, R76, R140). -/

namespace Sys2Proof.Machine

open Sys2Proof.Claims

section
variable {s : State} {c : Nat} {t : BitVec 4}

/-- An illegal encoding is a core fault whose instruction has done nothing (R106, R140). -/
theorem issue_illegal {array : Bool} {f : State → State × IssueEnd} (h : HasTurn s c t array) :
    ∃ u, issue c t array false f s = .next u ∧ u.core c = ((s.core c).point array t).stop t ∧ u.mem = s.mem ∧ u.marks = s.marks := by
  obtain ⟨hc, hi, ht⟩ := h
  refine ⟨noteIssue c array s ((s.modCore c (·.point array t)).coreFault c t.toNat ((s.modCore c (·.point array t)).core c).openCfg
    ((s.core c).thread t.toNat).pc .encoding), ?_, ?_, ?_, ?_⟩
  · simp [issue, hc, hi, ht, endIssue, endThread]
  · simp [State.coreFault_core, Core.stop]
  · simp
  · simp

/-- An instruction that has no slot open to it, or not its turn, does not issue (R75, R76). -/
theorem issue_idle {array legal : Bool} {f : State → State × IssueEnd} (hc : s.isCore c = true)
    (h : s.canIssue c t.toNat = false ∨ s.turnOf c t.toNat array = false) : issue c t array legal f s = .next s := by
  rcases h with h | h <;> simp [issue, hc, h]

theorem issue_absent {array legal : Bool} {f : State → State × IssueEnd} (hc : s.isCore c = false) :
    issue c t array legal f s = .fault .noSuchUnit := by simp [issue, hc]

theorem engine_absent {f : State → State} (hc : s.isCore c = false) : engine c f s = .fault .noSuchUnit := by simp [engine, hc]

theorem extractLsb'_toNat_eq_bitsOf {w : Nat} (x : BitVec w) (lo len : Nat) : (x.extractLsb' lo len).toNat = bitsOf x.toNat lo len := by
  simp [bitsOf, Nat.shiftRight_eq_div_pow]

theorem Core.stop_point_eq (k : Core) (array : Bool) (t : BitVec 4) :
    (k.point array t).stop t = { k with
      threads := ((k.point array t).stop t).threads
      arrayPtr := ((k.point array t).stop t).arrayPtr
      generalPtr := ((k.point array t).stop t).generalPtr } := by
  cases array <;> rfl

end

end Sys2Proof.Machine

namespace Sys2Proof.Proofs

open Sys2Proof.Machine Sys2Proof.Claims

/-- Settles O17: the tests that stand before an instruction's meaning, one after the other. -/
theorem notIssuedOrAbsent : Obligations.NotIssuedOrAbsent := by
  unfold Obligations.NotIssuedOrAbsent
  refine ⟨?_, ?_, ?_, ?_⟩
  · intro s c t w h hw
    have hexec : exec (.illegalEncoding c t w) s = issue c t (wordArray w.toNat) false (fun s => (s, .seq)) s := by
      refine (if_neg (by simp [hw])).trans ?_
      simp only [extractLsb'_toNat_eq_bitsOf]
      rfl
    obtain ⟨u, hu, hcore, hmem, hmarks⟩ := issue_illegal h
    refine ⟨u, hexec.trans hu, ?_, ?_, ⟨hmem, hmarks, fun a => by rw [hmem]⟩, ?_⟩
    · rw [hcore, Core.thread_stop_same, Core.thread_point]
    · intro r hr
      rw [hcore, Core.thread_stop_other _ _ hr, Core.thread_point]
    · rw [hcore]
      exact Core.stop_point_eq ..
  · intro s c t rd rs1 imm aw aa ap l wf af z n hc
    refine ⟨fun h => ⟨issue_idle hc h, issue_idle hc h⟩, fun h => ?_⟩
    change execTmma c t aw aa ap l n wf af z s = .next s
    unfold execTmma
    exact issue_idle hc h
  · intro s c t rd rs1 lane size gb word dir pad half inc off h waits
    constructor
    · intro hv
      exact ⟨issue_waits h rfl (needing_waits hv), fun hg => issue_waits h (by simpa using hg) (needing_waits hv)⟩
    · intro hpad hs
      refine issue_waits h ?_ (needing_waits hpad)
      have hs3 : (size != 3) = true := by
        rw [bne_iff_ne]
        rintro rfl
        exact absurd hs (by decide)
      have hs2 : (size == 2) = false := by
        rw [beq_eq_false_iff_ne]
        rintro rfl
        exact absurd hs (by decide)
      rw [hs3, hs2]
      rfl
  · intro s c d p f n t rd rs imm absent
    refine ⟨?core, ?die, ?port, ?function⟩
    case core =>
      intro hc
      have hport : execStorePortTurn c s = .fault .noSuchUnit := by
        unfold execStorePortTurn
        exact engine_absent hc
      exact ⟨issue_absent hc, issue_absent hc, if_pos (by simp [hc]), engine_absent hc, hport⟩
    case die =>
      intro hd
      exact ⟨if_pos hd, if_pos hd, if_pos hd⟩
    case port =>
      intro hp
      have hport : (!isPort p) = true := by simpa [isPort] using hp
      exact ⟨if_pos hport, if_pos hport, if_pos hp, if_pos hp, if_pos hp⟩
    case function =>
      intro hf
      have hqueue : (!(decide (f < 256) && decide (0 < 64))) = true := by simpa using hf
      exact ⟨if_pos hqueue, if_pos hf, if_pos hf, if_pos hf, if_pos hf⟩

end Sys2Proof.Proofs
end

section
/-! PROOFS. Numbers in memory, uses of pad-address registers, and VOP (R71, R74, R121). -/

namespace Sys2Proof.Machine

open Sys2Proof.Claims

/-! ### Numbers and their bytes -/

theorem leNat_append (xs ys : List Byte) : leNat (xs ++ ys) = leNat xs + 256 ^ xs.length * leNat ys := by
  induction xs with
  | nil => simp [leNat]
  | cons x xs ih => simp [leNat, ih, pow_succ]; ring

theorem leNat_leBytes (n v : Nat) : leNat (leBytes n v) = v % 256 ^ n := by
  induction n generalizing v with
  | zero => simp [leBytes, leNat, Nat.mod_one]
  | succ n ih =>
    rw [leBytes, leNat, ih, pow_succ, Nat.mul_comm (256 ^ n), Nat.mod_mul]
    simp

theorem Mem.readBytes_append (m : Mem) (a n k : Nat) : m.readBytes a (n + k) = m.readBytes a n ++ m.readBytes (a + n) k := by
  induction n generalizing a with
  | zero => simp [Mem.readBytes]
  | succ n ih =>
    rw [Nat.succ_add, Mem.readBytes, Mem.readBytes, ih, show a + (n + 1) = a + 1 + n by omega]
    rfl

theorem Mem.readNat_append (m : Mem) (a n k : Nat) : m.readNat a (n + k) = m.readNat a n + 256 ^ n * m.readNat (a + n) k := by
  simp only [Mem.readNat, Mem.readBytes_append, leNat_append, Mem.readBytes_length]

theorem Mem.readNat_lt' (m : Mem) (a n : Nat) : m.readNat a n < 256 ^ n := by
  have := leNat_lt (m.readBytes a n)
  rwa [Mem.readBytes_length] at this

theorem two_pow_eight_mul (n : Nat) : 2 ^ (8 * n) = 256 ^ n := by rw [pow_mul]; rfl

/-- A part of a number in memory is a field of it. -/
theorem Mem.readNat_part (m : Mem) {a n o l : Nat} (h : o + l ≤ n) : m.readNat (a + o) l = bitsOf (m.readNat a n) (8 * o) (8 * l) := by
  obtain ⟨r, rfl⟩ := Nat.exists_eq_add_of_le h
  rw [bitsOf, two_pow_eight_mul, two_pow_eight_mul, Nat.add_assoc, Mem.readNat_append, Mem.readNat_append,
    Nat.add_mul_div_left _ _ (by positivity), Nat.div_eq_of_lt (Mem.readNat_lt' ..), Nat.zero_add, Nat.add_mul_mod_self_left,
    Nat.mod_eq_of_lt (Mem.readNat_lt' ..)]

theorem Mem.readBytes_congr {m m' : Mem} (a n : Nat) (h : ∀ x, a ≤ x → x < a + n → m.read x = m'.read x) :
    m.readBytes a n = m'.readBytes a n := by
  induction n generalizing a with
  | zero => rfl
  | succ n ih =>
    rw [Mem.readBytes, Mem.readBytes, h a le_rfl (by omega), ih (a + 1) fun x hlo hhi => h x (by omega) (by omega)]

/-- Where no byte of a number differs it reads the same. -/
theorem Mem.readNat_congr {m m' : Mem} (a n : Nat) (h : ∀ x, a ≤ x → x < a + n → m.read x = m'.read x) :
    m.readNat a n = m'.readNat a n := congrArg leNat (Mem.readBytes_congr a n h)

theorem Mem.readBytes_writeBytes (m : Mem) (a : Nat) (bs : List Byte) : (m.writeBytes a bs).readBytes a bs.length = bs := by
  induction bs generalizing m a with
  | nil => rfl
  | cons b bs ih =>
    rw [List.length_cons, Mem.readBytes, Mem.writeBytes, ih, Mem.read_writeBytes_outside _ _ _ _ (by omega), Mem.read_write_same]

/-- A number reads as it was written. -/
theorem Mem.readNat_writeNat (m : Mem) (a n v : Nat) : (m.writeNat a n v).readNat a n = v % 256 ^ n := by
  have := Mem.readBytes_writeBytes m a (leBytes n v)
  rw [leBytes_length] at this
  rw [Mem.readNat, Mem.writeNat, this, leNat_leBytes]

theorem bitsOf_mod (v lo len n : Nat) (h : lo + len ≤ n) : bitsOf (v % 2 ^ n) lo len = bitsOf v lo len := by
  apply Nat.eq_of_testBit_eq
  intro i
  simp only [bitsOf, Nat.testBit_mod_two_pow, Nat.testBit_div_two_pow]
  by_cases hi : i < len
  · simp [hi, show i + lo < n by omega]
  · simp [hi]

/-- A part of a written number. -/
theorem Mem.readNat_writeNat_part (m : Mem) {a n o l v : Nat} (h : o + l ≤ n) :
    (m.writeNat a n v).readNat (a + o) l = bitsOf v (8 * o) (8 * l) := by
  rw [Mem.readNat_part _ h, Mem.readNat_writeNat, ← two_pow_eight_mul, bitsOf_mod _ _ _ _ (by omega)]

theorem Mem.read_writeNat_outside (m : Mem) {a n v x : Nat} (h : x < a ∨ a + n ≤ x) : (m.writeNat a n v).read x = m.read x :=
  Mem.read_writeBytes_outside _ _ _ _ (by simpa using h)

/-! ### Granules -/

theorem padWindow_mod_32 (id : Nat) : padWindow id % 32 = 0 := by
  have hid : id * 0x40000 = 32 * (id * 0x2000) := by omega
  rw [padWindow, hid, Nat.add_mul_mod_self_left]

theorem granuleOffset_mod_32 (dw da fw fa : Bool) (roles : BitVec 256) (pad : Pad) (g : Nat) :
    granuleOffset dw da fw fa roles pad g % 32 = 0 := by
  cases pad <;> simp only [granuleOffset] <;> split <;> try split
  all_goals omega

theorem CoreView.granule_eq {v : CoreView} {pad : Pad} {g k : Nat} (h : v.granule pad g = some k) :
    inBounds v.core.activeCfg pad g = true ∧ k = padWindow v.id + v.core.granuleOffset pad g := by
  unfold CoreView.granule at h
  split at h
  · next hin => exact ⟨hin, (Option.some.inj h).symm⟩
  · simp at h

/-- A granule lies at a multiple of its size. -/
theorem CoreView.granule_mod_32 {v : CoreView} {pad : Pad} {g k : Nat} (h : v.granule pad g = some k) : k % 32 = 0 := by
  obtain ⟨-, hk⟩ := CoreView.granule_eq h
  have hoff : v.core.granuleOffset pad g % 32 = 0 := granuleOffset_mod_32 ..
  have hwin := padWindow_mod_32 v.id
  omega

theorem CoreView.modT_usedA (v : CoreView) (t r : Nat) : v.modT t (usedA · r) =
    { v with core := v.core.modThread t fun th => th.setA r (aregAdvance ((v.core.thread t).getA r)) } := by
  simp only [CoreView.modT, Core.modThread, usedA]

/-- One use of a pad-address register that names a granule in bounds. -/
theorem CoreView.useA_eq {v : CoreView} {t r : Nat} {pad : Pad} {k : Nat}
    (h : v.granule pad (aregGranule ((v.core.thread t).getA r)) = some k) : v.useA t r pad = some (k, v.modT t (usedA · r)) := by
  rw [CoreView.modT_usedA]
  simp only [CoreView.useA, h]

@[simp] theorem usedA_tstat (th : Thread) (r : Nat) : (usedA th r).tstat = th.tstat := rfl

@[simp] theorem usedA_pc (th : Thread) (r : Nat) : (usedA th r).pc = th.pc := rfl

/-! ### What touches a core alone, and what writes memory too -/

/-- A core that differs from another in thread t and CSTAT alone. -/
def Core.Touched (t : Nat) (k k' : Core) (th : Thread) (cs : BitVec 8) : Prop :=
  k' = { k with threads := k'.threads, cstat := cs } ∧ k'.thread t = th ∧ ∀ r, r ≠ t → k'.thread r = k.thread r

namespace Core.Touched

theorem of_view {t : Nat} {v w : CoreView} {th : Thread} {cs : BitVec 8} (h : v.Touched t w th cs) :
    v.core.Touched t w.core th cs := ⟨h.core, h.thread, fun _ hr => h.other hr⟩

theorem trans {t : Nat} {k k' k'' : Core} {th th' : Thread} {cs cs' : BitVec 8} (h : k.Touched t k' th cs)
    (h' : k'.Touched t k'' th' cs') : k.Touched t k'' th' cs' := by
  obtain ⟨hk, -, ho⟩ := h
  obtain ⟨hk', hth, ho'⟩ := h'
  refine ⟨?_, hth, fun r hr => (ho' r hr).trans (ho r hr)⟩
  rw [hk', hk]

end Core.Touched

/-- An instruction of the general slot that touches its thread and CSTAT, writes memory, and goes on in sequence. -/
theorem issue_wrote {s : State} {c : Nat} {t : BitVec 4} {legal : Bool} {f : CoreView → Issue} {v : CoreView} {th : Thread}
    {cs : BitVec 8} (h : Issues s c t) (hl : legal = true) (hf : f (s.view c) = ⟨v, .seq⟩)
    (hv : (s.core c).Touched t.toNat v.core th cs) (hpc : th.pc = ((s.core c).thread t.toNat).pc) :
    ∃ u, issue c t false legal (onView c f) s = .next u ∧ OneCore c s u ∧ OtherThreads c t.toNat s u ∧
      (u.core c).thread t.toNat = pcNext th ∧
      u.core c = { s.core c with threads := (u.core c).threads, generalPtr := t, cstat := cs } ∧ u.mem = v.mem ∧ u.marks = v.marks := by
  obtain ⟨hcore, hth, ho⟩ := hv
  obtain ⟨u, hu, h1, h2, h3, h4, h5, h6⟩ := issue_seq (array := false) h.1 h.2 hl hf
  refine ⟨u, hu, h1, fun r hr => (h4 r hr).trans (ho r hr), ?_, ?_, h2, h3⟩
  · rw [h5, hth, ← hpc]
    rfl
  · rw [h6, hcore]
    rfl

/-! ### The lanes of a VOP -/

section
variable {func : Nat} {fp64 ftz : Bool} {lmask : Nat} {a s d d64 : Nat → Nat} {put : BitVec 256 → Nat → Nat → BitVec 256}

/-- What lane i of a VOP computes. -/
def vopRes (func : Nat) (fp64 ftz : Bool) (a s d d64 : Nat → Nat) (i : Nat) : Nat × Flags :=
  vopLane func (if fp64 then .fp64 else .fp32) ftz (a i) (s i) (d i) (d64 i)

/-- One more lane of a VOP. -/
def vopStep (func : Nat) (fp64 ftz : Bool) (lmask : Nat) (a s d d64 : Nat → Nat) (put : BitVec 256 → Nat → Nat → BitVec 256) (i : Nat)
    (acc : BitVec 256 × Flags × List Nat) : BitVec 256 × Flags × List Nat :=
  if bitOf lmask i then
    let r := vopRes func fp64 ftz a s d d64 i
    (put acc.1 i r.1, acc.2.1.join r.2, acc.2.2 ++ [r.1])
  else acc

theorem vopLanes_succ (n : Nat) (acc : BitVec 256 × Flags × List Nat) :
    vopLanes func fp64 ftz lmask a s d d64 put (n + 1) acc =
      vopLanes func fp64 ftz lmask a s d d64 put n (vopStep func fp64 ftz lmask a s d d64 put (3 - n) acc) := rfl

/-- Each enabled lane from 4 − n on holds its result, every other one what it held. -/
theorem vopLanes_get {get : BitVec 256 → Nat → Nat} {m : Nat}
    (hput : ∀ x i j v, i < 4 → j < 4 → get (put x i v) j = if i = j then v % m else get x j) (n : Nat) (hn : n ≤ 4)
    (acc : BitVec 256 × Flags × List Nat) (i : Nat) (hi : i < 4) :
    get (vopLanes func fp64 ftz lmask a s d d64 put n acc).1 i =
      if 4 - n ≤ i ∧ bitOf lmask i = true then (vopRes func fp64 ftz a s d d64 i).1 % m else get acc.1 i := by
  induction n generalizing acc with
  | zero => simp [vopLanes, show ¬ 4 ≤ i by omega]
  | succ n ih =>
    rw [vopLanes_succ, ih (by omega)]
    by_cases hlater : 4 - n ≤ i
    · have hne : 3 - n ≠ i := by omega
      have hstep : get (vopStep func fp64 ftz lmask a s d d64 put (3 - n) acc).1 i = get acc.1 i := by
        unfold vopStep
        split
        · simp [hput _ _ _ _ (show 3 - n < 4 by omega) hi, hne]
        · rfl
      rw [hstep]
      simp only [hlater, true_and, show 4 - (n + 1) ≤ i by omega]
    · by_cases heq : 3 - n = i
      · subst heq
        unfold vopStep
        by_cases hb : bitOf lmask (3 - n) = true
        · simp [hb, hput _ _ _ _ hi hi, show ¬ 4 - n ≤ 3 - n by omega]
        · simp [hb]
      · have hstep : get (vopStep func fp64 ftz lmask a s d d64 put (3 - n) acc).1 i = get acc.1 i := by
          unfold vopStep
          split
          · simp [hput _ _ _ _ (show 3 - n < 4 by omega) hi, heq]
          · rfl
        rw [hstep]
        simp only [hlater, show ¬ 4 - (n + 1) ≤ i by omega, false_and, if_false]

theorem vopLanes_flags (n : Nat) (hn : n ≤ 4) (acc : BitVec 256 × Flags × List Nat) :
    (vopLanes func fp64 ftz lmask a s d d64 put n acc).2.1 =
      (List.range' (4 - n) n).foldl (fun x i => if bitOf lmask i then x.join (vopRes func fp64 ftz a s d d64 i).2 else x) acc.2.1 := by
  induction n generalizing acc with
  | zero => rfl
  | succ n ih =>
    rw [vopLanes_succ, ih (by omega), List.range'_succ, List.foldl_cons, show 4 - (n + 1) + 1 = 4 - n by omega,
      show 4 - (n + 1) = 3 - n by omega]
    unfold vopStep
    split <;> rfl

theorem vopLanes_written (n : Nat) (hn : n ≤ 4) (acc : BitVec 256 × Flags × List Nat) (p : Nat → Bool) :
    (vopLanes func fp64 ftz lmask a s d d64 put n acc).2.2.any p =
      (acc.2.2.any p || (List.range' (4 - n) n).any fun i => bitOf lmask i && p (vopRes func fp64 ftz a s d d64 i).1) := by
  induction n generalizing acc with
  | zero => simp [vopLanes]
  | succ n ih =>
    rw [vopLanes_succ, ih (by omega), List.range'_succ, List.any_cons, show 4 - (n + 1) + 1 = 4 - n by omega,
      show 4 - (n + 1) = 3 - n by omega]
    unfold vopStep
    by_cases hb : bitOf lmask (3 - n) = true
    · simp [hb, Bool.or_assoc]
    · simp [hb]

theorem vopLanes_laneFlags (x : BitVec 256) (l : List Nat) :
    (vopLanes func fp64 ftz lmask a s d d64 put 4 (x, {}, l)).2.1 =
      laneFlags lmask fun i => (vopRes func fp64 ftz a s d d64 i).2 :=
  vopLanes_flags 4 le_rfl _

end

theorem lane64_setLane64 (x : BitVec 256) (i j v : Nat) (hj : j < 4) :
    lane64 (setLane64 x i v) j = if i = j then v % 2 ^ 64 else lane64 x j := by
  rw [lane64, setLane64, ofNat256, bitsOf_toNat_ofNat _ _ _ _ (by omega)]
  split
  next h => rw [h, bitsOf_putBits_same]
  next h => exact bitsOf_putBits_apart _ _ _ _ _ _ (by omega)

end Sys2Proof.Machine
end

section
/-! PROOFS. What an issued VOP does (R72, R74, R121). -/

namespace Sys2Proof.Machine

open Sys2Proof.Claims

/-- The second operand's lanes of a VOP, from a granule of a pad or from a v register. -/
def vopSource (src2 fp64 hi : Bool) (g vb : BitVec 256) (i : Nat) : Nat := if src2 then padLane g fp64 hi i else vLane vb fp64 i

/-- The value and flags of a VOP into v[vd]. -/
def vopToV (func : Nat) (fp64 va src2 vb vd hi : Bool) (lmask : Nat) (g : BitVec 256) (th : Thread) : BitVec 256 × Flags × List Nat :=
  vopLanes func fp64 th.ftz lmask (vLane (th.getV va) fp64) (vopSource src2 fp64 hi g (th.getV vb)) (vLane (th.getV vd) fp64)
    (lane64 (th.getV vd)) (fun x i v => setLane64 x i v) 4 (th.getV vd, {}, [])

section
variable {v : CoreView} {t func areg lmask k : Nat} {fp64 va vb pad vd hi : Bool}

theorem doVop_vv :
    let r := vopToV func fp64 va false vb vd hi lmask 0 (v.core.thread t)
    doVop t func fp64 va false vb areg pad false vd hi lmask v = ((v.modT t (·.setV vd r.1)).raise t r.2.1.bits).done := rfl

theorem doVop_padSource (hk : v.granule (padOf pad) (aregGranule ((v.core.thread t).getA areg)) = some k) :
    let v1 := v.modT t (usedA · areg)
    let r := vopToV func fp64 va true vb vd hi lmask (v1.read256 k) (v.core.thread t)
    doVop t func fp64 va true vb areg pad false vd hi lmask v = (((v1.noteRead t k).modT t (·.setV vd r.1)).raise t r.2.1.bits).done := by
  intro v1 r
  simp only [doVop, CoreView.useA_eq hk]
  rfl

end

/-- A finished write of a v register with its flags. -/
theorem touched_setV_raise {t : Nat} {v w : CoreView} {th : Thread} {cs : BitVec 8} (h : v.Touched t w th cs) (vd : Bool)
    (x : BitVec 256) (bits : Nat) :
    v.Touched t ((w.modT t (·.setV vd x)).raise t bits) (withFlags (th.setV vd x) bits) (statAfter cs bits) := by
  have hset := h.trans (CoreView.Touched.modT w t (·.setV vd x))
  rw [h.thread, h.cstat] at hset
  have hraise := hset.trans (CoreView.Touched.raise _ t bits)
  rwa [hset.thread, hset.cstat] at hraise

/-- A pad operand read through a[r]. -/
theorem touched_use_noteRead (v : CoreView) (t r k : Nat) :
    v.Touched t ((v.modT t (usedA · r)).noteRead t k) (withFlags (usedA (v.core.thread t) r) (v.readBits k))
      (statAfter v.core.cstat (v.readBits k)) := by
  have huse := CoreView.Touched.modT v t (usedA · r)
  have hread := huse.trans (CoreView.Touched.noteRead _ t k)
  rwa [huse.thread, huse.cstat, huse.readBits] at hread

section
variable {s : State} {c : Nat} {t : BitVec 4} {func : BitVec 5} {fp64 va vb : Bool} {ar : BitVec 3} {pad vd hi : Bool}
  {lmask : BitVec 4} {k : Nat}

theorem exec_vop_vv (g : BitVec 256) (h : Issues s c t) (ho : HasOperands s c t (vopNeeds func.toNat va false vb pad false vd))
    (hl : vopLegal func fp64 false false hi lmask = true) :
    let th := (s.core c).thread t.toNat
    let r := vopToV func.toNat fp64 va false vb vd hi lmask.toNat g th
    ∃ u, exec (.vop c t func fp64 va false vb ar pad false vd hi lmask) s = .next u ∧
      ThreadOnly c t s u (pcNext (withFlags (th.setV vd r.1) r.2.1.bits)) (statAfter (s.core c).cstat r.2.1.bits) := by
  intro th r
  exact issue_touched h hl ((needing_ready ho).trans doVop_vv) (touched_setV_raise (CoreView.Touched.rfl' t.toNat (s.view c)) vd _ _)
    (Thread.setV_pc ..)

theorem exec_vop_padSource (h : Issues s c t) (ho : HasOperands s c t (vopNeeds func.toNat va true vb pad false vd))
    (hl : vopLegal func fp64 true false hi lmask = true) (hk : named s c t ar.toNat (padOf pad) = some k) :
    let th := (s.core c).thread t.toNat
    let r := vopToV func.toNat fp64 va true vb vd hi lmask.toNat (ofNat256 (Mem.readNat s.mem k 32)) th
    ∃ u, exec (.vop c t func fp64 va true vb ar pad false vd hi lmask) s = .next u ∧
      ThreadOnly c t s u (pcNext (withFlags ((withFlags (usedA th ar.toNat) (readBits s k)).setV vd r.1) r.2.1.bits))
        (statAfter (statAfter (s.core c).cstat (readBits s k)) r.2.1.bits) := by
  intro th r
  exact issue_touched h hl ((needing_ready ho).trans (doVop_padSource hk))
    (touched_setV_raise (touched_use_noteRead (s.view c) t.toNat ar.toNat k) vd _ _) (Thread.setV_pc ..)

end

/-- The destination register, lane by lane. -/
theorem lane64_vopToV (func : Nat) (fp64 va src2 vb vd hi : Bool) (lmask : Nat) (g : BitVec 256) (th : Thread) (i : Nat) (hi4 : i < 4) :
    lane64 (vopToV func fp64 va src2 vb vd hi lmask g th).1 i =
      if bitOf lmask i then
        (vopRes func fp64 th.ftz (vLane (th.getV va) fp64) (vopSource src2 fp64 hi g (th.getV vb)) (vLane (th.getV vd) fp64)
          (lane64 (th.getV vd)) i).1 % 2 ^ 64
      else lane64 (th.getV vd) i := by
  rw [vopToV, vopLanes_get (get := lane64) (m := 2 ^ 64) (fun x i j v _ hj => lane64_setLane64 x i j v hj) 4 le_rfl _ i hi4]
  simp

/-! ### VOP into a granule -/

/-- The granule after a VOP into it, its flags and the elements it wrote. -/
def vopToPad (func : Nat) (fp64 va vb hi : Bool) (lmask : Nat) (g : BitVec 256) (th : Thread) : BitVec 256 × Flags × List Nat :=
  vopLanes func fp64 th.ftz lmask (vLane (th.getV va) fp64) (vLane (th.getV vb) fp64) (padLane g fp64 hi) (padLane g fp64 hi)
    (fun x i v => ofNat256 (putBits x.toNat ((if fp64 then 0 else 128 * natOf hi) + (if fp64 then 64 else 32) * i)
      (if fp64 then 64 else 32) v)) 4 (g, {}, [])

/-- The bits that a VOP into a granule raises. -/
def vopPadBits (func : Nat) (fp64 : Bool) (r : BitVec 256 × Flags × List Nat) : Nat :=
  r.2.1.bits + if func == 15 then 0 else nonfiniteBits (if fp64 then .fp64 else .fp32) r.2.2

/-- The view with a VOP's granule written. -/
def vopStore (v : CoreView) (t : Nat) (fp64 hi : Bool) (lmask k : Nat) (x : BitVec 256) : CoreView :=
  if fp64 && lmask == 15 then v.write256 t k x
  else if fp64 then { v.writePart t k (leBytes 16 x.toNat) with mem := v.mem.writeNat k 32 x.toNat }
  else v.writePart t (k + 16 * natOf hi) (leBytes 16 (bitsOf x.toNat (128 * natOf hi) 128))

theorem doVop_padDest {v : CoreView} {t func areg lmask k : Nat} {fp64 va vb pad vd hi : Bool}
    (hk : v.granule (padOf pad) (aregGranule ((v.core.thread t).getA areg)) = some k) (hw : v.mayWrite k = true) :
    let v1 := v.modT t (usedA · areg)
    let v2 := if func == 13 || func == 15 then v1.noteRead t k else v1
    let r := vopToPad func fp64 va vb hi lmask (v1.read256 k) (v.core.thread t)
    doVop t func fp64 va false vb areg pad true vd hi lmask v =
      ((vopStore v2 t fp64 hi lmask k r.1).raise t (vopPadBits func fp64 r)).done := by
  intro v1 v2 r
  simp only [doVop, CoreView.useA_eq hk, hw]
  cases fp64 <;> rfl

/-- The pad operand's register used, and its mark noted where the function reads the granule (R74). -/
theorem touched_use_noteRead_ite (v : CoreView) (t r k : Nat) (p : Bool) :
    let rb := if p then v.readBits k else 0
    v.Touched t (if p then (v.modT t (usedA · r)).noteRead t k else v.modT t (usedA · r)) (withFlags (usedA (v.core.thread t) r) rb)
      (statAfter v.core.cstat rb) := by
  cases p
  · simpa using CoreView.Touched.modT v t (usedA · r)
  · exact touched_use_noteRead v t r k

section
variable {v : CoreView} {t lmask k : Nat} {fp64 hi : Bool} {x : BitVec 256}

theorem vopStore_core : (vopStore v t fp64 hi lmask k x).core = v.core := by
  unfold vopStore
  split
  · rfl
  · split <;> rfl

theorem vopStore_mem : (vopStore v t fp64 hi lmask k x).mem =
    if fp64 then v.mem.writeNat k 32 x.toNat else v.mem.writeNat (k + 16 * natOf hi) 16 (bitsOf x.toNat (128 * natOf hi) 128) := by
  unfold vopStore
  cases fp64
  · rfl
  · simp only [Bool.true_and, if_true]
    split <;> rfl

theorem vopStore_marks (hk : k % 32 = 0) : (vopStore v t fp64 hi lmask k x).marks =
    if (v.core.thread t).umber then kset false v.marks k true
    else if fp64 && lmask == 15 then kset false v.marks k false else v.marks := by
  have hbase : k / 32 * 32 = k := by omega
  have hhalf : (k + 16 * natOf hi) / 32 * 32 = k := by
    have : natOf hi ≤ 1 := by cases hi <;> decide
    omega
  unfold vopStore
  cases fp64
  · simp [CoreView.writePart, hhalf]
  · by_cases hall : lmask = 15
    · simp [hall, CoreView.write256, CoreView.writePart, hbase]
    · simp [hall, CoreView.writePart, hbase]

end

theorem bitsOf_bitsOf (n lo len lo' len' : Nat) (h : lo' + len' ≤ len) : bitsOf (bitsOf n lo len) lo' len' = bitsOf n (lo + lo') len' := by
  apply Nat.eq_of_testBit_eq
  intro i
  simp only [bitsOf, Nat.testBit_mod_two_pow, Nat.testBit_div_two_pow]
  by_cases hi : i < len'
  · simp [hi, show i + lo' < len by omega, show i + lo' + lo = i + (lo + lo') by omega]
  · simp [hi]

/-- Lane i of a granule that a VOP writes. -/
def padLaneAt (fp64 hi : Bool) (x : BitVec 256) (i : Nat) : Nat :=
  bitsOf x.toNat ((if fp64 then 0 else 128 * natOf hi) + (if fp64 then 64 else 32) * i) (if fp64 then 64 else 32)

theorem padLaneAt_putBits (fp64 hi : Bool) (x : BitVec 256) (i j n : Nat) (hj : j < 4) :
    padLaneAt fp64 hi (ofNat256 (putBits x.toNat ((if fp64 then 0 else 128 * natOf hi) + (if fp64 then 64 else 32) * i)
      (if fp64 then 64 else 32) n)) j = if i = j then n % 2 ^ (if fp64 then 64 else 32) else padLaneAt fp64 hi x j := by
  have hhi : natOf hi ≤ 1 := by cases hi <;> decide
  unfold padLaneAt ofNat256
  rw [bitsOf_toNat_ofNat _ _ _ _ (by split <;> omega)]
  by_cases hij : i = j
  · rw [if_pos hij, hij, bitsOf_putBits_same]
  · rw [if_neg hij, bitsOf_putBits_apart]
    cases fp64
    · simp only [Bool.false_eq_true, if_false]
      omega
    · simp only [if_true]
      omega

/-- The granule after a VOP, lane by lane. -/
theorem padLaneAt_vopToPad (func : Nat) (fp64 va vb hi : Bool) (lmask : Nat) (g : BitVec 256) (th : Thread) (i : Nat) (hi4 : i < 4) :
    padLaneAt fp64 hi (vopToPad func fp64 va vb hi lmask g th).1 i =
      if bitOf lmask i then
        (vopRes func fp64 th.ftz (vLane (th.getV va) fp64) (vLane (th.getV vb) fp64) (padLane g fp64 hi) (padLane g fp64 hi) i).1 %
          2 ^ (if fp64 then 64 else 32)
      else padLaneAt fp64 hi g i := by
  rw [vopToPad, vopLanes_get (get := padLaneAt fp64 hi) (m := 2 ^ (if fp64 then 64 else 32))
    (fun x i j n _ hj => padLaneAt_putBits fp64 hi x i j n hj) 4 le_rfl _ i hi4]
  simp

/-- A lane of a stored granule, read back. -/
theorem readNat_vopStore {v : CoreView} {t lmask k : Nat} {fp64 hi : Bool} {x : BitVec 256} (i : Nat) (hi4 : i < 4) :
    (vopStore v t fp64 hi lmask k x).mem.readNat (k + (if fp64 then 0 else 16 * natOf hi) + (if fp64 then 8 else 4) * i)
      (if fp64 then 8 else 4) = padLaneAt fp64 hi x i := by
  rw [vopStore_mem]
  cases fp64
  · simp only [Bool.false_eq_true, if_false]
    rw [Mem.readNat_writeNat_part _ (by omega), bitsOf_bitsOf _ _ _ _ _ (by omega), padLaneAt]
    simp only [Bool.false_eq_true, if_false]
    congr 1
    omega
  · simp only [if_true, Nat.add_zero]
    rw [Mem.readNat_writeNat_part _ (by omega), padLaneAt]
    simp only [if_true, Nat.zero_add]
    congr 1
    omega

theorem padLaneAt_ofMem (m : Mem) (k : Nat) (fp64 hi : Bool) (i : Nat) (hi4 : i < 4) :
    padLaneAt fp64 hi (ofNat256 (m.readNat k 32)) i =
      m.readNat (k + (if fp64 then 0 else 16 * natOf hi) + (if fp64 then 8 else 4) * i) (if fp64 then 8 else 4) := by
  have hhi : natOf hi ≤ 1 := by cases hi <;> decide
  cases fp64
  · simp only [padLaneAt, Bool.false_eq_true, if_false]
    rw [Nat.add_assoc, Mem.readNat_part m (n := 32) (by omega), ofNat256, bitsOf_toNat_ofNat _ _ _ _ (by omega)]
    congr 1
    omega
  · simp only [padLaneAt, if_true, Nat.add_zero, Nat.zero_add]
    rw [Mem.readNat_part m (n := 32) (by omega), ofNat256, bitsOf_toNat_ofNat _ _ _ _ (by omega)]
    congr 1
    omega

/-- A view that writes memory after its thread's reads, and then raises flags: what it leaves of the core. -/
theorem core_touched_raise {v w x : CoreView} {t : Nat} {th : Thread} {cs : BitVec 8} (h : v.Touched t w th cs) (hx : x.core = w.core)
    (bits : Nat) : v.core.Touched t (x.raise t bits).core (withFlags th bits) (statAfter cs bits) := by
  have hraise := Core.Touched.of_view (CoreView.Touched.raise x t bits)
  rw [hx, h.thread, h.cstat] at hraise
  exact (Core.Touched.of_view h).trans hraise

/-- What an issued VOP into a granule leaves: the core, and memory and marks as `vopStore` writes them. -/
theorem exec_vop_padDest {s : State} {c : Nat} {t : BitVec 4} {func : BitVec 5} {fp64 va vb : Bool} {ar : BitVec 3}
    {pad vd hi : Bool} {lmask : BitVec 4} {k : Nat} (h : Issues s c t)
    (ho : HasOperands s c t (vopNeeds func.toNat va false vb pad true vd)) (hl : vopLegal func fp64 false true hi lmask = true)
    (hk : named s c t ar.toNat (padOf pad) = some k) (hw : (s.view c).mayWrite k = true) :
    let th := (s.core c).thread t.toNat
    let rb := if func.toNat == 13 || func.toNat == 15 then readBits s k else 0
    let r := vopToPad func.toNat fp64 va vb hi lmask.toNat (ofNat256 (Mem.readNat s.mem k 32)) th
    let bits := vopPadBits func.toNat fp64 r
    ∃ u v, exec (.vop c t func fp64 va false vb ar pad true vd hi lmask) s = .next u ∧
      (s.view c).Touched t.toNat v (withFlags (usedA th ar.toNat) rb) (statAfter (s.core c).cstat rb) ∧
      OneCore c s u ∧ OtherThreads c t.toNat s u ∧
      (u.core c).thread t.toNat = pcNext (withFlags (withFlags (usedA th ar.toNat) rb) bits) ∧
      u.core c = { s.core c with
        threads := (u.core c).threads
        generalPtr := t
        cstat := statAfter (statAfter (s.core c).cstat rb) bits } ∧
      u.mem = (vopStore v t.toNat fp64 hi lmask.toNat k r.1).mem ∧ u.marks = (vopStore v t.toNat fp64 hi lmask.toNat k r.1).marks := by
  intro th rb r bits
  have htouch := touched_use_noteRead_ite (s.view c) t.toNat ar.toNat k (func.toNat == 13 || func.toNat == 15)
  obtain ⟨u, hu, hone, hother, hthread, hcore, hmem, hmarks⟩ := issue_wrote h hl ((needing_ready ho).trans (doVop_padDest hk hw))
    (core_touched_raise htouch vopStore_core bits) rfl
  exact ⟨u, _, hu, htouch, hone, hother, hthread, hcore, hmem, hmarks⟩

theorem umber_withFlags (th : Thread) (bits : Nat) : (withFlags th bits).umber = (th.umber || bits.testBit 6) := by
  simp only [withFlags, Thread.umber, BitVec.getLsbD_or, BitVec.getLsbD_ofNat]
  rw [show 256 = 2 ^ 8 from rfl, Nat.testBit_mod_two_pow]
  simp

theorem readBits_testBit (v : CoreView) (k : Nat) : (v.readBits k).testBit 6 = (v.readBits k != 0) := by
  unfold CoreView.readBits
  split <;> decide

end Sys2Proof.Machine

namespace Sys2Proof.Proofs

open Sys2Proof.Machine Sys2Proof.Claims

/-- Settles O18: the lanes by induction over `vopLanes`, the frame by what each step of `doVop` touches. -/
theorem vopResults : Obligations.VopResults := by
  unfold Obligations.VopResults
  constructor
  · intro s c t func fp64 va src2 vb ar pad vd hi lmask k h ho hl hk th th1 rb g old res fl
    have hlane (i : Nat) (hi4 : i < 4) : lane64 (vopToV func.toNat fp64 va src2 vb vd hi lmask.toNat g th).1 i =
        if bitOf lmask.toNat i then (res i).1 % 2 ^ 64 else lane64 old i :=
      lane64_vopToV func.toNat fp64 va src2 vb vd hi lmask.toNat g th i hi4
    have hfl : (vopToV func.toNat fp64 va src2 vb vd hi lmask.toNat g th).2.1.bits = fl :=
      congrArg Flags.bits (vopLanes_laneFlags _ _)
    cases src2
    case false =>
      obtain ⟨u, hu, hframe⟩ := exec_vop_vv g h ho hl
      refine ⟨u, _, hu, ?_, hlane⟩
      simp only [rb, th1, Bool.false_eq_true, if_false, withFlags_zero, statAfter_zero, ← hfl]
      exact hframe
    case true =>
      obtain ⟨u, hu, hframe⟩ := exec_vop_padSource h ho hl (hk rfl)
      refine ⟨u, _, hu, ?_, hlane⟩
      simp only [rb, th1, if_true, ← hfl]
      exact hframe
  · intro s c t func fp64 va vb ar pad vd hi lmask k h ho hl hk hw th rb g f res bits w at_
    have hk32 : k % 32 = 0 := CoreView.granule_mod_32 hk
    have hrb : (if (func.toNat == 13 || func.toNat == 15) = true then readBits s k else 0) = rb := by simp [rb]
    have hbits : vopPadBits func.toNat fp64 (vopToPad func.toNat fp64 va vb hi lmask.toNat g th) = bits := by
      have hfl : (vopToPad func.toNat fp64 va vb hi lmask.toNat g th).2.1 = laneFlags lmask.toNat fun i => (res i).2 :=
        vopLanes_laneFlags _ _
      have hany : (vopToPad func.toNat fp64 va vb hi lmask.toNat g th).2.2.any (isNonfinite f) =
          (List.range 4).any fun i => bitOf lmask.toNat i && isNonfinite f (res i).1 := vopLanes_written 4 le_rfl (g, {}, []) _
      have hnf : (if func.toNat == 15 then 0 else nonfiniteBits f (vopToPad func.toNat fp64 va vb hi lmask.toNat g th).2.2) =
          if func.toNat != 15 && (List.range 4).any fun i => bitOf lmask.toNat i && isNonfinite f (res i).1 then 128 else 0 := by
        rw [nonfiniteBits, hany]
        by_cases h15 : func.toNat = 15
        · simp [h15]
        · simp [h15, nonfiniteBit]
      rw [vopPadBits, hfl, hnf]
    obtain ⟨u, v, hu, htouch, hone, hother, hthread, hcore, hmem, hmarks⟩ := exec_vop_padDest h ho hl hk hw
    rw [hrb, hbits] at hthread hcore
    rw [hrb] at htouch
    have hvmem : v.mem = s.mem := htouch.mem
    refine ⟨u, hu, hone, hother, hthread, hcore, ?_, ?_, ?_⟩
    · intro i hi4
      have hold : padLaneAt fp64 hi g i = Mem.readNat s.mem (at_ i) w := padLaneAt_ofMem s.mem k fp64 hi i hi4
      have hwidth : 8 * w = if fp64 then 64 else 32 := by cases fp64 <;> rfl
      rw [hmem, hwidth, ← hold]
      exact (readNat_vopStore i hi4).trans (padLaneAt_vopToPad func.toNat fp64 va vb hi lmask.toNat g th i hi4)
    · intro a ha
      rw [hmem, vopStore_mem, hvmem]
      cases fp64
      · exact Mem.read_writeNat_outside _ ha
      · exact Mem.read_writeNat_outside _ ha
    · have humber : (v.core.thread t.toNat).umber = (th.umber || rb != 0) := by
        have hbit : rb.testBit 6 = (rb != 0) := by
          rw [← hrb]
          split
          · exact readBits_testBit (s.view c) k
          · rfl
        rw [htouch.thread, umber_withFlags, hbit]
        rfl
      have hall : (lmask.toNat == 15) = (lmask == 15) := by
        simp [BitVec.toNat_eq, beq_eq_decide]
      rw [hmarks, vopStore_marks hk32, humber, htouch.marks, hall]
      rfl

end Sys2Proof.Proofs
end

section
/-! PROOFS. CVT (R122, R123). -/

namespace Sys2Proof.Machine

open Sys2Proof.Claims

/-! ### The value that CVT computes -/

section
variable {s d : Fmt} {rnd o : Nat} {ftz : Bool} {src : BitVec 256} {slo dlo m : Nat}

/-- The draw bits of an element (R157). -/
def cvtDraw (s d : Fmt) : Nat := if max s.size d.size == 8 then 32 else if max s.size d.size == 4 then 16 else 8

/-- Element i of a CVT. -/
def cvtElem (s d : Fmt) (rnd o : Nat) (ftz : Bool) (src : BitVec 256) (slo i : Nat) : Nat × Flags :=
  convert s d (rndOf rnd o (cvtDraw s d) i) ftz (elemAt src slo s.size i)

/-- A value with element i of size n replaced. -/
def putElem (x : BitVec 256) (lo n i v : Nat) : BitVec 256 := ofNat256 (putBits x.toNat (8 * (lo + n * i)) (8 * n) v)

theorem cvtElems_succ (n : Nat) (acc : BitVec 256 × Flags × List Nat) :
    cvtElems s d rnd o ftz src slo dlo m (n + 1) acc =
      cvtElems s d rnd o ftz src slo dlo m n
        (putElem acc.1 dlo d.size (m - 1 - n) (cvtElem s d rnd o ftz src slo (m - 1 - n)).1,
          acc.2.1.join (cvtElem s d rnd o ftz src slo (m - 1 - n)).2, acc.2.2 ++ [(cvtElem s d rnd o ftz src slo (m - 1 - n)).1]) := rfl

theorem bitsOf_putElem_apart (x : BitVec 256) (lo n i v lo' len' : Nat) (h : lo' + len' ≤ 256)
    (hd : lo' + len' ≤ 8 * (lo + n * i) ∨ 8 * (lo + n * (i + 1)) ≤ lo') :
    bitsOf (putElem x lo n i v).toNat lo' len' = bitsOf x.toNat lo' len' := by
  rw [Nat.mul_add n i 1] at hd
  rw [putElem, ofNat256, bitsOf_toNat_ofNat _ _ _ _ h, bitsOf_putBits_apart _ _ _ _ _ _ (by omega)]

theorem elemAt_putElem {x : BitVec 256} {lo n i j v m : Nat} (hm : lo + n * m ≤ 32) (hj : j < m) :
    elemAt (putElem x lo n i v) lo n j = if i = j then v % 2 ^ (8 * n) else elemAt x lo n j := by
  have hin : n * (j + 1) ≤ n * m := Nat.mul_le_mul_left n hj
  rw [Nat.mul_add n j 1] at hin
  by_cases hij : i = j
  · subst hij
    rw [if_pos rfl, elemAt, putElem, ofNat256, bitsOf_toNat_ofNat _ _ _ _ (by omega), bitsOf_putBits_same]
  · rw [if_neg hij]
    refine bitsOf_putElem_apart _ _ _ _ _ _ _ (by omega) ?_
    rcases Nat.lt_or_gt_of_ne hij with hlt | hgt
    · have hafter : n * (i + 1) ≤ n * j := Nat.mul_le_mul_left n hlt
      exact .inr (by omega)
    · have hbefore : n * (j + 1) ≤ n * i := Nat.mul_le_mul_left n hgt
      rw [Nat.mul_add n j 1] at hbefore
      exact .inl (by omega)

/-- Elements from m − n on are converted, the others stand. -/
theorem elemAt_cvtElems (hm : dlo + d.size * m ≤ 32) (n : Nat) (hn : n ≤ m) (acc : BitVec 256 × Flags × List Nat) (i : Nat) (hi : i < m) :
    elemAt (cvtElems s d rnd o ftz src slo dlo m n acc).1 dlo d.size i =
      if m - n ≤ i then (cvtElem s d rnd o ftz src slo i).1 % 2 ^ (8 * d.size) else elemAt acc.1 dlo d.size i := by
  induction n generalizing acc with
  | zero => simp [cvtElems, show ¬ m ≤ i by omega]
  | succ n ih =>
    rw [cvtElems_succ, ih (by omega), elemAt_putElem hm hi]
    by_cases heq : m - 1 - n = i
    · rw [if_neg (by omega), if_pos heq, if_pos (by omega), heq]
    · by_cases hlater : m - n ≤ i
      · rw [if_pos hlater, if_pos (by omega)]
      · rw [if_neg hlater, if_neg heq, if_neg (by omega)]

/-- Bits outside the m elements stand. -/
theorem bitsOf_cvtElems (n : Nat) (hn : n ≤ m) (acc : BitVec 256 × Flags × List Nat) (lo len : Nat) (h : lo + len ≤ 256)
    (hd : lo + len ≤ 8 * dlo ∨ 8 * (dlo + d.size * m) ≤ lo) :
    bitsOf (cvtElems s d rnd o ftz src slo dlo m n acc).1.toNat lo len = bitsOf acc.1.toNat lo len := by
  induction n generalizing acc with
  | zero => rfl
  | succ n ih =>
    have hin : d.size * (m - 1 - n + 1) ≤ d.size * m := Nat.mul_le_mul_left _ (by omega)
    rw [cvtElems_succ, ih (by omega), bitsOf_putElem_apart _ _ _ _ _ _ _ h (by omega)]

end

/-- The parts of the two values that CVT reads and writes. -/
def cvtSliceAt (n big part : Nat) : Nat := if n < big then 32 * n / big * part else 0

theorem Fmt.size_cases (f : Fmt) : f.size = 1 ∨ f.size = 2 ∨ f.size = 4 ∨ f.size = 8 := by cases f <;> decide

/-- The converted slice lies within the value. -/
theorem cvtSlice_le (s d : Fmt) (part : Nat) (h : part < max s.size d.size / min s.size d.size) :
    cvtSliceAt d.size (max s.size d.size) part + d.size * (32 / max s.size d.size) ≤ 32 := by
  unfold cvtSliceAt
  rcases s.size_cases with hs | hs | hs | hs <;> rcases d.size_cases with hd | hd | hd | hd <;> rw [hs, hd] at h ⊢ <;>
    norm_num at h ⊢ <;> omega

theorem cvtValue_eq (s d : Fmt) (rnd o : Nat) (ftz : Bool) (part : Nat) (src old : BitVec 256) :
    cvtValue s d rnd o ftz part src old =
      cvtElems s d rnd o ftz src (cvtSliceAt s.size (max s.size d.size) part) (cvtSliceAt d.size (max s.size d.size) part)
        (32 / max s.size d.size) (32 / max s.size d.size) (old, {}, []) := by
  unfold cvtValue cvtSliceAt
  dsimp only
  congr 1
  · split
    next h => rw [Nat.min_eq_left (by omega)]
    next => rfl
  · split
    next h => rw [Nat.min_eq_right (by omega)]
    next => rfl

/-! ### Sources and destinations -/

/-- A view that differs in registers of thread t and CSTAT alone, the thread's PC as before. -/
def CoreView.Reads (t : Nat) (v w : CoreView) : Prop :=
  v.Touched t w (w.core.thread t) w.core.cstat ∧ (w.core.thread t).pc = (v.core.thread t).pc

theorem CoreView.Touched.reads {t : Nat} {v w : CoreView} {th : Thread} {cs : BitVec 8} (h : v.Touched t w th cs)
    (hpc : th.pc = (v.core.thread t).pc) : v.Reads t w := by
  have hth := h.thread
  have hcs := h.cstat
  subst hth hcs
  exact ⟨h, hpc⟩

theorem CoreView.Reads.trans {t : Nat} {v w x : CoreView} (h : v.Reads t w) (h' : w.Reads t x) : v.Reads t x :=
  ⟨h.1.trans h'.1, h'.2.trans h.2⟩

theorem CoreView.useA_some {v w : CoreView} {t r k : Nat} {pad : Pad} (h : v.useA t r pad = some (k, w)) :
    v.granule pad (aregGranule ((v.core.thread t).getA r)) = some k ∧ w = v.modT t (usedA · r) := by
  rcases hg : v.granule pad (aregGranule ((v.core.thread t).getA r)) with _ | k'
  · simp [CoreView.useA, hg] at h
  · rw [CoreView.useA_eq hg] at h
    simp only [Option.some.injEq, Prod.mk.injEq] at h
    exact ⟨by rw [h.1], h.2.symm⟩

theorem CoreView.useAW_some {v w : CoreView} {t r k : Nat} {pad : Pad} (h : v.useAW t r pad = some (k, w)) :
    v.useA t r pad = some (k, w) ∧ v.mayWrite k = true := by
  unfold CoreView.useAW at h
  rcases hu : v.useA t r pad with _ | ⟨k', w'⟩
  · simp [hu] at h
  · by_cases hw : v.mayWrite k' = true
    · simp only [hu, hw, if_true, Option.some.injEq, Prod.mk.injEq] at h
      obtain ⟨rfl, rfl⟩ := h
      exact ⟨rfl, hw⟩
    · simp [hu, hw] at h

theorem CoreView.reads_useA {v w : CoreView} {t r k : Nat} {pad : Pad} (h : v.useA t r pad = some (k, w)) : v.Reads t w := by
  obtain ⟨-, rfl⟩ := CoreView.useA_some h
  exact (CoreView.Touched.modT v t (usedA · r)).reads rfl

/-- Taking the source of a CVT or SPLIT. -/
theorem CoreView.reads_source {v w : CoreView} {t r : Nat} {fromPad vn pad : Bool} {x : BitVec 256}
    (h : v.source t fromPad vn r pad = some (x, w)) : v.Reads t w := by
  unfold CoreView.source at h
  cases fromPad
  · simp only [Bool.false_eq_true, if_false, Option.some.injEq, Prod.mk.injEq] at h
    obtain ⟨-, rfl⟩ := h
    exact (CoreView.Touched.rfl' t v).reads rfl
  · rcases hu : v.useA t r (padOf pad) with _ | ⟨k, v1⟩
    · simp [hu] at h
    · simp only [hu, if_true, Option.some.injEq, Prod.mk.injEq] at h
      obtain ⟨-, rfl⟩ := h
      exact (CoreView.reads_useA hu).trans ((CoreView.Touched.noteRead v1 t k).reads rfl)

/-- Taking the destination of a CVT: its granule, where it is one, is the pad's. -/
theorem CoreView.reads_destination {v w : CoreView} {t r : Nat} {toPad vn pad : Bool} {dest : VDest}
    (h : v.destination t toPad vn r pad = some (dest, w)) :
    v.Reads t w ∧ ∀ key, dest = .pad key → ∃ g, v.granule (padOf pad) g = some key := by
  unfold CoreView.destination at h
  cases toPad
  · simp only [Bool.false_eq_true, if_false, Option.some.injEq, Prod.mk.injEq] at h
    obtain ⟨rfl, rfl⟩ := h
    exact ⟨(CoreView.Touched.rfl' t v).reads rfl, fun key hkey => by simp at hkey⟩
  · rcases hu : v.useAW t r (padOf pad) with _ | ⟨k, v1⟩
    · simp [hu] at h
    · simp only [hu, if_true, Option.some.injEq, Prod.mk.injEq] at h
      obtain ⟨rfl, rfl⟩ := h
      obtain ⟨huse, -⟩ := CoreView.useAW_some hu
      refine ⟨CoreView.reads_useA huse, ?_⟩
      rintro key hkey
      obtain rfl : k = key := by simpa using hkey
      exact ⟨_, (CoreView.useA_some huse).1⟩

/-- Where the granules of the W- and the A-pad lie in the core's window (R86). -/
theorem CoreView.granule_window {v : CoreView} {pad : Bool} {g k : Nat} (h : v.granule (padOf pad) g = some k) :
    padWindow v.id ≤ k ∧ k + 32 ≤ padWindow v.id + 0x28000 := by
  obtain ⟨hin, hk⟩ := CoreView.granule_eq h
  have hoff : v.core.granuleOffset (padOf pad) g + 32 ≤ 0x28000 := by
    have hg : g < padGranules (padOf pad) := by
      simp only [inBounds, Bool.and_eq_true, decide_eq_true_eq] at hin
      exact hin.1
    cases pad
    · have hg' : g < 3072 := hg
      simp only [padOf, Core.granuleOffset, granuleOffset, Bool.false_eq_true, if_false]
      split
      · split <;> omega
      · omega
    · have hg' : g < 2048 := hg
      simp only [padOf, Core.granuleOffset, granuleOffset, if_true]
      split
      · split <;> omega
      · omega
  omega

/-! ### What an issued CVT does -/

/-- A core that differs in registers of thread t and CSTAT alone, the thread's PC as before. -/
def Core.Reads (t : Nat) (k k' : Core) : Prop := k.Touched t k' (k'.thread t) k'.cstat ∧ (k'.thread t).pc = (k.thread t).pc

theorem Core.Touched.reads {t : Nat} {k k' : Core} {th : Thread} {cs : BitVec 8} (h : k.Touched t k' th cs)
    (hpc : th.pc = (k.thread t).pc) : k.Reads t k' := by
  obtain ⟨hk, hth, ho⟩ := h
  have hcs : k'.cstat = cs := by rw [hk]
  subst hth hcs
  exact ⟨⟨hk, rfl, ho⟩, hpc⟩

theorem Core.Reads.of_view {t : Nat} {v w : CoreView} (h : v.Reads t w) : v.core.Reads t w.core := ⟨.of_view h.1, h.2⟩

theorem Core.Reads.trans {t : Nat} {k k' k'' : Core} (h : k.Reads t k') (h' : k'.Reads t k'') : k.Reads t k'' :=
  ⟨h.1.trans h'.1, h'.2.trans h.2⟩

/-- An instruction that leaves its core's thread with new registers and flags, writes memory, and goes on in sequence. -/
theorem issue_reads {s : State} {c : Nat} {t : BitVec 4} {legal : Bool} {f : CoreView → Issue} {v : CoreView}
    (h : Issues s c t) (hl : legal = true) (hf : f (s.view c) = ⟨v, .seq⟩) (hv : (s.core c).Reads t.toNat v.core) :
    ∃ u, issue c t false legal (onView c f) s = .next u ∧ OneCore c s u ∧ OtherThreads c t.toNat s u ∧
      (u.core c).thread t.toNat = pcNext (v.core.thread t.toNat) ∧
      u.core c = { s.core c with threads := (u.core c).threads, generalPtr := t, cstat := v.core.cstat } ∧
      u.mem = v.mem ∧ u.marks = v.marks :=
  issue_wrote h hl hf hv.1 hv.2

theorem cvtDeliver_reads (t : Nat) (a d : Fmt) (part : Nat) (dest : VDest) (r : BitVec 256 × Flags × List Nat) (v : CoreView) :
    v.core.Reads t (cvtDeliver t a d part dest r v).core := by
  cases dest with
  | v n => exact .of_view ((touched_setV_raise (CoreView.Touched.rfl' t v) n r.1 r.2.1.bits).reads (Thread.setV_pc ..))
  | pad key => exact (core_touched_raise (CoreView.Touched.rfl' t v) rfl _).reads rfl

/-- Of memory it writes at most a granule's slice. -/
theorem cvtDeliver_read_outside {t : Nat} {a d : Fmt} {part : Nat} {dest : VDest} {r : BitVec 256 × Flags × List Nat} {v : CoreView}
    {x lo : Nat} (hpart : part < 8) (hdest : ∀ key, dest = .pad key → lo ≤ key ∧ key + 32 ≤ lo + 0x28000)
    (hx : x < lo ∨ lo + 0x40000 ≤ x) : (cvtDeliver t a d part dest r v).mem.read x = v.mem.read x := by
  cases dest with
  | v n => rfl
  | pad key =>
    obtain ⟨hlo, hhi⟩ := hdest key rfl
    have hn : (if d.size < a.size then 32 * d.size / a.size else 32) ≤ 32 := by
      split
      next h => exact Nat.div_le_of_le_mul (by omega)
      next => exact le_rfl
    refine Mem.read_writeBytes_outside _ _ _ _ ?_
    rw [leBytes_length]
    generalize (if d.size < a.size then 32 * d.size / a.size else 32) = n at hn ⊢
    have hoff : (if d.size < a.size then n * part else 0) ≤ 32 * 8 := by
      split
      · exact Nat.mul_le_mul hn hpart.le
      · omega
    omega

section
variable {s : State} {c : Nat} {t : BitVec 4} {sf df : BitVec 4} {rnd : BitVec 2} {src : Bool} {as_ : BitVec 3} {spad dst : Bool}
  {ad : BitVec 3} {dpad : Bool} {part : BitVec 3} {gb : BitVec 2} {a d : Fmt} {x : BitVec 256} {v1 v2 : CoreView} {dest : VDest}

theorem doCvt_deterministic (hr : rnd ≠ 2) {v : CoreView} (hs : v.source t.toNat src (as_.toNat % 2 == 1) as_.toNat spad = some (x, v1))
    (hd : v1.destination t.toNat dst (ad.toNat % 2 == 1) ad.toNat dpad = some (dest, v2)) :
    doCvt t.toNat a d rnd.toNat src as_.toNat spad dst ad.toNat dpad part.toNat gb.toNat v =
      (cvtDeliver t.toNat a d part.toNat dest
        (cvtValue a d rnd.toNat 0 (v.th t.toNat).ftz part.toNat x (destOld v2 t.toNat dest)) v2).done := by
  have hr2 : (rnd.toNat == 2) = false := by
    rw [beq_eq_false_iff_ne]
    exact fun h => hr (BitVec.eq_of_toNat_eq h)
  simp only [doCvt, hs, hd, hr2, Bool.false_eq_true, if_false]

theorem doCvt_stochastic (hr : rnd = 2) {v : CoreView} (hs : v.source t.toNat src (as_.toNat % 2 == 1) as_.toNat spad = some (x, v1))
    (hd : v1.destination t.toNat dst (ad.toNat % 2 == 1) ad.toNat dpad = some (dest, v2)) :
    doCvt t.toNat a d rnd.toNat src as_.toNat spad dst ad.toNat dpad part.toNat gb.toNat v =
      ((v2.modT t.toNat (·.advanceGroup gb.toNat 1)).request t.toNat ((v.th t.toNat).genInput gb.toNat)
        (.cvt x a.code d.code part.toNat (v.th t.toNat).ftz dest)).done := by
  have hr2 : (rnd.toNat == 2) = true := by rw [hr]; rfl
  simp only [doCvt, hs, hd, hr2, if_true]

theorem doCvt_ready {s : State} {c : Nat} {n : Needs} (ho : HasOperands s c t n) (ha : Fmt.ofCode sf.toNat = some a)
    (hd : Fmt.ofCode df.toNat = some d) :
    needing t.toNat n (doCvt t.toNat ((Fmt.ofCode sf.toNat).getD .fp32) ((Fmt.ofCode df.toNat).getD .fp32) rnd.toNat src as_.toNat spad dst
      ad.toNat dpad part.toNat gb.toNat) (s.view c) =
    doCvt t.toNat a d rnd.toNat src as_.toNat spad dst ad.toNat dpad part.toNat gb.toNat (s.view c) := by
  rw [needing_ready ho, ha, hd]
  rfl

end

@[simp] theorem Thread.advanceGroup_pc (th : Thread) (b n : Nat) : (th.advanceGroup b n).pc = th.pc := Thread.setPair_pc ..

/-- An instruction that queues a request of its thread at the generator unit and goes on. -/
theorem issue_request {s : State} {c : Nat} {t : BitVec 4} {legal : Bool} {f : CoreView → Issue} {v : CoreView} {i : GenInput} {use : GenUse}
    (h : Issues s c t) (hl : legal = true) (hf : f (s.view c) = (v.request t.toNat i use).done) (hv : (s.view c).Reads t.toNat v) :
    ∃ u, issue c t false legal (onView c f) s = .next u ∧ OneCore c s u ∧ OtherThreads c t.toNat s u ∧ SameMemory s u ∧
      (u.core c).thread t.toNat = pcNext (v.core.thread t.toNat) ∧
      (u.core c).gens = (s.core c).gens ++ [{ thread := t, input := i, use := use }] := by
  obtain ⟨htouch, hpc⟩ := hv
  obtain ⟨u, hu, hone, hmem, hmarks, hother, hthread, hcore⟩ := issue_seq (array := false) h.1 h.2 hl hf
  have hm : u.mem = s.mem := hmem.trans htouch.mem
  refine ⟨u, hu, hone, fun r hr => (hother r hr).trans (htouch.other hr), ⟨hm, hmarks.trans htouch.marks, fun a => by rw [hm]⟩, ?_, ?_⟩
  · rw [hthread, pcNext, hpc]
    rfl
  · have hgens : v.core.gens = (s.core c).gens := by rw [htouch.core]; rfl
    have ht : BitVec.ofNat 4 t.toNat = t := by simp
    rw [hcore]
    change v.core.gens ++ [{ thread := BitVec.ofNat 4 t.toNat, input := i, use := use }] = _
    rw [hgens, ht]

end Sys2Proof.Machine

namespace Sys2Proof.Proofs

open Sys2Proof.Machine Sys2Proof.Claims

/-- Settles O19: the elements by induction over `cvtElems`; then a CVT that delivers at once, and one that requests draws. -/
theorem cvtResults : Obligations.CvtResults := by
  unfold Obligations.CvtResults
  constructor
  · intro a d rnd o ftz part src old _ hpart big slo dlo w r
    have hslice := cvtSlice_le a d part hpart
    have hdraw : w = cvtDraw a d := by simp [w, cvtDraw, big]
    have hr : r = cvtElems a d rnd o ftz src slo dlo (32 / big) (32 / big) (old, {}, []) := cvtValue_eq ..
    constructor
    · intro i hi
      rw [hr, hdraw]
      exact (elemAt_cvtElems hslice _ le_rfl _ i hi).trans (if_pos (by omega))
    · intro j hj hout
      rw [hr, elemAt, elemAt]
      refine bitsOf_cvtElems _ le_rfl _ _ _ (by omega) ?_
      omega
  · intro s c t sf df rnd src as_ spad dst ad dpad part gb a d x v1 v2 dest h hl ho ha hd hsrc hdest th i v
    obtain ⟨hreads, hkey⟩ := CoreView.reads_destination hdest
    have hv2 := (CoreView.reads_source hsrc).trans hreads
    by_cases hr : rnd = 2
    · have hreq := hv2.trans ((CoreView.Touched.modT v2 t.toNat (·.advanceGroup gb.toNat 1)).reads (Thread.advanceGroup_pc ..))
      obtain ⟨u, hu, hone, hother, hsame, hthread, hgens⟩ := issue_request h hl
        ((doCvt_ready ho ha hd).trans (doCvt_stochastic hr hsrc hdest)) hreq
      have hthread2 : (v2.modT t.toNat (·.advanceGroup gb.toNat 1)).core.thread t.toNat =
          (v2.core.thread t.toNat).advanceGroup gb.toNat 1 := Core.thread_modThread_same ..
      rw [hthread2] at hthread
      exact ⟨u, hu, hone, hother, fun b _ => hsame.2.2 b, fun hne => absurd hr hne, fun _ => ⟨hsame, hthread, hgens⟩⟩
    · have hout := cvtDeliver_reads t.toNat a d part.toNat dest
        (cvtValue a d rnd.toNat 0 th.ftz part.toNat x (destOld v2 t.toNat dest)) v2
      obtain ⟨u, hu, hone, hother, hthread, hcore, hmem, hmarks⟩ := issue_reads h hl
        ((doCvt_ready ho ha hd).trans (doCvt_deterministic hr hsrc hdest)) ((Core.Reads.of_view hv2).trans hout)
      refine ⟨u, hu, hone, hother, ?_, fun _ => ⟨hmem, hmarks, hthread, by rw [hcore]⟩, fun h2 => absurd h2 hr⟩
      intro b hb
      have hv2mem : v2.mem = s.mem := hv2.1.mem
      rw [hmem, ← hv2mem]
      refine cvtDeliver_read_outside part.isLt ?_ hb
      intro key hdk
      obtain ⟨g, hg⟩ := hkey key hdk
      have hwin := CoreView.granule_window hg
      rwa [(CoreView.reads_source hsrc).1.id] at hwin

end Sys2Proof.Proofs
end

section
/-! PROOFS. SPLIT, MERGE, SSPK and SSUP (R124–R126). -/

namespace Sys2Proof.Machine

open Sys2Proof.Claims

/-! ### Byte addresses in thread terms (R118, R126) -/

/-- No two granules of a pad lie at one place. -/
theorem CoreView.granule_inj {v : CoreView} {pad : Bool} {g g' k : Nat} (h : v.granule (padOf pad) g = some k)
    (h' : v.granule (padOf pad) g' = some k) : g = g' := by
  obtain ⟨hin, hk⟩ := CoreView.granule_eq h
  obtain ⟨hin', hk'⟩ := CoreView.granule_eq h'
  have hoff : v.core.granuleOffset (padOf pad) g = v.core.granuleOffset (padOf pad) g' := by omega
  simp only [inBounds, Bool.and_eq_true, decide_eq_true_eq] at hin hin'
  have hg := hin.1
  have hg' := hin'.1
  cases pad
  · simp only [padOf, Core.granuleOffset, granuleOffset, padGranules, Bool.false_eq_true, if_false] at hoff hg hg'
    generalize v.core.frontW = front at hoff
    cases front <;> simp only [beq_true, beq_false, Bool.not_eq_true', decide_eq_true_eq, decide_eq_false_iff_not] at hoff <;>
      split_ifs at hoff <;> omega
  · simp only [padOf, Core.granuleOffset, granuleOffset, padGranules, if_true] at hoff hg hg'
    generalize v.core.frontA = front at hoff
    cases front <;> simp only [beq_true, beq_false, Bool.not_eq_true', decide_eq_true_eq, decide_eq_false_iff_not] at hoff <;>
      split_ifs at hoff <;> omega

theorem CoreView.byteKey_eq {v : CoreView} {pad : Pad} {a k : Nat} (h : v.byteKey pad a = some k) :
    ∃ g, v.granule pad (a / 32) = some g ∧ k = g + a % 32 := by
  unfold CoreView.byteKey at h
  rw [Option.map_eq_some_iff] at h
  obtain ⟨g, hg, hk⟩ := h
  exact ⟨g, hg, hk.symm⟩

/-- No two byte addresses lie at one place. -/
theorem CoreView.byteKey_inj {v : CoreView} {pad : Bool} {a b k : Nat} (h : v.byteKey (padOf pad) a = some k)
    (h' : v.byteKey (padOf pad) b = some k) : a = b := by
  obtain ⟨g, hg, hk⟩ := CoreView.byteKey_eq h
  obtain ⟨g', hg', hk'⟩ := CoreView.byteKey_eq h'
  have hmod := CoreView.granule_mod_32 hg
  have hmod' := CoreView.granule_mod_32 hg'
  obtain rfl : g = g' := by omega
  have hdiv := CoreView.granule_inj hg hg'
  omega

theorem CoreView.byteKeys_spec {v : CoreView} {pad : Pad} {n : Nat} {a : Nat} {keys : List Nat} (h : v.byteKeys pad a n = some keys) :
    keys.length = n ∧ ∀ i k, keys[i]? = some k → v.byteKey pad (a + i) = some k := by
  induction n generalizing a keys with
  | zero =>
    obtain rfl : [] = keys := by simpa [CoreView.byteKeys] using h
    simp
  | succ n ih =>
    unfold CoreView.byteKeys at h
    rcases hk : v.byteKey pad a with _ | k
    · simp [hk] at h
    · rcases hks : v.byteKeys pad (a + 1) n with _ | ks
      · simp [hk, hks] at h
      · obtain rfl : k :: ks = keys := by simpa [hk, hks] using h
        obtain ⟨hlen, hget⟩ := ih hks
        refine ⟨by simp [hlen], ?_⟩
        intro i x hx
        cases i with
        | zero =>
          obtain rfl : k = x := by simpa using hx
          exact hk
        | succ i =>
          have := hget i x (by simpa using hx)
          rwa [show a + (i + 1) = a + 1 + i by omega]

theorem CoreView.byteKeys_nodup {v : CoreView} {pad : Bool} {n a : Nat} {keys : List Nat} (h : v.byteKeys (padOf pad) a n = some keys) :
    keys.Nodup := by
  obtain ⟨-, hget⟩ := CoreView.byteKeys_spec h
  rw [List.nodup_iff_getElem?_ne_getElem?]
  intro i j hij hj heq
  have hi := hget i keys[j] (heq.trans (List.getElem?_eq_getElem hj))
  have hj' := hget j keys[j] (List.getElem?_eq_getElem hj)
  have := CoreView.byteKey_inj hi hj'
  omega

namespace CoreView.Touched

theorem byteKey {t : Nat} {v w : CoreView} {th : Thread} {cs : BitVec 8} (h : v.Touched t w th cs) (pad : Pad) (a : Nat) :
    w.byteKey pad a = v.byteKey pad a := by
  unfold CoreView.byteKey
  rw [h.granule]

theorem byteKeys {t : Nat} {v w : CoreView} {th : Thread} {cs : BitVec 8} (h : v.Touched t w th cs) (pad : Pad) (a n : Nat) :
    w.byteKeys pad a n = v.byteKeys pad a n := by
  induction n generalizing a with
  | zero => rfl
  | succ n ih => rw [CoreView.byteKeys, CoreView.byteKeys, h.byteKey, ih]

end CoreView.Touched

/-! ### Scattered bytes -/

theorem CoreView.writeScattered_core (v : CoreView) (t : Nat) (cells : List (Nat × Byte)) : (v.writeScattered t cells).core = v.core := by
  induction cells generalizing v with
  | nil => rfl
  | cons c cs ih => exact ih _

theorem CoreView.writeScattered_mem (v : CoreView) (t : Nat) (cells : List (Nat × Byte)) :
    (v.writeScattered t cells).mem = v.mem.writeCells cells := by
  induction cells generalizing v with
  | nil => rfl
  | cons c cs ih => exact ih _

/-- Bytes that no cell names stand. -/
theorem Mem.read_writeCells_other (cells : List (Nat × Byte)) (m : Mem) (a : Nat) (h : ∀ c ∈ cells, c.1 ≠ a) :
    (m.writeCells cells).read a = m.read a := by
  induction cells generalizing m with
  | nil => rfl
  | cons c cs ih =>
    rw [Mem.writeCells, ih _ fun x hx => h x (List.mem_cons_of_mem c hx), Mem.read_write_other m c.2 (h c List.mem_cons_self)]

/-- Cells at addresses of their own hold what was written. -/
theorem Mem.read_writeCells_zip (keys : List Nat) (bs : List Byte) (m : Mem) (hnd : keys.Nodup) (hlen : keys.length = bs.length) (i : Nat)
    (hi : i < keys.length) : (m.writeCells (keys.zip bs)).read keys[i] = bs[i] := by
  induction keys generalizing bs m i with
  | nil => simp at hi
  | cons k ks ih =>
    cases bs with
    | nil => simp at hlen
    | cons b bs =>
      obtain ⟨hk, hks⟩ := List.nodup_cons.mp hnd
      rw [List.zip_cons_cons, Mem.writeCells]
      cases i with
      | zero =>
        have hother : ∀ c ∈ ks.zip bs, c.1 ≠ k := by
          rintro ⟨x, y⟩ hc rfl
          exact hk (List.of_mem_zip hc).1
        simpa using Mem.read_writeCells_other (ks.zip bs) (m.write k b) k hother
      | succ i => exact ih bs (m.write k b) hks (by simpa using hlen) i (by simpa using hi)

/-! ### Flags raised one after the other -/

theorem withFlags_withFlags (th : Thread) (a b : Nat) : withFlags (withFlags th a) b = withFlags th (a ||| b) := by
  have hor : BitVec.ofNat 32 ((a ||| b) % 256) = BitVec.ofNat 32 (a % 256) ||| BitVec.ofNat 32 (b % 256) := by
    rw [← BitVec.ofNat_or, Nat.or_mod_two_pow (n := 8)]
  simp only [withFlags, hor, BitVec.or_assoc]

theorem touched_noteReads (t : Nat) (keys : List Nat) {v w : CoreView} {th : Thread} {bits : Nat} {cs : BitVec 8}
    (h : v.Touched t w (withFlags th bits) cs) :
    ∃ bits' cs', v.Touched t (noteReads t keys w) (withFlags th bits') cs' := by
  induction keys generalizing w bits cs with
  | nil => exact ⟨bits, cs, h⟩
  | cons k ks ih =>
    have hread := h.trans (CoreView.Touched.noteRead w t k)
    rw [h.thread, withFlags_withFlags] at hread
    exact ih hread

/-! ### SPLIT and MERGE -/

/-- The four bytes of a SPLIT in the order of their lanes. -/
theorem splitLanes_bytes (ftz : Bool) (k j : Nat) (x e : BitVec 256) (n : Nat) (hn : n ≤ 4) (acc : List Byte × Flags) :
    (splitLanes ftz k j x e n acc).1 =
      acc.1 ++ (List.range' (4 - n) n).map fun i => BitVec.ofInt 8 (splitSlice ftz k j (signed64 (lane64 e i)) (lane64 x i)).1 := by
  induction n generalizing acc with
  | zero => simp [splitLanes]
  | succ n ih =>
    rw [splitLanes, ih (by omega), List.range'_succ, show 4 - (n + 1) + 1 = 4 - n by omega, show 4 - (n + 1) = 3 - n by omega]
    simp

theorem splitLanes_four (ftz : Bool) (k j : Nat) (x e : BitVec 256) :
    (splitLanes ftz k j x e 4 ([], {})).1 =
      (List.range 4).map fun i => BitVec.ofInt 8 (splitSlice ftz k j (signed64 (lane64 e i)) (lane64 x i)).1 :=
  splitLanes_bytes ftz k j x e 4 le_rfl _

section
variable {s : State} {c : Nat} {t : BitVec 4}

theorem doSplit_eq {v v1 v2 : CoreView} {ve src spad dpad : Bool} {j k as_ ad part key : Nat} {x : BitVec 256} {t : Nat}
    (hs : v.source t src (as_ % 2 == 1) as_ spad = some (x, v1)) (hd : v1.useAW t ad (padOf dpad) = some (key, v2)) :
    let r := splitLanes (v.th t).ftz k j x ((v.th t).getV ve) 4 ([], {})
    doSplit t ve j k src as_ spad ad dpad part v = ((v2.writePart t (key + 4 * part) r.1).raise t r.2.bits).done := by
  simp only [doSplit, hs, hd]

theorem exec_split {ve : Bool} {j k : BitVec 4} {src : Bool} {as_ : BitVec 3} {spad : Bool} {ad : BitVec 3} {dpad : Bool} {part : BitVec 3}
    {x : BitVec 256} {v1 v2 : CoreView} {key : Nat} (h : Issues s c t) (hl : splitLegal j k src as_ = true)
    (ho : HasOperands s c t ((Needs.v ve).join (sourceNeeds src (as_.toNat % 2 == 1) spad)))
    (hs : (s.view c).source t.toNat src (as_.toNat % 2 == 1) as_.toNat spad = some (x, v1))
    (hd : v1.useAW t.toNat ad.toNat (padOf dpad) = some (key, v2)) :
    let th := (s.core c).thread t.toNat
    let r := splitLanes th.ftz k.toNat j.toNat x (th.getV ve) 4 ([], {})
    ∃ u, exec (.split c t ve j k src as_ spad ad dpad part) s = .next u ∧ OneCore c s u ∧ OtherThreads c t.toNat s u ∧
      (u.core c).thread t.toNat = pcNext (withFlags (v2.core.thread t.toNat) r.2.bits) ∧
      u.mem = Mem.writeBytes s.mem (key + 4 * part.toNat) r.1 := by
  intro th r
  have hv2 := (CoreView.reads_source hs).trans (CoreView.reads_useA (CoreView.useAW_some hd).1)
  have hraise := core_touched_raise (x := v2.writePart t.toNat (key + 4 * part.toNat) r.1) hv2.1 rfl r.2.bits
  obtain ⟨u, hu, hone, hother, hthread, -, hmem, -⟩ := issue_wrote h hl ((needing_ready ho).trans (doSplit_eq hs hd)) hraise hv2.2
  refine ⟨u, hu, hone, hother, hthread, hmem.trans ?_⟩
  exact congrArg (Mem.writeBytes · (key + 4 * part.toNat) r.1) hv2.1.mem

theorem exec_merge {vd : Bool} {as_ : BitVec 3} {spad hi : Bool} {gs : BitVec 5} {k : Nat} (h : Issues s c t)
    (hk : named s c t as_.toNat (padOf spad) = some k) (ho : HasOperands s c t { v0 := true, v1 := true, w := !spad, a := spad }) :
    let th := (s.core c).thread t.toNat
    let rb := readBits s k
    let r := mergeLanes th.ftz (ofNat256 (Mem.readNat s.mem k 32)) (th.getV !vd) hi (th.getG gs.toNat) 4 (th.getV vd, {})
    ∃ u, exec (.merge c t vd (!vd) as_ spad hi gs) s = .next u ∧
      ThreadOnly c t s u (pcNext (withFlags ((withFlags (usedA th as_.toNat) rb).setV vd r.1) r.2.bits))
        (statAfter (statAfter (s.core c).cstat rb) r.2.bits) := by
  intro th rb r
  have hl : ((!vd) != vd) = true := by cases vd <;> rfl
  have hf : doMerge t.toNat vd (!vd) as_.toNat spad hi gs.toNat (s.view c) =
      (((((s.view c).modT t.toNat (usedA · as_.toNat)).noteRead t.toNat k).modT t.toNat (·.setV vd r.1)).raise t.toNat r.2.bits).done := by
    simp only [doMerge, CoreView.useA_eq hk]
    rfl
  exact issue_touched h hl ((needing_ready ho).trans hf)
    (touched_setV_raise (touched_use_noteRead (s.view c) t.toNat as_.toNat k) vd _ _) (Thread.setV_pc ..)

end

end Sys2Proof.Machine
end

section
/-! PROOFS. What issued SSPK and SSUP do (R126, R168, R169), and the statement of SPLIT, MERGE and the scales. -/

namespace Sys2Proof.Machine

open Sys2Proof.Claims

theorem core_touched_raise_joined {v w x : CoreView} {t bits : Nat} {th : Thread} {cs : BitVec 8} (h : v.Touched t w (withFlags th bits) cs)
    (hx : x.core = w.core) (more : Nat) :
    v.core.Touched t (x.raise t more).core (withFlags th (bits ||| more)) (statAfter cs more) := by
  rw [← withFlags_withFlags]
  exact core_touched_raise h hx more

/-! ### SS8 blocks -/

theorem ss8Pack_length (vs : List Val) (rnd : Nat → Rnd) : (ss8Pack vs rnd).1.length = vs.length + 1 := by
  unfold ss8Pack
  dsimp only
  split
  · simp
  · cases ss8MaxExp vs with
    | none => simp
    | some e =>
      dsimp only
      split <;> simp

theorem ss8Unpack_length (ftz : Bool) (b : Nat) (bs : List Nat) : (ss8Unpack ftz (b :: bs)).1.length = bs.length := by
  simp [ss8Unpack]

theorem elems_length (x : BitVec 256) (k n : Nat) : (elems x k n).length = n := by simp [elems]

/-! ### SSPK -/

/-- The 16 elements that SSPK packs. -/
def sspkElems (v : CoreView) (wide : Bool) (k k2 : Nat) : List Nat :=
  if wide then elems (v.read256 k) 4 8 ++ elems (v.read256 k2) 4 8 else elems (v.read256 k) 2 16

theorem sspkElems_length (v : CoreView) (wide : Bool) (k k2 : Nat) : (sspkElems v wide k k2).length = 16 := by
  cases wide <;> simp [sspkElems, elems_length]

/-- The thread after SSPK's uses of its pad-address register. -/
def sspkUsed (wide : Bool) (th : Thread) (r : Nat) : Thread := if wide then usedA (usedA th r) r else usedA th r

/-- The view with SSPK's operands read. -/
def sspkRead (v : CoreView) (t r : Nat) (wide : Bool) (k k2 : Nat) : CoreView :=
  noteReads t [k, if wide then k2 else k] (if wide then (v.modT t (usedA · r)).modT t (usedA · r) else v.modT t (usedA · r))

theorem doSspk_eq {v : CoreView} {t ga as_ rnd gb k k2 : Nat} {spad dpad wide : Bool} {keys : List Nat}
    (hk : v.granule (padOf spad) (aregGranule ((v.core.thread t).getA as_)) = some k)
    (hk2 : wide = true → v.granule (padOf spad) (aregGranule ((usedA (v.core.thread t) as_).getA as_)) = some k2)
    (hkeys : v.byteKeys (padOf dpad) ((v.core.thread t).getG ga).toNat 17 = some keys) (hw : keys.all v.mayWrite = true) :
    let v3 := sspkRead v t as_ wide k k2
    let xs := sspkElems v wide k k2
    let ftz := (v.core.thread t).ftz
    doSspk t ga as_ spad dpad wide rnd gb v =
      if rnd == 2 then ((v3.modT t (·.advanceGroup gb 1)).request t ((v.core.thread t).genInput gb) (.sspk xs wide ftz keys)).done
      else (sspkDeliver t xs wide ftz rnd 0 keys v3).done := by
  have huse := CoreView.Touched.modT v t (usedA · as_)
  cases wide
  case false =>
    simp only [doSspk, CoreView.useA_eq hk, Bool.false_eq_true, if_false, huse.byteKeys, CoreView.th, hkeys, hw, Bool.not_true]
    rfl
  case true =>
    have hgran2 : (v.modT t (usedA · as_)).granule (padOf spad)
        (aregGranule (((v.modT t (usedA · as_)).core.thread t).getA as_)) = some k2 := by
      rw [huse.granule, huse.thread]
      exact hk2 rfl
    have huse2 := huse.trans (CoreView.Touched.modT (v.modT t (usedA · as_)) t (usedA · as_))
    simp only [doSspk, CoreView.useA_eq hk, CoreView.useA_eq hgran2, if_true, huse2.byteKeys, CoreView.th, hkeys, hw, Bool.not_true,
      Bool.false_eq_true, if_false]
    rfl

theorem sspkRead_touched (v : CoreView) (t r : Nat) (wide : Bool) (k k2 : Nat) :
    ∃ bits cs, v.Touched t (sspkRead v t r wide k k2) (withFlags (sspkUsed wide (v.core.thread t) r) bits) cs := by
  have huse := CoreView.Touched.modT v t (usedA · r)
  cases wide
  case false => exact touched_noteReads t [k, k] (bits := 0) (by simpa [sspkUsed] using huse)
  case true =>
    have huse2 := huse.trans (CoreView.Touched.modT (v.modT t (usedA · r)) t (usedA · r))
    rw [huse.thread] at huse2
    exact touched_noteReads t [k, k2] (bits := 0) (by simpa [sspkUsed] using huse2)

/-- The bytes that SSPK writes. -/
def sspkBytes (xs : List Nat) (wide ftz : Bool) (rnd o : Nat) : List Nat :=
  (ss8Pack (xs.map fun x => (readOperand (if wide then .fp32 else .bf16) ftz x).1) fun i => rndOf rnd o 8 i).1

theorem sspkBytes_length (xs : List Nat) (wide ftz : Bool) (rnd o : Nat) : (sspkBytes xs wide ftz rnd o).length = xs.length + 1 := by
  rw [sspkBytes, ss8Pack_length, List.length_map]

/-- Delivering a packed block: flags of the thread, and the bytes at their addresses. -/
theorem sspkDeliver_spec (t : Nat) (xs : List Nat) (wide ftz : Bool) (rnd o : Nat) (keys : List Nat) {v0 v : CoreView} {th : Thread}
    {bits : Nat} {cs : BitVec 8} (h : v0.Touched t v (withFlags th bits) cs) :
    ∃ bits' cs', v0.core.Touched t (sspkDeliver t xs wide ftz rnd o keys v).core (withFlags th bits') cs' ∧
      (sspkDeliver t xs wide ftz rnd o keys v).mem =
        v.mem.writeCells (keys.zip ((sspkBytes xs wide ftz rnd o).map (BitVec.ofNat 8))) := by
  unfold sspkDeliver sspkBytes
  dsimp only
  rw [List.map_map]
  exact ⟨_, _, core_touched_raise_joined h (CoreView.writeScattered_core ..) _, CoreView.writeScattered_mem ..⟩

/-- The packed block read back, byte by byte, and the bytes beside it. -/
theorem read_sspkCells {m : Mem} {xs keys : List Nat} {wide ftz : Bool} {rnd o : Nat} (hxs : xs.length = 16) (hlen : keys.length = 17)
    (hnd : keys.Nodup) :
    let m' := m.writeCells (keys.zip ((sspkBytes xs wide ftz rnd o).map (BitVec.ofNat 8)))
    (∀ i, i < 17 → m'.read (keys.getD i 0) = BitVec.ofNat 8 ((sspkBytes xs wide ftz rnd o).getD i 0)) ∧
      ∀ a, a ∉ keys → m'.read a = m.read a := by
  have hbytes : (sspkBytes xs wide ftz rnd o).length = 17 := by rw [sspkBytes_length, hxs]
  constructor
  · intro i hi
    have hin : i < keys.length := by omega
    have hread := Mem.read_writeCells_zip keys ((sspkBytes xs wide ftz rnd o).map (BitVec.ofNat 8)) m hnd (by simp [hbytes, hlen]) i hin
    rw [List.getD_eq_getElem _ _ hin, hread, List.getD_eq_getElem _ _ (by omega), List.getElem_map]
  · intro a ha
    refine Mem.read_writeCells_other _ _ _ ?_
    rintro ⟨x, y⟩ hc rfl
    exact ha (List.of_mem_zip hc).1

/-! ### SSUP -/

theorem doSsup_eq {v : CoreView} {t ga ad k : Nat} {dpad spad : Bool} {keys : List Nat}
    (hkeys : v.byteKeys (padOf spad) ((v.core.thread t).getG ga).toNat 17 = some keys)
    (hk : v.granule (padOf dpad) (aregGranule ((v.core.thread t).getA ad)) = some k) (hw : v.mayWrite k = true) :
    let v2 := noteReads t keys (v.modT t (usedA · ad))
    let r := ss8Unpack (v.core.thread t).ftz (keys.map fun a => (v.mem.read a).toNat)
    doSsup t ga ad dpad spad v =
      ((v2.writePart t k (r.1.flatMap fun n => leBytes 2 n)).raise t (r.2.bits + nonfiniteBits .bf16 r.1)).done := by
  have huse : v.useAW t ad (padOf dpad) = some (k, v.modT t (usedA · ad)) := by
    simp only [CoreView.useAW, CoreView.useA_eq hk, hw, if_true]
  simp only [doSsup, CoreView.th, hkeys, huse]

theorem flatMap_leBytes_length (ns : List Nat) : (ns.flatMap fun n => leBytes 2 n).length = 2 * ns.length := by
  induction ns with
  | nil => rfl
  | cons n ns ih => simp [ih]; omega

theorem Mem.writeBytes_append (m : Mem) (a : Nat) (xs ys : List Byte) :
    m.writeBytes a (xs ++ ys) = (m.writeBytes a xs).writeBytes (a + xs.length) ys := by
  induction xs generalizing m a with
  | nil => rfl
  | cons x xs ih =>
    rw [List.cons_append, Mem.writeBytes, Mem.writeBytes, ih, List.length_cons, show a + (xs.length + 1) = a + 1 + xs.length by omega]

/-- Numbers of two bytes each, written one after the other, read back. -/
theorem readNat_flatMap_leBytes (ns : List Nat) (m : Mem) (a i : Nat) (hi : i < ns.length) :
    (m.writeBytes a (ns.flatMap fun n => leBytes 2 n)).readNat (a + 2 * i) 2 = ns[i] % 65536 := by
  induction ns generalizing m a i with
  | nil => simp at hi
  | cons n ns ih =>
    rw [List.flatMap_cons, Mem.writeBytes_append, leBytes_length]
    cases i with
    | zero =>
      have hfirst := Mem.readNat_congr (m := (m.writeNat a 2 n).writeBytes (a + 2) (ns.flatMap fun n => leBytes 2 n)) (m' := m.writeNat a 2 n)
        a 2 fun x _ hx => Mem.read_writeBytes_outside _ _ _ _ (.inl hx)
      exact hfirst.trans (Mem.readNat_writeNat m a 2 n)
    | succ i =>
      rw [show a + 2 * (i + 1) = a + 2 + 2 * i by omega]
      exact ih _ _ i (by simpa using hi)

/-! ### As commands -/

section
variable {s : State} {c : Nat} {t : BitVec 4} {ga : BitVec 5} {as_ : BitVec 3} {spad dpad wide : Bool} {rnd gb : BitVec 2} {k k2 : Nat}
  {keys : List Nat}

/-- An SSPK that rounds to nearest delivers its block at once. -/
theorem exec_sspk_now (h : Issues s c t) (ho : HasOperands s c t (.pad spad)) (hl : sspkLegal rnd gb = true) (hr : rnd ≠ 2)
    (hk : named s c t as_.toNat (padOf spad) = some k)
    (hk2 : wide = true →
      (s.view c).granule (padOf spad) (aregGranule ((usedA ((s.core c).thread t.toNat) as_.toNat).getA as_.toNat)) = some k2)
    (hkeys : (s.view c).byteKeys (padOf dpad) (((s.core c).thread t.toNat).getG ga.toNat).toNat 17 = some keys)
    (hw : keys.all (s.view c).mayWrite = true) :
    let th := (s.core c).thread t.toNat
    ∃ u bits, exec (.sspk c t ga as_ spad dpad wide rnd gb) s = .next u ∧ OneCore c s u ∧ OtherThreads c t.toNat s u ∧
      (u.core c).thread t.toNat = pcNext (withFlags (sspkUsed wide th as_.toNat) bits) ∧ (u.core c).gens = (s.core c).gens ∧
      u.mem = Mem.writeCells s.mem
        (keys.zip ((sspkBytes (sspkElems (s.view c) wide k k2) wide th.ftz rnd.toNat 0).map (BitVec.ofNat 8))) := by
  intro th
  have hr2 : (rnd.toNat == 2) = false := by
    rw [beq_eq_false_iff_ne]
    exact fun h => hr (BitVec.eq_of_toNat_eq h)
  obtain ⟨bits, cs, hread⟩ := sspkRead_touched (s.view c) t.toNat as_.toNat wide k k2
  obtain ⟨bits', cs', hdeliver, hmem'⟩ :=
    sspkDeliver_spec t.toNat (sspkElems (s.view c) wide k k2) wide th.ftz rnd.toNat 0 keys hread
  have hf := (needing_ready ho).trans (doSspk_eq (rnd := rnd.toNat) (gb := gb.toNat) hk hk2 hkeys hw)
  rw [hr2] at hf
  obtain ⟨u, hu, hone, hother, hthread, hcore, hmem, -⟩ := issue_wrote h hl hf hdeliver (by cases wide <;> rfl)
  refine ⟨u, bits', hu, hone, hother, hthread, by rw [hcore], ?_⟩
  rw [hmem]
  refine hmem'.trans ?_
  rw [hread.mem]
  rfl

/-- A stochastic one requests its draws. -/
theorem exec_sspk_later (h : Issues s c t) (ho : HasOperands s c t (.pad spad)) (hl : sspkLegal rnd gb = true) (hr : rnd = 2)
    (hk : named s c t as_.toNat (padOf spad) = some k)
    (hk2 : wide = true →
      (s.view c).granule (padOf spad) (aregGranule ((usedA ((s.core c).thread t.toNat) as_.toNat).getA as_.toNat)) = some k2)
    (hkeys : (s.view c).byteKeys (padOf dpad) (((s.core c).thread t.toNat).getG ga.toNat).toNat 17 = some keys)
    (hw : keys.all (s.view c).mayWrite = true) :
    let th := (s.core c).thread t.toNat
    ∃ u bits, exec (.sspk c t ga as_ spad dpad wide rnd gb) s = .next u ∧ OneCore c s u ∧ OtherThreads c t.toNat s u ∧
      (u.core c).thread t.toNat = pcNext ((withFlags (sspkUsed wide th as_.toNat) bits).advanceGroup gb.toNat 1) ∧ SameMemory s u ∧
      (u.core c).gens = (s.core c).gens ++
        [{ thread := t, input := th.genInput gb.toNat, use := .sspk (sspkElems (s.view c) wide k k2) wide th.ftz keys }] := by
  intro th
  have hr2 : (rnd.toNat == 2) = true := by rw [hr]; rfl
  obtain ⟨bits, cs, hread⟩ := sspkRead_touched (s.view c) t.toNat as_.toNat wide k k2
  have hadv := hread.trans (CoreView.Touched.modT _ t.toNat (·.advanceGroup gb.toNat 1))
  rw [hread.thread] at hadv
  have hf := (needing_ready ho).trans (doSspk_eq (rnd := rnd.toNat) (gb := gb.toNat) hk hk2 hkeys hw)
  rw [hr2, if_pos rfl] at hf
  obtain ⟨u, hu, hone, hother, hsame, hthread, hgens⟩ := issue_request h hl hf
    (hadv.reads ((Thread.advanceGroup_pc ..).trans (by cases wide <;> rfl)))
  rw [hadv.thread] at hthread
  exact ⟨u, bits, hu, hone, hother, hthread, hsame, hgens⟩

theorem exec_ssup (h : Issues s c t) (ho : HasOperands s c t (.pad spad)) (hk : named s c t as_.toNat (padOf dpad) = some k)
    (hw : (s.view c).mayWrite k = true)
    (hkeys : (s.view c).byteKeys (padOf spad) (((s.core c).thread t.toNat).getG ga.toNat).toNat 17 = some keys) :
    let th := (s.core c).thread t.toNat
    let r := ss8Unpack th.ftz (keys.map fun a => (Mem.read s.mem a).toNat)
    ∃ u bits, exec (.ssup c t ga as_ dpad spad) s = .next u ∧ OneCore c s u ∧ OtherThreads c t.toNat s u ∧
      (u.core c).thread t.toNat = pcNext (withFlags (usedA th as_.toNat) bits) ∧
      u.mem = Mem.writeBytes s.mem k (r.1.flatMap fun n => leBytes 2 n) := by
  intro th r
  have huse := CoreView.Touched.modT (s.view c) t.toNat (usedA · as_.toNat)
  obtain ⟨bits, cs, hread⟩ := touched_noteReads t.toNat keys (th := usedA th as_.toNat) (bits := 0) (by rw [withFlags_zero]; exact huse)
  obtain ⟨u, hu, hone, hother, hthread, -, hmem, -⟩ := issue_wrote h rfl ((needing_ready ho).trans (doSsup_eq hkeys hk hw))
    (core_touched_raise_joined hread (by rfl) _) rfl
  refine ⟨u, _, hu, hone, hother, hthread, hmem.trans ?_⟩
  exact congrArg (Mem.writeBytes · k _) hread.mem

end

end Sys2Proof.Machine

namespace Sys2Proof.Proofs

open Sys2Proof.Machine Sys2Proof.Claims

/-- Settles O20: the core that each leaves, and then its bytes, read back. -/
theorem splitMergeAndScales : Obligations.SplitMergeAndScales := by
  unfold Obligations.SplitMergeAndScales
  constructor
  · intro s c t ve j k src as_ spad ad dpad part x v1 v2 key vd hi gs mk h th
    refine ⟨?_, fun hk ho => exec_merge h hk ho⟩
    intro hl ho hs hd r
    obtain ⟨u, hu, hone, hother, hthread, hmem⟩ := exec_split (part := part) h hl ho hs hd
    have hbytes := splitLanes_four th.ftz k.toNat j.toNat x (th.getV ve)
    refine ⟨u, hu, hone, hother, hthread, ?_, ?_⟩
    · intro i hi
      rw [hmem, hbytes, Mem.read_writeBytes_inside _ _ _ _ (by simpa using hi)]
      simp
    · intro a ha
      rw [hmem, hbytes]
      exact Mem.read_writeBytes_outside _ _ _ _ (by simpa using ha)
  · intro s c t ga as_ spad dpad wide rnd gb k k2 keys h ho th used
    constructor
    · intro hl hk hk2 hkeys hw xs p
      have hnd := CoreView.byteKeys_nodup hkeys
      obtain ⟨hlen, -⟩ := CoreView.byteKeys_spec hkeys
      by_cases hr : rnd = 2
      · obtain ⟨u, bits, hu, hone, hother, hthread, hsame, hgens⟩ := exec_sspk_later h ho hl hr hk hk2 hkeys hw
        exact ⟨u, bits, hu, hone, hother, fun hne => absurd hr hne, fun _ => ⟨hthread, hsame, hgens⟩⟩
      · obtain ⟨u, bits, hu, hone, hother, hthread, hgens, hmem⟩ := exec_sspk_now h ho hl hr hk hk2 hkeys hw
        have h0 : rnd = 0 := by
          simp only [sspkLegal, Bool.or_eq_true, Bool.and_eq_true, beq_iff_eq] at hl
          rcases hl with ⟨h0, -⟩ | ⟨h2, -⟩
          · exact h0
          · exact absurd h2 hr
        have hp : sspkBytes xs wide th.ftz rnd.toNat 0 = p.1 := by
          subst h0
          rfl
        obtain ⟨hin, hout⟩ := read_sspkCells (m := s.mem) (wide := wide) (ftz := th.ftz) (rnd := rnd.toNat) (o := 0)
          (sspkElems_length (s.view c) wide k k2) hlen hnd
        refine ⟨u, bits, hu, hone, hother, fun _ => ⟨hthread, hgens, ?_, ?_⟩, fun h2 => absurd h2 hr⟩
        · rw [hmem, ← hp]
          exact hin
        · rw [hmem]
          exact hout
    · intro hk hw hkeys r
      obtain ⟨hlen, -⟩ := CoreView.byteKeys_spec hkeys
      obtain ⟨u, bits, hu, hone, hother, hthread, hmem⟩ := exec_ssup h ho hk hw hkeys
      have hr16 : r.1.length = 16 := by
        obtain ⟨b, bs, hcons⟩ := List.exists_cons_of_length_eq_add_one (n := 16) hlen
        have hbs : bs.length = 16 := by simpa [hcons] using hlen
        simp only [r, hcons, List.map_cons, ss8Unpack_length, List.length_map, hbs]
      change (ss8Unpack th.ftz (keys.map fun a => (Mem.read s.mem a).toNat)).1.length = 16 at hr16
      refine ⟨u, hu, hone, hother, ?_, ?_, bits, hthread⟩
      · intro i hi
        rw [hmem, readNat_flatMap_leBytes _ _ _ _ (by rw [hr16]; exact hi), List.getD_eq_getElem _ _ (by rw [hr16]; exact hi)]
      · intro a ha
        rw [hmem]
        exact Mem.read_writeBytes_outside _ _ _ _ (by rw [flatMap_leBytes_length, hr16]; exact ha)

end Sys2Proof.Proofs
end

section
/-! PROOFS. TMMA and TMMA.I8: one block, a burst, and a first block out of bounds (R77–R79, R128, R129). -/

namespace Sys2Proof.Machine

open Sys2Proof.Claims

/-! ### The elements of a block -/

/-- Element e of a block from its old number. -/
def tmmaNew (op : TmmaOp) (ftz : Bool) (w a : BitVec 256) (old e : Nat) : Nat × Flags :=
  let l := if op.left then a else w
  let r := if op.left then w else a
  let lf := if op.left then op.af else op.wf
  let rf := if op.left then op.wf else op.af
  if op.int8 then
    let y := tmmaI8Elem lf rf l r (e / 4) (e % 4) 8 ((if op.zero then 0 else (BitVec.ofNat 32 old).toInt), {})
    (intBits 4 y.1, y.2)
  else
    tmmaElem (if lf then .fp16 else .bf16) (if rf then .fp16 else .bf16) ftz l r (e / 4) (e % 4) 4
      ((if op.zero then 0x80000000 else old), {})

theorem tmmaBlock_succ (op : TmmaOp) (ftz : Bool) (w a : BitVec 256) (acc n : Nat) (r : Nat × Flags × Bool) :
    tmmaBlock op ftz w a acc (n + 1) r =
      let x := tmmaNew op ftz w a (bitsOf acc (32 * (15 - n)) 32) (15 - n)
      tmmaBlock op ftz w a acc n
        (putBits r.1 (32 * (15 - n)) 32 x.1, r.2.1.join x.2, r.2.2 || (!op.int8 && isNonfinite .fp32 x.1)) := rfl

/-- Elements from 16 − n on are new, the others stand. -/
theorem bitsOf_tmmaBlock (op : TmmaOp) (ftz : Bool) (w a : BitVec 256) (acc n : Nat) (hn : n ≤ 16) (r : Nat × Flags × Bool) (e : Nat)
    (he : e < 16) :
    bitsOf (tmmaBlock op ftz w a acc n r).1 (32 * e) 32 =
      if 16 - n ≤ e then (tmmaNew op ftz w a (bitsOf acc (32 * e) 32) e).1 % 2 ^ 32 else bitsOf r.1 (32 * e) 32 := by
  induction n generalizing r with
  | zero => simp [tmmaBlock, show ¬ 16 ≤ e by omega]
  | succ n ih =>
    rw [tmmaBlock_succ]
    dsimp only
    rw [ih (by omega)]
    by_cases heq : 15 - n = e
    · rw [if_neg (by omega), if_pos (by omega), heq, bitsOf_putBits_same]
    · by_cases hlater : 16 - n ≤ e
      · rw [if_pos hlater, if_pos (by omega)]
      · rw [if_neg hlater, if_neg (by omega), bitsOf_putBits_apart _ _ _ _ _ _ (by omega)]

/-! ### One block -/

theorem ftz_withFlags (th : Thread) (bits : Nat) : (withFlags th bits).ftz = th.ftz := by
  simp only [withFlags, Thread.ftz, BitVec.getLsbD_or, BitVec.getLsbD_ofNat]
  rw [show 256 = 2 ^ 8 from rfl, Nat.testBit_mod_two_pow]
  simp

theorem usedA_getA_other {th : Thread} {r q : Nat} (h : r ≠ q) : (usedA th r).getA q = th.getA q :=
  kget_kset_other _ _ _ h

/-- The three uses of a block, then its reads. -/
def tmmaUses (op : TmmaOp) (t : Nat) (v : CoreView) : CoreView :=
  ((v.modT t (usedA · op.aw)).modT t (usedA · op.aa)).modT t (usedA · op.ap)

/-- The block's sum over the operands and the old block. -/
def tmmaSum (op : TmmaOp) (t kw ka kp : Nat) (v : CoreView) : Nat × Flags × Bool :=
  tmmaBlock op (v.core.thread t).ftz (v.read256 kw) (v.read256 ka) (v.mem.readNat kp 64) 16 (v.mem.readNat kp 64, {}, false)

theorem tmmaUses_touched (op : TmmaOp) (t : Nat) (v : CoreView) :
    v.Touched t (tmmaUses op t v) (usedA (usedA (usedA (v.core.thread t) op.aw) op.aa) op.ap) v.core.cstat := by
  have h1 := CoreView.Touched.modT v t (usedA · op.aw)
  have h2 := h1.trans (CoreView.Touched.modT _ t (usedA · op.aa))
  rw [h1.thread, h1.cstat] at h2
  have h3 := h2.trans (CoreView.Touched.modT _ t (usedA · op.ap))
  rwa [h2.thread, h2.cstat] at h3

theorem tmmaReads_touched (op : TmmaOp) (t kw ka : Nat) (v : CoreView) :
    ∃ bits cs, v.Touched t (((tmmaUses op t v).noteRead t kw).noteRead t ka)
      (withFlags (usedA (usedA (usedA (v.core.thread t) op.aw) op.aa) op.ap) bits) cs :=
  touched_noteReads t [kw, ka] (bits := 0) (by rw [withFlags_zero]; exact tmmaUses_touched op t v)

/-- Where the three registers of a block differ and name places in bounds that may be written, the block is done. -/
theorem tmmaOne_eq {op : TmmaOp} {t : Nat} {v u : CoreView} (h1 : op.aw ≠ op.aa) (h2 : op.aw ≠ op.ap) (h3 : op.aa ≠ op.ap)
    (hu : tmmaOne op t v = some u) :
    ∃ kw ka kp v4 bits cs more mark, v.granule .w (aregGranule ((v.core.thread t).getA op.aw)) = some kw ∧
      v.granule .a (aregGranule ((v.core.thread t).getA op.aa)) = some ka ∧
      v.granule .p (aregGranule ((v.core.thread t).getA op.ap)) = some kp ∧
      v.Touched t v4 (withFlags (usedA (usedA (usedA (v.core.thread t) op.aw) op.aa) op.ap) bits) cs ∧
      u = CoreView.raise { v4 with mem := v4.mem.writeNat kp 64 (tmmaSum op t kw ka kp v4).1, marks := kset false v4.marks kp mark } t more := by
  unfold tmmaOne at hu
  rcases hw : v.useA t op.aw .w with _ | ⟨kw, v1⟩
  · simp [hw] at hu
  obtain ⟨gw, hv1⟩ := CoreView.useA_some hw
  rcases ha : v1.useA t op.aa .a with _ | ⟨ka, v2⟩
  · simp [hw, ha] at hu
  obtain ⟨ga, hv2⟩ := CoreView.useA_some ha
  rcases hp : v2.useAW t op.ap .p with _ | ⟨kp, v3⟩
  · simp [hw, ha, hp] at hu
  obtain ⟨gp, hv3⟩ := CoreView.useA_some (CoreView.useAW_some hp).1
  have t1 := CoreView.Touched.modT v t (usedA · op.aw)
  have t2 := t1.trans (CoreView.Touched.modT _ t (usedA · op.aa))
  rw [← hv1] at t1 t2
  rw [t1.thread, t1.cstat, ← hv2] at t2
  have hv3' : v3 = tmmaUses op t v := by rw [hv3, hv2, hv1]; rfl
  subst hv3'
  obtain ⟨bits, cs, ht⟩ := tmmaReads_touched op t kw ka v
  simp only [hw, ha, hp, Option.some.injEq] at hu
  rw [t1.granule, t1.thread, usedA_getA_other h1] at ga
  rw [t2.granule, t2.thread, usedA_getA_other h3, usedA_getA_other h2] at gp
  exact ⟨kw, ka, kp, _, bits, cs, _, _, gw, ga, gp, ht, hu.symm⟩

/-- The blocks of the P-pad lie in its part of the core's window (R81, R86). -/
theorem CoreView.granule_p_window {v : CoreView} {g k : Nat} (h : v.granule .p g = some k) :
    padWindow v.id + 0x28000 ≤ k ∧ k + 64 ≤ padWindow v.id + 0x30000 := by
  obtain ⟨hin, hk⟩ := CoreView.granule_eq h
  have hg : g < 256 := by
    simp only [inBounds, Bool.and_eq_true, decide_eq_true_eq] at hin
    exact hin.1
  simp only [Core.granuleOffset, granuleOffset] at hk
  split at hk <;> omega

/-! ### Bursts -/

/-- What the blocks of a burst may change: pad-address registers of the three, TSTAT and CSTAT, and bytes of the P-pad. -/
def TmmaKeeps (op : TmmaOp) (t : Nat) (v w : CoreView) : Prop :=
  w.id = v.id ∧ w.core = { v.core with threads := w.core.threads, cstat := w.core.cstat } ∧
    (∀ r, r ≠ t → w.core.thread r = v.core.thread r) ∧
    (∃ a f, w.core.thread t = { v.core.thread t with a := a, tstat := f } ∧
      ∀ r, r ≠ op.aw → r ≠ op.aa → r ≠ op.ap → kget 0 a r = (v.core.thread t).getA r) ∧
    ∀ x, x < padWindow v.id + 0x28000 ∨ padWindow v.id + 0x30000 ≤ x → w.mem.read x = v.mem.read x

theorem TmmaKeeps.refl (op : TmmaOp) (t : Nat) (v : CoreView) : TmmaKeeps op t v v :=
  ⟨rfl, rfl, fun _ _ => rfl, ⟨(v.core.thread t).a, (v.core.thread t).tstat, rfl, fun _ _ _ _ => rfl⟩, fun _ _ => rfl⟩

theorem TmmaKeeps.trans {op : TmmaOp} {t : Nat} {v w x : CoreView} (h : TmmaKeeps op t v w) (h' : TmmaKeeps op t w x) :
    TmmaKeeps op t v x := by
  obtain ⟨hid, hcore, hother, ⟨a, f, hth, ha⟩, hmem⟩ := h
  obtain ⟨hid', hcore', hother', ⟨a', f', hth', ha'⟩, hmem'⟩ := h'
  refine ⟨hid'.trans hid, ?_, fun r hr => (hother' r hr).trans (hother r hr), ⟨a', f', ?_, ?_⟩, ?_⟩
  · rw [hcore', hcore]
  · rw [hth', hth]
  · intro r h1 h2 h3
    rw [ha' r h1 h2 h3, hth]
    exact ha r h1 h2 h3
  · intro y hy
    rw [hmem' y (by rwa [hid]), hmem y hy]

/-- One block keeps it. -/
theorem tmmaOne_keeps {op : TmmaOp} {t : Nat} {v u : CoreView} (h1 : op.aw ≠ op.aa) (h2 : op.aw ≠ op.ap) (h3 : op.aa ≠ op.ap)
    (hu : tmmaOne op t v = some u) : TmmaKeeps op t v u := by
  obtain ⟨kw, ka, kp, v4, bits, cs, more, mark, -, -, gp, ht, rfl⟩ := tmmaOne_eq h1 h2 h3 hu
  obtain ⟨hcore, hth, hother⟩ := core_touched_raise_joined ht
    (x := { v4 with mem := v4.mem.writeNat kp 64 (tmmaSum op t kw ka kp v4).1, marks := kset false v4.marks kp mark }) rfl more
  refine ⟨ht.id, ?_, hother, ⟨_, _, hth, ?_⟩, ?_⟩
  · rw [hcore]
  · intro r hw ha hp
    change (usedA (usedA (usedA (v.core.thread t) op.aw) op.aa) op.ap).getA r = _
    rw [usedA_getA_other hp.symm, usedA_getA_other ha.symm, usedA_getA_other hw.symm]
  · intro x hx
    have hwin := CoreView.granule_p_window gp
    exact (Mem.read_writeNat_outside _ (by omega)).trans (by rw [ht.mem])

theorem runBlocks_keeps {op : TmmaOp} {t : Nat} (h1 : op.aw ≠ op.aa) (h2 : op.aw ≠ op.ap) (h3 : op.aa ≠ op.ap) (n : Nat)
    {v u : CoreView} (hu : runBlocks op t n v = some u) : TmmaKeeps op t v u := by
  induction n generalizing v with
  | zero =>
    obtain rfl : v = u := by simpa [runBlocks] using hu
    exact .refl op t v
  | succ n ih =>
    rw [runBlocks, Option.bind_eq_some_iff] at hu
    obtain ⟨w, hone, hrest⟩ := hu
    exact (tmmaOne_keeps h1 h2 h3 hone).trans (ih hrest)

theorem doTmma_of_runBlocks {op : TmmaOp} {t : Nat} (n : Nat) {v u : CoreView} (hu : runBlocks op t n v = some u) :
    doTmma op t n v = ⟨u, .seq⟩ := by
  induction n generalizing v with
  | zero =>
    obtain rfl : v = u := by simpa [runBlocks] using hu
    rfl
  | succ n ih =>
    rw [runBlocks, Option.bind_eq_some_iff] at hu
    obtain ⟨w, hone, hrest⟩ := hu
    simp only [doTmma, hone]
    exact ih hrest

/-- A first block whose operands or accumulator are out of bounds. -/
theorem tmmaOne_none {op : TmmaOp} {t : Nat} {v : CoreView} (h1 : op.aw ≠ op.aa) (h2 : op.aw ≠ op.ap) (h3 : op.aa ≠ op.ap)
    (h : v.granule .w (aregGranule ((v.core.thread t).getA op.aw)) = none ∨
      v.granule .a (aregGranule ((v.core.thread t).getA op.aa)) = none ∨
      v.granule .p (aregGranule ((v.core.thread t).getA op.ap)) = none) : tmmaOne op t v = none := by
  rcases hu : tmmaOne op t v with _ | u
  · rfl
  · obtain ⟨kw, ka, kp, -, -, -, -, -, gw, ga, gp, -⟩ := tmmaOne_eq h1 h2 h3 hu
    rcases h with h | h | h <;> simp_all

/-! ### As commands -/

/-- Only what the instruction does in this state matters to its issue. -/
theorem issue_congr {s : State} {c : Nat} {t : BitVec 4} {array legal : Bool} {f g : State → State × IssueEnd} (h : f s = g s) :
    issue c t array legal f s = issue c t array legal g s := by
  simp only [issue, h]

/-- A burst that runs its blocks and goes on: like `issue_seq`, with its blocks counted. -/
theorem issue_counted {s : State} {c n : Nat} {t : BitVec 4} {array legal : Bool} {f : CoreView → Issue} {v : CoreView}
    (h : HasTurn s c t array) (hp : ((s.core c).thread t.toNat).pc ≠ 255#8) (hl : legal = true) (hf : f (s.view c) = ⟨v, .seq⟩) :
    ∃ u, issue c t array legal (fun s => countBlocks c n (onView c f s)) s = .next u ∧ OneCore c s u ∧ u.mem = v.mem ∧
      u.marks = v.marks ∧ (∀ r, r ≠ t.toNat → (u.core c).thread r = v.core.thread r) ∧
      (u.core c).thread t.toNat = { v.core.thread t.toNat with pc := ((s.core c).thread t.toNat).pc + 1 } ∧
      u.core c = { v.core.point array t with threads := (u.core c).threads } := by
  have hrun : countBlocks c n (onView c f s) = ((s.putView c v).tally 0 c 2 n, .seq) := by simp only [onView, hf]; rfl
  refine ⟨_, issue_legal h hl (by rw [hrun]; simp), ?_⟩
  rw [hrun, endIssue_seq hp, noteIssue_only]
  refine ⟨⟨rfl, ?_⟩, rfl, rfl, ?_, ?_, ?_⟩
  · intro d hd
    exact (kget_kset_other _ _ _ hd.symm).trans ((kget_kset_other _ _ _ hd.symm).trans (kget_kset_other _ _ _ hd.symm))
  · intro r hr
    simp [State.core, State.modCore, State.setCore, Core.thread_modThread_other _ _ hr.symm, State.putView, State.tally]
  · simp [State.core, State.modCore, State.setCore, State.putView, State.tally]
  · simp [State.core, State.modCore, State.setCore, State.putView, Core.modThread, Core.setThread, State.tally]

theorem tmmaLegal_iff (aw aa ap : BitVec 3) :
    tmmaLegal aw aa ap = true ↔ aw.toNat ≠ aa.toNat ∧ aw.toNat ≠ ap.toNat ∧ aa.toNat ≠ ap.toNat := by
  simp only [tmmaLegal, Bool.and_eq_true, bne_iff_ne, BitVec.toNat_ne, and_assoc]

section
variable {s : State} {c : Nat} {t : BitVec 4} {aw aa ap : BitVec 3} {nm1 : BitVec 4}

/-- The command of a TMMA or TMMA.I8. -/
theorem exec_tmma_eq (left wf af zero int8 : Bool) :
    exec (if int8 then .tmmaI8 c t aw aa ap left nm1 wf af zero else .tmma c t aw aa ap left nm1 wf af zero) s =
      issue c t true (tmmaLegal aw aa ap) (fun s => countBlocks c (nm1.toNat + 1) (onView c (needing t.toNat { w := true, a := true }
        (doTmma ⟨int8, aw.toNat, aa.toNat, ap.toNat, left, wf, af, zero⟩ t.toNat (nm1.toNat + 1))) s)) s := by
  cases int8
  · change execTmma c t aw aa ap left nm1 wf af zero s = _
    unfold execTmma
    rfl
  · change execTmmaI8 c t aw aa ap left nm1 wf af zero s = _
    unfold execTmmaI8
    rfl

end

end Sys2Proof.Machine

namespace Sys2Proof.Proofs

open Sys2Proof.Machine Sys2Proof.Claims

/-- Settles O22: a block by `tmmaOne_eq`, a burst by induction over its blocks, a first block out of bounds before anything is done. -/
theorem tensorBursts : Obligations.TensorBursts := by
  unfold Obligations.TensorBursts
  refine ⟨?_, ?_, ?_⟩
  · intro op t v u kw ka kp h1 h2 h3 gw ga gp hu w a l r lf rf
    obtain ⟨kw', ka', kp', v4, bits, cs, more, mark, gw', ga', gp', ht, rfl⟩ := tmmaOne_eq h1 h2 h3 hu
    obtain rfl : kw = kw' := Option.some.inj (gw.symm.trans gw')
    obtain rfl : ka = ka' := Option.some.inj (ga.symm.trans ga')
    obtain rfl : kp = kp' := Option.some.inj (gp.symm.trans gp')
    have hmem : (CoreView.raise { v4 with mem := v4.mem.writeNat kp 64 (tmmaSum op t kw ka kp v4).1, marks := kset false v4.marks kp mark }
        t more).mem = v.mem.writeNat kp 64 (tmmaSum op t kw ka kp v4).1 := by rw [← ht.mem]; rfl
    rw [hmem]
    refine ⟨?_, fun x hx => Mem.read_writeNat_outside _ hx⟩
    intro i j hi hj old
    have hold : bitsOf (v.mem.readNat kp 64) (32 * (4 * i + j)) 32 = old := by
      have hpart := Mem.readNat_part v.mem (a := kp) (o := 4 * (4 * i + j)) (l := 4) (n := 64) (by omega)
      rw [show 8 * (4 * (4 * i + j)) = 32 * (4 * i + j) by omega] at hpart
      rw [← hpart, show kp + 4 * (4 * i + j) = kp + 16 * i + 4 * j by omega]
    have hftz : (v4.core.thread t).ftz = (v.th t).ftz := by rw [ht.thread, ftz_withFlags]; rfl
    have hnew := bitsOf_tmmaBlock op (v4.core.thread t).ftz (v4.read256 kw) (v4.read256 ka) (v4.mem.readNat kp 64) 16 le_rfl
      (v4.mem.readNat kp 64, {}, false) (4 * i + j) (by omega)
    rw [if_pos (by omega), ht.mem, hold, hftz, ht.read256, ht.read256] at hnew
    rw [show kp + 16 * i + 4 * j = kp + 4 * (4 * i + j) by omega, Mem.readNat_writeNat_part _ (by omega),
      show 8 * (4 * (4 * i + j)) = 32 * (4 * i + j) by omega]
    rw [tmmaSum, ht.mem, hftz, ht.read256, ht.read256]
    refine hnew.trans ?_
    rw [tmmaNew, show (4 * i + j) / 4 = i by omega, show (4 * i + j) % 4 = j by omega]
    cases op.int8 <;> rfl
  · intro s c t aw aa ap left nm1 wf af zero int8 v h ho hl op hrun th i
    obtain ⟨h1, h2, h3⟩ := (tmmaLegal_iff aw aa ap).mp hl
    obtain ⟨hid, hcore, hother, ⟨a, f, hth, ha⟩, hmem⟩ := runBlocks_keeps (op := op) h1 h2 h3 _ hrun
    obtain ⟨u, hu, hone, hum, humarks, huother, huth, hucore⟩ := issue_counted (n := nm1.toNat + 1) h.1 h.2 hl
      ((needing_ready ho).trans (doTmma_of_runBlocks _ hrun))
    refine ⟨u, (exec_tmma_eq left wf af zero int8).trans hu, hone, hum, humarks, fun r hr => (huother r hr).trans (hother r hr), ?_, ?_,
      a, f, ?_, ha⟩
    · intro x hx
      rw [hum]
      exact hmem x (by simpa [State.view, Nat.add_assoc] using hx)
    · rw [hucore, hcore]
      rfl
    · rw [huth, hth]
      rfl
  · intro s c t aw aa ap left nm1 wf af zero int8 h ho hl hnone i
    obtain ⟨h1, h2, h3⟩ := (tmmaLegal_iff aw aa ap).mp hl
    let op : TmmaOp := ⟨int8, aw.toNat, aa.toNat, ap.toNat, left, wf, af, zero⟩
    have hfail : doTmma op t.toNat (nm1.toNat + 1) (s.view c) = (s.view c).failed .bounds := by
      simp only [doTmma, tmmaOne_none (op := op) h1 h2 h3 hnone]
    have hf := (needing_ready ho).trans hfail
    have hcount : countBlocks c (nm1.toNat + 1) (onView c (needing t.toNat { w := true, a := true } (doTmma op t.toNat (nm1.toNat + 1))) s) =
        onView c (needing t.toNat { w := true, a := true } (doTmma op t.toNat (nm1.toNat + 1))) s := by
      simp only [onView, hf]
      rfl
    obtain ⟨u, hu, hcore, hmem, -, -⟩ := issue_stops h.1 hl hf (.inl ⟨.bounds, rfl⟩)
    refine ⟨u, (exec_tmma_eq left wf af zero int8).trans ((issue_congr hcount).trans hu), ?_, fun x _ => by rw [hmem]; rfl⟩
    rw [hcore, Core.thread_stop_same, Core.thread_point]
    rfl

end Sys2Proof.Proofs
end

section
/-! PROOFS. Queues, transfers at issue, counters and SWAP (R85, R88, R93–R97, R132–R137). -/

namespace Sys2Proof.Machine

open Sys2Proof.Claims

/-! ### Instructions as functions of the state -/

section
variable {s s1 : State} {c : Nat} {t : BitVec 4} {array legal : Bool}

/-- An instruction that leaves the state as `s1` and goes on in sequence. -/
theorem issue_state_seq {f : State → State × IssueEnd} (h : HasTurn s c t array) (hp : ((s.core c).thread t.toNat).pc ≠ 255#8)
    (hl : legal = true) (hf : f s = (s1, .seq)) :
    ∃ u, issue c t array legal f s = .next u ∧
      u.core c = ((s1.core c).point array t).modThread t.toNat (fun th => { th with pc := ((s.core c).thread t.toNat).pc + 1 }) ∧
      u.mem = s1.mem ∧ u.marks = s1.marks := by
  refine ⟨_, issue_legal h hl (by rw [hf]; simp), ?_⟩
  rw [hf, endIssue_seq hp]
  exact ⟨by simp, by simp, by simp⟩

/-- An instruction that leaves the state as `s1` and stops its thread. -/
theorem issue_state_stops {f : State → State × IssueEnd} {e : IssueEnd} (h : HasTurn s c t array) (hl : legal = true)
    (hf : f s = (s1, e)) (he : e.stops ((s.core c).thread t.toNat).pc) :
    ∃ u, issue c t array legal f s = .next u ∧ u.core c = ((s1.core c).point array t).stop t ∧ u.mem = s1.mem ∧ u.marks = s1.marks := by
  have hstay : e ≠ .stay := by
    rcases he with ⟨cause, rfl⟩ | ⟨rfl, -⟩ <;> simp
  obtain ⟨cause, hend⟩ := endThread_of_stops (c := c) (t := t) he (s1.modCore c (·.point array t))
  refine ⟨_, issue_legal h hl (by rw [hf]; exact hstay), ?_⟩
  rw [hf, endIssue, hend]
  refine ⟨?_, ?_, ?_⟩
  · simp [State.coreFault_core, Core.stop]
  · simp
  · simp

/-- An instruction that issued and waits for its rest: its thread as it left it. -/
theorem issue_begun {f : CoreView → Issue} {v : CoreView} (h : HasTurn s c t array) (hl : legal = true) (hf : f (s.view c) = ⟨v, .begun⟩) :
    ∃ u, issue c t array legal (onView c f) s = .next u ∧ OneCore c s u ∧ u.core c = v.core.point array t ∧ u.mem = v.mem ∧
      u.marks = v.marks := by
  have hview : onView c f s = (s.putView c v, .begun) := by simp only [onView, hf]
  have hend : endIssue c t array ((s.core c).thread t.toNat).pc (s.putView c v, .begun) =
      (s.putView c v).modCore c (·.point array t) := rfl
  refine ⟨_, issue_legal h hl (by simp [hview]), ?_⟩
  rw [hview, hend]
  refine ⟨⟨?_, ?_⟩, by simp, by simp [State.putView], by simp [State.putView]⟩
  · rw [noteIssue_only]
    rfl
  · intro d hd
    rw [noteIssue_core, State.core_modCore_other _ _ hd.symm, State.core_putView_other _ _ hd.symm]

end

/-! ### Counters (R96–R98, R135, R136) -/

/-- A fold of changes that leave a projection of the values alone leaves it alone at every key. -/
theorem kget_foldl_kmod {α β : Type} [DecidableEq α] (d : α) (f : α → α) (proj : α → β) (hf : ∀ x, proj (f x) = proj x)
    (keys : List Nat) (m : KMap α) (j : Nat) :
    proj (kget d (keys.foldl (fun m i => kmod d m i f) m) j) = proj (kget d m j) := by
  induction keys generalizing m with
  | nil => rfl
  | cons i is ih =>
    rw [List.foldl_cons, ih]
    by_cases hij : i = j
    · rw [hij, kget_kmod_same, hf]
    · rw [kget_kmod_other _ _ _ hij]

/-- What a waiter released by its counter keeps. -/
theorem Core.releaseWaiters_thread {β : Type} (proj : Thread → β) (hproj : ∀ th st p, proj { th with state := st, pend := p } = proj th)
    (k : Core) (r : Nat) : proj (k.releaseWaiters.thread r) = proj (k.thread r) := by
  refine kget_foldl_kmod {} _ proj ?_ _ _ _
  intro th
  split
  · split
    · exact hproj th _ _
    · rfl
  · rfl

theorem Core.addCtr_thread {β : Type} (proj : Thread → β) (hproj : ∀ th st p, proj { th with state := st, pend := p } = proj th)
    (k : Core) (i : Nat) (n : Word) (r : Nat) : proj ((k.addCtr i n).thread r) = proj (k.thread r) :=
  Core.releaseWaiters_thread proj hproj _ r

theorem Core.addCtr_ctr_same (k : Core) (i : Nat) (n : Word) : (k.addCtr i n).ctr i = k.ctr i + n :=
  kget_kmod_same 0 k.ctrs i (· + n)

theorem Core.addCtr_ctr_other (k : Core) {i j : Nat} (n : Word) (h : i ≠ j) : (k.addCtr i n).ctr j = k.ctr j :=
  kget_kmod_other 0 k.ctrs (· + n) h

section
variable {s : State} {c : Nat} {t : BitVec 4} {ctr : BitVec 3} {g : BitVec 5}

theorem exec_waitc (h : Issues s c t) (ha : cntAllowed (s.core c).activeCfg ctr.toNat = true) (imm : BitVec 12) :
    let k := s.core c
    let th := k.thread t.toNat
    let thr := th.getG g.toNat + imm.signExtend 32
    ∃ u, exec (.waitc c t ctr g imm) s = .next u ∧ ThreadOnly c t s u (pcNext (if 0 ≤ (k.ctr ctr.toNat - thr).toInt then th
      else { th with state := .waitCounter, pend := .waitc ctr.toNat thr })) k.cstat := by
  intro k th thr
  have ha' : cntAllowed (s.view c).core.activeCfg ctr.toNat = true := ha
  by_cases hw : 0 ≤ (k.ctr ctr.toNat - thr).toInt
  · have hhold : waitHolds ((s.view c).core.ctr ctr.toNat) (((s.view c).th t.toNat).getG g.toNat + imm.signExtend 32) = true :=
      decide_eq_true hw
    rw [if_pos hw]
    refine issue_touched h rfl ?_ (CoreView.Touched.rfl' t.toNat (s.view c)) rfl
    simp only [doWaitc, ha', hhold]
    rfl
  · have hhold : waitHolds ((s.view c).core.ctr ctr.toNat) (((s.view c).th t.toNat).getG g.toNat + imm.signExtend 32) = false :=
      decide_eq_false hw
    rw [if_neg hw]
    refine issue_modT (g := fun x => { x with state := .waitCounter, pend := .waitc ctr.toNat thr }) h rfl ?_ rfl
    simp only [doWaitc, ha', hhold]
    rfl

theorem exec_cntadd (h : Issues s c t) (ha : cntAllowed (s.core c).activeCfg ctr.toNat = true) (imm : BitVec 16) :
    let k := s.core c
    let th := k.thread t.toNat
    ∃ u, exec (.cntadd c t ctr g imm) s = .next u ∧ OneCore c s u ∧ SameMemory s u ∧
      (u.core c).ctr ctr.toNat = k.ctr ctr.toNat + (th.getG g.toNat + imm.signExtend 32) ∧
      (∀ j, j ≠ ctr.toNat → (u.core c).ctr j = k.ctr j) ∧ ((u.core c).thread t.toNat).g = th.g ∧
      ((u.core c).thread t.toNat).pc = th.pc + 1 := by
  intro k th
  have hf : doCntadd t.toNat ctr.toNat g.toNat imm (s.view c) =
      ⟨{ s.view c with core := k.addCtr ctr.toNat (th.getG g.toNat + imm.signExtend 32) }, .seq⟩ := by
    have ha' : cntAllowed (s.view c).core.activeCfg ctr.toNat = true := ha
    simp only [doCntadd, ha']
    rfl
  obtain ⟨u, hu, hone, hmem, hmarks, -, hthread, hcore⟩ := issue_seq (array := false) h.1 h.2 rfl hf
  have hctrs (j : Nat) : (u.core c).ctr j = (k.addCtr ctr.toNat (th.getG g.toNat + imm.signExtend 32)).ctr j := by
    rw [hcore]
    rfl
  refine ⟨u, hu, hone, ⟨hmem, hmarks, fun a => by rw [hmem]; rfl⟩, ?_, ?_, ?_, ?_⟩
  · rw [hctrs, Core.addCtr_ctr_same]
  · intro j hj
    rw [hctrs, Core.addCtr_ctr_other _ _ hj.symm]
  · rw [hthread]
    exact Core.addCtr_thread (·.g) (fun _ _ _ => rfl) ..
  · rw [hthread]

theorem exec_cntrd (h : Issues s c t) (ha : cntAllowed (s.core c).activeCfg ctr.toNat = true) :
    ∃ u, exec (.cntrd c t ctr g) s = .next u ∧
      ThreadOnly c t s u (pcNext (((s.core c).thread t.toNat).setG g.toNat ((s.core c).ctr ctr.toNat))) (s.core c).cstat := by
  have ha' : cntAllowed (s.view c).core.activeCfg ctr.toNat = true := ha
  refine issue_putG h rfl ?_
  simp only [doCntrd, ha']
  rfl

end

/-! ### SWAP (R85, R137) -/

section
variable {s : State} {c : Nat} {t : BitVec 4} {sw sa : Bool}

theorem exec_swap (h : Issues s c t) (hl : (sw || sa) = true)
    (hd : ((sw && !bitOf (s.core c).activeCfg.toNat 206) || (sa && !bitOf (s.core c).activeCfg.toNat 207)) = false)
    (hb : ((sw && swapBlocked (s.view c) .w (s.core c).frontW) || (sa && swapBlocked (s.view c) .a (s.core c).frontA)) = false) :
    ∃ u, exec (.swap c t sw sa) s = .next u ∧ OneCore c s u ∧ SameMemory s u ∧ OtherThreads c t.toNat s u ∧
      (u.core c).thread t.toNat = pcNext ((s.core c).thread t.toNat) ∧
      u.core c = { s.core c with
        threads := (u.core c).threads
        generalPtr := t
        frontW := (s.core c).frontW != sw
        frontA := (s.core c).frontA != sa } := by
  have hf : doSwap t.toNat sw sa (s.view c) =
      ⟨{ s.view c with core := { s.core c with frontW := (s.core c).frontW != sw, frontA := (s.core c).frontA != sa } }, .seq⟩ := by
    have hd' : ((sw && !bitOf (s.view c).core.activeCfg.toNat 206) || (sa && !bitOf (s.view c).core.activeCfg.toNat 207)) = false := hd
    have hb' : ((sw && swapBlocked (s.view c) .w (s.view c).core.frontW) ||
      (sa && swapBlocked (s.view c) .a (s.view c).core.frontA)) = false := hb
    simp only [doSwap, hd', hb']
    rfl
  obtain ⟨u, hu, hone, hmem, hmarks, hother, hthread, hcore⟩ := issue_seq (array := false) h.1 h.2 hl hf
  exact ⟨u, hu, hone, ⟨hmem, hmarks, fun a => by rw [hmem]; rfl⟩, hother, hthread, hcore⟩

theorem exec_swap_waits (h : HasTurn s c t false) (hl : (sw || sa) = true)
    (hd : ((sw && !bitOf (s.core c).activeCfg.toNat 206) || (sa && !bitOf (s.core c).activeCfg.toNat 207)) = false)
    (hb : ((sw && swapBlocked (s.view c) .w (s.core c).frontW) || (sa && swapBlocked (s.view c) .a (s.core c).frontA)) = true) :
    exec (.swap c t sw sa) s = .next (waiting s c t .waitArray) := by
  refine issue_waits h hl (onView_waits ?_)
  have hd' : ((sw && !bitOf (s.view c).core.activeCfg.toNat 206) || (sa && !bitOf (s.view c).core.activeCfg.toNat 207)) = false := hd
  have hb' : ((sw && swapBlocked (s.view c) .w (s.view c).core.frontW) ||
    (sa && swapBlocked (s.view c) .a (s.view c).core.frontA)) = true := hb
  simp only [doSwap, hd', hb']
  rfl

end

end Sys2Proof.Machine

namespace Sys2Proof.Proofs

open Sys2Proof.Machine Sys2Proof.Claims

/-- Settles O26: each counter instruction behind its test of the mask, and SWAP behind its test of the transfers. -/
theorem counterAndSwap : Obligations.CounterAndSwap := by
  unfold Obligations.CounterAndSwap
  constructor
  · intro s c t ctr g imm imm2 h k th thr
    refine ⟨fun ha => ⟨exec_waitc h ha imm, exec_cntadd h ha imm2, exec_cntrd h ha⟩, ?_⟩
    intro ha i hi
    have ha' : cntAllowed (s.view c).core.activeCfg ctr.toNat = false := ha
    have fails {f : CoreView → Issue} (hexec : exec i s = issue c t false true (onView c f) s)
        (hf : f (s.view c) = (s.view c).failed .counter) :
        ∃ u, exec i s = .next u ∧ (u.core c).thread t.toNat = { th with state := .faulted } := by
      obtain ⟨u, hu, -, hthread⟩ := issue_failed h.1 rfl hf
      exact ⟨u, hexec.trans hu, hthread⟩
    simp only [List.mem_cons, List.not_mem_nil, or_false] at hi
    rcases hi with rfl | rfl | rfl
    · exact fails rfl (by simp only [doWaitc, ha']; rfl)
    · exact fails rfl (by simp only [doCntadd, ha']; rfl)
    · exact fails rfl (by simp only [doCntrd, ha']; rfl)
  · intro s c t sw sa h hl k th busy hw ha
    have hd : ((sw && !bitOf k.activeCfg.toNat 206) || (sa && !bitOf k.activeCfg.toNat 207)) = false := by
      cases sw <;> cases sa <;> simp_all
    exact ⟨fun hb => exec_swap h hl hd hb, fun hb => exec_swap_waits h.1 hl hd hb⟩

end Sys2Proof.Proofs
end

section
/-! PROOFS. QPUSH and QPOP, DMA and WALK at issue (R88, R91, R93, R94, R132–R134). -/

namespace Sys2Proof.Machine

open Sys2Proof.Claims

/-! ### What moving entries keeps -/

/-- Pushing leaves memory and marks, the other threads, the thread's PC, and of the core all but threads, CSTAT and outbound queues. -/
def PushKeeps (t : Nat) (v w : CoreView) : Prop :=
  w.mem = v.mem ∧ w.marks = v.marks ∧ w.core = { v.core with threads := w.core.threads, cstat := w.core.cstat, qout := w.core.qout } ∧
    (∀ r, r ≠ t → w.core.thread r = v.core.thread r) ∧ (w.core.thread t).pc = (v.core.thread t).pc

theorem PushKeeps.trans {t : Nat} {v w x : CoreView} (h : PushKeeps t v w) (h' : PushKeeps t w x) : PushKeeps t v x := by
  obtain ⟨hm, hk, hc, ho, hp⟩ := h
  obtain ⟨hm', hk', hc', ho', hp'⟩ := h'
  refine ⟨hm'.trans hm, hk'.trans hk, ?_, fun r hr => (ho' r hr).trans (ho r hr), hp'.trans hp⟩
  rw [hc', hc]

theorem CoreView.Reads.pushKeeps {t : Nat} {v w : CoreView} (h : v.Reads t w) : PushKeeps t v w := by
  obtain ⟨ht, hpc⟩ := h
  refine ⟨ht.mem, ht.marks, ?_, fun r hr => ht.other hr, hpc⟩
  rw [ht.core]

theorem pushSome_keeps (t q r : Nat) (pad : Bool) (n : Nat) (v : CoreView) : PushKeeps t v (pushSome t q r pad n v).2.2 := by
  have hrefl (v : CoreView) : PushKeeps t v v := ⟨rfl, rfl, rfl, fun _ _ => rfl, rfl⟩
  induction n generalizing v with
  | zero => exact hrefl v
  | succ n ih =>
    rw [pushSome]
    dsimp only
    split
    · rcases hu : v.useA t r (padOf pad) with _ | ⟨key, v1⟩
      · exact hrefl v
      · have hread := ((CoreView.reads_useA hu).trans ((CoreView.Touched.noteRead v1 t key).reads rfl)).pushKeeps
        exact (hread.trans ⟨rfl, rfl, rfl, fun _ _ => rfl, rfl⟩).trans (ih _)
    · exact hrefl v

/-- Popping leaves the other threads, the thread's PC, and of the core all but threads, CSTAT and inbound queues. -/
def PopKeeps (t : Nat) (v w : CoreView) : Prop :=
  w.core = { v.core with threads := w.core.threads, cstat := w.core.cstat, qin := w.core.qin } ∧
    (∀ r, r ≠ t → w.core.thread r = v.core.thread r) ∧ (w.core.thread t).pc = (v.core.thread t).pc

theorem PopKeeps.trans {t : Nat} {v w x : CoreView} (h : PopKeeps t v w) (h' : PopKeeps t w x) : PopKeeps t v x := by
  obtain ⟨hc, ho, hp⟩ := h
  obtain ⟨hc', ho', hp'⟩ := h'
  refine ⟨?_, fun r hr => (ho' r hr).trans (ho r hr), hp'.trans hp⟩
  rw [hc', hc]

theorem CoreView.Reads.popKeeps {t : Nat} {v w : CoreView} (h : v.Reads t w) : PopKeeps t v w := by
  obtain ⟨ht, hpc⟩ := h
  refine ⟨?_, fun r hr => ht.other hr, hpc⟩
  rw [ht.core]

theorem popSome_keeps (t q r : Nat) (pad : Bool) (n : Nat) (v : CoreView) : PopKeeps t v (popSome t q r pad n v).2.2 := by
  have hrefl (v : CoreView) : PopKeeps t v v := ⟨rfl, fun _ _ => rfl, rfl⟩
  induction n generalizing v with
  | zero => exact hrefl v
  | succ n ih =>
    rw [popSome]
    rcases hq : kget [] v.core.qin q with _ | ⟨e, es⟩
    · exact hrefl v
    · rcases hu : v.useAW t r (padOf pad) with _ | ⟨key, v1⟩
      · exact hrefl v
      · have huse := (CoreView.reads_useA (CoreView.useAW_some hu).1).popKeeps
        have hmark : PopKeeps t v1 (if e.mark then v1.raise t umberBit else v1) := by
          split
          · exact ((CoreView.Touched.raise v1 t umberBit).reads rfl).popKeeps
          · exact hrefl v1
        exact ((huse.trans hmark).trans ⟨rfl, fun _ _ => rfl, rfl⟩).trans (ih _)

/-! ### The end of a queue operation -/

section
variable {s : State} {c : Nat} {t : BitVec 4} {v : CoreView}

/-- With everything moved the instruction is done. -/
theorem issue_queue_done {legal : Bool} {f : CoreView → Issue} {rest : PendOp} (h : Issues s c t) (hl : legal = true)
    (hf : f (s.view c) = queueEnd t.toNat rest (0, true, v)) :
    ∃ u, issue c t false legal (onView c f) s = .next u ∧ OneCore c s u ∧ u.mem = v.mem ∧ u.marks = v.marks ∧
      (∀ r, r ≠ t.toNat → (u.core c).thread r = v.core.thread r) ∧ (u.core c).qin = v.core.qin ∧ (u.core c).qout = v.core.qout ∧
      ((u.core c).thread t.toNat).pc = ((s.core c).thread t.toNat).pc + 1 ∧ ((u.core c).thread t.toNat).state = .ready := by
  have hend : f (s.view c) = ⟨v.modT t.toNat ({ · with pend := .none, state := .ready }), .seq⟩ := hf
  obtain ⟨u, hu, hone, hmem, hmarks, hother, hthread, hcore⟩ := issue_seq (array := false) h.1 h.2 hl hend
  refine ⟨u, hu, hone, hmem, hmarks, ?_, by rw [hcore]; rfl, by rw [hcore]; rfl, by rw [hthread], ?_⟩
  · intro r hr
    exact (hother r hr).trans (Core.thread_modThread_other _ _ hr.symm)
  · rw [hthread]
    exact congrArg Thread.state (Core.thread_modThread_same v.core t.toNat _)

/-- With entries left the thread waits for the rest. -/
theorem issue_queue_waits {legal : Bool} {f : CoreView → Issue} {rest : PendOp} {left : Nat} (h : Issues s c t) (hl : legal = true)
    (h0 : left ≠ 0) (hf : f (s.view c) = queueEnd t.toNat rest (left, true, v)) :
    ∃ u, issue c t false legal (onView c f) s = .next u ∧ OneCore c s u ∧ u.mem = v.mem ∧ u.marks = v.marks ∧
      (∀ r, r ≠ t.toNat → (u.core c).thread r = v.core.thread r) ∧ (u.core c).qin = v.core.qin ∧ (u.core c).qout = v.core.qout ∧
      ((u.core c).thread t.toNat).pc = (v.core.thread t.toNat).pc ∧ ((u.core c).thread t.toNat).state = .waitQueue ∧
      ((u.core c).thread t.toNat).pend = rest := by
  have hend : f (s.view c) = ⟨v.modT t.toNat ({ · with pend := rest, state := .waitQueue }), .begun⟩ := hf.trans (if_neg h0)
  obtain ⟨u, hu, hone, hcore, hmem, hmarks⟩ := issue_begun (array := false) h.1 hl hend
  have hthread : (u.core c).thread t.toNat = { v.core.thread t.toNat with pend := rest, state := .waitQueue } := by
    rw [hcore, Core.thread_point]
    exact Core.thread_modThread_same ..
  refine ⟨u, hu, hone, hmem, hmarks, ?_, by rw [hcore]; rfl, by rw [hcore]; rfl, by rw [hthread], by rw [hthread], by rw [hthread]⟩
  intro r hr
  rw [hcore, Core.thread_point]
  exact Core.thread_modThread_other _ _ hr.symm

end

/-! ### QPUSH and QPOP -/

section
variable {s : State} {c : Nat} {t : BitVec 4} {q : BitVec 2} {r : BitVec 3} {pad : Bool} {nm1 : BitVec 4} {left : Nat} {v : CoreView}

theorem exec_qpush (h : Issues s c t) (ho : HasOperands s c t (.pad pad)) (hb : cfgQbind (s.core c).activeCfg q.toNat ≠ 0)
    (hp : pushSome t.toNat q.toNat r.toNat pad (nm1.toNat + 1) (s.view c) = (left, true, v)) :
    ∃ u, exec (.qpush c t q r pad nm1) s = .next u ∧ OneCore c s u ∧ SameMemory s u ∧ OtherThreads c t.toNat s u ∧
      (u.core c).qout = v.core.qout ∧ (u.core c).qin = (s.core c).qin ∧
      (left = 0 → ((u.core c).thread t.toNat).pc = ((s.core c).thread t.toNat).pc + 1 ∧ ((u.core c).thread t.toNat).state = .ready) ∧
      (left ≠ 0 → ((u.core c).thread t.toNat).pc = ((s.core c).thread t.toNat).pc ∧ ((u.core c).thread t.toNat).state = .waitQueue ∧
        ((u.core c).thread t.toNat).pend = .push q.toNat r.toNat pad left) := by
  have hkeep := pushSome_keeps t.toNat q.toNat r.toNat pad (nm1.toNat + 1) (s.view c)
  rw [hp] at hkeep
  obtain ⟨hvm, hvk, hvc, hvo, hvp⟩ := hkeep
  have hqin : v.core.qin = (s.core c).qin := by rw [hvc]; rfl
  have hb' : (cfgQbind (s.view c).core.activeCfg q.toNat == 0) = false := beq_eq_false_iff_ne.mpr hb
  have hf : needing t.toNat (.pad pad) (doQpush t.toNat q.toNat r.toNat pad (nm1.toNat + 1)) (s.view c) =
      queueEnd t.toNat (.push q.toNat r.toNat pad left) (left, true, v) := by
    rw [needing_ready ho]
    simp only [doQpush, hb', hp, Bool.false_eq_true, if_false]
  by_cases h0 : left = 0
  · subst h0
    obtain ⟨u, hu, hone, hmem, hmarks, hother, hin, hout, hpc, hst⟩ := issue_queue_done h rfl hf
    have hm : u.mem = s.mem := hmem.trans hvm
    exact ⟨u, hu, hone, ⟨hm, hmarks.trans hvk, fun a => by rw [hm]⟩, fun i hi => (hother i hi).trans (hvo i hi), hout, hin.trans hqin,
      fun _ => ⟨hpc, hst⟩, fun hne => absurd rfl hne⟩
  · obtain ⟨u, hu, hone, hmem, hmarks, hother, hin, hout, hpc, hst, hpend⟩ := issue_queue_waits h rfl h0 hf
    have hm : u.mem = s.mem := hmem.trans hvm
    exact ⟨u, hu, hone, ⟨hm, hmarks.trans hvk, fun a => by rw [hm]⟩, fun i hi => (hother i hi).trans (hvo i hi), hout, hin.trans hqin,
      fun h => absurd h h0, fun _ => ⟨hpc.trans hvp, hst, hpend⟩⟩

theorem exec_qpop (h : Issues s c t) (hb : cfgQbind (s.core c).activeCfg q.toNat ≠ 0)
    (hp : popSome t.toNat q.toNat r.toNat pad (nm1.toNat + 1) (s.view c) = (left, true, v)) :
    ∃ u, exec (.qpop c t q r pad nm1) s = .next u ∧ OneCore c s u ∧ u.mem = v.mem ∧ u.marks = v.marks ∧ OtherThreads c t.toNat s u ∧
      (u.core c).qin = v.core.qin ∧ (u.core c).qout = (s.core c).qout ∧
      (left = 0 → ((u.core c).thread t.toNat).pc = ((s.core c).thread t.toNat).pc + 1 ∧ ((u.core c).thread t.toNat).state = .ready) ∧
      (left ≠ 0 → ((u.core c).thread t.toNat).pc = ((s.core c).thread t.toNat).pc ∧ ((u.core c).thread t.toNat).state = .waitQueue ∧
        ((u.core c).thread t.toNat).pend = .pop q.toNat r.toNat pad left) := by
  have hkeep := popSome_keeps t.toNat q.toNat r.toNat pad (nm1.toNat + 1) (s.view c)
  rw [hp] at hkeep
  obtain ⟨hvc, hvo, hvp⟩ := hkeep
  have hqout : v.core.qout = (s.core c).qout := by rw [hvc]; rfl
  have hb' : (cfgQbind (s.view c).core.activeCfg q.toNat == 0) = false := beq_eq_false_iff_ne.mpr hb
  have hf : doQpop t.toNat q.toNat r.toNat pad (nm1.toNat + 1) (s.view c) =
      queueEnd t.toNat (.pop q.toNat r.toNat pad left) (left, true, v) := by
    simp only [doQpop, hb', hp, Bool.false_eq_true, if_false]
  by_cases h0 : left = 0
  · subst h0
    obtain ⟨u, hu, hone, hmem, hmarks, hother, hin, hout, hpc, hst⟩ := issue_queue_done h rfl hf
    exact ⟨u, hu, hone, hmem, hmarks, fun i hi => (hother i hi).trans (hvo i hi), hin, hout.trans hqout,
      fun _ => ⟨hpc, hst⟩, fun hne => absurd rfl hne⟩
  · obtain ⟨u, hu, hone, hmem, hmarks, hother, hin, hout, hpc, hst, hpend⟩ := issue_queue_waits h rfl h0 hf
    exact ⟨u, hu, hone, hmem, hmarks, fun i hi => (hother i hi).trans (hvo i hi), hin, hout.trans hqout,
      fun h => absurd h h0, fun _ => ⟨hpc.trans hvp, hst, hpend⟩⟩

end

/-! ### One entry -/

/-- The bits of a read granule: the thread's UMBER after it, where it was clear. -/
theorem umber_noteRead (v : CoreView) (t k : Nat) (hu : (v.core.thread t).umber = false) :
    ((v.noteRead t k).core.thread t).umber = v.marked k := by
  rw [(CoreView.Touched.noteRead v t k).thread, umber_withFlags, hu, Bool.false_or]
  unfold CoreView.readBits
  cases v.marked k <;> decide

theorem pushSome_one {v : CoreView} {t q r k : Nat} {pad : Bool}
    (hk : v.granule (padOf pad) (aregGranule ((v.core.thread t).getA r)) = some k) (hroom : (kget [] v.core.qout q).length < 2)
    (hu : (v.core.thread t).umber = false) :
    ∃ w, pushSome t q r pad 1 v = (0, true, w) ∧
      kget [] w.core.qout q = kget [] v.core.qout q ++ [⟨v.read256 k, v.marked k, v.core.slotOpen.getD 0⟩] := by
  have huse := CoreView.Touched.modT v t (usedA · r)
  have hread := huse.trans (CoreView.Touched.noteRead _ t k)
  have humber : (((v.modT t (usedA · r)).noteRead t k).core.thread t).umber = v.marked k :=
    umber_noteRead _ t k (by rw [huse.thread]; exact hu)
  have hmarked : ((v.modT t (usedA · r)).noteRead t k).marked k = v.marked k := by
    unfold CoreView.marked
    rw [hread.marks]
  have hslot : ((v.modT t (usedA · r)).noteRead t k).core.slotOpen = v.core.slotOpen := by rw [hread.core]
  refine ⟨_, by simp only [pushSome, hroom, if_true, CoreView.useA_eq hk]; rfl, ?_⟩
  simp only [kget_kset_same, hread.read256, hmarked, CoreView.th, humber, hslot, Bool.or_self]

theorem popSome_one {v : CoreView} {t q r k : Nat} {pad : Bool} {e : QEntry} {es : List QEntry}
    (hk : v.granule (padOf pad) (aregGranule ((v.core.thread t).getA r)) = some k) (hw : v.mayWrite k = true)
    (hq : kget [] v.core.qin q = e :: es) :
    ∃ w, popSome t q r pad 1 v = (0, true, w) ∧ kget [] w.core.qin q = es ∧ w.mem = v.mem.writeNat k 32 e.data.toNat := by
  have huse : v.useAW t r (padOf pad) = some (k, v.modT t (usedA · r)) := by
    simp only [CoreView.useAW, CoreView.useA_eq hk, hw, if_true]
  refine ⟨_, by simp only [popSome, hq, huse]; rfl, ?_, ?_⟩
  · exact kget_kset_same _ _ _ _
  · change Mem.writeBytes _ k (leBytes 32 e.data.toNat) = _
    split <;> rfl

/-! ### DMA and WALK at issue -/

@[simp] theorem Core.slot_setSlot_same (k : Core) (i : Nat) (d : Option DmaSlot) : (k.setSlot i d).slot i = d :=
  kget_kset_same _ _ _ _

theorem Core.slot_setSlot_other (k : Core) {i j : Nat} (d : Option DmaSlot) (h : i ≠ j) : (k.setSlot i d).slot j = k.slot j :=
  kget_kset_other _ _ _ h

section
variable {s s1 : State} {c : Nat} {t : BitVec 4} {i : Nat}

/-- An instruction of the general slot that takes a transfer slot and goes on. -/
theorem issue_takes_slot {legal : Bool} {f : State → State × IssueEnd} {sl : DmaSlot} (h : Issues s c t) (hl : legal = true)
    (hf : f s = (s1, .seq)) (hcore : s1.core c = (s.core c).setSlot i (some sl)) (hmem : s1.mem = s.mem) (hmarks : s1.marks = s.marks) :
    ∃ u, issue c t false legal f s = .next u ∧ SameMemory s u ∧ (u.core c).slot i = some sl ∧
      (∀ j, j ≠ i → (u.core c).slot j = (s.core c).slot j) ∧ (u.core c).thread t.toNat = pcNext ((s.core c).thread t.toNat) ∧
      OtherThreads c t.toNat s u := by
  obtain ⟨u, hu, huc, hum, huk⟩ := issue_state_seq h.1 h.2 hl hf
  have hm : u.mem = s.mem := hum.trans hmem
  have hslots (j : Nat) : (u.core c).slot j = ((s.core c).setSlot i (some sl)).slot j := by rw [huc, hcore]; rfl
  refine ⟨u, hu, ⟨hm, huk.trans hmarks, fun a => by rw [hm]⟩, ?_, ?_, ?_, ?_⟩
  · rw [hslots, Core.slot_setSlot_same]
  · intro j hj
    rw [hslots, Core.slot_setSlot_other _ _ hj.symm]
  · rw [huc, Core.thread_modThread_same, Core.thread_point, hcore]
    rfl
  · intro r hr
    rw [huc, Core.thread_modThread_other _ _ hr.symm, Core.thread_point, hcore]
    rfl

/-- An instruction that is a core fault before it changes the state. -/
theorem issue_state_failed {legal : Bool} {f : State → State × IssueEnd} {cause : Cause} (h : HasTurn s c t false) (hl : legal = true)
    (hf : f s = (s, .fault cause)) :
    ∃ u, issue c t false legal f s = .next u ∧ (u.core c).thread t.toNat = { (s.core c).thread t.toNat with state := .faulted } ∧
      (u.core c).slots = (s.core c).slots ∧ OtherThreads c t.toNat s u := by
  obtain ⟨u, hu, huc, -, -⟩ := issue_state_stops h hl hf (.inl ⟨cause, rfl⟩)
  refine ⟨u, hu, ?_, ?_, ?_⟩
  · rw [huc, Core.thread_stop_same, Core.thread_point]
  · rw [huc]
    rfl
  · intro r hr
    rw [huc, Core.thread_stop_other _ _ hr, Core.thread_point]

variable {gs gd gl : Nat} {ctr : BitVec 3} {cpt : Bool}

/-- The length and the addresses that R133 allows. -/
def dmaShape (a d n : Nat) : Bool := !(n == 0 || decide (0x100000 < n) || n % 32 != 0 || a % 32 != 0 || d % 32 != 0)

theorem dmaShape_eq_true {a d n : Nat} (h0 : 0 < n) (h1 : n ≤ 0x100000) (hn : n % 32 = 0) (ha : a % 32 = 0) (hd : d % 32 = 0) :
    dmaShape a d n = true := by
  simp [dmaShape, hn, ha, hd, Nat.not_lt.mpr h1, h0.ne']

theorem dmaShape_eq_false {a d n : Nat} (h : n = 0 ∨ 0x100000 < n ∨ n % 32 ≠ 0 ∨ a % 32 ≠ 0 ∨ d % 32 ≠ 0) : dmaShape a d n = false := by
  rcases h with h | h | h | h | h <;> simp [dmaShape, h]

/-- DMA at issue, once a slot is free. -/
theorem dmaIssue_of_freeSlot (hi : (s.core c).freeSlot = some i) :
    let k := s.core c
    let a := ((k.thread t.toNat).getPair gs).toNat
    let d := ((k.thread t.toNat).getPair gd).toNat
    let n := ((k.thread t.toNat).getG gl).toNat
    dmaIssue c t gs gd gl ctr s =
      if !cntAllowed k.activeCfg ctr.toNat then (s, .fault .counter)
      else if !dmaShape a d n then (s, .fault .dma)
      else match s.dmaEnd c false a n, s.dmaEnd c true d n with
        | .error e, _ => (s, .fault e)
        | _, .error e => (s, .fault e)
        | .ok x, .ok y =>
          let count := kget 0 s.links.xferCount c
          let s1 := s.setSlot c i (some
            { src := x.key, dst := y.key, len := n, ctr := ctr, thread := t, cfg := BitVec.ofNat 3 k.openCfg, srcLocal := x.own
              dstLocal := y.own, stream := y.stream, xfer := count, ord := ((s.partOf c).map s.ordOf).getD 0 })
          ({ s1 with links := { s1.links with xferCount := kset 0 s1.links.xferCount c (count + 1) } }, .seq) := by
  simp only [dmaIssue, hi, dmaShape, Bool.not_not] <;> rfl

theorem walkIssue_of_freeSlot (hi : (s.core c).freeSlot = some i) :
    let k := s.core c
    walkIssue c t gd ctr cpt s =
      if !cntAllowed k.activeCfg ctr.toNat then (s, .fault .counter)
      else match s.blockKey c ((k.thread t.toNat).getPair gd).toNat with
        | .error e => (s, .fault e)
        | .ok key =>
          (s.setSlot c i (some { ctr := ctr, thread := t, cfg := BitVec.ofNat 3 k.openCfg, walk := some { blockAddr := key, cpt := cpt }
                                 ord := ((s.partOf c).map s.ordOf).getD 0 }), .seq) := by
  simp only [walkIssue, hi] <;> rfl

/-- With no slot free the thread waits. -/
theorem dmaIssue_waits (hi : (s.core c).freeSlot = none) : dmaIssue c t gs gd gl ctr s = (waiting s c t .waitDma, .stay) := by
  simp only [dmaIssue, hi]
  rfl

theorem walkIssue_waits (hi : (s.core c).freeSlot = none) : walkIssue c t gd ctr cpt s = (waiting s c t .waitDma, .stay) := by
  simp only [walkIssue, hi] <;> rfl

theorem setSlot_core_same (s : State) (c i : Nat) (d : Option DmaSlot) : (s.setSlot c i d).core c = (s.core c).setSlot i d :=
  State.core_modCore_same ..

end

end Sys2Proof.Machine

namespace Sys2Proof.Proofs

open Sys2Proof.Machine Sys2Proof.Claims

/-- Settles O24: what moves by induction over the entries, then the end of the operation, then one entry. -/
theorem queueResults : Obligations.QueueResults := by
  unfold Obligations.QueueResults
  intro s c t q r pad nm1 k left v e es h ho th out
  refine ⟨fun hb => ⟨fun hp => exec_qpush h ho hb hp, fun hp => exec_qpop h hb hp, ?_, ?_⟩, ?_⟩
  · intro hk hroom hu
    obtain ⟨w, hp, hout⟩ := pushSome_one (v := s.view c) hk hroom hu
    obtain ⟨u, hu', -, -, -, hqout, -⟩ := exec_qpush (nm1 := 0) h ho hb hp
    refine ⟨u, hu', ?_⟩
    rw [hqout, hout]
    rfl
  · intro hk hw hq
    obtain ⟨w, hp, hin, hmem⟩ := popSome_one (v := s.view c) hk hw hq
    obtain ⟨u, hu', -, hum, -, -, hqin, -⟩ := exec_qpop (nm1 := 0) h hb hp
    refine ⟨u, hu', by rw [hqin, hin], ?_, ?_⟩
    · rw [hum, hmem, Mem.readNat_writeNat]
      exact Nat.mod_eq_of_lt e.data.isLt
    · intro a ha
      rw [hum, hmem]
      exact Mem.read_writeNat_outside _ ha
  · intro hb
    have hb' : (cfgQbind (s.view c).core.activeCfg q.toNat == 0) = true := beq_iff_eq.mpr hb
    obtain ⟨u, hu, -, hthread⟩ := issue_failed (cause := .openQueue)
      (f := needing t.toNat (.pad pad) (doQpush t.toNat q.toNat r.toNat pad (nm1.toNat + 1))) h.1 rfl
      (by rw [needing_ready ho]; simp only [doQpush, hb', if_true])
    obtain ⟨w, hw, -, hthread'⟩ := issue_failed (cause := .openQueue)
      (f := doQpop t.toNat q.toNat r.toNat pad (nm1.toNat + 1)) h.1 rfl (by simp only [doQpop, hb', if_true])
    exact ⟨u, w, hu, hw, hthread, hthread'⟩

/-- Settles O25: DMA and WALK with a slot free, check by check, and with none. -/
theorem transferIssue : Obligations.TransferIssue := by
  unfold Obligations.TransferIssue
  intro s c t gs gd gl ctr cpt i x y key h hgs hgd hgl k th a d n
  have hdma : (pairField gs && pairField gd && gl != 0) = true := by simpa [hgs, hgd] using hgl
  refine ⟨?free, ?faults, ?none⟩
  case free =>
    intro hi hctr
    constructor
    · intro h0 h1 hn ha hd hx hy
      have hshape : dmaShape a d n = true := dmaShape_eq_true h0 h1 hn ha hd
      have hf := dmaIssue_of_freeSlot (t := t) (gs := gs.toNat) (gd := gd.toNat) (gl := gl.toNat) (ctr := ctr) hi
      dsimp only at hf
      rw [hctr, hshape, hx, hy] at hf
      obtain ⟨u, hu, hsame, hslot, hslots, hthread, hother⟩ := issue_takes_slot h hdma hf (setSlot_core_same ..) rfl rfl
      exact ⟨u, _, hu, hsame, hslot, rfl, rfl, rfl, rfl, rfl, rfl, rfl, hslots, hthread, hother⟩
    · intro hkey
      have hf := walkIssue_of_freeSlot (t := t) (gd := gd.toNat) (ctr := ctr) (cpt := cpt) hi
      dsimp only at hf
      rw [hctr, hkey] at hf
      obtain ⟨u, hu, hsame, hslot, hslots, hthread, hother⟩ := issue_takes_slot h hgd hf (setSlot_core_same ..) rfl rfl
      exact ⟨u, _, _, hu, hsame, hslot, rfl, rfl, rfl, rfl, rfl, rfl, hslots, hthread, hother⟩
  case faults =>
    intro hsome faults
    obtain ⟨j, hj⟩ := Option.isSome_iff_exists.mp hsome
    have hd := dmaIssue_of_freeSlot (t := t) (gs := gs.toNat) (gd := gd.toNat) (gl := gl.toNat) (ctr := ctr) hj
    have hw := walkIssue_of_freeSlot (t := t) (gd := gd.toNat) (ctr := ctr) (cpt := cpt) hj
    dsimp only at hd hw
    have dma_faults {cause : Cause} (hf : dmaIssue c t gs.toNat gd.toNat gl.toNat ctr s = (s, .fault cause)) :
        faults (.dma c t gs gd gl ctr) := issue_state_failed h.1 hdma hf
    have walk_faults {cause : Cause} (hf : walkIssue c t gd.toNat ctr cpt s = (s, .fault cause)) : faults (.walk c t gd ctr cpt) :=
      issue_state_failed h.1 hgd hf
    by_cases hctr : cntAllowed k.activeCfg ctr.toNat = true
    · rw [hctr] at hd hw
      refine ⟨fun hno => absurd hno (by simp [hctr]), ?_, ?_, ?_⟩
      · intro hbad
        have hshape : dmaShape a d n = false := dmaShape_eq_false hbad
        rw [hshape] at hd
        exact dma_faults hd
      · intro e he
        by_cases hshape : dmaShape a d n = true
        · rw [hshape] at hd
          rcases hx : s.dmaEnd c false a n with ex | x'
          · rw [hx] at hd
            exact dma_faults hd
          · rcases hy : s.dmaEnd c true d n with ey | y'
            · rw [hx, hy] at hd
              exact dma_faults hd
            · rcases he with he | he
              · exact absurd (hx.symm.trans he) (by simp)
              · exact absurd (hy.symm.trans he) (by simp)
        · rw [Bool.not_eq_true] at hshape
          rw [hshape] at hd
          exact dma_faults hd
      · intro e he
        rw [he] at hw
        exact walk_faults hw
    · rw [Bool.not_eq_true] at hctr
      rw [hctr] at hd hw
      exact ⟨fun _ => ⟨dma_faults hd, walk_faults hw⟩, fun _ => dma_faults hd, fun _ _ => dma_faults hd, fun _ _ => walk_faults hw⟩
  case none =>
    intro hnone
    exact ⟨issue_waits h.1 hdma (dmaIssue_waits hnone), issue_waits h.1 hgd (walkIssue_waits hnone)⟩

end Sys2Proof.Proofs
end

section
/-! PROOFS. Rules of the register file (R528, R529), and the change of the tick rate with supply droops (R39, R45). -/

namespace Sys2Proof.Machine

open Sys2Proof.Claims

/-! ### Registers -/

theorem State.reg_setReg (s : State) (a v b : Nat) : (s.setReg a v).reg b = if a = b then v % 2 ^ 32 else s.reg b := by
  split
  next h => rw [← h, State.reg_setReg_same]
  next h => exact State.reg_setReg_other s v h

theorem State.reg_setField (s : State) (a lo len v b : Nat) :
    (s.setField a lo len v).reg b = if a = b then putBits (s.reg a) lo len v % 2 ^ 32 else s.reg b :=
  State.reg_setReg s a _ b

theorem State.reg_count (s : State) (a n b : Nat) : (s.count a n).reg b = if a = b then (s.reg a + n) % 2 ^ 32 else s.reg b :=
  State.reg_setReg s a _ b

theorem State.reg_setBit_other (s : State) {a b : Nat} (i : Nat) (h : a ≠ b) : (s.setBit a i).reg b = s.reg b :=
  State.reg_setReg_other s _ h

theorem State.reg_clearBit_other (s : State) {a b : Nat} (i : Nat) (h : a ≠ b) : (s.clearBit a i).reg b = s.reg b :=
  State.reg_setReg_other s _ h

/-- Two states with the same registers read the same. -/
theorem State.reg_congr {s u : State} (h : u.regs = s.regs) (b : Nat) : u.reg b = s.reg b := by
  unfold State.reg
  rw [h]

/-- A field within 32 bits reads the same in a register word. -/
theorem bitsOf_word (n lo len : Nat) (h : lo + len ≤ 32) : bitsOf (n % 2 ^ 32) lo len = bitsOf n lo len := by
  rw [← BitVec.toNat_ofNat]
  exact bitsOf_toNat_ofNat 32 n lo len h

theorem State.field_setField_same (s : State) (a lo len v : Nat) (h : lo + len ≤ 32) :
    (s.setField a lo len v).field a lo len = v % 2 ^ len := by
  unfold State.field
  rw [State.reg_setField, if_pos rfl, bitsOf_word _ _ _ h, bitsOf_putBits_same]

theorem State.field_setField_apart (s : State) (a lo len v lo' len' : Nat) (h : lo' + len' ≤ 32)
    (hd : lo' + len' ≤ lo ∨ lo + len ≤ lo') : (s.setField a lo len v).field a lo' len' = s.field a lo' len' := by
  unfold State.field
  rw [State.reg_setField, if_pos rfl, bitsOf_word _ _ _ h, bitsOf_putBits_apart _ _ _ _ _ _ hd]

theorem bitOf_eq (n i : Nat) : bitOf n i = (bitsOf n i 1 == 1) := by simp [bitOf, bitsOf]

theorem State.bit_eq (s : State) (a i : Nat) : s.bit a i = (s.field a i 1 == 1) := bitOf_eq _ i

theorem State.bit_setBit_same (s : State) (a i : Nat) (h : i < 32) : (s.setBit a i).bit a i = true := by
  have hf : (s.setBit a i).field a i 1 = 1 % 2 ^ 1 := State.field_setField_same s a i 1 1 (by omega)
  rw [State.bit_eq, hf]
  rfl

theorem State.bit_clearBit_same (s : State) (a i : Nat) (h : i < 32) : (s.clearBit a i).bit a i = false := by
  have hf : (s.clearBit a i).field a i 1 = 0 % 2 ^ 1 := State.field_setField_same s a i 1 0 (by omega)
  rw [State.bit_eq, hf]
  rfl

theorem State.bit_setBit_apart (s : State) (a i j : Nat) (h : i ≠ j) (hj : j < 32) : (s.setBit a i).bit a j = s.bit a j := by
  have hf : (s.setBit a i).field a j 1 = s.field a j 1 := State.field_setField_apart s a i 1 1 j 1 (by omega) (by omega)
  rw [State.bit_eq, hf, State.bit_eq]

theorem State.bit_clearBit_apart (s : State) (a i j : Nat) (h : i ≠ j) (hj : j < 32) : (s.clearBit a i).bit a j = s.bit a j := by
  have hf : (s.clearBit a i).field a j 1 = s.field a j 1 := State.field_setField_apart s a i 1 0 j 1 (by omega) (by omega)
  rw [State.bit_eq, hf, State.bit_eq]

/-! ### Which registers a change leaves -/

theorem otherRegs_setReg (s : State) (a v : Nat) : OtherRegs a s (s.setReg a v) :=
  fun _ h => State.reg_setReg_other s v h.symm

theorem otherRegs_setField (s : State) (a lo len v : Nat) : OtherRegs a s (s.setField a lo len v) := otherRegs_setReg s a _

theorem otherRegs_setBit (s : State) (a i : Nat) : OtherRegs a s (s.setBit a i) := otherRegs_setReg s a _

theorem otherRegs_count (s : State) (a n : Nat) : OtherRegs a s (s.count a n) := otherRegs_setReg s a _

theorem regsOnly_setReg (s : State) (a v : Nat) : RegsOnly s (s.setReg a v) := rfl

theorem regsOnly_setField (s : State) (a lo len v : Nat) : RegsOnly s (s.setField a lo len v) := rfl

theorem regsOnly_setBit (s : State) (a i : Nat) : RegsOnly s (s.setBit a i) := rfl

/-! ### Both words of a 64-bit register (R529) -/

theorem State.reg_commitWide (s : State) (who lo hi b : Nat) :
    (s.commitWide who lo hi).reg b =
      if lo + 4 = b then hi % 2 ^ 32 else if lo = b then s.staged who lo % 2 ^ 32 else s.reg b := by
  have h : (s.commitWide who lo hi).reg b = ((s.setReg lo (s.staged who lo)).setReg (lo + 4) hi).reg b :=
    State.reg_congr rfl b
  rw [h, State.reg_setReg, State.reg_setReg]

theorem regsBut_commitWide (s : State) (who lo hi : Nat) : RegsBut [lo, lo + 4] s (s.commitWide who lo hi) := by
  intro b hb
  simp only [List.mem_cons, List.not_mem_nil, or_false, not_or] at hb
  obtain ⟨hlo, hhi⟩ := hb
  rw [State.reg_commitWide, if_neg (Ne.symm hhi), if_neg (Ne.symm hlo)]

/-! ### The armed rate (R45) -/

theorem State.takeRate_due (s : State) {count : Nat} (ha : s.alm.armed = some count) (h : count ≤ s.tick) :
    s.takeRate = { s.setField (almReg 0x0C) 0 2 (s.field (almReg 0x54) 0 2) with alm := { s.alm with armed := none } } := by
  simp [State.takeRate, ha, h]

theorem State.takeRate_waits (s : State) (count : Nat) (h : s.alm.armed = none ∨ s.alm.armed = some count ∧ s.tick < count) :
    s.takeRate = s := by
  obtain h | ⟨ha, ht⟩ := h
  · simp [State.takeRate, h]
  · simp [State.takeRate, ha, ht]

theorem State.armRate_arms (s : State) (value : Nat) (hi : s.anyImage = false)
    (ht : s.tick < s.staged 0 (almReg 0x58) + value % 2 ^ 32 * 2 ^ 32) :
    s.armRate 0 value = { s.commitWide 0 (almReg 0x58) value with
      alm := { s.alm with armed := some (s.staged 0 (almReg 0x58) + value % 2 ^ 32 * 2 ^ 32) } } := by
  simp only [State.armRate, hi, Bool.false_or, decide_eq_true_eq, Nat.not_le.mpr ht, if_false]

theorem State.armRate_busy (s : State) (value : Nat)
    (h : s.anyImage = true ∨ s.staged 0 (almReg 0x58) + value % 2 ^ 32 * 2 ^ 32 ≤ s.tick) :
    s.armRate 0 value = s.setBit (almReg 0x50) 2 := by
  have hc : (s.anyImage || decide (s.staged 0 (almReg 0x58) + value % 2 ^ 32 * 2 ^ 32 ≤ s.tick)) = true := by simpa using h
  simp only [State.armRate, hc, if_true]

end Sys2Proof.Machine

namespace Sys2Proof.Proofs

open Sys2Proof.Machine Sys2Proof.Claims

/-- Settles O31, by the two outcomes of taking a rate and of arming one. -/
theorem ratesAndDroop : Obligations.RatesAndDroop := by
  unfold Obligations.RatesAndDroop
  intro s count value n
  refine ⟨fun ha ht => ?_, fun h => ?_, ⟨fun hi ht => ?_, fun h => ?_⟩, fun hd => ?_⟩
  · refine ⟨_, congrArg Host.Outcome.next (s.takeRate_due ha ht), rfl, ?_, otherRegs_setField s _ _ _ _⟩
    refine (State.field_setField_same s (almReg 0x0C) 0 2 _ (by omega)).trans (Nat.mod_eq_of_lt (bitsOf_lt _ _ _))
  · exact congrArg Host.Outcome.next (s.takeRate_waits count h)
  · refine ⟨_, congrArg Host.Outcome.next (s.armRate_arms value hi ht), rfl, ?_, ?_, regsBut_commitWide s 0 _ _, rfl, rfl⟩
    · exact (State.reg_commitWide s 0 (almReg 0x58) value (almReg 0x5C)).trans (if_pos rfl)
    · refine (State.reg_commitWide s 0 (almReg 0x58) value (almReg 0x58)).trans ?_
      rw [if_neg (by decide), if_pos rfl]
  · exact ⟨_, congrArg Host.Outcome.next (s.armRate_busy value h), regsOnly_setBit s _ _, State.bit_setBit_same s _ _ (by omega),
      otherRegs_setBit s _ _⟩
  · have hx : exec (.supplyDroop n) s = .next ({ s with
        subtick := min (s.subtick + n) (s.cycles - 1)
        alm := { s.alm with stretch := s.alm.stretch + n } }.count (mgmtReg 0x214) n) := by
      change execSupplyDroop n s = _
      simp [execSupplyDroop, hd]
    exact ⟨_, hx, rfl, rfl, State.reg_setReg_same _ _ _, otherRegs_count _ _ _, rfl, rfl, rfl⟩

end Sys2Proof.Proofs
end

section
/-! PROOFS. Trace records, the sync tree's status word, lock and holdover (R60, R61, R64). -/

namespace Sys2Proof.Machine

open Sys2Proof.Claims

/-! ### What a trace record leaves (R480, R481) -/

/-- A trace record changes the buffer, its counts of losses and the two counters of lost records. -/
theorem State.trace_obs (s : State) (type func arg0 arg1 : Nat) :
    s.trace type func arg0 arg1 = { s with
      regs := (s.trace type func arg0 arg1).regs
      obs := { s.obs with
        buf := (s.trace type func arg0 arg1).obs.buf
        lost := (s.trace type func arg0 arg1).obs.lost
        lostSamples := (s.trace type func arg0 arg1).obs.lostSamples } } := by
  unfold State.trace
  split
  · rfl
  · split
    · rfl
    · split <;> rfl

theorem regsBut_trace (s : State) (type func arg0 arg1 : Nat) :
    RegsBut [obsReg 0x408, obsReg 0x518] s (s.trace type func arg0 arg1) := by
  intro b hb
  simp only [List.mem_cons, List.not_mem_nil, or_false, not_or] at hb
  obtain ⟨h1, h2⟩ := hb
  unfold State.trace
  split
  · rfl
  · split
    · rfl
    · split
      · exact State.reg_setReg_other s _ (Ne.symm h1)
      · exact State.reg_setReg_other s _ (Ne.symm h2)

theorem State.trace_alm (s : State) (type func arg0 arg1 : Nat) : (s.trace type func arg0 arg1).alm = s.alm := by
  rw [State.trace_only]

/-- An almanac word reads the same after a trace record. -/
theorem State.reg_trace_alm (s : State) (type func arg0 arg1 off : Nat) (h : off < 0x100) :
    (s.trace type func arg0 arg1).reg (almReg off) = s.reg (almReg off) := by
  apply regsBut_trace
  simp only [List.mem_cons, List.not_mem_nil, or_false, not_or, almReg, obsReg]
  omega

theorem almanacOnly_trace {s u : State} (type func arg0 arg1 : Nat) (h : AlmanacOnly s u) :
    AlmanacOnly s (u.trace type func arg0 arg1) := by
  unfold AlmanacOnly at h ⊢
  rw [State.trace_obs, h]

theorem almanacOnly_setReg {s u : State} (a v : Nat) (h : AlmanacOnly s u) : AlmanacOnly s (u.setReg a v) := by
  unfold AlmanacOnly at h ⊢
  rw [h]
  rfl

theorem almanacOnly_setBit {s u : State} (a i : Nat) (h : AlmanacOnly s u) : AlmanacOnly s (u.setBit a i) := almanacOnly_setReg a _ h

theorem almanacOnly_clearBit {s u : State} (a i : Nat) (h : AlmanacOnly s u) : AlmanacOnly s (u.clearBit a i) :=
  almanacOnly_setReg a _ h

theorem almanacOnly_count {s u : State} (a n : Nat) (h : AlmanacOnly s u) : AlmanacOnly s (u.count a n) := almanacOnly_setReg a _ h

theorem almanacOnly_setTree {s u : State} (root valid : Bool) (port depth addr : Nat) (h : AlmanacOnly s u) :
    AlmanacOnly s (u.setTree root valid port depth addr) := almanacOnly_setReg _ _ h

theorem almanacOnly_alm {s u : State} (x : Alm) (h : AlmanacOnly s u) : AlmanacOnly s { u with alm := x } := by
  unfold AlmanacOnly at h ⊢
  rw [h]

theorem almanacOnly_rfl (s : State) : AlmanacOnly s s := rfl

/-! ### ALM_STATUS (R60, R64) -/

theorem State.locked_eq (s : State) : s.locked = (s.field (almReg 0x14) 0 1 == 1) := State.bit_eq s _ _

/-- A status word put together from its fields. -/
theorem bitsOf_statusWord (locked root hold valid port depth addr : Nat) (h0 : locked < 2) (h1 : root < 2) (h2 : hold < 2)
    (h3 : valid < 2) (hp : port < 8) (hd : depth < 256) (ha : addr < 65536) :
    let w := locked + 2 * root + 4 * hold + 8 * valid + 16 * port + 256 * depth + 65536 * addr
    bitsOf w 0 1 = locked ∧ bitsOf w 3 1 = valid ∧ bitsOf w 8 8 = depth ∧ w < 2 ^ 32 := by
  simp only [bitsOf, Nat.reducePow]
  omega

/-- The status word of a module with no parent that is not root: LOCKED stands, PARENT_VALID is clear, the depth is 255. -/
theorem State.setTree_none (s : State) :
    let u := s.setTree false false 0 255 0
    u.locked = s.locked ∧ u.hasParent = false ∧ u.field (almReg 0x14) 8 8 = 255 := by
  have hhold : natOf (bitOf (s.reg (almReg 0x14)) 2 && !false && !false) < 2 := by unfold natOf; split <;> omega
  obtain ⟨hl, hv, hd, hw⟩ := bitsOf_statusWord (bitsOf (s.reg (almReg 0x14)) 0 1) (natOf false) _ (natOf false) (0 % 8) (min 255 255)
    (0 % 65536) (bitsOf_lt _ 0 1) (by decide) hhold (by decide) (by decide) (by decide) (by decide)
  have hreg : (s.setTree false false 0 255 0).reg (almReg 0x14) = _ := (State.reg_setReg_same _ _ _).trans (Nat.mod_eq_of_lt hw)
  refine ⟨?_, ?_, ?_⟩
  · rw [State.locked_eq, State.locked_eq, State.field, hreg, hl, State.field]
  · change State.bit _ _ 3 = false
    rw [State.bit_eq, State.field, hreg, hv]
    rfl
  · rw [State.field, hreg, hd]
    rfl

/-- Holdover of a locked module: what its status word shows, and its count. -/
theorem State.enterHoldover (s : State) (hl : s.locked = true) (port : Nat) :
    let u := (((s.setTree false false 0 255 0).setBit (almReg 0x14) 2).count (almReg 0x4C) 1).trace 6 0 3 port
    u.locked = true ∧ u.inHoldover = true ∧ u.hasParent = false ∧ u.field (almReg 0x14) 8 8 = 255 ∧
      u.reg (almReg 0x4C) = (s.reg (almReg 0x4C) + 1) % 2 ^ 32 := by
  obtain ⟨htl, htp, htd⟩ := State.setTree_none s
  let v := (s.setTree false false 0 255 0).setBit (almReg 0x14) 2
  have hstat : ((v.count (almReg 0x4C) 1).trace 6 0 3 port).reg (almReg 0x14) = v.reg (almReg 0x14) :=
    (State.reg_trace_alm _ _ _ _ _ _ (by omega)).trans (State.reg_setReg_other v _ (by decide))
  have hbit : ∀ i, ((v.count (almReg 0x4C) 1).trace 6 0 3 port).bit (almReg 0x14) i = v.bit (almReg 0x14) i :=
    fun i => congrArg (bitOf · i) hstat
  refine ⟨?_, ?_, ?_, ?_, ?_⟩
  · exact (hbit 0).trans ((State.bit_setBit_apart _ _ _ _ (by omega) (by omega)).trans (htl.trans hl))
  · exact (hbit 2).trans (State.bit_setBit_same _ _ _ (by omega))
  · exact (hbit 3).trans ((State.bit_setBit_apart _ _ _ _ (by omega) (by omega)).trans htp)
  · exact (congrArg (bitsOf · 8 8) hstat).trans
      ((State.field_setField_apart _ _ 2 1 1 8 8 (by omega) (by omega)).trans htd)
  · refine (State.reg_trace_alm _ _ _ _ _ _ (by omega)).trans ((State.reg_setReg_same v _ _).trans ?_)
    have hcount : v.reg (almReg 0x4C) = s.reg (almReg 0x4C) :=
      (State.reg_setBit_other _ 2 (by decide)).trans (State.reg_setReg_other s _ (by decide))
    rw [hcount]

/-- LOCKED and HOLDOVER cleared, the loss flagged. -/
def State.unlocked (s : State) : State := ((s.clearBit (almReg 0x14) 0).clearBit (almReg 0x14) 2).setBit (almReg 0x50) 0

theorem State.unlocked_flags (s : State) :
    s.unlocked.bit (almReg 0x14) 0 = false ∧ s.unlocked.bit (almReg 0x14) 2 = false ∧ s.unlocked.bit (almReg 0x50) 0 = true := by
  have hstat : s.unlocked.reg (almReg 0x14) = ((s.clearBit (almReg 0x14) 0).clearBit (almReg 0x14) 2).reg (almReg 0x14) :=
    State.reg_setBit_other _ 0 (by decide)
  refine ⟨?_, ?_, ?_⟩
  · exact (congrArg (bitOf · 0) hstat).trans
      ((State.bit_clearBit_apart _ _ _ _ (by omega) (by omega)).trans (State.bit_clearBit_same s _ _ (by omega)))
  · exact (congrArg (bitOf · 2) hstat).trans (State.bit_clearBit_same _ _ _ (by omega))
  · exact State.bit_setBit_same _ _ _ (by omega)

theorem State.unlocked_almanacOnly (s : State) (good : Nat) :
    AlmanacOnly s { s.unlocked with alm := { s.unlocked.alm with good := good } } :=
  almanacOnly_alm _ (almanacOnly_setBit _ _ (almanacOnly_clearBit _ _ (almanacOnly_clearBit _ _ (almanacOnly_rfl s))))

/-- The flags stand after a trace record and a change of the sync state. -/
theorem State.unlocked_traced (s : State) (good arg : Nat) :
    let u := { s.unlocked with alm := { s.unlocked.alm with good := good } }.trace 6 0 1 arg
    u.locked = false ∧ u.inHoldover = false ∧ u.bit (almReg 0x50) 0 = true := by
  obtain ⟨h0, h2, hf⟩ := s.unlocked_flags
  have hreg : ∀ off, off < 0x100 →
      ({ s.unlocked with alm := { s.unlocked.alm with good := good } }.trace 6 0 1 arg).reg (almReg off) = s.unlocked.reg (almReg off) :=
    fun off h => (State.reg_trace_alm _ 6 0 1 arg off h).trans (State.reg_congr rfl _)
  exact ⟨(congrArg (bitOf · 0) (hreg 0x14 (by omega))).trans h0, (congrArg (bitOf · 2) (hreg 0x14 (by omega))).trans h2,
    (congrArg (bitOf · 0) (hreg 0x50 (by omega))).trans hf⟩

end Sys2Proof.Machine

namespace Sys2Proof.Proofs

open Sys2Proof.Machine Sys2Proof.Claims

/-- Settles O33, by the condition of each of the five commands and the status word that it writes. -/
theorem lockAndHoldover : Obligations.LockAndHoldover := by
  unfold Obligations.LockAndHoldover
  intro s counts
  have hlock : exec .lockAcquired s = execLockAcquired s := rfl
  have hparent : exec .parentChange s = execParentChange s := rfl
  have hhold : exec .holdover s = execHoldover s := rfl
  have hlost : exec .lostLock s = execLostLock s := rfl
  have hacq : exec .acquire s = execAcquire s := rfl
  rw [hlock, hparent, hhold, hlost, hacq]
  refine ⟨fun hc hg => ?_, fun h => ?_, fun hp hm => ?_, fun h => ?_, fun hl hr hh => ⟨fun hb => ?_, fun hb => ?_⟩, fun hh => ?_,
    fun hh => ?_, fun hl hr hp => ?_, fun h => ?_⟩
  · have hx : execLockAcquired s = .next { s.setBit (almReg 0x14) 0 with alm := { s.alm with everLocked := true } } := by
      have hcond : (s.isRoot && !s.lowerOffer || s.hasParent) = true := by simpa [counts] using hc
      simp [execLockAcquired, hcond, hg]
    exact ⟨_, hx, State.bit_setBit_same s _ _ (by omega), State.bit_setBit_apart s _ _ _ (by omega) (by omega),
      otherRegs_setBit s _ _, rfl⟩
  · have hcond : ((s.isRoot && !s.lowerOffer || s.hasParent) && decide (16 ≤ s.alm.good)) = false := by
      obtain h | h := h
      · have hc : (s.isRoot && !s.lowerOffer || s.hasParent) = false := by simpa [counts] using h
        simp [hc]
      · simp [h]
    simp [execLockAcquired, hcond]
  · simp [execParentChange, hp, hm]
  · have hcond : (s.hasParent && decide (16 ≤ s.alm.missed)) = false := by
      obtain h | h := h <;> simp [h]
    simp [execParentChange, hcond]
  · have hx : execHoldover s = .next ((((s.setTree false false 0 255 0).setBit (almReg 0x14) 2).count (almReg 0x4C) 1).trace 6 0 3
        s.parentPort) := by
      simp [execHoldover, hl, hr, hh, hb]
    obtain ⟨h1, h2, h3, h4, h5⟩ := State.enterHoldover s hl s.parentPort
    have halm : ((((s.setTree false false 0 255 0).setBit (almReg 0x14) 2).count (almReg 0x4C) 1).trace 6 0 3 s.parentPort).alm = s.alm :=
      (State.trace_alm _ _ _ _ _).trans ((State.count_alm _ _ _).trans ((State.setBit_alm _ _ _).trans (State.setReg_alm s _ _)))
    exact ⟨_, hx, h1, h2, h3, h4, h5, almanacOnly_trace _ _ _ _
      (almanacOnly_count _ _ (almanacOnly_setBit _ _ (almanacOnly_setTree _ _ _ _ _ (almanacOnly_rfl s)))), halm⟩
  · obtain ⟨o, ho⟩ := Option.isSome_iff_exists.mp hb
    simp [execHoldover, ho]
  · have hx : execLostLock s = .next ({ s.unlocked with alm := { s.unlocked.alm with good := 0 } }.trace 6 0 1 s.parentPort) := if_pos hh
    obtain ⟨h1, h2, h3⟩ := s.unlocked_traced 0 s.parentPort
    exact ⟨_, hx, h1, h2, h3, almanacOnly_trace _ _ _ _ (s.unlocked_almanacOnly 0), State.trace_alm _ _ _ _ _⟩
  · simp [execLostLock, hh]
  · simp [execAcquire, State.acquire, hl, hr, hp]
  · have hcond : (!s.locked && !s.isRoot && s.hasParent) = false := by
      obtain h | h | h := h <;> simp [h]
    simp [execAcquire, State.acquire, hcond]

end Sys2Proof.Proofs
end

section
/-! PROOFS. Sync symbols and the use of a measured offset (R58, R59, R61, R64). -/

namespace Sys2Proof.Machine

open Sys2Proof.Claims

/-! ### The symbol (R58) -/

/-- A number put together from the fields of a symbol, up to the sequence number it echoes. -/
theorem bitsOf_symbolWord (v0 v1 v2 v3 v4 v5 v6 v7 v8 v9 v10 v11 v12 : Nat) (h0 : v0 < 2 ^ 16) (h1 : v1 < 2 ^ 20) (h2 : v2 < 2 ^ 4)
    (h3 : v3 < 2 ^ 16) (h4 : v4 < 2 ^ 8) (h5 : v5 < 2 ^ 2) (h6 : v6 < 2) (h7 : v7 < 2) (h8 : v8 < 2 ^ 8) (h9 : v9 < 2 ^ 8) :
    let w := v0 + v1 * 2 ^ 16 + v2 * 2 ^ 36 + v3 * 2 ^ 40 + v4 * 2 ^ 56 + v5 * 2 ^ 64 + v6 * 2 ^ 66 + v7 * 2 ^ 67 + v8 * 2 ^ 68
      + v9 * 2 ^ 76 + v10 * 2 ^ 84 + v11 * 2 ^ 100 + v12 * 2 ^ 120
    bitsOf w 0 16 = v0 ∧ bitsOf w 16 20 = v1 ∧ bitsOf w 36 4 = v2 ∧ bitsOf w 40 16 = v3 ∧ bitsOf w 56 8 = v4 ∧ bitsOf w 64 2 = v5 ∧
      bitsOf w 66 1 = v6 ∧ bitsOf w 67 1 = v7 ∧ bitsOf w 68 8 = v8 ∧ bitsOf w 76 8 = v9 := by
  simp only [bitsOf, Nat.reducePow] at *
  refine ⟨?_, ?_, ?_, ?_, ?_, ?_, ?_, ?_, ?_, ?_⟩ <;> omega

theorem natOf_lt (b : Bool) : natOf b < 2 := by cases b <;> decide

theorem natOf_bit (s : State) (a i : Nat) : natOf (s.bit a i) = bitsOf (s.reg a) i 1 := by
  have hlt : bitsOf (s.reg a) i 1 < 2 ^ 1 := bitsOf_lt _ _ _
  rw [State.bit_eq, State.field]
  unfold natOf
  split <;> simp_all; omega

/-- What a symbol carries, field by field. -/
theorem State.symbol_fields (s : State) (p frac : Nat) :
    let y := (s.symbol p frac).toNat
    let st := s.reg (almReg 0x14)
    bitsOf y 0 16 = s.tick % 2 ^ 16 ∧ bitsOf y 16 20 = s.subtick % 2 ^ 20 ∧ bitsOf y 36 4 = frac % 16 ∧
      bitsOf y 40 16 = bitsOf st 16 16 ∧ bitsOf y 56 8 = bitsOf st 8 8 ∧ bitsOf y 64 2 = s.rate ∧
      bitsOf y 66 1 = bitsOf st 0 1 ∧ bitsOf y 67 1 = bitsOf st 2 1 ∧ bitsOf y 68 8 = ((s.sync p).sentSeq + 1) % 256 ∧
      bitsOf y 76 8 = (s.sync p).seq % 256 := by
  intro y st
  have hlock : natOf s.locked = bitsOf st 0 1 := natOf_bit s _ 0
  have hhold : natOf s.inHoldover = bitsOf st 2 1 := natOf_bit s _ 2
  have hword := bitsOf_symbolWord (s.tick % 2 ^ 16) (s.subtick % 2 ^ 20) (frac % 16) (bitsOf st 16 16) (bitsOf st 8 8) s.rate
    (natOf s.locked) (natOf s.inHoldover) (((s.sync p).sentSeq + 1) % 256) ((s.sync p).seq % 256) ((s.sync p).tick % 2 ^ 16)
    ((s.sync p).sub % 2 ^ 20) ((s.sync p).frac % 16) (Nat.mod_lt _ (by decide)) (Nat.mod_lt _ (by decide)) (Nat.mod_lt _ (by decide))
    (bitsOf_lt _ _ _) (bitsOf_lt _ _ _) (bitsOf_lt _ _ _) (natOf_lt _) (natOf_lt _) (Nat.mod_lt _ (by decide))
    (Nat.mod_lt _ (by decide))
  have hfield : ∀ lo len, lo + len ≤ 128 → bitsOf y lo len = bitsOf _ lo len := fun lo len h => bitsOf_toNat_ofNat 128 _ lo len h
  rw [hlock, hhold] at hword
  rw [hlock, hhold] at hfield
  obtain ⟨w0, w1, w2, w3, w4, w5, w6, w7, w8, w9⟩ := hword
  exact ⟨(hfield 0 16 (by omega)).trans w0, (hfield 16 20 (by omega)).trans w1, (hfield 36 4 (by omega)).trans w2,
    (hfield 40 16 (by omega)).trans w3, (hfield 56 8 (by omega)).trans w4, (hfield 64 2 (by omega)).trans w5,
    (hfield 66 1 (by omega)).trans w6, (hfield 67 1 (by omega)).trans w7, (hfield 68 8 (by omega)).trans w8,
    (hfield 76 8 (by omega)).trans w9⟩

/-! ### Ports and what is known of them -/

@[simp] theorem State.sync_modSync_same (s : State) (p : Nat) (f : SyncPort → SyncPort) : (s.modSync p f).sync p = f (s.sync p) := by
  simp [State.sync, State.modSync]

theorem State.sync_modSync_other (s : State) {p q : Nat} (f : SyncPort → SyncPort) (h : q ≠ p) : (s.modSync p f).sync q = s.sync q :=
  kget_kset_other _ s.alm.sync _ h.symm

@[simp] theorem State.port_modPort_same (s : State) (p : Nat) (f : Port → Port) : (s.modPort p f).port p = f (s.port p) := by
  simp [State.port, State.modPort]

theorem State.port_modPort_other (s : State) {p q : Nat} (f : Port → Port) (h : q ≠ p) : (s.modPort p f).port q = s.port q :=
  kget_kset_other _ s.links.ports _ h.symm

theorem State.sync_sendControl (s : State) (p q : Nat) (y : List Byte) : (s.sendControl p y).sync q = s.sync q := rfl

theorem State.port_modSync (s : State) (p q : Nat) (f : SyncPort → SyncPort) : (s.modSync p f).port q = s.port q := rfl

/-! ### The end of a sync interval (R58, R64) -/

theorem State.endInterval_only (s : State) (p : Nat) :
    s.endInterval p = { s with alm := (s.endInterval p).alm } ∧ (s.endInterval p).alm.sync = s.alm.sync := by
  unfold State.endInterval
  simp only
  split_ifs <;> exact ⟨rfl, rfl⟩

theorem State.endInterval_paired (s : State) {p : Nat} (h : s.hasParent = true ∧ s.parentPort = p) (hp : s.alm.paired = true) :
    s.endInterval p = { s with alm := { s.alm with paired := false, missed := 0 } } := by
  simp [State.endInterval, h.1, h.2, hp]

theorem State.endInterval_missed (s : State) {p : Nat} (h : s.hasParent = true ∧ s.parentPort = p) (hp : s.alm.paired = false) :
    s.endInterval p = { s with alm := { s.alm with good := 0, missed := s.alm.missed + 1 } } := by
  simp [State.endInterval, h.1, h.2, hp]

/-- The state after the port's symbol has left. -/
def State.symbolSent (s : State) (p frac : Nat) : State :=
  ((s.endInterval p).modSync p fun x => { x with
    sentSeq := (x.sentSeq + 1) % 256
    sentTick := s.tick
    sentSub := s.subtick
    sentFrac := frac % 16
    symbol := s.symbol p frac }).sendControl p (leBytes 16 (s.symbol p frac).toNat)

theorem State.exec_syncSymbolSend (s : State) {p : Nat} (frac : Nat) (hp : p < 8) (hs : s.portState p = 2) (hd : s.mgmt.dark = false) :
    exec (.syncSymbolSend p frac) s = .next (s.symbolSent p frac) := by
  change execSyncSymbolSend p frac s = _
  simp [execSyncSymbolSend, State.symbolSent, isPort, hp, hs, hd]

theorem State.symbolSent_only (s : State) (p frac : Nat) :
    s.symbolSent p frac = { s with alm := (s.symbolSent p frac).alm, links := (s.symbolSent p frac).links } := by
  unfold State.symbolSent State.sendControl State.modPort State.modSync
  rw [(s.endInterval_only p).1]

theorem State.endInterval_sync (s : State) (p q : Nat) : (s.endInterval p).sync q = s.sync q :=
  congrArg (fun m => kget ({} : SyncPort) m q) (s.endInterval_only p).2

theorem State.endInterval_port (s : State) (p q : Nat) : (s.endInterval p).port q = s.port q := by
  rw [(s.endInterval_only p).1]
  rfl

theorem State.symbolSent_sync_same (s : State) (p frac : Nat) :
    (s.symbolSent p frac).sync p = { s.sync p with
      sentSeq := ((s.sync p).sentSeq + 1) % 256
      sentTick := s.tick
      sentSub := s.subtick
      sentFrac := frac % 16
      symbol := s.symbol p frac } := by
  rw [State.symbolSent, State.sync_sendControl, State.sync_modSync_same, State.endInterval_sync]

theorem State.symbolSent_port_same (s : State) (p frac : Nat) :
    (s.symbolSent p frac).port p = (s.port p).control (leBytes 16 (s.symbol p frac).toNat) := by
  rw [State.symbolSent, State.sendControl, State.port_modPort_same, State.port_modSync, State.endInterval_port]

theorem State.symbolSent_other (s : State) {p q : Nat} (frac : Nat) (h : q ≠ p) :
    (s.symbolSent p frac).port q = s.port q ∧ (s.symbolSent p frac).sync q = s.sync q := by
  rw [State.symbolSent, State.sync_sendControl, State.sync_modSync_other _ _ h, State.endInterval_sync, State.sendControl,
    State.port_modPort_other _ _ h, State.port_modSync, State.endInterval_port]
  exact ⟨rfl, rfl⟩

/-- Beyond what is known of its port, a symbol changes the sync state as the end of an interval does. -/
theorem State.symbolSent_interval (s : State) (p frac : Nat) :
    (s.symbolSent p frac).alm.good = (s.endInterval p).alm.good ∧ (s.symbolSent p frac).alm.missed = (s.endInterval p).alm.missed :=
  ⟨rfl, rfl⟩

/-! ### A symbol received (R59) -/

/-- A signed number kept modulo 2^k in a register. -/
theorem toNat_emod_word (x : Int) (k : Nat) (hk : k ≤ 32) : (((x % 2 ^ k).toNat % 2 ^ 32 : Nat) : Int) = x % 2 ^ k := by
  have h0 : 0 ≤ x % 2 ^ k := Int.emod_nonneg _ (by positivity)
  have h1 : x % 2 ^ k < 2 ^ k := Int.emod_lt_of_pos _ (by positivity)
  have h2 : (2 : Int) ^ k ≤ 2 ^ 32 := pow_le_pow_right₀ (by omega) hk
  have h3 : (x % 2 ^ k).toNat < 2 ^ 32 := by omega
  rw [Nat.mod_eq_of_lt h3]
  omega

/-- The symbol as the port keeps it, before a delay is measured. -/
def State.symbolKept (s : State) (p n frac : Nat) : State :=
  s.modSync p fun x => { x with
    seen := true
    root := bitsOf n 40 16
    depth := bitsOf n 56 8
    seq := bitsOf n 68 8
    tick := s.tick
    sub := s.subtick
    frac := frac % 16 }

/-- The four times of a pair (R59): the symbol sent, its arrival there, the echo's leaving, its arrival here. -/
def State.pairTimes (s : State) (p n frac : Nat) : Int × Int × Int × Int :=
  (time16 s.cycles (s.sync p).sentTick (s.sync p).sentSub (s.sync p).sentFrac,
    time16 s.cycles (nearestTick s.tick (bitsOf n 84 16)) (bitsOf n 100 20) (bitsOf n 120 4),
    time16 s.cycles (nearestTick s.tick (bitsOf n 0 16)) (bitsOf n 16 20) (bitsOf n 36 4),
    time16 s.cycles s.tick s.subtick (frac % 16))

/-- The port's link delay in sixteenths. -/
def State.pairDelay (s : State) (p n frac : Nat) : Int :=
  let (ta, tb, tc, td) := s.pairTimes p n frac
  Int.tdiv ((td - ta) - (tc - tb)) 2

/-- The offset to the neighbour. -/
def State.pairOffset (s : State) (p n frac : Nat) : Int :=
  let (ta, tb, tc, td) := s.pairTimes p n frac
  Int.tdiv ((tb - ta) + (tc - td)) 2

/-- The state with the delay of the pair kept. -/
def State.delayKept (s : State) (p n frac : Nat) : State :=
  (s.symbolKept p n frac).setReg (almReg (0x20 + 4 * p)) (s.pairDelay p n frac % 2 ^ 24).toNat

theorem State.receiveSymbol_pair (s : State) (p : Nat) (sym : BitVec 128) (frac : Nat) (he : bitsOf sym.toNat 76 8 = (s.sync p).sentSeq)
    (hs : (s.sync p).sentSeq ≠ 255 ∨ (s.sync p).sentTick ≠ 0 ∨ (s.sync p).sentSub ≠ 0) :
    s.receiveSymbol p sym frac = if s.hasParent && s.parentPort == p then (s.delayKept p sym.toNat frac).usePair (s.pairOffset p sym.toNat frac)
      else s.delayKept p sym.toNat frac := by
  have hfirst : ((s.sync p).sentSeq == 255 && (s.sync p).sentTick == 0 && (s.sync p).sentSub == 0) = false := by
    simp only [Bool.and_eq_false_iff, beq_eq_false_iff_ne, or_assoc]
    exact hs
  simp only [State.receiveSymbol, hfirst, he, bne_self_eq_false, Bool.or_self, Bool.false_eq_true, if_false]
  rfl

theorem State.delayKept_reg (s : State) (p n frac : Nat) :
    ((s.delayKept p n frac).reg (almReg (0x20 + 4 * p)) : Int) = s.pairDelay p n frac % 2 ^ 24 := by
  rw [State.delayKept, State.reg_setReg_same]
  exact toNat_emod_word _ 24 (by omega)

theorem State.delayKept_otherRegs (s : State) (p n frac : Nat) : OtherRegs (almReg (0x20 + 4 * p)) s (s.delayKept p n frac) :=
  otherRegs_setReg (s.symbolKept p n frac) _ _

theorem State.delayKept_sync (s : State) (p n frac : Nat) :
    ((s.delayKept p n frac).sync p).seen = true ∧ ((s.delayKept p n frac).sync p).root = bitsOf n 40 16 ∧
      ((s.delayKept p n frac).sync p).depth = bitsOf n 56 8 ∧ ((s.delayKept p n frac).sync p).seq = bitsOf n 68 8 := by
  have h : (s.delayKept p n frac).sync p = (s.symbolKept p n frac).sync p := rfl
  rw [h, State.symbolKept, State.sync_modSync_same]
  exact ⟨rfl, rfl, rfl, rfl⟩

/-! ### The use of an offset (R61, R64) -/

/-- The state with the offset stored and the interval counted, before the time moves. -/
def State.offsetStored (s : State) (offset : Int) : State :=
  { s.setReg (almReg 0x18) (offset % 2 ^ 32).toNat with alm := { s.alm with
    good := if decide (offset.natAbs ≤ 48) then s.alm.good + natOf (!s.alm.paired) else 0
    paired := true
    stepped := true } }

theorem State.usePair_eq (s : State) (offset : Int) :
    s.usePair offset = if s.locked then (s.offsetStored offset).slewTime offset
      else if decide (offset.natAbs ≤ 48) && s.alm.stepped then s.offsetStored offset else (s.offsetStored offset).stepTime offset := rfl

/-- Slewing changes the sub-tick and the sixteenths slewed. -/
theorem State.slewTime_only (s : State) (offset : Int) :
    s.slewTime offset = { s with
      subtick := (s.slewTime offset).subtick
      alm := { s.alm with slew := (s.slewTime offset).alm.slew } } := by
  unfold State.slewTime
  simp only
  split_ifs <;> rfl

theorem State.usePair_regs (s : State) (offset : Int) : (s.usePair offset).regs = (s.offsetStored offset).regs := by
  rw [State.usePair_eq]
  split_ifs
  · rw [State.slewTime_only]
  · rfl
  · rfl

theorem State.usePair_reg (s : State) (offset : Int) : ((s.usePair offset).reg (almReg 0x18) : Int) = offset % 2 ^ 32 := by
  have h : (s.usePair offset).reg (almReg 0x18) = (offset % 2 ^ 32).toNat % 2 ^ 32 :=
    (State.reg_congr (s.usePair_regs offset) _).trans (State.reg_setReg_same s _ _)
  rw [h]
  exact toNat_emod_word _ 32 (by omega)

theorem State.usePair_otherRegs (s : State) (offset : Int) : OtherRegs (almReg 0x18) s (s.usePair offset) := fun b hb =>
  (State.reg_congr (s.usePair_regs offset) b).trans (State.reg_setReg_other s _ hb.symm)

theorem State.offsetStored_counts (s : State) (offset : Int) :
    (s.offsetStored offset).alm.good = (if decide (offset.natAbs ≤ 48) then s.alm.good + natOf (!s.alm.paired) else 0) ∧
      (s.offsetStored offset).alm.paired = true := ⟨rfl, rfl⟩

theorem State.slewTime_counts (s : State) (offset : Int) :
    (s.slewTime offset).alm.good = s.alm.good ∧ (s.slewTime offset).alm.paired = s.alm.paired := by
  rw [State.slewTime_only]
  exact ⟨rfl, rfl⟩

theorem State.usePair_counts (s : State) (offset : Int) :
    (s.usePair offset).alm.good = (if decide (offset.natAbs ≤ 48) then s.alm.good + natOf (!s.alm.paired) else 0) ∧
      (s.usePair offset).alm.paired = true := by
  rw [State.usePair_eq]
  split
  · obtain ⟨hgood, hpaired⟩ := (s.offsetStored offset).slewTime_counts offset
    rw [hgood, hpaired]
    exact s.offsetStored_counts offset
  · split
    · exact s.offsetStored_counts offset
    · exact s.offsetStored_counts offset

theorem State.offsetStored_cycles (s : State) (offset : Int) : (s.offsetStored offset).cycles = s.cycles := by
  have h : (s.offsetStored offset).reg (almReg 0x0C) = s.reg (almReg 0x0C) := State.reg_setReg_other s _ (by decide)
  unfold State.cycles State.rate State.field
  rw [h]

/-- A slew moves the sub-tick by one cycle at most and keeps it in the frame. -/
theorem State.slewTime_subtick (s : State) (offset : Int) (h : s.subtick < s.cycles) :
    (s.slewTime offset).subtick < s.cycles ∧ (s.slewTime offset).subtick ≤ s.subtick + 1 ∧
      s.subtick ≤ (s.slewTime offset).subtick + 1 := by
  unfold State.slewTime
  simp only
  split_ifs <;> simp only <;> omega

/-- A step puts the time where the offset says, where that is not before 0. -/
theorem State.stepTime_time (s : State) (offset : Int) (hc : 0 < s.cycles)
    (ht : 0 ≤ (s.tick : Int) * s.cycles + s.subtick + offset / 16) :
    ((s.stepTime offset).tick : Int) * s.cycles + (s.stepTime offset).subtick = (s.tick : Int) * s.cycles + s.subtick + offset / 16 ∧
      (s.stepTime offset).subtick < s.cycles := by
  refine ⟨?_, Nat.mod_lt _ hc⟩
  have htime : (s.stepTime offset).tick * s.cycles + (s.stepTime offset).subtick =
      (max 0 ((s.tick : Int) * s.cycles + s.subtick + offset / 16)).toNat := by
    rw [Nat.mul_comm]
    exact Nat.div_add_mod _ _
  rw [max_eq_right ht] at htime
  have hcast := congrArg (Nat.cast (R := Int)) htime
  rw [Int.toNat_of_nonneg ht] at hcast
  rw [← hcast]
  push_cast
  rfl

end Sys2Proof.Machine

namespace Sys2Proof.Proofs

open Sys2Proof.Machine Sys2Proof.Claims

/-- Settles O32, by the symbol's fields, the state that a symbol sent or received leaves, and the three uses of an offset. -/
theorem symbolsAndOffset : Obligations.SymbolsAndOffset := by
  unfold Obligations.SymbolsAndOffset
  refine ⟨fun s p frac sym hp hport hd => ?_, fun s offset => ?_⟩
  · intro x n st parent
    have hisPort : isPort p = true := by simpa [isPort] using hp
    have hon : (s.portState p != 2 || s.mgmt.dark) = false := by simp [hport, hd]
    have hreceive : exec (.syncSymbolReceive p sym frac) s =
        if bitsOf n 64 2 != s.rate then .next (s.setBit (almReg 0x50) 1) else .next (s.receiveSymbol p sym frac) := by
      change execSyncSymbolReceive p sym frac s = _
      simp only [execSyncSymbolReceive, hisPort, hon, Bool.not_true, Bool.false_eq_true, if_false]
      rfl
    refine ⟨?_, fun hr => ?_, fun hr he hs => ⟨fun hnp => ?_, fun hpar => ?_⟩⟩
    · obtain ⟨hgood, hmissed⟩ := s.symbolSent_interval p frac
      refine ⟨_, s.symbol p frac, s.exec_syncSymbolSend frac hp hport hd, s.symbolSent_only p frac, s.symbolSent_sync_same p frac,
        s.symbolSent_port_same p frac, fun q hq => s.symbolSent_other frac hq, fun hpar hpd => ?_, fun hpar hpd => ?_,
        s.symbol_fields p frac⟩
      · rw [hgood, hmissed, s.endInterval_paired hpar hpd]
        exact ⟨rfl, rfl⟩
      · rw [hgood, hmissed, s.endInterval_missed hpar hpd]
        exact ⟨rfl, rfl⟩
    · rw [if_pos (bne_iff_ne.mpr hr)] at hreceive
      exact ⟨_, hreceive, regsOnly_setBit s _ _, State.bit_setBit_same s _ _ (by omega), otherRegs_setBit s _ _⟩
    · have hnot : (s.hasParent && s.parentPort == p) = false := by simpa [parent] using hnp
      rw [if_neg (by simpa using hr), s.receiveSymbol_pair p sym frac he hs, if_neg (by simp [hnot])] at hreceive
      exact ⟨_, hreceive, rfl, s.delayKept_reg p n frac, s.delayKept_otherRegs p n frac, s.delayKept_sync p n frac⟩
    · have hyes : (s.hasParent && s.parentPort == p) = true := by simpa [parent] using hpar
      rw [if_neg (by simpa using hr), s.receiveSymbol_pair p sym frac he hs, if_pos hyes] at hreceive
      have hother := (s.delayKept p n frac).usePair_otherRegs (s.pairOffset p n frac)
      have hne : almReg (0x20 + 4 * p) ≠ almReg 0x18 := by unfold almReg; omega
      refine ⟨_, hreceive, ?_, State.usePair_reg _ _, (State.usePair_counts _ _).2, fun b hb => ?_⟩
      · rw [hother _ hne]
        exact s.delayKept_reg p n frac
      · simp only [List.mem_cons, List.not_mem_nil, or_false, not_or] at hb
        obtain ⟨hb1, hb2⟩ := hb
        rw [hother b hb2]
        exact s.delayKept_otherRegs p n frac b hb1
  · intro u
    obtain ⟨hgood, -⟩ := s.usePair_counts offset
    have hcyc := s.offsetStored_cycles offset
    refine ⟨s.usePair_reg offset, s.usePair_otherRegs offset, fun hn => ?_, fun hf => ?_, fun hl => ?_, fun hl hn hst => ?_,
      fun hl hn hc ht => ?_⟩
    · rw [hgood, if_pos (by simpa using hn)]
      cases s.alm.paired <;> rfl
    · rw [hgood, if_neg (by simpa using hf)]
    · have hu : u = (s.offsetStored offset).slewTime offset := (s.usePair_eq offset).trans (if_pos hl)
      rw [hu]
      refine ⟨?_, fun hsub => ?_⟩
      · rw [State.slewTime_only]
        rfl
      · rw [← hcyc] at hsub ⊢
        exact (s.offsetStored offset).slewTime_subtick offset hsub
    · have hu : u = s.offsetStored offset := by
        change s.usePair offset = _
        simp [State.usePair_eq, hl, hn, hst]
      rw [hu]
      exact ⟨rfl, rfl⟩
    · have hu : u = (s.offsetStored offset).stepTime offset := by
        have hcond : (decide (offset.natAbs ≤ 48) && s.alm.stepped) = false := by
          obtain h | h := hn
          · simp [Nat.not_le.mpr h]
          · simp [h]
        change s.usePair offset = _
        simp [State.usePair_eq, hl, hcond]
      have h := (s.offsetStored offset).stepTime_time offset
      rw [hcyc] at h
      rw [hu]
      exact h hc ht

end Sys2Proof.Proofs
end

section
/-! PROOFS. The limits of the tiers: cache boundary, carve-outs, shares and quotas (R260, R261, R283, R289). -/

namespace Sys2Proof.Machine

open Sys2Proof.Claims

/-! ### When a write is allowed -/

/-- One past the last unit of function f's carve-out on die d, as written and as still in effect. -/
def State.carveTop (s : State) (f d : Nat) : Nat :=
  max (if bitsOf (s.carveReg f d) 8 9 = 0 then 0 else bitsOf (s.carveReg f d) 0 8 + bitsOf (s.carveReg f d) 8 9)
    (if (s.grant f d).2 = 0 then 0 else (s.grant f d).1 + (s.grant f d).2)

theorem State.writeCacheBase_eq (s : State) (d v : Nat) (hv : v % 512 ≤ 256) :
    s.writeCacheBase d v =
      if s.imageOn d = true ∨ ∃ g, g < 256 ∧ v % 512 < s.carveTop g d then s.tierErr 0
      else { s.setReg (tierReg (0x40 + 4 * d)) (v % 512) with
        tiers := { s.tiers with caches := s.tiers.caches.filter fun x => x.1 / 2 ^ 40 != d } } := by
  simp only [State.writeCacheBase, Nat.not_lt.mpr hv, if_false, Bool.or_eq_true, Bool.not_eq_true', List.all_eq_false, List.mem_range,
    decide_eq_true_eq, Nat.not_le, beq_iff_eq, State.carveTop]
  rfl

/-- What refuses a write of CARVE: it does not fit, it meets another's, or it takes units of a function at work (R261). -/
def State.carveRefused (s : State) (f d cv : Nat) : Prop :=
  (bitsOf cv 8 9 ≠ 0 ∧ (s.cacheBase d < bitsOf cv 0 8 + bitsOf cv 8 9 ∨ ∃ g, g < 256 ∧ g ≠ f ∧
      (bitsOf cv 0 8 < bitsOf (s.carveReg g d) 0 8 + bitsOf (s.carveReg g d) 8 9 ∧
        bitsOf (s.carveReg g d) 0 8 < bitsOf cv 0 8 + bitsOf cv 8 9))) ∨
    cv ≠ s.carveReg f d ∧ bitsOf (s.carveReg f d) 8 9 ≠ 0 ∧ (s.holdsImage f = true ∨ s.hasAdmitted f = true)

open Classical in
theorem State.writeCarve_eq (s : State) (f d v : Nat) (hv : bitsOf (v % 2 ^ 17) 8 9 ≤ 256) :
    s.writeCarve f d v = if s.carveRefused f d (v % 2 ^ 17) then s.tierErr 1
      else s.setReg (tierReg (0x2000 + 32 * f + 4 * d)) (v % 2 ^ 17) := by
  simp only [State.writeCarve, Nat.not_lt.mpr hv, if_false]
  refine if_congr ?_ rfl rfl
  simp only [State.carveRefused, Bool.or_eq_true, Bool.and_eq_true, bne_iff_ne, decide_eq_true_eq, List.any_eq_true, List.mem_range,
    and_assoc, and_or_left]

/-- What refuses a write of FN_SHARES (R283). -/
def State.sharesRefused (s : State) (f sh : Nat) : Prop :=
  (∃ k, k < 3 ∧ 15 < (List.range 256).foldl (fun a g => if g = f then a else a + s.shares g k) 0 + bitsOf sh (4 * k) 4) ∨
    (sh ≠ s.field (tierReg (0x100C + 16 * f)) 0 12 ∧ s.hasAdmitted f = true)

open Classical in
theorem State.writeShares_eq (s : State) (f v : Nat) :
    s.writeShares f v = if s.sharesRefused f (v % 2 ^ 12) then s.tierErr 4 else s.setReg (tierReg (0x100C + 16 * f)) (v % 2 ^ 12) := by
  unfold State.writeShares
  refine if_congr ?_ rfl rfl
  simp only [State.sharesRefused, Bool.or_eq_true, Bool.and_eq_true, bne_iff_ne, decide_eq_true_eq, List.any_eq_true, List.mem_range,
    beq_iff_eq]

/-- Pages of function f that a quota of a kind counts. -/
def State.quotaUsed (s : State) (f kind : Nat) : Nat := if kind = 0 then s.nearUse f else if kind = 1 then s.pinUse f else s.farUse f

/-- The pinned quotas of the module with f's new one. -/
def State.quotaPins (s : State) (f q : Nat) : Nat :=
  (List.range 256).foldl (fun a g => if g = f then a else a + s.field (tierReg (0x1004 + 16 * g)) 0 20) q

theorem State.writeQuota_eq (s : State) (f kind v : Nat) :
    s.writeQuota f kind v =
      let q := v % 2 ^ (if kind = 2 then 22 else 20)
      if q < s.quotaUsed f kind ∨ kind = 1 ∧ s.nearPages < s.quotaPins f q then s.tierErr 2
      else s.setReg (tierReg (0x1000 + 16 * f + 4 * kind)) q := by
  simp only [State.writeQuota, State.quotaUsed, State.quotaPins, beq_iff_eq]
  refine if_congr ?_ rfl rfl
  simp only [Bool.or_eq_true, Bool.and_eq_true, decide_eq_true_eq, beq_iff_eq]

/-! ### The commands, where nothing is frozen -/

theorem exec_cacheBaseWrite {s : State} {d : Nat} (v : Nat) (hd : d < 8) (hf : s.vigil.frozen = false) :
    exec (.cacheBaseWrite d v) s = .next (s.writeCacheBase d v) := by
  change execCacheBaseWrite d v s = _
  simp [execCacheBaseWrite, hf, hd]

theorem exec_carveWrite {s : State} {f d : Nat} (v : Nat) (hfn : f < 256) (hd : d < 8) (hf : s.vigil.frozen = false) :
    exec (.carveWrite f d v) s = .next (s.writeCarve f d v) := by
  change execCarveWrite f d v s = _
  simp [execCarveWrite, hf, hd, hfn]

theorem exec_sharesWrite {s : State} {f : Nat} (v : Nat) (hfn : f < 256) (hf : s.vigil.frozen = false) :
    exec (.sharesWrite f v) s = .next (s.writeShares f v) := by
  change execSharesWrite f v s = _
  simp [execSharesWrite, hf, hfn]

theorem exec_quotaWrite {s : State} {f kind : Nat} (v : Nat) (hfn : f < 256) (hk : kind < 3) (hf : s.vigil.frozen = false) :
    exec (.quotaWrite f kind v) s = .next (s.writeQuota f kind v) := by
  change execQuotaWrite f kind v s = _
  simp [execQuotaWrite, hf, hk, hfn]

/-- A command that keeps a word in its register. -/
theorem sets_of_setReg {s : State} {i : Instr} {a w : Nat} (h : exec i s = .next (s.setReg a w)) (hw : w < 2 ^ 32) :
    ∃ u, exec i s = .next u ∧ RegsOnly s u ∧ u.reg a = w ∧ OtherRegs a s u :=
  ⟨_, h, regsOnly_setReg s a w, (State.reg_setReg_same s a w).trans (Nat.mod_eq_of_lt hw), otherRegs_setReg s a w⟩

/-- A command that sets one bit. -/
theorem sets_of_setBit {s : State} {i : Instr} {a bit : Nat} (h : exec i s = .next (s.setBit a bit)) (hb : bit < 32) :
    ∃ u, exec i s = .next u ∧ RegsOnly s u ∧ u.bit a bit = true ∧ OtherRegs a s u :=
  ⟨_, h, regsOnly_setBit s a bit, State.bit_setBit_same s a bit hb, otherRegs_setBit s a bit⟩

end Sys2Proof.Machine

namespace Sys2Proof.Proofs

open Sys2Proof.Machine Sys2Proof.Claims

/-- Settles O43: each write is decided by what its rule refuses. -/
theorem tierLimits : Obligations.TierLimits := by
  unfold Obligations.TierLimits
  intro s f d kind v hf hd hk hz sets errs cb cv base size old sh q written inEffect top meets others used pins
  have hq : q < 2 ^ 32 := by
    have h22 : q < 2 ^ (if kind = 2 then 22 else 20) := Nat.mod_lt _ (by positivity)
    split at h22 <;> omega
  refine ⟨fun hcb => ⟨fun hi ht => ?_, fun h => ?_⟩, fun hs => ⟨fun hfit hfree => ?_, fun h => ?_⟩, fun hsum hfree => ?_, fun h => ?_,
    fun hu hp => ?_, fun h => ?_⟩
  · have hno : ¬ (s.imageOn d = true ∨ ∃ g, g < 256 ∧ v % 512 < s.carveTop g d) := by
      rintro (h | ⟨g, hg, hlt⟩)
      · simp [hi] at h
      · exact absurd hlt (Nat.not_lt.mpr (ht g hg))
    have hx := (exec_cacheBaseWrite v hd hz).trans (congrArg Host.Outcome.next ((s.writeCacheBase_eq d v hcb).trans (if_neg hno)))
    refine ⟨_, hx, ?_, otherRegs_setReg s _ _, rfl, fun x hx => ?_, fun x hx => ?_⟩
    · exact (State.reg_setReg_same s _ _).trans (Nat.mod_eq_of_lt (by omega))
    · exact bne_iff_ne.mp (List.mem_filter.mp hx).2
    · exact ⟨fun h => (List.mem_filter.mp h).1, fun h => List.mem_filter.mpr ⟨h, bne_iff_ne.mpr hx⟩⟩
  · have hx := (exec_cacheBaseWrite v hd hz).trans (congrArg Host.Outcome.next ((s.writeCacheBase_eq d v hcb).trans (if_pos h)))
    exact sets_of_setBit hx (by omega)
  · have hno : ¬ s.carveRefused f d (v % 2 ^ 17) := by
      rintro (⟨hsize, hover⟩ | ⟨hne, hold, hwork⟩)
      · obtain h0 | ⟨hbase, hmeets⟩ := hfit
        · exact hsize h0
        · obtain hlt | ⟨g, hg, hgf, hmeet⟩ := hover
          · exact absurd hlt (Nat.not_lt.mpr hbase)
          · exact hmeets g hg hgf hmeet
      · obtain h | h | ⟨h1, h2⟩ := hfree
        · exact hne h
        · exact hold h
        · simp [h1, h2] at hwork
    have hx := (exec_carveWrite v hf hd hz).trans (congrArg Host.Outcome.next ((s.writeCarve_eq f d v hs).trans (if_neg hno)))
    exact sets_of_setReg hx (by omega)
  · have hx := (exec_carveWrite v hf hd hz).trans (congrArg Host.Outcome.next ((s.writeCarve_eq f d v hs).trans (if_pos h)))
    exact sets_of_setBit hx (by omega)
  · have hno : ¬ s.sharesRefused f (v % 2 ^ 12) := by
      rintro (⟨k, hk3, hlt⟩ | ⟨hne, hadm⟩)
      · exact absurd hlt (Nat.not_lt.mpr (hsum k hk3))
      · obtain h | h := hfree
        · exact hne h
        · simp [h] at hadm
    have hx := (exec_sharesWrite v hf hz).trans (congrArg Host.Outcome.next ((s.writeShares_eq f v).trans (if_neg hno)))
    exact sets_of_setReg hx (by omega)
  · have hx := (exec_sharesWrite v hf hz).trans (congrArg Host.Outcome.next ((s.writeShares_eq f v).trans (if_pos h)))
    exact sets_of_setBit hx (by omega)
  · have hno : ¬ (q < s.quotaUsed f kind ∨ kind = 1 ∧ s.nearPages < s.quotaPins f q) := by
      rintro (h | ⟨h1, h⟩)
      · exact absurd h (Nat.not_lt.mpr hu)
      · exact absurd h (Nat.not_lt.mpr (hp h1))
    have hx := exec_quotaWrite v hf hk hz
    rw [s.writeQuota_eq f kind v] at hx
    exact sets_of_setReg (hx.trans (congrArg Host.Outcome.next (if_neg hno))) hq
  · have hx := exec_quotaWrite v hf hk hz
    rw [s.writeQuota_eq f kind v] at hx
    exact sets_of_setBit (hx.trans (congrArg Host.Outcome.next (if_pos h))) (by omega)

end Sys2Proof.Proofs
end

section
/-! PROOFS. Flash windows, drive bays and near stacks (R269, R275, R276, R279, R447), with the queue of remap records (R35, R448). -/

namespace Sys2Proof.Machine

open Sys2Proof.Claims

/-! ### Register lists -/

theorem regsBut_rfl (l : List Nat) (s : State) : RegsBut l s s := fun _ _ => rfl

theorem regsBut_setReg {l : List Nat} {s u : State} {a : Nat} (v : Nat) (h : RegsBut l s u) (ha : a ∈ l) : RegsBut l s (u.setReg a v) :=
  fun b hb => (State.reg_setReg_other u v (fun he : a = b => hb (he ▸ ha))).trans (h b hb)

theorem regsBut_setField {l : List Nat} {s u : State} {a : Nat} (lo len v : Nat) (h : RegsBut l s u) (ha : a ∈ l) :
    RegsBut l s (u.setField a lo len v) := regsBut_setReg _ h ha

theorem regsBut_setBit {l : List Nat} {s u : State} {a : Nat} (i : Nat) (h : RegsBut l s u) (ha : a ∈ l) : RegsBut l s (u.setBit a i) :=
  regsBut_setReg _ h ha

theorem regsBut_clearBit {l : List Nat} {s u : State} {a : Nat} (i : Nat) (h : RegsBut l s u) (ha : a ∈ l) :
    RegsBut l s (u.clearBit a i) := regsBut_setReg _ h ha

theorem regsBut_count {l : List Nat} {s u : State} {a : Nat} (n : Nat) (h : RegsBut l s u) (ha : a ∈ l) : RegsBut l s (u.count a n) :=
  regsBut_setReg _ h ha

theorem regsOnly_rfl (s : State) : RegsOnly s s := rfl

theorem regsOnly_setReg_of {s u : State} (a v : Nat) (h : RegsOnly s u) : RegsOnly s (u.setReg a v) := by
  unfold RegsOnly at h ⊢
  rw [h]
  rfl

theorem regsOnly_trans {s u w : State} (h : RegsOnly s u) (h2 : RegsOnly u w) : RegsOnly s w := by
  unfold RegsOnly at h h2 ⊢
  rw [h2, h]

theorem regsOnly_setField_of {s u : State} (a lo len v : Nat) (h : RegsOnly s u) : RegsOnly s (u.setField a lo len v) :=
  regsOnly_setReg_of a _ h

theorem State.field_setField_other (s : State) {a b : Nat} (lo len v lo' len' : Nat) (h : a ≠ b) :
    (s.setField a lo len v).field b lo' len' = s.field b lo' len' := by
  unfold State.field
  rw [State.reg_setField, if_neg h]

/-! ### Commands that fault (R361) -/

/-- Nothing but the commands may differ. -/
def CmdsOnly (s u : State) : Prop := u = { s with cmds := u.cmds }

theorem cmdsOnly_modCmd {s u : State} (id : Nat) (f : Cmd → Cmd) (h : CmdsOnly s u) : CmdsOnly s (u.modCmd id f) := by
  unfold CmdsOnly at h ⊢
  rw [State.modCmd_only, h]

theorem cmdsOnly_stopSpans {s u : State} (p reason source unit : Nat) (h : CmdsOnly s u) :
    CmdsOnly s (u.stopSpans p reason source unit) := by
  unfold State.stopSpans
  exact List.foldlRecOn _ _ h fun _ hb _ _ => cmdsOnly_modCmd _ _ hb

/-! ### Remap records (R35, R448) -/

/-- The registers that show a die's records. -/
def recordRegs (d : Nat) : List Nat :=
  [remapReg d 0x10, remapReg d 0x14, remapReg d 0x20, remapReg d 0x24, remapReg d 0x28, remapReg d 0x2C]

theorem State.showRecords_regs (s : State) (d : Nat) : RegsOnly s (s.showRecords d) ∧ RegsBut (recordRegs d) s (s.showRecords d) := by
  unfold State.showRecords
  refine List.foldlRecOn (motive := fun u => RegsOnly s u ∧ RegsBut (recordRegs d) s u) _ _ ?_ fun u ⟨hr, hb⟩ i hi => ?_
  · exact ⟨rfl, regsBut_setReg _ (regsBut_rfl _ s) (by simp [recordRegs])⟩
  · refine ⟨regsOnly_setReg_of _ _ hr, regsBut_setReg _ hb ?_⟩
    have hi4 : i < 4 := List.mem_range.mp hi
    interval_cases i <;> simp [recordRegs]

/-- One more record of a die. -/
def State.withRecord (s : State) (d r : Nat) : State :=
  { s with remap := { s.remap with records := kset [] s.remap.records d (kget [] s.remap.records d ++ [r]) } }

theorem State.queueRecord_eq (s : State) (d r : Nat) :
    s.queueRecord d r = if 64 ≤ (kget [] s.remap.records d).length then s.count (remapReg d 0x10) 1
      else (s.withRecord d r).showRecords d := rfl

/-- A record queued for the MC changes that die's records and the registers that show them. -/
theorem State.queueRecord_only (s : State) (d r : Nat) :
    s.queueRecord d r = { s with regs := (s.queueRecord d r).regs, remap := { s.remap with records := (s.queueRecord d r).remap.records } } ∧
      RegsBut (recordRegs d) s (s.queueRecord d r) := by
  rw [State.queueRecord_eq]
  split
  · exact ⟨rfl, regsBut_count _ (regsBut_rfl _ s) (by simp [recordRegs])⟩
  · obtain ⟨hr, hb⟩ := (s.withRecord d r).showRecords_regs d
    refine ⟨?_, hb⟩
    unfold RegsOnly at hr
    rw [hr]
    rfl

theorem State.queueRecord_room (s : State) (d r : Nat) (h : (kget [] s.remap.records d).length < 64) :
    kget [] (s.queueRecord d r).remap.records d = kget [] s.remap.records d ++ [r] := by
  obtain ⟨hr, -⟩ := (s.withRecord d r).showRecords_regs d
  unfold RegsOnly at hr
  rw [State.queueRecord_eq, if_neg (Nat.not_le.mpr h), hr]
  exact kget_kset_same _ _ _ _

theorem State.queueRecord_mem (s : State) (d r : Nat) : (s.queueRecord d r).mem = s.mem := by rw [(s.queueRecord_only d r).1]

theorem State.queueRecord_parts (s : State) (d r : Nat) : (s.queueRecord d r).parts = s.parts := by rw [(s.queueRecord_only d r).1]

/-! ### Flash windows (R276) -/

/-- Does an admitted command read through window n, as its settings are or will be? -/
def State.windowRead (s : State) (n ctrl : Nat) : Prop :=
  s.readsWindow (bitsOf ctrl 8 8) n = true ∨ ∃ y, s.windowNext n = some y ∧ s.readsWindow (bitsOf y.1 8 8) n = true

theorem State.windowRead_iff (s : State) (n ctrl : Nat) :
    (([bitsOf ctrl 8 8] ++ ((s.windowNext n).map fun x => bitsOf x.1 8 8).toList).any fun f => s.readsWindow f n) = true ↔
      s.windowRead n ctrl := by
  unfold State.windowRead
  cases s.windowNext n <;> simp

/-- The state after a window's settings have been armed. -/
def State.windowArmed (s : State) (n value : Nat) : State :=
  let ctrl := s.reg (tierReg (0x100 + 16 * n))
  let lba := s.staged 0 (tierReg (0x104 + 16 * n)) + value % 2 ^ 16 * 2 ^ 32
  { s.commitWide 0 (tierReg (0x104 + 16 * n)) (value % 2 ^ 16) with
    tiers := { s.tiers with fwArmed := (s.tiers.fwArmed.filter fun x => x.1 != n) ++ [(n, ctrl, lba)] } }

open Classical in
theorem State.armWindow_eq (s : State) (n value : Nat) :
    s.armWindow n value =
      if s.windowRead n (s.reg (tierReg (0x100 + 16 * n))) then s.tierErr 3
      else if bitOf (s.reg (tierReg (0x100 + 16 * n))) 0 = true ∧ s.windowMeets n (s.reg (tierReg (0x100 + 16 * n)))
        (s.staged 0 (tierReg (0x104 + 16 * n)) + value % 2 ^ 16 * 2 ^ 32) = true then s.tierErr 5
      else s.windowArmed n value := by
  unfold State.armWindow
  refine if_congr (s.windowRead_iff n _) rfl (if_congr ?_ rfl rfl)
  rw [Bool.and_eq_true]

theorem State.windowArmed_next (s : State) (n value : Nat) :
    (s.windowArmed n value).windowNext n =
      some (s.reg (tierReg (0x100 + 16 * n)), s.staged 0 (tierReg (0x104 + 16 * n)) + value % 2 ^ 16 * 2 ^ 32) := by
  have hnone : (s.tiers.fwArmed.filter fun x => x.1 != n).find? (fun x => x.1 == n) = none := by
    rw [List.find?_eq_none]
    intro x hx
    simpa using (List.mem_filter.mp hx).2
  unfold State.windowNext State.windowArmed
  simp only [List.find?_append, hnone, Option.none_or, List.find?_cons, beq_self_eq_true]

theorem exec_flashWindowArm {s : State} {n : Nat} (v : Nat) (hn : n < 16) (hf : s.vigil.frozen = false) :
    exec (.flashWindowArm n v) s = .next (s.armWindow n v) := by
  change execFlashWindowArm n v s = _
  simp [execFlashWindowArm, hf, hn]

/-! ### Bays (R275, R279) -/

theorem bayReg_ne_status (b : Nat) : bayReg b ≠ tierReg 0 := by unfold bayReg tierReg; omega

/-- USABLE of a bay as last set; the other bits of its register stand. -/
theorem State.setUsable_fields (s : State) (b : Nat) (on : Bool) :
    (s.setUsable b on).bayUsable b = on ∧ RegsOnly s (s.setUsable b on) ∧ RegsBut [bayReg b, tierReg 0] s (s.setUsable b on) ∧
      ∀ lo len, lo + len ≤ 1 ∨ 2 ≤ lo → lo + len ≤ 32 → (s.setUsable b on).field (bayReg b) lo len = s.field (bayReg b) lo len := by
  have hbay : ∀ lo len, (s.setUsable b on).field (bayReg b) lo len = (s.setField (bayReg b) 1 1 (natOf on)).field (bayReg b) lo len :=
    fun lo len => State.field_setField_other _ _ _ _ _ _ (bayReg_ne_status b).symm
  refine ⟨?_, rfl, ?_, fun lo len h h32 => ?_⟩
  · have hu : (s.setUsable b on).bayUsable b = ((s.setUsable b on).field (bayReg b) 1 1 == 1) := State.bit_eq _ _ _
    rw [hu, hbay, State.field_setField_same _ _ _ _ _ (by omega)]
    cases on <;> rfl
  · exact regsBut_setField _ _ _ (regsBut_setField _ _ _ (regsBut_rfl _ s) (by simp)) (by simp)
  · rw [hbay, State.field_setField_apart _ _ _ _ _ _ _ h32 (by omega)]

/-- A bay that comes up: the registers, and the blocks of its namespace. -/
theorem State.bayUp_fields (s : State) (b reason blocks : Nat) :
    let u := s.bayUp b reason blocks
    u.bayUsable b = (reason % 16 == 0) ∧ u.field (bayReg b) 4 4 = reason % 16 ∧ RegsBut [bayReg b, tierReg 0] s u ∧
      kget 0 u.tiers.blocks b = (if reason % 16 = 0 then blocks else 0) ∧ u.mem = s.mem ∧
      ∀ i, i = 2 ∨ i = 3 → u.bit (bayReg b) i = s.bit (bayReg b) i := by
  intro u
  obtain ⟨huse, -, hregs, hfield⟩ := (s.setField (bayReg b) 4 4 reason).setUsable_fields b (reason % 16 == 0)
  have hreg : ∀ a, u.reg a = ((s.setField (bayReg b) 4 4 reason).setUsable b (reason % 16 == 0)).reg a :=
    fun a => State.reg_congr rfl a
  refine ⟨?_, ?_, fun a ha => ?_, ?_, rfl, fun i hi => ?_⟩
  · exact (congrArg (bitOf · 1) (hreg _)).trans huse
  · exact (congrArg (bitsOf · 4 4) (hreg _)).trans ((hfield 4 4 (by omega) (by omega)).trans
      (State.field_setField_same _ _ _ _ _ (by omega)))
  · exact (hreg a).trans ((hregs a ha).trans (regsBut_setField _ _ _ (regsBut_rfl _ s) (by simp) a ha))
  · refine (kget_kset_same _ _ _ _).trans ?_
    simp
  · refine (congrArg (bitOf · i) (hreg _)).trans ?_
    refine (State.bit_eq _ (bayReg b) i).trans ?_
    rw [hfield i 1 (by omega) (by omega), State.field_setField_apart _ _ _ _ _ _ _ (by omega) (by omega), ← State.bit_eq]

/-! ### Stacks (R269, R447) -/

theorem State.failStack_covered (s : State) {n : Nat} (hn : n < 16) (h1 : s.bit (tierReg 0) 1 = true) (h2 : s.bit (tierReg 0) 2 = false) :
    s.failStack n = s.retireStack n := by
  simp [State.failStack, State.stackCover, hn, h1, h2]

theorem State.failStack_retired (s : State) {n : Nat} (hn : n < 16) (h2 : s.bit (tierReg 0) 2 = true) (hf : s.field (tierReg 0) 3 4 = n) :
    s.failStack n = s := by
  simp [State.failStack, State.stackCover, hn, h2, hf]

theorem State.failStack_lost (s : State) {n : Nat} (h : s.bit (tierReg 0) 1 = false ∨ s.bit (tierReg 0) 2 = true)
    (hf : ¬ (s.bit (tierReg 0) 2 = true ∧ s.field (tierReg 0) 3 4 = n)) : n ∈ (s.failStack n).tiers.lost := by
  have hcover : s.stackCover = false := by
    unfold State.stackCover
    obtain h | h := h <;> simp [h]
  have hother : (decide (n < 16) && s.bit (tierReg 0) 2 && s.field (tierReg 0) 3 4 == n) = false := by
    rw [Bool.and_assoc]
    simp only [Bool.and_eq_false_iff, beq_eq_false_iff_ne]
    rw [not_and_or] at hf
    exact Or.inr (hf.imp_left (by simp))
  unfold State.failStack
  simp only [hcover, hother, Bool.and_false, Bool.false_eq_true, if_false]
  refine List.foldlRecOn (motive := fun u : State => n ∈ u.tiers.lost) _ _ ?_ fun u hu p _ => ?_
  · change n ∈ if s.tiers.lost.contains n then s.tiers.lost else s.tiers.lost ++ [n]
    split
    next hl => simpa using hl
    next => simp
  · have honly : CmdsOnly u (u.stopSpans p 0x33 5 n) := cmdsOnly_stopSpans p 0x33 5 n rfl
    unfold CmdsOnly at honly
    rw [honly]
    exact hu

end Sys2Proof.Machine

namespace Sys2Proof.Proofs

open Sys2Proof.Machine Sys2Proof.Claims

/-- Settles O44, by the cases of each command of a window, a bay or a stack. -/
theorem windowsBaysStacks : Obligations.WindowsBaysStacks := by
  unfold Obligations.WindowsBaysStacks
  intro s n b v reason blocks stack hn hb hst ctrl lba bay meets readers
  have hbay : bay ≠ tierReg 0 := bayReg_ne_status b
  refine ⟨fun hz => ⟨fun hr hm => ?_, fun h => ?_, ?_⟩, fun hh => ⟨fun h2 h3 hu => ?_, fun hu => ?_, fun h0 hu => ?_, fun h1 h2 hroom => ?_,
    fun h hf => ?_, fun h2 hf => ?_⟩, ?_, ?_⟩
  · have hx : exec (.flashWindowArm n v) s = .next (s.windowArmed n v) :=
      (exec_flashWindowArm v hn hz).trans (congrArg Host.Outcome.next ((s.armWindow_eq n v).trans ((if_neg hr).trans (if_neg hm))))
    refine ⟨_, hx, s.windowArmed_next n v, rfl, ?_, ?_, rfl⟩
    · refine (State.reg_commitWide s 0 (tierReg (0x104 + 16 * n)) (v % 2 ^ 16) _).trans ?_
      rw [if_pos (by unfold tierReg; omega), Nat.mod_eq_of_lt (by omega)]
    · have he : tierReg (0x104 + 16 * n) + 4 = tierReg (0x108 + 16 * n) := by unfold tierReg; omega
      exact he ▸ regsBut_commitWide s 0 (tierReg (0x104 + 16 * n)) (v % 2 ^ 16)
  · have hx := (exec_flashWindowArm v hn hz).trans (congrArg Host.Outcome.next (s.armWindow_eq n v))
    by_cases hr : s.windowRead n ctrl
    · obtain ⟨u, hu, honly, hbit, hother⟩ := sets_of_setBit (hx.trans (congrArg Host.Outcome.next (if_pos hr))) (by omega)
      exact ⟨u, 3, hu, honly, Or.inl rfl, hbit, hother⟩
    · have hm : meets := h.resolve_left hr
      obtain ⟨u, hu, honly, hbit, hother⟩ := sets_of_setBit
        (hx.trans (congrArg Host.Outcome.next ((if_neg hr).trans (if_pos hm)))) (by omega)
      exact ⟨u, 5, hu, honly, Or.inr rfl, hbit, hother⟩
  · refine sets_of_setBit ?_ (by omega)
    change execOfflineReq b s = _
    simp [execOfflineReq, hb, hz, bay]
  · have hx : exec (.bayOffline b) s = .next ((s.setBit bay 3).setUsable b false) := by
      change execBayOffline b s = _
      simp [execBayOffline, hb, hh, hu, bay, show s.bit (bayReg b) 2 = true from h2, show s.bit (bayReg b) 3 = false from h3]
    obtain ⟨huse, honly, -, hfield⟩ := (s.setBit bay 3).setUsable_fields b false
    refine ⟨_, hx, regsOnly_trans (regsOnly_setBit s _ _) honly, ?_, huse,
      regsBut_setField _ _ _ (regsBut_setField _ _ _ (regsBut_setBit _ (regsBut_rfl _ s) ?_) ?_) ?_⟩
    · rw [State.bit_eq, hfield 3 1 (by omega) (by omega), ← State.bit_eq]
      exact State.bit_setBit_same s bay 3 (by omega)
    · simp
    · simp [bay]
    · simp
  · change execBayOffline b s = _
    simp [execBayOffline, hb, hu]
  · have hx : exec (.bayOnline b reason blocks) s = .next (((s.clearBit bay 2).clearBit bay 3).bayUp b reason blocks) := by
      change execBayOnline b reason blocks s = _
      simp [execBayOnline, hb, hh, hu, bay, show s.bit (bayReg b) 0 = true from h0]
    obtain ⟨huse, hreason, hregs, hblocks, hmem, hbits⟩ := ((s.clearBit bay 2).clearBit bay 3).bayUp_fields b reason blocks
    refine ⟨_, hx, ?_, ?_, hreason, huse.trans (by simp [beq_eq_decide]), fun a ha => ?_, hblocks, hmem⟩
    · rw [hbits 2 (Or.inl rfl), State.bit_clearBit_apart _ _ _ _ (by omega) (by omega), State.bit_clearBit_same _ _ _ (by omega)]
    · rw [hbits 3 (Or.inr rfl), State.bit_clearBit_same _ _ _ (by omega)]
    · rw [hregs a ha]
      exact regsBut_clearBit _ (regsBut_clearBit _ (regsBut_rfl _ s) (by simp [bay])) (by simp [bay]) a ha
  · have hx : exec (.stackRetire stack) s = .next (s.retireStack stack) := by
      change execStackRetire stack s = _
      simp [execStackRetire, hh, hst, s.failStack_covered hst h1 h2]
    let s1 := (s.setBit (tierReg 0) 2).setField (tierReg 0) 3 4 stack
    let rec_ := remapRecord s.tick 4 false (stack % 2) 0 stack false 0
    obtain ⟨-, hregs⟩ := s1.queueRecord_only (stack / 2) rec_
    have hstatus : (s1.queueRecord (stack / 2) rec_).reg (tierReg 0) = s1.reg (tierReg 0) := by
      apply hregs
      simp only [recordRegs, List.mem_cons, List.not_mem_nil, or_false, not_or, tierReg, remapReg]
      omega
    have hfield : ∀ lo len, (s1.queueRecord (stack / 2) rec_).field (tierReg 0) lo len = s1.field (tierReg 0) lo len :=
      fun lo len => congrArg (bitsOf · lo len) hstatus
    refine ⟨s1.queueRecord (stack / 2) rec_, hx, ?_, ?_, State.queueRecord_room s1 _ _ hroom, ?_, ?_⟩
    · rw [State.bit_eq, hfield, State.field_setField_apart _ _ _ _ _ _ _ (by omega) (by omega), ← State.bit_eq,
        State.bit_setBit_same _ _ _ (by omega)]
    · rw [hfield, State.field_setField_same _ _ _ _ _ (by omega), Nat.mod_eq_of_lt (by omega)]
    · exact (State.queueRecord_mem s1 _ _).trans ((State.setField_mem _ _ _ _ _).trans (State.setBit_mem s _ _))
    · exact (State.queueRecord_parts s1 _ _).trans ((State.setField_parts _ _ _ _ _).trans (State.setBit_parts s _ _))
  · refine ⟨s.failStack stack, ?_, s.failStack_lost h hf⟩
    change execStackRetire stack s = _
    simp [execStackRetire, hh, hst]
  · change execStackRetire stack s = _
    simp [execStackRetire, hh, hst, s.failStack_retired hst h2 hf]
  · refine sets_of_setBit ?_ (by omega)
    change execDrivePull b true s = _
    simp [execDrivePull, hb, bay]
  · have hx : exec (.drivePull b false) s = .next ((s.clearBit bay 0).setUsable b false) := by
      change execDrivePull b false s = _
      simp [execDrivePull, hb, bay]
    obtain ⟨huse, honly, -, hfield⟩ := (s.clearBit bay 0).setUsable_fields b false
    refine ⟨_, hx, regsOnly_trans (regsOnly_setReg s _ _) honly, ?_, huse,
      regsBut_setField _ _ _ (regsBut_setField _ _ _ (regsBut_clearBit _ (regsBut_rfl _ s) ?_) ?_) ?_⟩
    · rw [State.bit_eq, hfield 0 1 (by omega) (by omega), ← State.bit_eq]
      exact State.bit_clearBit_same s bay 0 (by omega)
    · simp
    · simp [bay]
    · simp

end Sys2Proof.Proofs
end

section
/-! PROOFS. The shared pool: its operations and the refill of a page (R288, R291, R292), with what moving a range does to memory. -/

namespace Sys2Proof.Machine

open Sys2Proof.Claims

/-! ### Tables in canonical form -/

theorem kwfFrom_spec {α : Type} [DecidableEq α] (d : α) (m : KMap α) (lo : Nat) (h : kwfFrom d lo m = true) :
    (∀ x ∈ m, lo ≤ x.1 ∧ x.2 ≠ d) ∧ m.Pairwise fun x y => x.1 < y.1 := by
  induction m generalizing lo with
  | nil => exact ⟨by simp, List.Pairwise.nil⟩
  | cons c cs ih =>
    obtain ⟨k, v⟩ := c
    simp only [kwfFrom, Bool.and_eq_true, decide_eq_true_eq] at h
    obtain ⟨⟨hlo, hv⟩, hrest⟩ := h
    obtain ⟨hall, hpair⟩ := ih (k + 1) hrest
    refine ⟨fun x hx => ?_, List.Pairwise.cons (fun x hx => (hall x hx).1) hpair⟩
    obtain rfl | hx := List.mem_cons.mp hx
    · exact ⟨hlo, hv⟩
    · obtain ⟨hk, hne⟩ := hall x hx
      exact ⟨by omega, hne⟩

theorem kget_of_mem {α : Type} (d : α) (m : KMap α) (x : Nat × α) (hp : m.Pairwise fun x y => x.1 < y.1) (hx : x ∈ m) : kget d m x.1 = x.2 := by
  induction m with
  | nil => simp at hx
  | cons c cs ih =>
    obtain ⟨hlt, hcs⟩ := List.pairwise_cons.mp hp
    obtain rfl | hx := List.mem_cons.mp hx
    · simp [kget]
    · have hne : c.1 ≠ x.1 := (hlt x hx).ne
      simpa [kget, hne] using ih hcs hx

theorem mem_of_kget {α : Type} (d : α) (m : KMap α) (k : Nat) (h : kget d m k ≠ d) : (k, kget d m k) ∈ m := by
  induction m with
  | nil => simp [kget] at h
  | cons c cs ih =>
    obtain ⟨i, v⟩ := c
    by_cases hi : i = k
    · subst hi
      simp [kget]
    · simp only [kget, hi, if_false] at h ⊢
      exact List.mem_cons_of_mem _ (ih h)

theorem kget_filter {α : Type} (d : α) (p : Nat → Bool) (m : KMap α) (k : Nat) :
    kget d (m.filter fun x => p x.1) k = if p k = true then kget d m k else d := by
  induction m with
  | nil => simp [kget]
  | cons c cs ih =>
    obtain ⟨i, v⟩ := c
    by_cases hi : i = k
    · subst hi
      by_cases hp : p i = true
      · simp [kget, hp]
      · simpa [kget, hp] using ih
    · by_cases hp : p i = true <;> simp [kget, hp, hi, ih]

theorem Mem.read_zero (m : Mem) (a n x : Nat) : (m.zero a n).read x = if a ≤ x ∧ x < a + n then 0#8 else m.read x := by
  refine (kget_filter 0#8 (fun k => !(decide (a ≤ k) && decide (k < a + n))) m x).trans ?_
  by_cases h : a ≤ x ∧ x < a + n
  · simp [h]
  · have hb : (!(decide (a ≤ x) && decide (x < a + n))) = true := by
      simp only [Bool.not_eq_true', Bool.and_eq_false_iff, decide_eq_false_iff_not]
      omega
    rw [if_pos hb, if_neg h]
    rfl

/-- A cell whose address no other names holds what was written. -/
theorem Mem.read_writeCells_mem (cells : List (Nat × Byte)) (m : Mem) (c : Nat × Byte) (hnd : (cells.map (·.1)).Nodup) (hc : c ∈ cells) :
    (m.writeCells cells).read c.1 = c.2 := by
  induction cells generalizing m with
  | nil => simp at hc
  | cons x xs ih =>
    obtain ⟨hx, hxs⟩ := List.nodup_cons.mp hnd
    obtain rfl | hc := List.mem_cons.mp hc
    · rw [Mem.writeCells, Mem.read_writeCells_other _ _ _ fun y hy he => hx (List.mem_map.mpr ⟨y, hy, he⟩), Mem.read_write_same]
    · exact ih _ hxs hc

/-! ### A range moved (R292) -/

/-- The bytes of a range of memory that a move takes, at their new addresses: those of its lines that can be had. -/
def movedCells (m : Mem) (src dst n : Nat) (bad : List Nat) : List (Nat × Byte) :=
  (m.filter fun x => decide (src ≤ x.1) && decide (x.1 < src + n) && !bad.contains (x.1 / 256 * 256)).map fun x => (x.1 - src + dst, x.2)

theorem mem_movedCells {m : Mem} {src dst n : Nat} {bad : List Nat} {c : Nat × Byte} :
    c ∈ movedCells m src dst n bad ↔
      ∃ x, x ∈ m ∧ src ≤ x.1 ∧ x.1 < src + n ∧ bad.contains (x.1 / 256 * 256) = false ∧ c = (x.1 - src + dst, x.2) := by
  simp only [movedCells, List.mem_map, List.mem_filter, Bool.and_eq_true, decide_eq_true_eq, Bool.not_eq_true', and_assoc]
  constructor
  · rintro ⟨x, hx, h1, h2, h3, rfl⟩
    exact ⟨x, hx, h1, h2, h3, rfl⟩
  · rintro ⟨x, hx, h1, h2, h3, rfl⟩
    exact ⟨x, hx, h1, h2, h3, rfl⟩

theorem movedCells_nodup {m : Mem} (src dst n : Nat) (bad : List Nat) (hp : m.Pairwise fun x y => x.1 < y.1) :
    ((movedCells m src dst n bad).map (·.1)).Nodup := by
  unfold movedCells
  rw [List.map_map, List.Nodup, List.pairwise_map]
  refine (hp.filter _).imp_of_mem fun {x y} hx hy hlt => ?_
  have hxs : src ≤ x.1 := by
    have := (List.mem_filter.mp hx).2
    simp only [Bool.and_eq_true, decide_eq_true_eq] at this
    exact this.1.1
  simp only [Function.comp]
  omega

/-- What a moved range reads as, and that every byte outside it stands. -/
theorem read_movedCells (m : Mem) (src dst n : Nat) (bad : List Nat) (hw : Memory.wf m = true) :
    (∀ o, o < n → ((m.zero dst n).writeCells (movedCells m src dst n bad)).read (dst + o) =
      if bad.contains ((src + o) / 256 * 256) then 0#8 else m.read (src + o)) ∧
    ∀ a, a < dst ∨ dst + n ≤ a → ((m.zero dst n).writeCells (movedCells m src dst n bad)).read a = m.read a := by
  obtain ⟨hval, hpair⟩ := kwfFrom_spec 0#8 m 0 hw
  refine ⟨fun o ho => ?_, fun a ha => ?_⟩
  · have hzero : (m.zero dst n).read (dst + o) = 0#8 := by
      rw [Mem.read_zero, if_pos (by omega)]
    by_cases hcell : bad.contains ((src + o) / 256 * 256) = false ∧ m.read (src + o) ≠ 0#8
    · have hmem : (src + o, m.read (src + o)) ∈ m := mem_of_kget 0#8 m (src + o) hcell.2
      have hin : (dst + o, m.read (src + o)) ∈ movedCells m src dst n bad :=
        mem_movedCells.mpr ⟨_, hmem, by simp, by simpa using ho, hcell.1, by simp [Nat.add_comm]⟩
      rw [if_neg (by simpa using hcell.1)]
      exact Mem.read_writeCells_mem _ _ _ (movedCells_nodup src dst n bad hpair) hin
    · have hout : ∀ c ∈ movedCells m src dst n bad, c.1 ≠ dst + o := by
        rintro c hc he
        obtain ⟨x, hx, h1, h2, h3, rfl⟩ := mem_movedCells.mp hc
        have hxo : x.1 = src + o := by simp only at he; omega
        have hread : m.read (src + o) = x.2 := hxo ▸ kget_of_mem 0#8 m x hpair hx
        exact hcell ⟨hxo ▸ h3, hread ▸ (hval x hx).2⟩
      rw [Mem.read_writeCells_other _ _ _ hout, hzero]
      split
      next => rfl
      next hb =>
        by_contra hne
        exact hcell ⟨by simpa using hb, fun h => hne h.symm⟩
  · have hout : ∀ c ∈ movedCells m src dst n bad, c.1 ≠ a := by
      rintro c hc he
      obtain ⟨x, hx, h1, h2, h3, rfl⟩ := mem_movedCells.mp hc
      simp only at he
      omega
    rw [Mem.read_writeCells_other _ _ _ hout, Mem.read_zero, if_neg (by omega)]

/-- Nothing but memory, marks, held writes and the tiers may differ; the pages stand. -/
def MemoryOnly (s u : State) : Prop :=
  u = { s with mem := u.mem, marks := u.marks, held := u.held, tiers := u.tiers } ∧ u.tiers.pages = s.tiers.pages

theorem memoryOnly_rfl (s : State) : MemoryOnly s s := ⟨rfl, rfl⟩

theorem memoryOnly_regs {s u : State} (h : MemoryOnly s u) : u.regs = s.regs := by rw [h.1]

theorem memoryOnly_applyEntry {s u : State} (h : Held) (hu : MemoryOnly s u) : MemoryOnly s (u.applyEntry h) := by
  obtain ⟨hu, hp⟩ := hu
  refine ⟨?_, hp⟩
  rw [State.applyEntry, hu]

theorem memoryOnly_settleRange {s u : State} (a n : Nat) (hu : MemoryOnly s u) : MemoryOnly s (u.settleRange a n) := by
  let mine (h : Held) : Bool := h.committed && decide (a ≤ h.base) && decide (h.base < a + n)
  have hfold : MemoryOnly s ((u.held.filter mine).foldl State.applyEntry u) :=
    List.foldlRecOn _ _ hu fun _ hb h _ => memoryOnly_applyEntry h hb
  obtain ⟨hf, hp⟩ := hfold
  refine ⟨?_, hp⟩
  unfold State.settleRange
  simp only
  rw [hf]

theorem memoryOnly_clearRange {s u : State} (a n : Nat) (hu : MemoryOnly s u) : MemoryOnly s (u.clearRange a n) := by
  obtain ⟨hf, hp⟩ := memoryOnly_settleRange a n hu
  refine ⟨?_, hp⟩
  unfold State.clearRange State.uncache
  simp only
  rw [hf]

theorem memoryOnly_moveRange {s u : State} (src dst n : Nat) (hu : MemoryOnly s u) : MemoryOnly s (u.moveRange src dst n) := by
  obtain ⟨hf, hp⟩ := memoryOnly_clearRange dst n (memoryOnly_settleRange src n hu)
  refine ⟨?_, hp⟩
  unfold State.moveRange
  simp only
  rw [hf]

/-- With nothing held no write waits for a range. -/
theorem State.settleRange_nothing (s : State) (a n : Nat) (h : s.held = []) : s.settleRange a n = s := by
  have hs : { s with held := [] } = s := by
    rw [← h]
  unfold State.settleRange
  rw [h]
  exact hs

theorem State.clearRange_mem (s : State) (a n : Nat) (h : s.held = []) : (s.clearRange a n).mem = Mem.zero s.mem a n := by
  unfold State.clearRange
  rw [s.settleRange_nothing a n h]
  rfl

theorem State.moveRange_mem (s : State) (src dst n : Nat) (h : s.held = []) :
    (s.moveRange src dst n).mem = (Mem.zero s.mem dst n).writeCells (movedCells s.mem src dst n (s.badLinesIn src n)) := by
  unfold State.moveRange
  simp only
  rw [s.settleRange_nothing src n h, s.clearRange_mem dst n h]
  rfl

theorem State.page_setPage_same (s : State) (f : Nat) (far : Bool) (v : Nat) (p : Option Page) : (s.setPage f far v p).page f far v = p :=
  kget_kset_same _ _ _ _

/-! ### Operations and refills (R288, R291, R292) -/

/-- The request that a function's registers hold. -/
def State.poolReq (s : State) (f : Nat) : PoolReq :=
  { func := f, far := bitOf (s.reg (bar0 f 0x9000)) 0, op := bitsOf (s.reg (bar0 f 0x9000)) 1 3, vpage := s.reg (bar0 f 0x9004)
    count := s.reg (bar0 f 0x9008) }

theorem poolCommand_starts {s : State} {f : Nat} (hf : f < 256) (hh : s.halted = false) (hz : s.vigil.frozen = false) :
    poolCommand (bitsOf (s.reg (bar0 f 0x9000)) 1 3) f s = .next (s.poolGo f) := by
  simp [poolCommand, Nat.not_le.mpr hf, hh, hz, State.field]

theorem State.poolGo_busy (s : State) (f : Nat) (h : s.bit (bar0 f 0x9010) 0 = true) : s.poolGo f = s := by
  simp [State.poolGo, h]

/-- A word kept in a register, with a request that waits. -/
def State.withReq (s : State) (a w : Nat) (r : PoolReq) : State :=
  { s.setReg a w with tiers := { s.tiers with reqs := s.tiers.reqs ++ [r] } }

theorem State.withReq_only (s : State) (a w : Nat) (r : PoolReq) :
    s.withReq a w r = { s with
      regs := (s.withReq a w r).regs
      tiers := { s.tiers with reqs := s.tiers.reqs ++ [r] } } := rfl

theorem State.withReq_reg (s : State) (a w : Nat) (r : PoolReq) :
    (s.withReq a w r).reg a = w % 2 ^ 32 ∧ OtherRegs a s (s.withReq a w r) :=
  ⟨State.reg_setReg_same s _ _, otherRegs_setReg s _ _⟩

theorem State.withReq_tiers (s : State) (a w : Nat) (r : PoolReq) :
    (s.withReq a w r).tiers = { s.tiers with reqs := s.tiers.reqs ++ [r] } := rfl

theorem State.poolGo_starts (s : State) (f : Nat) (h : s.bit (bar0 f 0x9010) 0 = false) (h1 : 1 ≤ s.reg (bar0 f 0x9008))
    (h2 : s.reg (bar0 f 0x9008) ≤ 2 ^ 21) :
    s.poolGo f = s.withReq (bar0 f 0x9010) 1 (s.poolReq f) := by
  have hcond : (s.bit (bar0 f 0x9010) 0 || s.reg (bar0 f 0x9008) == 0 || decide (2 ^ 21 < s.reg (bar0 f 0x9008))) = false := by
    simp only [h, Bool.false_or, Bool.or_eq_false_iff, beq_eq_false_iff_ne, decide_eq_false_iff_not]
    omega
  simp only [State.poolGo, hcond, Bool.false_eq_true, if_false]
  rfl

theorem State.refill_eq (s : State) {f v : Nat} {q : Page} (hp : s.page f false v = some q) (hq : q.state = .evicted)
    (hi : firstFree s.nearTaken (s.nearTaken.length + 1) 0 < s.nearPages) :
    let i := firstFree s.nearTaken (s.nearTaken.length + 1) 0
    s.refill f v = ((s.moveRange (farKey + q.back * pageBytes) (i * pageBytes) pageBytes).setPage f false v
      (some { q with state := .resident, phys := i })).count (tierReg 0x18) 1 := by
  have htake : s.takeNear [] = some (s, firstFree s.nearTaken (s.nearTaken.length + 1) 0) := by
    simp [State.takeNear, hi]
  simp [State.refill, hp, hq, htake]

end Sys2Proof.Machine

namespace Sys2Proof.Proofs

open Sys2Proof.Machine Sys2Proof.Claims

/-- Settles O42, by the request in the function's registers and by what a moved page reads as. -/
theorem poolOperations : Obligations.PoolOperations := by
  unfold Obligations.PoolOperations
  intro s f v hf hh hz req n
  refine ⟨fun op i hi hop => ?_, fun hw => ?_, fun q hw hp hq => ?_⟩
  · have hx : exec i s = .next (s.poolGo f) := by
      rw [← poolCommand_starts hf hh hz]
      subst hop
      simp only [List.mem_cons, Prod.mk.injEq, List.not_mem_nil, or_false] at hi
      obtain ⟨ho, rfl⟩ | ⟨ho, rfl⟩ | ⟨ho, rfl⟩ | ⟨ho, rfl⟩ | ⟨ho, rfl⟩ := hi <;> rw [ho] <;> rfl
    refine ⟨fun hb => hx.trans (congrArg Host.Outcome.next (s.poolGo_busy f hb)), fun hb h1 h2 => ?_⟩
    obtain ⟨hreg, hother⟩ := s.withReq_reg (bar0 f 0x9010) 1 (s.poolReq f)
    refine ⟨_, hx.trans (congrArg Host.Outcome.next (s.poolGo_starts f hb h1 h2)), hreg, hother, ?_, ?_⟩
    · rw [State.withReq_tiers]
      exact s.withReq_only _ _ _
    · subst hop
      exact s.withReq_tiers _ _ _
  · change execRefill f v s = _
    simp [execRefill, hw, Nat.not_le.mpr hf]
  · intro i src hin _
    have hx : exec (.refill f v) s = .next (s.refill f v) := by
      change execRefill f v s = _
      simp [execRefill, hw, hh, Nat.not_le.mpr hf]
    let s1 := s.moveRange (farKey + q.back * pageBytes) (i * pageBytes) pageBytes
    have hregs : s1.regs = s.regs := memoryOnly_regs (memoryOnly_moveRange _ _ _ (memoryOnly_rfl s))
    refine ⟨_, hx.trans (congrArg Host.Outcome.next (s.refill_eq hp hq hin)), ?_, ?_, fun b hb => ?_, fun hheld hkept => ?_⟩
    · exact State.page_setPage_same s1 f false v _
    · refine (State.reg_setReg_same _ _ _).trans ?_
      exact congrArg (fun w => (w + 1) % 2 ^ 32) (State.reg_congr hregs (tierReg 0x18))
    · exact (otherRegs_count (s1.setPage f false v _) _ _ b hb).trans (State.reg_congr hregs b)
    · have hmem := s.moveRange_mem (farKey + q.back * pageBytes) (i * pageBytes) pageBytes hheld
      obtain ⟨hin, hout⟩ := read_movedCells s.mem (farKey + q.back * pageBytes) (i * pageBytes) pageBytes
        (s.badLinesIn (farKey + q.back * pageBytes) pageBytes) hkept
      rw [← hmem] at hin hout
      exact ⟨hin, hout⟩

end Sys2Proof.Proofs
end

section
/-! PROOFS. What sending on the torus ports changes, and a port taken down (R309–R312, R314–R317, R444, R448). -/

namespace Sys2Proof.Machine

open Sys2Proof.Claims

/-! ### Ports -/

/-- Nothing but ports may differ. -/
def PortsOnly (s u : State) : Prop := u = { s with links := { s.links with ports := u.links.ports } }

theorem portsOnly_rfl (s : State) : PortsOnly s s := rfl

theorem portsOnly_modPort {s u : State} (p : Nat) (f : Port → Port) (h : PortsOnly s u) : PortsOnly s (u.modPort p f) := by
  unfold PortsOnly at h ⊢
  rw [State.modPort, h]

theorem portsOnly_passOn (s : State) (p : Nat) (m : List Byte) : PortsOnly s (s.passOn p m).1 := by
  unfold State.passOn
  cases (s.port p).passOn m with
  | none => exact portsOnly_rfl s
  | some y => exact portsOnly_modPort p (fun _ => y.2) (portsOnly_rfl s)

theorem portsOnly_passAny (s : State) (m : List Byte) : PortsOnly s (s.passAny m) := by
  unfold State.passAny
  split
  · exact portsOnly_passOn s _ m
  · exact portsOnly_rfl s

/-! ### Sending (R312, R314, R317) -/

/-- What sending may change: ports, the counters of performance and of lost or turned messages; no port that is not in service. -/
structure SendOnly (s u : State) : Prop where
  only : u = { s with regs := u.regs, links := { s.links with ports := u.links.ports }, obs := { s.obs with ctrs := u.obs.ctrs } }
  regs : RegsBut [linkReg 0x28, collReg 0x10] s u
  down : ∀ p, p < 8 → s.portState p ≠ 2 → u.port p = s.port p

theorem sendOnly_rfl (s : State) : SendOnly s s := ⟨rfl, fun _ _ => rfl, fun _ _ _ => rfl⟩

/-- A port's state as its register shows it is none of the words that sending counts in. -/
theorem portReg_notCounted {p : Nat} (h : p < 8) : linkReg (0x40 + 16 * p) ∉ [linkReg 0x28, collReg 0x10] := by
  simp only [List.mem_cons, List.not_mem_nil, or_false, not_or, linkReg, collReg]
  omega

theorem SendOnly.portState {s u : State} (h : SendOnly s u) {p : Nat} (hp : p < 8) : u.portState p = s.portState p :=
  congrArg (bitsOf · 0 3) (h.regs _ (portReg_notCounted hp))

theorem SendOnly.trans {s u w : State} (h : SendOnly s u) (h2 : SendOnly u w) : SendOnly s w where
  only := by rw [h2.only, h.only]
  regs := fun b hb => (h2.regs b hb).trans (h.regs b hb)
  down := fun p hp hs => (h2.down p hp (h.portState hp ▸ hs)).trans (h.down p hp hs)

theorem sendOnly_count (s : State) {a : Nat} (n : Nat) (ha : a ∈ [linkReg 0x28, collReg 0x10]) : SendOnly s (s.count a n) where
  only := rfl
  regs := regsBut_count n (regsBut_rfl _ s) ha
  down := fun _ _ _ => rfl

/-- A change of a port in service. -/
theorem sendOnly_modPort (s : State) {p : Nat} (f : Port → Port) (hs : s.portState p = 2) : SendOnly s (s.modPort p f) where
  only := rfl
  regs := fun _ _ => rfl
  down := fun q _ hq => State.port_modPort_other s f (by rintro rfl; exact hq hs)

theorem sendOnly_tally (s : State) (kind inst event n : Nat) : SendOnly s (s.tally kind inst event n) := ⟨rfl, fun _ _ => rfl, fun _ _ _ => rfl⟩

theorem sendOnly_pumpPort (s : State) {p : Nat} (hs : s.portState p = 2) : SendOnly s (s.pumpPort p) := by
  unfold State.pumpPort
  split
  · exact sendOnly_rfl s
  · exact (sendOnly_modPort s _ hs).trans (sendOnly_tally _ _ _ _ _)

theorem sendOnly_portSend (s : State) {p : Nat} (m : PortMsg) (hs : s.portState p = 2) : SendOnly s (s.portSend p m) :=
  (sendOnly_modPort s _ hs).trans (sendOnly_pumpPort _ hs)

theorem axisPort_lt (axis dir : Nat) : axisPort axis dir < 8 := by
  unfold axisPort
  split <;> omega

/-- A COLL message that goes back is counted. -/
theorem sendOnly_turned (s : State) (coll : Bool) : SendOnly s (if coll then s.count (collReg 0x10) 1 else s) := by
  split
  · exact sendOnly_count s 1 (by simp)
  · exact sendOnly_rfl s

theorem sendOnly_emit (s : State) (axis dir hdr : Nat) (payload : List Byte) (fwd : Bool) (came : Option Nat) :
    SendOnly s (s.emit axis dir hdr payload fwd came) := by
  have hturn := sendOnly_turned s (bitsOf hdr 32 4 == 1)
  unfold State.emit
  refine iteInduction (fun h => sendOnly_portSend s _ (by simpa using h)) fun _ => ?_
  refine iteInduction (fun _ => sendOnly_rfl s) fun _ => ?_
  refine iteInduction (fun _ => sendOnly_count s 1 (by simp)) fun _ => ?_
  refine iteInduction (fun h => hturn.trans (sendOnly_portSend _ _ ?_)) fun _ => hturn.trans (sendOnly_count _ 1 (by simp))
  rw [hturn.portState (axisPort_lt _ _)]
  simpa using h

theorem sendOnly_launch (s : State) (hdr : Nat) (payload : List Byte) (fwd : Bool) : SendOnly s (s.launch hdr payload fwd).1 := by
  unfold State.launch
  split
  next => exact sendOnly_rfl s
  next a =>
    split
    next => exact sendOnly_emit s _ _ _ _ _ _
    next =>
      simp only
      split
      next => exact sendOnly_emit s _ _ _ _ _ _
      next => exact sendOnly_rfl s

theorem sendOnly_sendMsg (s : State) (h : Hdr) : SendOnly s (s.sendMsg h) := by
  rw [State.sendMsg_eq]
  exact sendOnly_launch s _ _ _

theorem sendOnly_answer (s : State) (kind dst stream lf ns : Nat) (closed : Bool) (reason : Nat) :
    SendOnly s (s.answer kind dst stream lf ns closed reason) := by
  unfold State.answer
  exact sendOnly_sendMsg s _

theorem sendOnly_sendLinkState (s : State) (axis coord : Nat) (up : Bool) : SendOnly s (s.sendLinkState axis coord up) := by
  unfold State.sendLinkState
  refine List.foldlRecOn (motive := fun u => SendOnly s u) _ _ (sendOnly_rfl s) fun u hu dir _ => ?_
  split
  · exact hu.trans (sendOnly_emit u _ _ _ _ _ _)
  · exact hu

/-! ### A link's state known, a port taken down (R311, R315, R316) -/

theorem State.setPortState_portState (s : State) (p st : Nat) : (s.setPortState p st).portState p = st % 8 :=
  State.field_setField_same s _ _ _ _ (by omega)

/-- The state with a link known to be up or down, and the shadow bank built. -/
theorem State.noteLink_facts (s : State) (axis coord : Nat) (up : Bool) :
    let u := s.noteLink axis coord up
    u = { s with regs := u.regs, links := { s.links with failed := u.links.failed, shadow := u.links.shadow, shadowReady := true } } ∧
      OtherRegs (linkReg 0x1C) s u ∧ ((axis, coord) ∈ u.links.failed ↔ up = false) := by
  refine ⟨rfl, otherRegs_setBit _ _ _, ?_⟩
  cases up <;> simp [State.noteLink, State.buildShadow]

theorem State.noteLink_shadowReady (s : State) (axis coord : Nat) (up : Bool) : (s.noteLink axis coord up).links.shadowReady = true := rfl

theorem State.noteLink_port (s : State) (axis coord : Nat) (up : Bool) (q : Nat) : (s.noteLink axis coord up).port q = s.port q := rfl

theorem State.noteLink_remap (s : State) (axis coord : Nat) (up : Bool) : (s.noteLink axis coord up).remap = s.remap := rfl

/-- The port empty, its counts and record made. -/
def State.portCleared (s : State) (p cause : Nat) : State :=
  ((((s.setPortState p 4).count (linkReg (0x4C + 16 * p)) 1).trace 4 0 (4 + 256 * cause) p).queueRecord (portDie p)
    (remapRecord s.tick 3 false 0 0 p false 0)).modPort p fun x => { x with replay := [], queue := [], spent := [], owed := [], rx := [] }

/-- The port's link known to have failed. -/
def State.portCut (s : State) (p cause : Nat) : State := (s.portCleared p cause).noteLink (portAxis p) (s.portLink p) false

theorem State.sendOnly_portDown (s : State) (p cause : Nat) : SendOnly (s.portCut p cause) (s.portDown p cause) := by
  have h : SendOnly (s.portCut p cause) ((s.portCut p cause).sendLinkState (portAxis p) (s.portLink p) false) :=
    sendOnly_sendLinkState _ _ _ _
  refine List.foldlRecOn (motive := fun u => SendOnly (s.portCut p cause) u) _ _ h fun u hu m _ => ?_
  split
  · exact hu
  · exact hu.trans (sendOnly_emit u _ _ _ _ _ _)

/-- The registers that taking a port down may change. -/
def portDownRegs (p : Nat) : List Nat :=
  [linkReg (0x40 + 16 * p), linkReg (0x4C + 16 * p), linkReg 0x1C, linkReg 0x28, collReg 0x10, obsReg 0x408, obsReg 0x518]
    ++ recordRegs (portDie p)

theorem portDie_lt (p : Nat) : portDie p < 8 := by unfold portDie; split <;> omega

/-- The torus registers are apart from the registers of a die and of the trace. -/
theorem linkReg_apart (off d : Nat) (h : off < 0x10000) (hd : d < 8) :
    linkReg off ∉ [obsReg 0x408, obsReg 0x518] ∧ linkReg off ∉ recordRegs d := by
  simp only [recordRegs, List.mem_cons, List.not_mem_nil, or_false, not_or, linkReg, obsReg, remapReg]
  omega

theorem State.portCleared_only (s : State) (p cause : Nat) :
    let u := s.portCleared p cause
    u = { s with
      regs := u.regs
      links := { s.links with ports := u.links.ports }
      remap := { s.remap with records := u.remap.records }
      obs := u.obs } := by
  intro u
  have hrec := ((((s.setPortState p 4).count (linkReg (0x4C + 16 * p)) 1).trace 4 0 (4 + 256 * cause) p).queueRecord_only (portDie p)
    (remapRecord s.tick 3 false 0 0 p false 0)).1
  have htrace := ((s.setPortState p 4).count (linkReg (0x4C + 16 * p)) 1).trace_only 4 0 (4 + 256 * cause) p
  have hu : u = (((((s.setPortState p 4).count (linkReg (0x4C + 16 * p)) 1).trace 4 0 (4 + 256 * cause) p).queueRecord (portDie p)
    (remapRecord s.tick 3 false 0 0 p false 0)).modPort p fun x => { x with replay := [], queue := [], spent := [], owed := [], rx := [] }) :=
    rfl
  rw [hu, State.modPort, hrec, htrace]
  rfl

theorem State.portCleared_regs (s : State) {p : Nat} (cause : Nat) (hp : p < 8) :
    let u := s.portCleared p cause
    u.portState p = 4 ∧ u.reg (linkReg (0x4C + 16 * p)) = (s.reg (linkReg (0x4C + 16 * p)) + 1) % 2 ^ 32 ∧
      RegsBut (portDownRegs p) s u := by
  intro u
  let s1 := (s.setPortState p 4).count (linkReg (0x4C + 16 * p)) 1
  let s2 := s1.trace 4 0 (4 + 256 * cause) p
  have htrace : RegsBut [obsReg 0x408, obsReg 0x518] s1 s2 := regsBut_trace s1 _ _ _ _
  have hrec : RegsBut (recordRegs (portDie p)) s2 (s2.queueRecord (portDie p) (remapRecord s.tick 3 false 0 0 p false 0)) :=
    (s2.queueRecord_only _ _).2
  have hlink : ∀ off, off < 0x10000 → u.reg (linkReg off) = s1.reg (linkReg off) := fun off h => by
    obtain ⟨ha, hb⟩ := linkReg_apart off (portDie p) h (portDie_lt p)
    exact (hrec _ hb).trans (htrace _ ha)
  have hne : linkReg (0x4C + 16 * p) ≠ linkReg (0x40 + 16 * p) := by unfold linkReg; omega
  refine ⟨?_, ?_, fun b hb => ?_⟩
  · have hstate : s1.portState p = (s.setPortState p 4).portState p := congrArg (bitsOf · 0 3) (State.reg_setReg_other _ _ hne)
    exact (congrArg (bitsOf · 0 3) (hlink (0x40 + 16 * p) (by omega))).trans (hstate.trans (s.setPortState_portState p 4))
  · refine (hlink (0x4C + 16 * p) (by omega)).trans ((State.reg_setReg_same _ _ _).trans ?_)
    have hsame : (s.setPortState p 4).reg (linkReg (0x4C + 16 * p)) = s.reg (linkReg (0x4C + 16 * p)) :=
      State.reg_setReg_other s _ hne.symm
    rw [hsame]
  · simp only [portDownRegs, List.cons_append, List.nil_append, List.mem_cons, not_or] at hb
    obtain ⟨h40, h4c, -, -, -, h408, h518, hr⟩ := hb
    refine (hrec b hr).trans ((htrace b (by simp [h408, h518])).trans ?_)
    exact (State.reg_setReg_other _ _ (Ne.symm h4c)).trans (State.reg_setReg_other s _ (Ne.symm h40))

/-- A port's record joins those that wait, where there is room. -/
theorem State.portCleared_record (s : State) (p cause : Nat) (h : (kget [] s.remap.records (portDie p)).length < 64) :
    kget [] (s.portCleared p cause).remap.records (portDie p) =
      kget [] s.remap.records (portDie p) ++ [remapRecord s.tick 3 false 0 0 p false 0] := by
  let s1 := (s.setPortState p 4).count (linkReg (0x4C + 16 * p)) 1
  have htrace : (s1.trace 4 0 (4 + 256 * cause) p).remap = s.remap := by
    rw [State.trace_only]
    exact (State.count_remap (s.setPortState p 4) (linkReg (0x4C + 16 * p)) 1).trans (State.setField_remap s _ _ _ _)
  have hroom := (s1.trace 4 0 (4 + 256 * cause) p).queueRecord_room (portDie p) (remapRecord s.tick 3 false 0 0 p false 0)
  rw [htrace] at hroom
  exact hroom h

theorem State.portCleared_replay (s : State) (p cause : Nat) : ((s.portCleared p cause).port p).replay = [] := by
  rw [State.portCleared, State.port_modPort_same]

theorem State.portCut_portState (s : State) {p : Nat} (cause : Nat) (hp : p < 8) : (s.portCut p cause).portState p = 4 := by
  have h := ((s.portCleared p cause).noteLink_facts (portAxis p) (s.portLink p) false).2.1 (linkReg (0x40 + 16 * p))
    (by unfold linkReg; omega)
  exact (congrArg (bitsOf · 0 3) h).trans (s.portCleared_regs cause hp).1

theorem State.portDown_only (s : State) (p cause : Nat) :
    let u := s.portDown p cause
    u = { s with regs := u.regs, links := u.links, remap := { s.remap with records := u.remap.records }, obs := u.obs } := by
  intro u
  have h1 := s.portCleared_only p cause
  have h2 := ((s.portCleared p cause).noteLink_facts (portAxis p) (s.portLink p) false).1
  have h3 := (s.sendOnly_portDown p cause).only
  simp only at h1 h2
  change u = _ at h3
  rw [h3, State.portCut, h2, h1]

/-- What a port taken down shows: FAILED, counted, its link known failed, nothing left to replay, the shadow bank built, a record. -/
theorem State.portDown_facts (s : State) {p : Nat} (cause : Nat) (hp : p < 8) :
    let u := s.portDown p cause
    u.portState p = 4 ∧ u.reg (linkReg (0x4C + 16 * p)) = (s.reg (linkReg (0x4C + 16 * p)) + 1) % 2 ^ 32 ∧
      (portAxis p, s.portLink p) ∈ u.links.failed ∧ (u.port p).replay = [] ∧ u.links.shadowReady = true ∧
      RegsBut (portDownRegs p) s u ∧
      ((kget [] s.remap.records (portDie p)).length < 64 →
        kget [] u.remap.records (portDie p) = kget [] s.remap.records (portDie p) ++ [remapRecord s.tick 3 false 0 0 p false 0]) := by
  intro u
  have hsend := s.sendOnly_portDown p cause
  obtain ⟨-, hother, hfailed⟩ := (s.portCleared p cause).noteLink_facts (portAxis p) (s.portLink p) false
  obtain ⟨-, hcount, hregs⟩ := s.portCleared_regs cause hp
  have hcut : (s.portCut p cause).portState p = 4 := s.portCut_portState cause hp
  have hlinks : u.links.failed = (s.portCut p cause).links.failed ∧ u.links.shadowReady = (s.portCut p cause).links.shadowReady ∧
      u.remap = (s.portCut p cause).remap := by
    have ho : u = _ := hsend.only
    rw [ho]
    exact ⟨rfl, rfl, rfl⟩
  obtain ⟨hf, hr, hm⟩ := hlinks
  refine ⟨(hsend.portState hp).trans hcut, ?_, ?_, ?_, ?_, fun b hb => ?_, fun hroom => ?_⟩
  · refine (hsend.regs _ ?_).trans ((hother _ (by unfold linkReg; omega)).trans hcount)
    simp only [List.mem_cons, List.not_mem_nil, or_false, not_or, linkReg, collReg]
    omega
  · rw [hf]
    exact hfailed.mpr rfl
  · have hport : u.port p = (s.portCut p cause).port p := hsend.down p hp (by omega)
    rw [hport, State.portCut, State.noteLink_port]
    exact s.portCleared_replay p cause
  · exact hr.trans (State.noteLink_shadowReady _ _ _ _)
  · have hmem : ∀ a ∈ [linkReg 0x1C, linkReg 0x28, collReg 0x10], b ≠ a := by
      rintro a ha rfl
      exact hb (by simp only [portDownRegs, List.mem_cons, List.mem_append] at ha ⊢; tauto)
    refine (hsend.regs b ?_).trans ((hother b (hmem _ (by simp))).trans (hregs b hb))
    simp [hmem _ (by simp : linkReg 0x28 ∈ [linkReg 0x1C, linkReg 0x28, collReg 0x10]),
      hmem _ (by simp : collReg 0x10 ∈ [linkReg 0x1C, linkReg 0x28, collReg 0x10])]
  · rw [hm, State.portCut, State.noteLink_remap]
    exact s.portCleared_record p cause hroom

end Sys2Proof.Machine
end

section
/-! PROOFS. The management controller's heartbeat and samples, the power manager's measurements, straps and cables (R492, R493, R496, R497,
R505, R555, R560, R561). -/

namespace Sys2Proof.Machine

open Sys2Proof.Claims

/-! ### Samples (R492) -/

theorem State.showLoad_regs (s : State) : RegsBut [mgmtReg 4, mgmtReg 8] s s.showLoad ∧ s.showLoad.reg (mgmtReg 8) = s.reg (mgmtReg 8) :=
  ⟨regsBut_setReg _ (regsBut_rfl _ s) (by simp), State.reg_setReg_other s _ (by decide)⟩

/-- The sample published, with an open number of characters taken from the console. -/
def State.samplePublished (s : State) (temp flow inlet : Nat) : State :=
  { s with
    free := s.free + 1
    mgmt := { s.mgmt with
      telem := [temp, flow, inlet]
      uart := { s.mgmt.uart with rx := s.mgmt.uart.rx.drop (Config.freeNat s.free % (s.mgmt.uart.rx.length + 1)) } } }

theorem State.telemetry_eq (s : State) (temp flow inlet : Nat) :
    s.telemetry temp flow inlet =
      let s1 := ({ s with mgmt := { s.mgmt with mcRestart := false } }).showLoad
      if s1.bit (mgmtReg 4) 4 then s1.count (mgmtReg 8) 1 else s1.samplePublished temp flow inlet := rfl

/-- A telemetry period leaves what is no register and not the MC's. -/
theorem State.telemetry_facts (s : State) (temp flow inlet : Nat) :
    let u := s.telemetry temp flow inlet
    u.mgmt.mcRestart = false ∧ u.mem = s.mem ∧ u.held = s.held ∧ u.cmds = s.cmds ∧ RegsBut [mgmtReg 4, mgmtReg 8] s u ∧
      (u.mgmt.telem = [temp, flow, inlet] ∧ u.reg (mgmtReg 8) = s.reg (mgmtReg 8) ∨
        u.mgmt.telem = s.mgmt.telem ∧ u.mgmt.uart = s.mgmt.uart ∧ u.reg (mgmtReg 8) = (s.reg (mgmtReg 8) + 1) % 2 ^ 32) := by
  intro u
  obtain ⟨hregs, hlost⟩ := ({ s with mgmt := { s.mgmt with mcRestart := false } } : State).showLoad_regs
  have hu : u = s.telemetry temp flow inlet := rfl
  rw [State.telemetry_eq] at hu
  simp only at hu
  split at hu
  · rw [hu]
    refine ⟨rfl, rfl, rfl, rfl, regsBut_count _ hregs (by simp), Or.inr ⟨rfl, rfl, ?_⟩⟩
    exact (State.reg_setReg_same _ _ _).trans (congrArg (fun n => (n + 1) % 2 ^ 32) hlost)
  · rw [hu]
    exact ⟨rfl, rfl, rfl, rfl, hregs, Or.inl ⟨rfl, hlost⟩⟩

/-! ### Measurements (R496, R497) -/

/-- The measured words and the two warnings. -/
def State.measured (s : State) (flow inlet temp : Nat) : State :=
  let s1 := ((s.setField (mgmtReg 0x224) 0 8 temp).setField (mgmtReg 0x228) 0 16 flow).setField (mgmtReg 0x22C) 0 16 inlet
  let s2 := s1.setField (mgmtReg 0x208) 4 1 (natOf (decide (4000 < inlet) || decide (flow < 720)))
  s2.setField (mgmtReg 0x208) 3 1 (natOf (decide (s.field (mgmtReg 0x220) 0 8 ≤ temp)))

theorem natOf_eq_one (b : Bool) : (natOf b % 2 ^ 1 == 1) = b := by cases b <;> rfl

theorem State.measured_regsOnly (s : State) (flow inlet temp : Nat) : RegsOnly s (s.measured flow inlet temp) :=
  regsOnly_setField_of _ _ _ _ (regsOnly_setField_of _ _ _ _ (regsOnly_setField_of _ _ _ _ (regsOnly_setField_of _ _ _ _
    (regsOnly_setField s _ _ _ _))))

theorem State.measured_regsBut (s : State) (flow inlet temp : Nat) :
    RegsBut [mgmtReg 0x208, mgmtReg 0x224, mgmtReg 0x228, mgmtReg 0x22C] s (s.measured flow inlet temp) :=
  regsBut_setField _ _ _ (regsBut_setField _ _ _ (regsBut_setField _ _ _ (regsBut_setField _ _ _ (regsBut_setField _ _ _
    (regsBut_rfl _ s) (by simp)) (by simp)) (by simp)) (by simp)) (by simp)

theorem State.measured_fields (s : State) (flow inlet temp : Nat) :
    let u := s.measured flow inlet temp
    u.field (mgmtReg 0x224) 0 8 = temp % 256 ∧ u.field (mgmtReg 0x228) 0 16 = flow % 65536 ∧
      u.field (mgmtReg 0x22C) 0 16 = inlet % 65536 ∧ u.bit (mgmtReg 0x208) 4 = (decide (4000 < inlet) || decide (flow < 720)) ∧
      u.bit (mgmtReg 0x208) 3 = decide (s.field (mgmtReg 0x220) 0 8 ≤ temp) := by
  have h1 : mgmtReg 0x208 ≠ mgmtReg 0x224 := by decide
  have h2 : mgmtReg 0x208 ≠ mgmtReg 0x228 := by decide
  have h3 : mgmtReg 0x208 ≠ mgmtReg 0x22C := by decide
  have h4 : mgmtReg 0x22C ≠ mgmtReg 0x224 := by decide
  have h5 : mgmtReg 0x22C ≠ mgmtReg 0x228 := by decide
  have h6 : mgmtReg 0x228 ≠ mgmtReg 0x224 := by decide
  simp only [State.measured]
  refine ⟨?_, ?_, ?_, ?_, ?_⟩
  · rw [State.field_setField_other _ _ _ _ _ _ h1, State.field_setField_other _ _ _ _ _ _ h1, State.field_setField_other _ _ _ _ _ _ h4,
      State.field_setField_other _ _ _ _ _ _ h6, State.field_setField_same _ _ _ _ _ (by omega)]
    rfl
  · rw [State.field_setField_other _ _ _ _ _ _ h2, State.field_setField_other _ _ _ _ _ _ h2, State.field_setField_other _ _ _ _ _ _ h5,
      State.field_setField_same _ _ _ _ _ (by omega)]
    rfl
  · rw [State.field_setField_other _ _ _ _ _ _ h3, State.field_setField_other _ _ _ _ _ _ h3,
      State.field_setField_same _ _ _ _ _ (by omega)]
    rfl
  · rw [State.bit_eq, State.field_setField_apart _ _ _ _ _ _ _ (by omega) (by omega), State.field_setField_same _ _ _ _ _ (by omega),
      natOf_eq_one]
  · rw [State.bit_eq, State.field_setField_same _ _ _ _ _ (by omega), natOf_eq_one]

/-! ### Cables (R505, R555) -/

/-- The state with a cable's fit known. -/
def State.cableKnown (s : State) (p : Nat) (fit : Bool) : State :=
  { s with mgmt := { s.mgmt with cables := kset false s.mgmt.cables p fit } }

theorem State.cableKnown_cable (s : State) (p : Nat) (fit : Bool) : kget false (s.cableKnown p fit).mgmt.cables p = fit :=
  kget_kset_same _ _ _ _

theorem State.changeCable_leaves (s : State) (p : Nat) (hd : s.mgmt.dark = false) :
    s.changeCable p false = if s.portState p == 2 then (s.cableKnown p false).portDown p 2
      else if s.portState p == 1 then (s.cableKnown p false).setPortState p 0 else s.cableKnown p false := by
  have hnot : ¬ s.mgmt.dark = true := by simp [hd]
  unfold State.changeCable
  exact if_neg hnot

theorem State.changeCable_fits (s : State) (p : Nat) (hd : s.mgmt.dark = false) :
    s.changeCable p true = if (s.cableKnown p true).bit (linkReg 8) p && (s.cableKnown p true).portState p != 2 &&
      (s.cableKnown p true).portFitted p then (s.cableKnown p true).setPortState p 1 else s.cableKnown p true := by
  have hnot : ¬ s.mgmt.dark = true := by simp [hd]
  unfold State.changeCable
  exact if_neg hnot

/-- A port taken down leaves the management plane and memory. -/
theorem State.portDown_mgmt (s : State) (p cause : Nat) : (s.portDown p cause).mgmt = s.mgmt ∧ (s.portDown p cause).mem = s.mem := by
  have h := s.portDown_only p cause
  simp only at h
  rw [h]
  exact ⟨rfl, rfl⟩

theorem State.changeCable_false (s : State) {p : Nat} (hp : p < 6) (hd : s.mgmt.dark = false) :
    let u := s.changeCable p false
    kget false u.mgmt.cables p = false ∧ u.mem = s.mem ∧ (s.portState p = 1 → u.portState p = 0) ∧
      (s.portState p = 2 → u.portState p = 4) := by
  intro u
  have hu : u = s.changeCable p false := rfl
  rw [s.changeCable_leaves p hd] at hu
  have hcable := s.cableKnown_cable p false
  split at hu
  next h =>
    have h2 : s.portState p = 2 := by simpa using h
    obtain ⟨hmgmt, hmem⟩ := (s.cableKnown p false).portDown_mgmt p 2
    rw [hu]
    refine ⟨hmgmt ▸ hcable, hmem, fun h1 => absurd (h1.symm.trans h2) (by decide), fun _ => ?_⟩
    exact ((s.cableKnown p false).portDown_facts 2 (by omega)).1
  next h =>
    have h2 : s.portState p ≠ 2 := by simpa using h
    split at hu
    next h1 =>
      rw [hu]
      exact ⟨hcable, rfl, fun _ => State.setPortState_portState _ _ _, fun h => absurd h h2⟩
    next h1 =>
      rw [hu]
      exact ⟨hcable, rfl, fun h => absurd h (by simpa using h1), fun h => absurd h h2⟩

theorem State.changeCable_true (s : State) {p : Nat} (hp : p < 6) (hd : s.mgmt.dark = false) :
    let u := s.changeCable p true
    kget false u.mgmt.cables p = true ∧ u.mem = s.mem ∧
      (s.bit (linkReg 8) p = true → s.portState p ≠ 2 → s.axisLen (portAxis p) ≠ 1 → u.portState p = 1) := by
  intro u
  have hu : u = s.changeCable p true := rfl
  rw [s.changeCable_fits p hd] at hu
  have hcable := s.cableKnown_cable p true
  split at hu
  next h =>
    rw [hu]
    exact ⟨hcable, rfl, fun _ _ _ => State.setPortState_portState _ _ _⟩
  next h =>
    rw [hu]
    refine ⟨hcable, rfl, fun hreq hst hlen => absurd ?_ h⟩
    have hfit : (s.cableKnown p true).portFitted p = true := by
      have hl : (s.cableKnown p true).axisLen (portAxis p) ≠ 1 := hlen
      simp only [State.portFitted, hp, if_true, hcable, Bool.and_true, bne_iff_ne, ne_eq, hl, not_false_eq_true]
    have hr : (s.cableKnown p true).bit (linkReg 8) p = true := hreq
    have hs : (s.cableKnown p true).portState p ≠ 2 := hst
    simp [hfit, hr, hs]

end Sys2Proof.Machine

namespace Sys2Proof.Proofs

open Sys2Proof.Machine Sys2Proof.Claims

/-- Settles O57, by what each measurement writes and by what a cable does to its port. -/
theorem sensorsAndPins : Obligations.SensorsAndPins := by
  unfold Obligations.SensorsAndPins
  intro s p temp flow inlet watts pins made hp
  refine ⟨⟨_, rfl, rfl, State.reg_setReg_same s _ _, otherRegs_count s _ _, rfl, rfl⟩, ?_, fun hd => ⟨?_, fun h => ?_, fun h => ?_,
    fun h1 h2 => ?_, ?_, ?_⟩, rfl, ?_⟩
  · obtain ⟨hmc, hmem, hheld, hcmds, hregs, hsample⟩ := s.telemetry_facts temp flow inlet
    exact ⟨_, rfl, hmc, ⟨hmem, hheld⟩, hcmds, hregs, hsample⟩
  · have hx : exec (.coolantWarn flow inlet temp) s = .next (s.measured flow inlet temp) := by
      change execCoolantWarn flow inlet temp s = _
      simp [execCoolantWarn, hd, State.measured]
    obtain ⟨htemp, hflow, hinlet, hcool, htherm⟩ := s.measured_fields flow inlet temp
    exact ⟨_, hx, s.measured_regsOnly flow inlet temp, htemp, hflow, hinlet, by simp [hcool], by simp [htherm],
      s.measured_regsBut flow inlet temp⟩
  · refine sets_of_setBit ?_ (by omega)
    change execPowerLimit watts s = _
    simp [execPowerLimit, hd, h]
  · have hx : exec (.powerLimit watts) s = .next (s.clearBit (mgmtReg 0x208) 2) := by
      change execPowerLimit watts s = _
      simp [execPowerLimit, hd, h, show ¬ 7500 < watts by omega]
    exact ⟨_, hx, regsOnly_setReg s _ _, State.bit_clearBit_same s _ _ (by omega), otherRegs_setReg s _ _⟩
  · change execPowerLimit watts s = _
    simp [execPowerLimit, show ¬ 7500 < watts by omega, show ¬ watts < 7200 by omega]
  · obtain ⟨hcable, hmem, h1, h2⟩ := s.changeCable_false hp hd
    refine ⟨s.changeCable p false, ?_, hcable, hmem, h1, h2⟩
    change execCableChange p false made s = _
    simp [execCableChange, hp]
  · obtain ⟨hcable, hmem, h1⟩ := s.changeCable_true hp hd
    refine ⟨s.changeCable p true, ?_, hcable, hmem, h1⟩
    change execCableChange p true true s = _
    simp [execCableChange, hp]
  · refine ⟨_, rfl, regsOnly_setField s _ _ _ _, ?_, otherRegs_setField s _ _ _ _⟩
    refine (State.field_setField_same s _ _ _ _ (by omega)).trans (Nat.mod_eq_of_lt ?_)
    have hlt : natOf (strapParity pins) < 2 := natOf_lt _
    have hmod : pins % 4 < 4 := Nat.mod_lt _ (by omega)
    change pins % 4 + 4 * natOf (strapParity pins) < 8
    omega

end Sys2Proof.Proofs
end

section
/-! PROOFS. The UART and the check-value unit (R514–R520, R528–R530). -/

namespace Sys2Proof.Machine

open Sys2Proof.Claims

/-! ### Contexts of the check-value unit -/

theorem State.cvu_setCvu_same (s : State) (c : Nat) (x : CvuCh) : (s.setCvu c x).cvu c = x := kget_kset_same _ _ _ _

theorem State.cvu_setCvu_other (s : State) {c d : Nat} (x : CvuCh) (h : d ≠ c) : (s.setCvu c x).cvu d = s.cvu d :=
  kget_kset_other _ _ _ h.symm

/-- A command that leaves a context as y and changes nothing else. -/
theorem context_of_setCvu {s : State} {i : Instr} {c : Nat} {y : CvuCh} (h : exec i s = .next (s.setCvu c y)) :
    ∃ u, exec i s = .next u ∧ u = { s with mgmt := { s.mgmt with cvu := u.mgmt.cvu } } ∧ u.cvu c = y ∧ ∀ d, d ≠ c → u.cvu d = s.cvu d :=
  ⟨_, h, rfl, s.cvu_setCvu_same c y, fun _ hd => s.cvu_setCvu_other y hd⟩

theorem reachesBar2_of (who : Nat) (h : who = 0 ∨ who = 256) : reachesBar2 who = true := by
  obtain rfl | rfl := h <;> rfl

section

variable {s : State} {who ch : Nat} (hw : reachesBar2 who = true) (hc : ch < 16)

include hw hc

theorem exec_cvuFeed {k : Nat} (v : Nat) (hk : k = 1 ∨ k = 2 ∨ k = 4) : exec (.cvuFeed who ch k v) s = .next (s.feed who ch k v) := by
  change execCvuFeed who ch k v s = _
  have hlen : (k == 1 || k == 2 || k == 4) = true := by simpa [or_assoc] using hk
  simp [execCvuFeed, hw, hlen, show ¬ 16 < ch by omega]

theorem exec_cvuInit : exec (.cvuInit who ch) s = .next (if cvuWritable who ch then s.initCvu ch else s) := by
  change execCvuInit who ch s = _
  cases h : cvuWritable who ch <;> simp [execCvuInit, hw, h, show ¬ 16 ≤ ch by omega]

theorem exec_cvuValueWrite (high : Bool) (v : Nat) : exec (.cvuValueWrite who ch high v) s = .next (s.writeCvuValue who ch high v) := by
  change execCvuValueWrite who ch high v s = _
  simp [execCvuValueWrite, hw, show ¬ 16 < ch by omega]

theorem exec_cvuValueRead (high : Bool) :
    exec (.cvuValueRead who ch high) s = .next ((s.cvuSettle ch).readWide who (cvuLo ch) high (s.cvuValue ch)) := by
  change execCvuValueRead who ch high s = _
  simp [execCvuValueRead, hw, show ¬ 16 < ch by omega]

theorem exec_cvuResultRead (high : Bool) :
    exec (.cvuResultRead who ch high) s = .next ((s.cvuSettle ch).readWide who (cvuCtrl ch + 0x0C) high (s.cvuResult ch)) := by
  change execCvuResultRead who ch high s = _
  simp [execCvuResultRead, hw, show ¬ 16 ≤ ch by omega]

end

theorem State.feed_room (s : State) {who ch : Nat} (k v : Nat) (h : cvuWritable who ch = true) (hl : (s.cvu ch).queue.length < 8) :
    s.feed who ch k v = s.setCvu ch { s.cvu ch with queue := (s.cvu ch).queue ++ [leBytes k v] } := by
  simp [State.feed, h, Nat.not_le.mpr hl]

theorem State.writeCvuValue_narrow (s : State) {who ch : Nat} (v : Nat) (h : cvuWritable who ch = true) (hw : (s.cvuSel ch).width ≠ 64) :
    s.writeCvuValue who ch false v = s.setCvu ch { value := v % 2 ^ (s.cvuSel ch).width, queue := [] } ∧
      s.writeCvuValue who ch true v = s := by
  simp [State.writeCvuValue, h, hw]

theorem State.writeCvuValue_low (s : State) {who ch : Nat} (v : Nat) (h : cvuWritable who ch = true) (hw : (s.cvuSel ch).width = 64) :
    s.writeCvuValue who ch false v = s.stageLow who (cvuLo ch) v := by
  simp [State.writeCvuValue, h, hw]

theorem State.writeCvuValue_high (s : State) {who ch lo : Nat} (v : Nat) (h : cvuWritable who ch = true) (hw : (s.cvuSel ch).width = 64)
    (hlo : kget none s.stages (requesterKey who (cvuLo ch)) = some lo) :
    s.writeCvuValue who ch true v = { s.setCvu ch { value := lo + v % 2 ^ 32 * 2 ^ 32, queue := [] } with
      stages := kset none s.stages (requesterKey who (cvuLo ch)) none } := by
  simp [State.writeCvuValue, h, hw, hlo]

/-- What a read of one word of a context's value leaves: the context's feeds taken, the latch of its high word. -/
theorem State.readWide_settled (s : State) (who ch lo v : Nat) :
    (let u := (s.cvuSettle ch).readWide who lo false v
     u.rdata = v % 2 ^ 32 ∧ u.cvu ch = (s.cvu ch).settle (s.cvuSel ch) ∧ u.regs = s.regs ∧ u.mem = s.mem ∧
       kget 0 u.latches (requesterKey who (lo + 4)) = v / 2 ^ 32 % 2 ^ 32) ∧
    ∀ n, kget 0 s.latches (requesterKey who (lo + 4)) = n →
      let u := (s.cvuSettle ch).readWide who lo true v
      u.rdata = n ∧ u.cvu ch = (s.cvu ch).settle (s.cvuSel ch) ∧ u.regs = s.regs ∧ u.mem = s.mem ∧
        kget 0 u.latches (requesterKey who (lo + 4)) = n :=
  ⟨⟨rfl, s.cvu_setCvu_same ch _, rfl, rfl, kget_kset_same _ _ _ _⟩, fun _ h => ⟨h, s.cvu_setCvu_same ch _, rfl, rfl, h⟩⟩

theorem State.stage_stageLow_same (s : State) (who lo v : Nat) :
    kget none (s.stageLow who lo v).stages (requesterKey who lo) = some (v % 2 ^ 32) :=
  kget_kset_same none s.stages (requesterKey who lo) (some (v % 2 ^ 32))

/-- A context written, with a requester's stage taken. -/
theorem State.setCvu_unstaged (s : State) (c k : Nat) (x : CvuCh) :
    (let u := { s.setCvu c x with stages := kset none s.stages k none }
     u.cvu c = x ∧ kget none u.stages k = none ∧ u.regs = s.regs) :=
  ⟨s.cvu_setCvu_same c x, kget_kset_same none s.stages k none, rfl⟩

/-- A command that counts one in a register. -/
theorem counts_of_count {s : State} {i : Instr} {a : Nat} (h : exec i s = .next (s.count a 1)) :
    ∃ u, exec i s = .next u ∧ RegsOnly s u ∧ u.reg a = (s.reg a + 1) % 2 ^ 32 ∧ OtherRegs a s u :=
  ⟨_, h, regsOnly_setReg s _ _, State.reg_setReg_same s _ _, otherRegs_count s _ _⟩

/-! ### The UART (R514–R516) -/

theorem exec_uartReceive_break {s : State} : exec (.uartReceiveCharacter 0#8 false) s = .next (s.count (mgmtReg 0x408) 1) := by
  change execUartReceiveCharacter 0#8 false s = _
  simp [execUartReceiveCharacter]

theorem exec_uartReceive_overrun {s : State} (data : Byte) (h : 64 ≤ s.mgmt.uart.rx.length) :
    exec (.uartReceiveCharacter data true) s = .next (s.count (mgmtReg 0x40C) 1) := by
  change execUartReceiveCharacter data true s = _
  simp [execUartReceiveCharacter, h]

theorem exec_uartReceive_good {s : State} (data : Byte) (h : s.mgmt.uart.rx.length < 64) :
    exec (.uartReceiveCharacter data true) s = .next (s.setUart { s.mgmt.uart with rx := s.mgmt.uart.rx ++ [(data, false)] }) := by
  change execUartReceiveCharacter data true s = _
  simp [execUartReceiveCharacter, Nat.not_le.mpr h]

theorem exec_uartReceive_framing {s : State} {data : Byte} (hd : data ≠ 0#8) (h : s.mgmt.uart.rx.length < 64) :
    exec (.uartReceiveCharacter data false) s =
      .next ((s.count (mgmtReg 0x404) 1).setUart { s.mgmt.uart with rx := s.mgmt.uart.rx ++ [(data, true)] }) := by
  change execUartReceiveCharacter data false s = _
  simp [execUartReceiveCharacter, Nat.not_le.mpr h, hd]

end Sys2Proof.Machine

namespace Sys2Proof.Proofs

open Sys2Proof.Machine Sys2Proof.Claims

/-- Settles O59, by the effect of each command of the UART and of a context. -/
theorem uartAndCheckValues : Obligations.UartAndCheckValues := by
  unfold Obligations.UartAndCheckValues
  intro s who ch k v data hwho hch u0 x sel settled counts ctx reads
  have hw := reachesBar2_of who hwho
  refine ⟨counts_of_count exec_uartReceive_break, fun h => ?_, fun h => ⟨?_, fun hd => ?_⟩,
    fun b rest htx => ?_, fun r rest hbuf hsink => ?_, fun hwr => ⟨fun hk hl => ?_, ?_, fun hn => ⟨?_, ?_⟩, fun h64 => ⟨?_, fun lo hlo => ?_⟩⟩,
    fun hwr => ⟨?_, ?_, ?_⟩, ?_⟩
  · exact counts_of_count (exec_uartReceive_overrun data h)
  · exact ⟨_, exec_uartReceive_good data h, rfl⟩
  · exact ⟨_, exec_uartReceive_framing hd h, rfl, State.reg_setReg_same s _ _, otherRegs_count s _ _, rfl⟩
  · have hx : exec .uartTransmitCharacter s = .next (s.setUart { u0 with tx := rest, line := u0.line ++ [b] }) := by
      change execUartTransmitCharacter s = _
      unfold execUartTransmitCharacter
      simp only [show s.mgmt.uart.tx = b :: rest from htx]
      rfl
    exact ⟨_, hx, rfl⟩
  · refine ⟨{ s.setUart { u0 with tx := u0.tx ++ uartFrame (r.bytes s.obs.phase s.obs.rseq) } with
      obs := { s.obs with buf := rest, rseq := (s.obs.rseq + 1) % 2 ^ 32 } }, ?_, rfl, rfl, rfl, rfl⟩
    change execUartSepiaFrame s = _
    simp [execUartSepiaFrame, hbuf, hsink, u0]
  · exact context_of_setCvu ((exec_cvuFeed hw hch v hk).trans (congrArg Host.Outcome.next (s.feed_room k v hwr hl)))
  · exact context_of_setCvu ((exec_cvuInit hw hch).trans (congrArg Host.Outcome.next (if_pos hwr)))
  · exact context_of_setCvu ((exec_cvuValueWrite hw hch false v).trans (congrArg Host.Outcome.next (s.writeCvuValue_narrow v hwr hn).1))
  · exact (exec_cvuValueWrite hw hch true v).trans (congrArg Host.Outcome.next (s.writeCvuValue_narrow v hwr hn).2)
  · exact ⟨_, (exec_cvuValueWrite hw hch false v).trans (congrArg Host.Outcome.next (s.writeCvuValue_low v hwr h64)), rfl,
      s.stage_stageLow_same who (cvuLo ch) v⟩
  · exact ⟨_, (exec_cvuValueWrite hw hch true v).trans (congrArg Host.Outcome.next (s.writeCvuValue_high v hwr h64 hlo)),
      s.setCvu_unstaged ch _ _⟩
  · exact (exec_cvuInit hw hch).trans (congrArg Host.Outcome.next (if_neg (by simp [hwr])))
  · refine (exec_cvuFeed hw hch v (Or.inr (Or.inr rfl))).trans (congrArg Host.Outcome.next ?_)
    simp [State.feed, hwr]
  · refine (exec_cvuValueWrite hw hch false v).trans (congrArg Host.Outcome.next ?_)
    simp [State.writeCvuValue, hwr]
  · obtain ⟨hlow, hhigh⟩ := s.readWide_settled who ch (cvuLo ch) (s.cvuValue ch)
    obtain ⟨hrlow, hrhigh⟩ := s.readWide_settled who ch (cvuCtrl ch + 0x0C) (s.cvuResult ch)
    exact ⟨⟨_, exec_cvuValueRead hw hch false, hlow⟩, ⟨_, exec_cvuResultRead hw hch false, hrlow⟩,
      fun n hn => ⟨_, exec_cvuValueRead hw hch true, hhigh n hn⟩, fun n hn => ⟨_, exec_cvuResultRead hw hch true, hrhigh n hn⟩⟩

end Sys2Proof.Proofs
end

section
/-! PROOFS. Register access: wide registers, byte enables, writes under Vigil and through BAR2 (R524, R528–R535, R541). -/

namespace Sys2Proof.Machine

open Sys2Proof.Claims

/-! ### Byte enables (R524) -/

theorem testBit_enabledBits : ∀ mask < 16, ∀ j < 32, (enabledBits mask).testBit j = bitOf mask (j / 8) := by decide

theorem enabledValue_full {v : Nat} (h : v < 2 ^ 32) : enabledValue v 15 = v :=
  (Nat.and_two_pow_sub_one_eq_mod v 32).trans (Nat.mod_eq_of_lt h)

theorem mergeBytes_full (old : Nat) {v : Nat} (h : v < 2 ^ 32) : mergeBytes old v 15 = v := by
  have h0 : old &&& (0xFFFFFFFF ^^^ enabledBits 15) = 0 := Nat.and_zero old
  rw [mergeBytes, h0, Nat.add_zero, enabledValue_full h]

/-- Words without a common bit add up to their union. -/
theorem add_eq_or_of_apart {a b : Nat} (ha : a < 2 ^ 32) (hb : b < 2 ^ 32) (h : a &&& b = 0) : a + b = a ||| b := by
  have hor := congrArg BitVec.toNat (BitVec.add_eq_or_of_and_eq_zero (BitVec.ofNat 33 a) (BitVec.ofNat 33 b) (by simp [← BitVec.ofNat_and, h]))
  rw [BitVec.toNat_add, BitVec.toNat_or, BitVec.toNat_ofNat, BitVec.toNat_ofNat, Nat.mod_eq_of_lt (by omega : a < 2 ^ 33),
    Nat.mod_eq_of_lt (by omega : b < 2 ^ 33), Nat.mod_eq_of_lt (by omega : a + b < 2 ^ 33)] at hor
  exact hor

/-- A merged word takes the enabled bytes from the value and the others from the old word. -/
theorem testBit_mergeBytes (old v : Nat) {mask j : Nat} (hm : mask < 16) (hj : j < 32) :
    (mergeBytes old v mask).testBit j = if bitOf mask (j / 8) then v.testBit j else old.testBit j := by
  have hbits : enabledBits mask < 2 ^ 32 := by
    have : ∀ m < 16, enabledBits m < 2 ^ 32 := by decide
    exact this mask hm
  have hrest : 0xFFFFFFFF ^^^ enabledBits mask < 2 ^ 32 := Nat.xor_lt_two_pow (by norm_num) hbits
  have hapart : (v &&& enabledBits mask) &&& (old &&& (0xFFFFFFFF ^^^ enabledBits mask)) = 0 := by
    refine Nat.eq_of_testBit_eq fun i => ?_
    have hout : 32 ≤ i → Nat.testBit (enabledBits mask) i = false := fun hi =>
      Nat.testBit_lt_two_pow (lt_of_lt_of_le hbits (Nat.pow_le_pow_right (by norm_num) hi))
    have hones : i < 32 → Nat.testBit 0xFFFFFFFF i = true := fun hi => by
      simpa [hi] using Nat.testBit_two_pow_sub_one 32 i
    simp only [Nat.testBit_and, Nat.testBit_xor, Nat.zero_testBit]
    obtain hi | hi := Nat.lt_or_ge i 32
    · rw [hones hi]
      cases Nat.testBit (enabledBits mask) i <;> simp
    · simp [hout hi]
  rw [mergeBytes, enabledValue, add_eq_or_of_apart (lt_of_le_of_lt Nat.and_le_right hbits) (lt_of_le_of_lt Nat.and_le_right hrest) hapart]
  have hones : Nat.testBit 0xFFFFFFFF j = true := by simpa [hj] using Nat.testBit_two_pow_sub_one 32 j
  simp only [Nat.testBit_or, Nat.testBit_and, Nat.testBit_xor, hones, testBit_enabledBits mask hm j hj]
  cases bitOf mask (j / 8) <;> simp

theorem bitsOf_mergeBytes (old v mask : Nat) {i : Nat} (hi : i < 4) :
    bitsOf (mergeBytes old (v % 2 ^ 32) (mask % 16) % 2 ^ 32) (8 * i) 8 = if bitOf mask i then bitsOf v (8 * i) 8 else bitsOf old (8 * i) 8 := by
  have hmask : bitOf (mask % 16) i = bitOf mask i := by
    obtain rfl | rfl | rfl | rfl : i = 0 ∨ i = 1 ∨ i = 2 ∨ i = 3 := by omega
    all_goals simp only [bitOf]; congr 1; omega
  refine Nat.eq_of_testBit_eq fun j => ?_
  simp only [bitsOf, apply_ite (Nat.testBit · j), Nat.testBit_mod_two_pow, Nat.testBit_div_two_pow]
  obtain hj | hj := Nat.lt_or_ge j 8
  · rw [testBit_mergeBytes _ _ (Nat.mod_lt _ (by norm_num)) (show j + 8 * i < 32 by omega), show (j + 8 * i) / 8 = i by omega, hmask,
      Nat.testBit_mod_two_pow]
    simp [hj, show j + 8 * i < 32 by omega]
  · simp [Nat.not_lt.mpr hj]

/-! ### What a write comes to -/

theorem onWrite_reached {who a : Nat} (v mask : Nat) {s : State} (hw : who ≤ 256) (h : reaches who a = true) :
    onWrite who a v mask s = .next (s.writeReg who a v mask) := by
  simp [onWrite, h, Nat.not_lt.mpr hw]

theorem State.writeReg_running {s : State} (who a v mask : Nat) (h : s.vigil.frozen = false) :
    s.writeReg who a v mask = s.land who a (v % 2 ^ 32) (mask % 16) := by simp [State.writeReg, h]

theorem State.writeReg_waits {s : State} {a : Nat} (who v mask : Nat) (h : s.vigil.frozen = true) (hr : runsFrozen a = false) :
    s.writeReg who a v mask = s.enqueueWrite who a (v % 2 ^ 32) (mask % 16) := by simp [State.writeReg, h, hr]

/-- The staged commit of a wide register without rules of its own. -/
theorem State.commitReg_plain (s : State) (who lo : Nat) {v : Nat} (h : v < 2 ^ 32) : s.commitReg who lo {} v = s.commitWide who lo v := by
  have hv : v &&& 0xFFFFFFFF = v := (Nat.and_two_pow_sub_one_eq_mod v 32).trans (Nat.mod_eq_of_lt h)
  simp [State.commitReg, hv]

theorem State.stageWide_plain (s : State) (who lo : Nat) {v : Nat} (h : v < 2 ^ 32) : s.stageWide who lo {} v = s.stageLow who lo v := by
  have hv : v &&& 0xFFFFFFFF = v := (Nat.and_two_pow_sub_one_eq_mod v 32).trans (Nat.mod_eq_of_lt h)
  simp [State.stageWide, hv]

/-- The wide registers without rules of their own. -/
def plainWides : List Nat := [cpReg 0x28, obsReg 0x704, obsReg 0x70C]

theorem land_plainWide_low {s : State} {a v : Nat} (ha : a ∈ plainWides) (hv : v < 2 ^ 32) : s.land 0 a v 15 = s.stageLow 0 a v := by
  obtain rfl | rfl | rfl : a = cpReg 0x28 ∨ a = obsReg 0x704 ∨ a = obsReg 0x70C := by simpa [plainWides] using ha
  all_goals
    rw [State.land, mergeBytes_full _ hv]
    exact s.stageWide_plain 0 _ hv

theorem land_plainWide_high {s : State} {a v : Nat} (ha : a ∈ plainWides) (hv : v < 2 ^ 32) : s.land 0 (a + 4) v 15 = s.commitWide 0 a v := by
  obtain rfl | rfl | rfl : a = cpReg 0x28 ∨ a = obsReg 0x704 ∨ a = obsReg 0x70C := by simpa [plainWides] using ha
  all_goals
    rw [State.land, mergeBytes_full _ hv]
    exact s.commitReg_plain 0 _ hv

theorem reaches_plainWide {a : Nat} (ha : a ∈ plainWides) : reaches 0 a = true ∧ reaches 0 (a + 4) = true := by
  have h : ∀ a ∈ plainWides, reaches 0 a = true ∧ reaches 0 (a + 4) = true := by decide
  exact h a ha

/-- The scratch registers. -/
def scratchRegs : List Nat := [gidReg 0x40, gidReg 0x44, gidReg 0x48, gidReg 0x4C]

theorem land_scratch {s : State} {a : Nat} (ha : a ∈ scratchRegs) (v mask : Nat) :
    s.land 0 a v mask = s.setReg a (mergeBytes (s.reg a) v mask &&& 0xFFFFFFFF) := by
  obtain rfl | rfl | rfl | rfl : a = gidReg 0x40 ∨ a = gidReg 0x44 ∨ a = gidReg 0x48 ∨ a = gidReg 0x4C := by simpa [scratchRegs] using ha
  all_goals rfl

theorem reaches_scratch {a : Nat} (ha : a ∈ scratchRegs) : reaches 0 a = true := by
  have h : ∀ a ∈ scratchRegs, reaches 0 a = true := by decide
  exact h a ha

/-- A write through BAR2 (R541). -/
theorem land_alias (s : State) {f off v : Nat} (hf : f < 256) (ho : off < 0x10000) (hv : v < 2 ^ 32) :
    s.land 257 (bar0 f off) v 15 = s.writeAlias f off v := by
  have ha : bar0 f off = 0xA000000 + (f * 0x10000 + off) := by simp [bar0, Nat.add_assoc]
  have hnum : (bar0 f off - 0xA000000) / 0x10000 = f ∧ bar0 f off % 0x10000 = off := by omega
  rw [State.land, mergeBytes_full _ hv, hnum.1, hnum.2]
  simp [show ¬ bar0 f off < 0x100000 by omega, show ¬ bar0 f off < 0x200000 by omega, show ¬ bar0 f off < 0x400000 by omega,
    show ¬ bar0 f off < 0x800000 by omega, show ¬ bar0 f off < 0xC00000 by omega, show ¬ bar0 f off < 0x1000000 by omega,
    show ¬ bar0 f off < 0x2000000 by omega, show ¬ bar0 f off < 0xA000000 by omega, show bar0 f off < 0xB000000 by omega,
    show ¬ 257 = f by omega]

theorem exec_aliasWrite {s : State} {f off : Nat} (v : Nat) (hf : f < 256) (ho : off < 0x10000) (h4 : off % 4 = 0)
    (hfr : s.vigil.frozen = false) : exec (.aliasWrite f off v) s = .next (s.writeAlias f off (v % 2 ^ 32)) := by
  change execAliasWrite f off v s = _
  rw [execAliasWrite, if_neg (by simp [h4]; omega), State.writeReg_running _ _ _ _ hfr]
  exact congrArg Host.Outcome.next (land_alias s hf ho (Nat.mod_lt _ (by norm_num)))

theorem State.writeAlias_window (s : State) {f v : Nat} (h : v % 2 ^ 32 % 8192 ≤ 4096) :
    s.writeAlias f 0xA040 (v % 2 ^ 32) = s.setReg (bar0 f 0xA040) (v % 8192) := by
  have hv : v % 2 ^ 32 &&& 0x1FFF = v % 8192 := (Nat.and_two_pow_sub_one_eq_mod _ 13).trans (by omega)
  change s.writeIf (decide (v % 2 ^ 32 % 8192 ≤ 4096)) (·.writeRw (bar0 f 0xA040) 0x1FFF (v % 2 ^ 32)) = _
  rw [State.writeIf, if_pos (decide_eq_true h), State.writeRw, hv]

theorem State.writeAlias_other (s : State) {f off v : Nat} (h : off ≠ 0xA040) : s.writeAlias f off v = s.setBit (gidReg 0x20) 1 := by
  simp [State.writeAlias, h]

/-! ### Reads of wide registers (R528) -/

/-- What a read of a low word latches. -/
theorem State.readLow_latches (s : State) (who a : Nat) :
    kget 0 (s.readLow who a).latches (requesterKey who (a + 4)) = if s.deadAlias who a then 0 else s.live (a + 4) := by
  unfold State.readLow
  dsimp only
  split
  next h =>
    have ha : a = almReg 0 := by simpa using h
    have hkey : requesterKey who (almReg 8) ≠ requesterKey who (a + 4) := by subst ha; simp [requesterKey, almReg]
    rw [kget_kset_apart _ _ _ _ hkey, kget_kset_same]
  next => exact kget_kset_same _ _ _ _

end Sys2Proof.Machine

namespace Sys2Proof.Proofs

open Sys2Proof.Machine Sys2Proof.Claims

/-- Settles O60, by where an access of each kind lands. -/
theorem registerAccess : Obligations.RegisterAccess := by
  unfold Obligations.RegisterAccess
  intro s who a f v mask off key scratch plainWide
  have hword : v % 2 ^ 32 < 2 ^ 32 := Nat.mod_lt _ (by norm_num)
  refine ⟨fun hr => ⟨fun hl => ⟨s.readLow who a, ?_, rfl, rfl, s.readLow_latches who a⟩, fun hl => ?_⟩,
    fun h0 hfr => ⟨fun ha => ⟨?_, fun lo hlo hlt => ?_⟩, fun ha => ?_⟩, rfl, fun hwho hr hfr hrun => ⟨fun hroom => ?_, fun hfull => ?_⟩,
    fun hf ho h4 hfr => ⟨fun hoff hv => ?_, fun hoff => ?_⟩⟩
  · change execWideLowRead who a s = _
    simp [execWideLowRead, hr, hl]
  · change execWideLowRead who a s = _
    simp [execWideLowRead, hr, hl]
  · subst h0
    have hx : exec (.wideLowWrite 0 a v) s = .next (s.stageLow 0 a (v % 2 ^ 32)) :=
      (onWrite_reached v 15 (by norm_num) (reaches_plainWide ha).1).trans
        (congrArg Host.Outcome.next ((State.writeReg_running 0 a v 15 hfr).trans (land_plainWide_low ha hword)))
    refine ⟨_, hx, rfl, ?_, fun k hk => kget_kset_apart none none s.stages (some (v % 2 ^ 32 % 2 ^ 32)) hk.symm⟩
    rw [State.stage_stageLow_same, Nat.mod_mod]
  · subst h0
    have hx : exec (.wideHighWrite 0 (a + 4) v) s = .next (s.commitWide 0 a (v % 2 ^ 32)) :=
      (onWrite_reached v 15 (by norm_num) (reaches_plainWide ha).2).trans
        (congrArg Host.Outcome.next ((State.writeReg_running 0 (a + 4) v 15 hfr).trans (land_plainWide_high ha hword)))
    have hst : s.staged 0 a = lo := congrArg (Option.getD · (s.reg a)) hlo
    refine ⟨_, hx, ?_, ?_, regsBut_commitWide s 0 a _, kget_kset_same none s.stages (requesterKey 0 a) none, rfl⟩
    · rw [State.reg_commitWide, if_neg (by omega), if_pos rfl, hst, Nat.mod_eq_of_lt hlt]
    · rw [State.reg_commitWide, if_pos rfl, Nat.mod_mod]
  · subst h0
    have hx : exec (.registerWrite 0 a v mask) s =
        .next (s.setReg a (mergeBytes (s.reg a) (v % 2 ^ 32) (mask % 16) &&& 0xFFFFFFFF)) :=
      (onWrite_reached v mask (by norm_num) (reaches_scratch ha)).trans
        (congrArg Host.Outcome.next ((State.writeReg_running 0 a v mask hfr).trans (land_scratch ha _ _)))
    refine ⟨_, hx, regsOnly_setReg s _ _, otherRegs_setReg s _ _, fun i hi => ?_⟩
    have hand : ∀ n, n &&& 0xFFFFFFFF = n % 2 ^ 32 := fun n => Nat.and_two_pow_sub_one_eq_mod n 32
    rw [State.reg_setReg_same, hand, Nat.mod_mod]
    exact bitsOf_mergeBytes _ _ _ hi
  · refine (onWrite_reached v mask hwho hr).trans (congrArg Host.Outcome.next ((State.writeReg_waits who v mask hfr hrun).trans ?_))
    exact if_pos hroom
  · refine ⟨s.setBit (gidReg 0x20) 0, (onWrite_reached v mask hwho hr).trans
      (congrArg Host.Outcome.next ((State.writeReg_waits who v mask hfr hrun).trans (if_neg (Nat.not_lt.mpr hfull)))),
      regsOnly_setBit s _ _, State.bit_setBit_same s _ _ (by norm_num), otherRegs_setBit s _ _⟩
  · subst hoff
    refine ⟨_, (exec_aliasWrite v hf ho h4 hfr).trans (congrArg Host.Outcome.next (s.writeAlias_window (by omega))),
      regsOnly_setReg s _ _, ?_, otherRegs_setReg s _ _⟩
    rw [State.reg_setReg_same]
    omega
  · exact ⟨_, (exec_aliasWrite v hf ho h4 hfr).trans (congrArg Host.Outcome.next (s.writeAlias_other hoff)), regsOnly_setBit s _ _,
      State.bit_setBit_same s _ _ (by norm_num), otherRegs_setBit s _ _⟩

end Sys2Proof.Proofs
end

section
/-! PROOFS. Completion records and completions: what a record written, posted or held changes, and what a command that leaves the
machine changes (R345–R347, R356, R361–R366). -/

namespace Sys2Proof.Machine

open Sys2Proof.Claims

/-! ### Frames of register words -/

theorem regsBut_trans {l : List Nat} {s u w : State} (h : RegsBut l s u) (h2 : RegsBut l u w) : RegsBut l s w :=
  fun b hb => (h2 b hb).trans (h b hb)

theorem regsBut_mono {l l' : List Nat} {s u : State} (h : RegsBut l s u) (hl : l ⊆ l') : RegsBut l' s u :=
  fun b hb => h b fun hm => hb (hl hm)

theorem regsBut_of_regs {l : List Nat} {s u w : State} (h : RegsBut l s u) (hr : w.regs = u.regs) : RegsBut l s w :=
  fun b hb => (State.reg_congr hr b).trans (h b hb)

theorem otherRegs_of_regsBut {a : Nat} {s u : State} (h : RegsBut [a] s u) : OtherRegs a s u :=
  fun b hb => h b (by simpa using hb)

theorem State.field_congr {s u : State} {a : Nat} (h : u.reg a = s.reg a) (lo len : Nat) : u.field a lo len = s.field a lo len :=
  congrArg (bitsOf · lo len) h

/-! ### A record written (R346, R366) -/

/-- Nothing but memory, registers and queues may differ. -/
def RecordsOnly (s u : State) : Prop := u = { s with mem := u.mem, regs := u.regs, queues := u.queues }

theorem recordsOnly_rfl (s : State) : RecordsOnly s s := rfl

theorem recordsOnly_trans {s u w : State} (h : RecordsOnly s u) (h2 : RecordsOnly u w) : RecordsOnly s w := by
  unfold RecordsOnly at *
  rw [h2, h]

theorem recordsOnly_regs {s u : State} (h : RegsOnly s u) : RecordsOnly s u := by
  unfold RegsOnly at h
  unfold RecordsOnly
  rw [h]

theorem recordsOnly_modQueue (s : State) (f q : Nat) (g : Queue → Queue) : RecordsOnly s (s.modQueue f q g) := rfl

theorem regsOnly_mirrorRec (s : State) (f q : Nat) (r : Rec) (posted : Bool) : RegsOnly s (s.mirrorRec f q r posted) := by
  unfold State.mirrorRec
  exact iteInduction (fun _ => rfl) fun _ => iteInduction (fun _ => rfl) fun _ => rfl

/-- The mirrors of a queue's records. -/
def mirrorRegs (f q : Nat) : List Nat := [queueReg f q 0x34, bar0 f 0x1008, bar0 f 0x100C]

theorem regsBut_mirrorRec (s : State) (f q : Nat) (r : Rec) (posted : Bool) : RegsBut (mirrorRegs f q) s (s.mirrorRec f q r posted) := by
  unfold State.mirrorRec
  refine iteInduction (fun _ => regsBut_rfl _ s) fun _ => iteInduction (fun _ => ?_) fun _ => ?_
  all_goals exact regsBut_setReg _ (regsBut_setReg _ (regsBut_rfl _ s) (by simp [mirrorRegs])) (by simp [mirrorRegs])

theorem State.mirrorRec_free (s : State) (f q : Nat) {r : Rec} (posted : Bool) (h : r.owed = false) : s.mirrorRec f q r posted = s := by
  simp [State.mirrorRec, h]

/-- An acceptance mirrored. -/
theorem State.mirrorRec_accept (s : State) (f q : Nat) {r : Rec} (h : r.owed = true) (ht : r.type = 0) :
    (s.mirrorRec f q r true).reg (queueReg f q 0x34) = (s.reg (queueReg f q 0x34) + 1) % 2 ^ 32 ∧
      RegsBut [queueReg f q 0x34, bar0 f 0x1008] s (s.mirrorRec f q r true) := by
  have hne : bar0 f 0x1008 ≠ queueReg f q 0x34 := by unfold queueReg bar0; omega
  have hx : s.mirrorRec f q r true = (s.setReg (queueReg f q 0x34) ((s.reg (queueReg f q 0x34) + 1) % 2 ^ 32)).setReg (bar0 f 0x1008)
      (((s.setReg (queueReg f q 0x34) ((s.reg (queueReg f q 0x34) + 1) % 2 ^ 32)).reg (bar0 f 0x1008) + 1) % 2 ^ 32) := by
    simp [State.mirrorRec, h, ht]
  rw [hx]
  refine ⟨?_, regsBut_setReg _ (regsBut_setReg _ (regsBut_rfl _ s) (by simp)) (by simp)⟩
  rw [State.reg_setReg_other _ _ hne, State.reg_setReg_same, Nat.mod_mod]

/-- The state of a record's write before its queue moves on: the record in host memory, CQ_TAIL past it. -/
def State.recordPut (s : State) (f q : Nat) (r : Rec) : State :=
  State.setReg { s with mem := recorded s f q r } (queueReg f q 0x24) ((s.field (queueReg f q 0x24) 0 17 + 1) % 2 ^ (s.queue f q).cqLog)

/-- What a queue is after a record's write, in memory m. -/
def Queue.wrote (u : Queue) (m : Mem) (tail : Nat) (r : Rec) : Queue := { u with
  unread := u.unread ++ [{ r with owed := false }]
  last := some (r, Mem.readBytes m (hostKey (u.cqBase + 32 * tail)) 32)
  phase := u.phase != decide (tail + 1 = 2 ^ u.cqLog) }

theorem State.writeRecord_eq (s : State) (f q : Nat) (r : Rec) :
    s.writeRecord f q r = ((s.recordPut f q r).mirrorRec f q r true).modQueue f q
      fun u => { u with
        unread := u.unread ++ [{ r with owed := false }]
        last := some (r, Mem.readBytes s.mem (hostKey ((s.queue f q).cqBase + 32 * s.field (queueReg f q 0x24) 0 17)) 32)
        phase := u.phase != decide (s.field (queueReg f q 0x24) 0 17 + 1 = 2 ^ (s.queue f q).cqLog) } := rfl

theorem State.writeRecord_only (s : State) (f q : Nat) (r : Rec) : RecordsOnly s (s.writeRecord f q r) := by
  rw [State.writeRecord_eq]
  refine recordsOnly_trans ?_ (recordsOnly_modQueue _ f q _)
  exact recordsOnly_trans (u := s.recordPut f q r) rfl (recordsOnly_regs (regsOnly_mirrorRec _ f q r true))

theorem State.writeRecord_mem (s : State) (f q : Nat) (r : Rec) : (s.writeRecord f q r).mem = recorded s f q r := by
  rw [State.writeRecord_eq]
  exact congrArg State.mem (regsOnly_mirrorRec (s.recordPut f q r) f q r true)

theorem State.writeRecord_queue (s : State) (f q : Nat) (r : Rec) :
    (s.writeRecord f q r).queue f q = (s.queue f q).wrote s.mem (s.field (queueReg f q 0x24) 0 17) r := by
  have h : ((s.recordPut f q r).mirrorRec f q r true).queue f q = s.queue f q :=
    (congrArg (fun u => State.queue u f q) (regsOnly_mirrorRec (s.recordPut f q r) f q r true)).trans rfl
  rw [State.writeRecord_eq, State.queue_modQueue_same, h]
  rfl

/-- The registers that a record's write may change. -/
theorem State.writeRecord_regs (s : State) (f q : Nat) (r : Rec) :
    RegsBut (queueReg f q 0x24 :: mirrorRegs f q) s (s.writeRecord f q r) := by
  have h0 : RegsBut (queueReg f q 0x24 :: mirrorRegs f q) s (s.recordPut f q r) :=
    regsBut_setReg (u := { s with mem := recorded s f q r }) _ (regsBut_rfl _ s) (by simp)
  exact regsBut_of_regs (regsBut_trans h0 (regsBut_mono (regsBut_mirrorRec _ f q r true) (by simp))) (by rw [State.writeRecord_eq]; rfl)

/-- A record that no command owes moves CQ_TAIL alone. -/
theorem State.writeRecord_regs_free (s : State) (f q : Nat) {r : Rec} (h : r.owed = false) :
    RegsBut [queueReg f q 0x24] s (s.writeRecord f q r) := by
  have h0 : RegsBut [queueReg f q 0x24] s (s.recordPut f q r) :=
    regsBut_setReg (u := { s with mem := recorded s f q r }) _ (regsBut_rfl _ s) (by simp)
  exact regsBut_of_regs h0 (by rw [State.writeRecord_eq, State.mirrorRec_free _ f q true h]; rfl)

theorem State.writeRecord_tail (s : State) (f q : Nat) (r : Rec) :
    (s.writeRecord f q r).reg (queueReg f q 0x24) =
      (s.field (queueReg f q 0x24) 0 17 + 1) % 2 ^ (s.queue f q).cqLog % 2 ^ 32 := by
  have hne : queueReg f q 0x24 ∉ mirrorRegs f q := by simp [mirrorRegs, queueReg, bar0]; omega
  have hm := regsBut_mirrorRec (s.recordPut f q r) f q r true _ hne
  have hr : (s.writeRecord f q r).reg (queueReg f q 0x24) = ((s.recordPut f q r).mirrorRec f q r true).reg (queueReg f q 0x24) :=
    State.reg_congr (by rw [State.writeRecord_eq]; rfl) _
  exact (hr.trans hm).trans (State.reg_setReg_same _ _ _)

/-! ### A record posted (R345, R347) -/

theorem State.markHeld_regsOnly (s : State) (f q : Nat) : RegsOnly s (s.markHeld f q) := regsOnly_setField s _ _ _ _

theorem State.post_only (s : State) (f q slots : Nat) (r : Rec) : RecordsOnly s (s.post f q slots r) := by
  unfold State.post
  refine iteInduction (fun _ => ?_) fun _ => ?_
  · exact recordsOnly_trans (recordsOnly_modQueue s f q _) (State.writeRecord_only _ f q r)
  · exact recordsOnly_trans (recordsOnly_trans (recordsOnly_modQueue s f q _) (recordsOnly_modQueue _ f q _))
      (recordsOnly_regs (State.markHeld_regsOnly _ f q))

/-- Reserved slots of a queue released. -/
def State.freed (s : State) (f q slots : Nat) : State := s.modQueue f q fun u => { u with reserved := u.reserved - slots }

theorem State.post_written (s : State) {f q : Nat} (slots : Nat) (r : Rec) (hc : s.canWrite f q = true) (hh : (s.queue f q).held = []) :
    s.post f q slots r = (s.freed f q slots).writeRecord f q r := by
  unfold State.post
  exact if_pos (by simp [hc, hh])

theorem State.freed_queue (s : State) (f q slots : Nat) :
    (s.freed f q slots).queue f q = { s.queue f q with reserved := (s.queue f q).reserved - slots } := State.queue_modQueue_same s f q _

theorem recorded_freed (s : State) (f q slots : Nat) (r : Rec) : recorded (s.freed f q slots) f q r = recorded s f q r := by
  unfold recorded
  rw [State.freed_queue]
  rfl

/-- A record's bytes in host memory depend on the queue's ring alone. -/
theorem recorded_congr {s u : State} {f q : Nat} (r : Rec) (hm : u.mem = s.mem) (hq : u.queue f q = s.queue f q)
    (ht : u.reg (queueReg f q 0x24) = s.reg (queueReg f q 0x24)) : recorded u f q r = recorded s f q r := by
  unfold recorded
  rw [hm, hq, State.field_congr ht]

theorem State.post_mem (s : State) {f q : Nat} (slots : Nat) (r : Rec) (hc : s.canWrite f q = true) (hh : (s.queue f q).held = []) :
    (s.post f q slots r).mem = recorded s f q r := by
  rw [State.post_written s slots r hc hh, State.writeRecord_mem, recorded_freed]

/-! ### Signals (R356, R372) -/

theorem State.signals_only (l : List Nat) : ∀ s : State, s.signals l = { s with events := (s.signals l).events } := by
  induction l with
  | nil => exact fun _ => rfl
  | cons e es ih =>
    intro s
    have h : s.signal e = { s with events := (s.signal e).events } := by
      unfold State.signal
      split <;> rfl
    have h2 := ih (s.signal e)
    rw [State.signals, h2, h]

/-! ### A completion (R361, R363, R364) -/

/-- The frame of a completion: what it may change. -/
def CompletesOnly (s u : State) : Prop :=
  u = { s with
    mem := u.mem
    regs := u.regs
    queues := u.queues
    events := u.events
    cmds := u.cmds
    parts := u.parts
    tiers := { s.tiers with copies := u.tiers.copies }
    colls := { s.colls with run := u.colls.run }
    ckpts := u.ckpts
    replays := u.replays
    obs := u.obs }

theorem completesOnly_trans {s u w : State} (h : CompletesOnly s u) (h2 : CompletesOnly u w) : CompletesOnly s w := by
  unfold CompletesOnly at *
  rw [h2, h]

theorem completesOnly_regs {s u : State} (h : RegsOnly s u) : CompletesOnly s u := by
  unfold RegsOnly at h
  unfold CompletesOnly
  rw [h]

theorem completesOnly_records {s u : State} (h : RecordsOnly s u) : CompletesOnly s u := by
  unfold RecordsOnly at h
  unfold CompletesOnly
  rw [h]

theorem completesOnly_trace (s : State) (type func arg0 arg1 : Nat) : CompletesOnly s (s.trace type func arg0 arg1) := by
  unfold CompletesOnly
  rw [State.trace_only]

theorem CompletesOnly.held {s u : State} (h : CompletesOnly s u) : u.held = s.held :=
  (congrArg State.held h).trans rfl
theorem CompletesOnly.cp {s u : State} (h : CompletesOnly s u) : u.cp = s.cp :=
  (congrArg State.cp h).trans rfl
theorem CompletesOnly.tick {s u : State} (h : CompletesOnly s u) : u.tick = s.tick :=
  (congrArg State.tick h).trans rfl
theorem CompletesOnly.subtick {s u : State} (h : CompletesOnly s u) : u.subtick = s.subtick :=
  (congrArg State.subtick h).trans rfl
theorem CompletesOnly.links {s u : State} (h : CompletesOnly s u) : u.links = s.links :=
  (congrArg State.links h).trans rfl
theorem CompletesOnly.gates {s u : State} (h : CompletesOnly s u) : u.colls.gates = s.colls.gates :=
  (congrArg (fun u => u.colls.gates) h).trans rfl
theorem CompletesOnly.core {s u : State} (h : CompletesOnly s u) (c : Nat) : u.core c = s.core c :=
  (congrArg (fun u => State.core u c) h).trans rfl

/-- A completion's steps before its record: the signals, the counts, the command gone with what it ran. -/
def State.completing (s : State) (id status : Nat) (c : Cmd) : State :=
  let s1 := if status < 0x10 || c.sigAlways then s.signals c.sigs else s
  let s3 := s1.setReg (cpReg 0x0C) (s1.reg (cpReg 0x0C) - 1)
  let s4 := if status == 0x01 then s3.orStep c.func 2 else s3
  ((s4.tally 11 0 3 1).setCmd id none).dropRuns id c

/-- The record of a completion. -/
def State.doneRec (s : State) (c : Cmd) (status detail : Nat) : Rec :=
  { type := 1, owed := true, status := status, opcode := c.opcode, hseq := c.hseq, tick := c.admitted.getD 0, endTick := s.tick, detail := detail }

/-- A partition no longer runs a command that has left. -/
def State.endRun (s : State) (id : Nat) : State :=
  { s with parts := s.parts.map fun x => (x.1, if x.2.run == some id then { x.2 with run := none } else x.2) }

theorem State.complete_eq (s : State) {id : Nat} {c : Cmd} (status detail : Nat) (h : s.cmd id = some c) :
    s.complete id status detail = ((((s.completing id status c).post c.func c.q 1 (s.doneRec c status detail)).trace 1 c.func
      (c.q % 64 + 2 ^ 6 * c.opcode + 2 ^ 14 * status + 2 ^ 22) c.hseq).endRun id) := by
  unfold State.complete
  rw [h]
  rfl

theorem State.complete_gone (s : State) {id : Nat} (status detail : Nat) (h : s.cmd id = none) : s.complete id status detail = s := by
  unfold State.complete
  rw [h]

/-- A REPLAY that ends before its checks reports none; any other command nothing. -/
def State.unchecked (s : State) (id : Nat) (c : Cmd) : State :=
  match kget none s.replays id with
  | some r => s.replayUnchecked c.func r.expect
  | none => if c.opcode == 0x31 then s.replayUnchecked c.func (s.replayExpect c.func) else s

/-- The runs of a command gone. -/
def State.runsGone (s : State) (id : Nat) : State := { s with
  tiers := { s.tiers with copies := s.tiers.copies.filter fun x => x.2.all fun r => r.cmd != id }
  colls := { s.colls with run := kset none s.colls.run id none }
  ckpts := kset none s.ckpts id none
  replays := kset none s.replays id none }

theorem State.dropRuns_eq (s : State) (id : Nat) (c : Cmd) : s.dropRuns id c = (s.unchecked id c).runsGone id := rfl

theorem State.unchecked_facts (s : State) (id : Nat) (c : Cmd) :
    RegsOnly s (s.unchecked id c) ∧ RegsBut [bar0 c.func 0xA230] s (s.unchecked id c) := by
  have hset : ∀ l, RegsOnly s (s.replayUnchecked c.func l) ∧ RegsBut [bar0 c.func 0xA230] s (s.replayUnchecked c.func l) := fun l =>
    ⟨regsOnly_setReg s _ _, regsBut_setReg _ (regsBut_rfl _ s) (by simp)⟩
  unfold State.unchecked
  split
  · exact hset _
  · exact iteInduction (motive := fun u => RegsOnly s u ∧ RegsBut _ s u) (fun _ => hset _) fun _ => ⟨rfl, regsBut_rfl _ s⟩

theorem State.dropRuns_only (s : State) (id : Nat) (c : Cmd) : CompletesOnly s (s.dropRuns id c) := by
  rw [State.dropRuns_eq]
  exact completesOnly_trans (completesOnly_regs (s.unchecked_facts id c).1) (u := s.unchecked id c) (w := (s.unchecked id c).runsGone id) rfl

theorem State.dropRuns_same (s : State) (id : Nat) (c : Cmd) :
    (s.dropRuns id c).cmds = s.cmds ∧ (s.dropRuns id c).events = s.events ∧ (s.dropRuns id c).mem = s.mem ∧
      (s.dropRuns id c).queues = s.queues ∧ (s.dropRuns id c).parts = s.parts := by
  rw [State.dropRuns_eq, (s.unchecked_facts id c).1]
  exact ⟨rfl, rfl, rfl, rfl, rfl⟩

theorem State.dropRuns_regs (s : State) (id : Nat) (c : Cmd) : RegsBut [bar0 c.func 0xA230] s (s.dropRuns id c) :=
  regsBut_of_regs (s.unchecked_facts id c).2 rfl

section

variable (s : State) (id status : Nat) (c : Cmd)

/-- A completion's signals. -/
def State.signalled : State := if status < 0x10 || c.sigAlways then s.signals c.sigs else s

/-- STEP_ACC of a command that ends UMBER. -/
def State.dirtied : State := if status == 0x01 then s.orStep c.func 2 else s

/-- A completion's signals and its counts: the state in which its command leaves. -/
def State.counted : State :=
  State.tally (State.dirtied ((s.signalled status c).setReg (cpReg 0x0C) ((s.signalled status c).reg (cpReg 0x0C) - 1)) status c) 11 0 3 1

theorem State.signalled_only : s.signalled status c = { s with events := (s.signalled status c).events } := by
  unfold State.signalled
  split
  · exact s.signals_only c.sigs
  · rfl

theorem State.signalled_events : (s.signalled status c).events = if status < 0x10 || c.sigAlways then (s.signals c.sigs).events else s.events :=
  apply_ite State.events _ _ _

theorem State.dirtied_facts : RegsOnly s (s.dirtied status c) ∧ RegsBut [bar0 c.func 0xA100] s (s.dirtied status c) :=
  iteInduction (motive := fun u => RegsOnly s u ∧ RegsBut _ s u)
    (fun _ => ⟨regsOnly_setReg s _ _, regsBut_setReg _ (regsBut_rfl _ s) (by simp)⟩) fun _ => ⟨rfl, regsBut_rfl _ s⟩

theorem State.counted_eq : s.counted status c = { s with
    events := (s.signalled status c).events
    regs := (s.counted status c).regs
    obs := (s.counted status c).obs } := by
  have h := (State.dirtied_facts ((s.signalled status c).setReg (cpReg 0x0C) ((s.signalled status c).reg (cpReg 0x0C) - 1)) status c).1
  unfold RegsOnly at h
  unfold State.counted
  rw [h]
  generalize (State.dirtied _ status c).regs = r
  rw [State.signalled_only]
  rfl

theorem State.counted_events :
    (s.counted status c).events = if status < 0x10 || c.sigAlways then (s.signals c.sigs).events else s.events := by
  rw [State.counted_eq, ← State.signalled_events]

theorem State.counted_only : CompletesOnly s (s.counted status c) := by
  unfold CompletesOnly
  rw [State.counted_eq]

theorem State.counted_same : (s.counted status c).cmds = s.cmds ∧ (s.counted status c).mem = s.mem ∧ (s.counted status c).queues = s.queues ∧
    (s.counted status c).parts = s.parts ∧ (s.counted status c).replays = s.replays := by
  rw [State.counted_eq]
  exact ⟨rfl, rfl, rfl, rfl, rfl⟩

theorem State.counted_regs : RegsBut [cpReg 0x0C, bar0 c.func 0xA100] s (s.counted status c) := by
  have h0 : RegsBut [cpReg 0x0C, bar0 c.func 0xA100] s (s.signalled status c) :=
    regsBut_of_regs (regsBut_rfl _ s) ((congrArg State.regs (s.signalled_only status c)).trans rfl)
  have h1 := regsBut_setReg (a := cpReg 0x0C) ((s.signalled status c).reg (cpReg 0x0C) - 1) h0 (by simp)
  exact regsBut_of_regs (regsBut_trans h1 (regsBut_mono (State.dirtied_facts _ status c).2 (by simp))) rfl

theorem State.completing_only : CompletesOnly s (s.completing id status c) :=
  completesOnly_trans (completesOnly_trans (s.counted_only status c) (u := s.counted status c) (w := (s.counted status c).setCmd id none) rfl)
    (State.dropRuns_only _ id c)

theorem State.completing_cmd (j : Nat) : (s.completing id status c).cmd j = if j = id then none else s.cmd j := by
  have h : (s.completing id status c).cmd j = ((s.counted status c).setCmd id none).cmd j :=
    congrArg (fun m => kget none m j) (State.dropRuns_same ((s.counted status c).setCmd id none) id c).1
  rw [h]
  split
  next hj => rw [hj, State.cmd_setCmd_same]
  next hj =>
    rw [State.cmd_setCmd_other _ _ (Ne.symm hj)]
    exact congrArg (fun m => kget none m j) (s.counted_same status c).1

theorem State.completing_same : (s.completing id status c).events = (s.counted status c).events ∧ (s.completing id status c).mem = s.mem ∧
    (s.completing id status c).queues = s.queues ∧ (s.completing id status c).parts = s.parts := by
  obtain ⟨_, hev, hmem, hq, hp⟩ := State.dropRuns_same ((s.counted status c).setCmd id none) id c
  obtain ⟨_, hmem0, hq0, hp0, _⟩ := s.counted_same status c
  exact ⟨hev, hmem.trans hmem0, hq.trans hq0, hp.trans hp0⟩

theorem State.completing_regs : RegsBut [cpReg 0x0C, bar0 c.func 0xA100, bar0 c.func 0xA230] s (s.completing id status c) := by
  refine regsBut_trans (regsBut_mono (s.counted_regs status c) (by simp)) ?_
  exact regsBut_mono (State.dropRuns_regs ((s.counted status c).setCmd id none) id c) (by simp)

end

/-- The record's trace and the partition's run leave commands, events and memory. -/
theorem State.closing_same (s : State) (id type func arg0 arg1 : Nat) :
    ((s.trace type func arg0 arg1).endRun id).cmds = s.cmds ∧ ((s.trace type func arg0 arg1).endRun id).events = s.events ∧
      ((s.trace type func arg0 arg1).endRun id).mem = s.mem := by
  have h := s.trace_only type func arg0 arg1
  exact ⟨(congrArg State.cmds h).trans rfl, (congrArg State.events h).trans rfl, (congrArg State.mem h).trans rfl⟩

theorem State.post_same (s : State) (f q slots : Nat) (r : Rec) :
    (s.post f q slots r).cmds = s.cmds ∧ (s.post f q slots r).events = s.events :=
  ⟨(congrArg State.cmds (s.post_only f q slots r)).trans rfl, (congrArg State.events (s.post_only f q slots r)).trans rfl⟩

/-- Which commands there are after a completion. -/
theorem State.complete_cmd (s : State) (id status detail j : Nat) :
    (s.complete id status detail).cmd j = if j = id then none else s.cmd j := by
  cases h : s.cmd id with
  | none =>
    rw [State.complete_gone s status detail h]
    split
    next hj => rw [hj, h]
    next => rfl
  | some c =>
    rw [State.complete_eq s status detail h, ← s.completing_cmd id status c j]
    exact congrArg (fun m => kget none m j) ((State.closing_same _ _ _ _ _ _).1.trans (State.post_same _ _ _ _ _).1)

theorem State.complete_only (s : State) (id status detail : Nat) : CompletesOnly s (s.complete id status detail) := by
  cases h : s.cmd id with
  | none => rw [State.complete_gone s status detail h]; rfl
  | some c =>
    rw [State.complete_eq s status detail h]
    have h1 := completesOnly_trans (s.completing_only id status c) (completesOnly_records
      ((s.completing id status c).post_only c.func c.q 1 (s.doneRec c status detail)))
    exact completesOnly_trans (completesOnly_trans h1 (completesOnly_trace _ _ _ _ _)) rfl

/-- The events after a completion. -/
theorem State.complete_events (s : State) {id : Nat} {c : Cmd} (status detail : Nat) (h : s.cmd id = some c) :
    (s.complete id status detail).events = if status < 0x10 || c.sigAlways then (s.signals c.sigs).events else s.events := by
  rw [State.complete_eq s status detail h, ← s.counted_events status c, ← (s.completing_same id status c).1]
  exact (State.closing_same _ _ _ _ _ _).2.1.trans (State.post_same _ _ _ _ _).2

/-- The record of a completion in host memory. -/
theorem State.complete_mem (s : State) {id : Nat} {c : Cmd} (status detail : Nat) (h : s.cmd id = some c) (hq : c.q < 64)
    (hc : s.canWrite c.func c.q = true) (hh : (s.queue c.func c.q).held = []) :
    (s.complete id status detail).mem = recorded s c.func c.q (s.doneRec c status detail) := by
  obtain ⟨_, hmem, hqueues, _⟩ := s.completing_same id status c
  have hqu : (s.completing id status c).queue c.func c.q = s.queue c.func c.q := congrArg (fun m => kget ({} : Queue) m (64 * c.func + c.q)) hqueues
  have hcp := (s.completing_only id status c).cp
  have hcan : (s.completing id status c).canWrite c.func c.q = true := by
    rw [← hc]
    unfold State.canWrite
    rw [hqu, hcp]
  have htail : (s.completing id status c).reg (queueReg c.func c.q 0x24) = s.reg (queueReg c.func c.q 0x24) :=
    s.completing_regs id status c _ (by simp [queueReg, bar0, cpReg]; omega)
  rw [State.complete_eq s status detail h, ← recorded_congr _ hmem hqu htail,
    ← State.post_mem (s.completing id status c) 1 (s.doneRec c status detail) hcan (by rw [hqu, hh])]
  exact (State.closing_same _ _ _ _ _ _).2.2

end Sys2Proof.Machine
end

section
/-! PROOFS. Partition and function records, preemption and release (R339, R342, R356, R368). -/

namespace Sys2Proof.Machine

open Sys2Proof.Claims

/-! ### What the commands come to while the module runs -/

section

variable {s : State} (hfr : s.vigil.frozen = false)

include hfr

theorem exec_cpPartWrite {p : Nat} (v : Nat) (hp : p < 8) : exec (.cpPartWrite p v) s = .next (s.writePart p v) := by
  change execCpPartWrite p v s = _
  simp [execCpPartWrite, Nat.not_le.mpr hp, hfr]

theorem exec_fnCfgWrite {f : Nat} (events : Bool) (v : Nat) (hf : f < 256) :
    exec (.fnCfgWrite f events v) s = .next (if events then s.writeFnEvents f v else s.writeFnCfg f v) := by
  change execFnCfgWrite f events v s = _
  simp [execFnCfgWrite, Nat.not_le.mpr hf, hfr]

theorem exec_preemptStop {p : Nat} (hp : p < 8) : exec (.preemptStop p) s = .next (s.preemptStop p) := by
  change execPreemptStop p s = _
  simp [execPreemptStop, Nat.not_le.mpr hp, hfr]

theorem exec_preemptResume {p : Nat} (hp : p < 8) : exec (.preemptResume p) s = .next (s.preemptResume p) := by
  change execPreemptResume p s = _
  simp [execPreemptResume, Nat.not_le.mpr hp, hfr]

theorem exec_fnRelease {f : Nat} (hf : f < 256) : exec (.fnRelease f) s = .next (s.release f) := by
  change execFnRelease f s = _
  simp [execFnRelease, Nat.not_le.mpr hf, hfr]

end

/-- A command that sets a bit of CP_ERR and nothing else. -/
theorem errs_of_cpErr {s : State} {i : Instr} {bit : Nat} (hb : bit < 32) (h : exec i s = .next (s.cpErr bit)) :
    ∃ u, exec i s = .next u ∧ RegsOnly s u ∧ u.bit (cpReg 8) bit = true ∧ OtherRegs (cpReg 8) s u :=
  ⟨_, h, regsOnly_setBit s _ _, State.bit_setBit_same s _ _ hb, otherRegs_setBit s _ _⟩

/-- A command that changes one partition and nothing else. -/
theorem parts_of_modPart {s : State} {i : Instr} {p : Nat} {g : Part → Part} (h : exec i s = .next (s.modPart p g)) :
    ∃ u, exec i s = .next u ∧ u = { s with parts := u.parts } ∧ u.part p = g (s.part p) ∧ ∀ q, q ≠ p → u.part q = s.part q :=
  ⟨_, h, rfl, s.part_modPart_same p g, fun _ hq => s.part_modPart_other g hq.symm⟩

/-! ### Partition records (R339) -/

/-- A rectangle that meets another partition's is refused. -/
theorem State.partRefused_meets {s : State} {p q d : Nat} {y : Part} (hq : q < 8) (hne : q ≠ p) (hd : d < 8)
    (hh : s.holdsDies q = true) (hdq : (s.partWritten q).hasDie d = true) (hdy : y.hasDie d = true) : s.partRefused p y = true := by
  have hv : y.valid = true := by
    simp only [Part.hasDie, Bool.and_eq_true] at hdy
    exact hdy.1.1.1.1
  have hmeet : ((List.range 8).any fun q => q != p && s.holdsDies q && (List.range 8).any fun d => y.hasDie d && (s.partWritten q).hasDie d) =
      true := by
    simp only [List.any_eq_true, List.mem_range, Bool.and_eq_true, bne_iff_ne]
    exact ⟨q, hq, ⟨hne, hh⟩, d, hd, hdy, hdq⟩
  simp [State.partRefused, hv, hmeet]

/-! ### Function records (R342, R356) -/

/-- The queues of the functions but f. -/
def State.queuesBut (s : State) (f : Nat) : Nat := (List.range 256).foldl (fun k g => if g = f then k else k + s.fnQueues g) 0

theorem State.queuesBut_eq (s : State) (f : Nat) :
    s.queuesBut f = (List.range 256).foldl (fun a g => if g == f then a else a + s.fnQueues g) 0 := by
  unfold State.queuesBut
  congr 1
  funext a g
  exact if_congr beq_iff_eq.symm rfl rfl

theorem State.writeFnCfg_eq (s : State) (f value : Nat) :
    s.writeFnCfg f value =
      if 64 < bitsOf (value &&& 0x7F1F) 8 7 then s
      else if s.fnBusy f || decide (4096 < s.queuesBut f + bitsOf (value &&& 0x7F1F) 8 7) then s.cpErr 1
      else { s.setReg (cpReg (0x1000 + 16 * f)) (value &&& 0x7F1F) with
        cp := { s.cp with released := s.cp.released.filter fun g => g != f } } := by
  rw [State.queuesBut_eq]
  rfl

/-- A function's configuration written: what it leaves. -/
theorem State.fnCfg_written (s : State) (f v : Nat) (hv : v < 2 ^ 32) :
    (let u := { s.setReg (cpReg (0x1000 + 16 * f)) v with cp := { s.cp with released := s.cp.released.filter fun g => g != f } }
     u.fnCfg f = v ∧ OtherRegs (cpReg (0x1000 + 16 * f)) s u ∧ f ∉ u.cp.released ∧ u.mem = s.mem ∧ u.cmds = s.cmds) := by
  refine ⟨?_, otherRegs_setReg s _ v, by simp, rfl, rfl⟩
  exact (State.reg_setReg_same s (cpReg (0x1000 + 16 * f)) v).trans (Nat.mod_eq_of_lt hv)

/-- Is a new event range of function f refused? -/
def State.eventsRefused (s : State) (f b n : Nat) : Bool :=
  s.fnBusy f || decide (4096 < n) || decide (65536 < b + n) || (n != 0 && (List.range 256).any fun g => g != f && s.evCount g != 0 &&
    (decide (b < s.evBase g + s.evCount g) && decide (s.evBase g < b + n)))

/-- An event range granted to function f: its record written, the events that are new to it 0. -/
def State.eventsGranted (s : State) (f v b n : Nat) : State :=
  State.setReg { s with events := s.events.filter fun x => !(decide (b ≤ x.1) && decide (x.1 < b + n)) || s.ownsEvent f x.1 }
    (cpReg (0x1004 + 16 * f)) v

theorem State.writeFnEvents_eq (s : State) (f value : Nat) :
    (let v := value &&& 0x1FFFFFFF
     s.writeFnEvents f value = if s.eventsRefused f (bitsOf v 0 16) (bitsOf v 16 13) then s.cpErr 1
       else s.eventsGranted f v (bitsOf v 0 16) (bitsOf v 16 13)) := rfl

theorem State.eventsRefused_busy {s : State} {f : Nat} (b n : Nat) (h : s.fnBusy f = true) : s.eventsRefused f b n = true := by
  simp [State.eventsRefused, h]

theorem State.eventsRefused_not {s : State} {f b n : Nat} (hb : s.fnBusy f = false) (hn : n ≤ 4096) (he : b + n ≤ 65536)
    (hapart : n = 0 ∨ ∀ g, g < 256 → g ≠ f → s.evCount g = 0 ∨ s.evBase g + s.evCount g ≤ b ∨ b + n ≤ s.evBase g) :
    s.eventsRefused f b n = false := by
  simp only [State.eventsRefused, Bool.or_eq_false_iff, hb, decide_eq_false_iff_not, Bool.and_eq_false_imp, bne_iff_ne, List.any_eq_false,
    List.mem_range, Bool.and_eq_true, decide_eq_true_eq]
  refine ⟨⟨⟨trivial, by omega⟩, by omega⟩, fun h0 g hg => ?_⟩
  rintro ⟨⟨hne, hc⟩, hlo, hhi⟩
  obtain h | h := hapart
  · exact h0 h
  · have := h g hg hne
    omega

theorem State.eventsGranted_events (s : State) (f v b n e : Nat) :
    kget 0 (s.eventsGranted f v b n).events e =
      if (!(decide (b ≤ e) && decide (e < b + n)) || s.ownsEvent f e) = true then kget 0 s.events e else 0 :=
  kget_filter 0 (fun x => !(decide (b ≤ x) && decide (x < b + n)) || s.ownsEvent f x) s.events e

/-! ### Release (R368) -/

/-- The commands that a release of function f ends. -/
def State.releasedCmds (s : State) (f : Nat) : List Nat :=
  s.cmds.filterMap fun x => x.2.bind fun c => if c.func == f && c.accepted.isSome && c.admitted.isNone then some x.1 else none

theorem State.release_eq {s : State} {f : Nat} (h : s.fnEnabled f = true) :
    s.release f = (s.releasedCmds f).foldl (fun s id => s.deny id 0x1A)
      { s with cp := { s.cp with released := s.cp.released.filter (fun g => g != f) ++ [f] } } := by
  unfold State.release
  rw [h]
  rfl

theorem State.mem_releasedCmds {s : State} {f id : Nat} : id ∈ s.releasedCmds f ↔
    ∃ c, (id, some c) ∈ s.cmds ∧ c.func = f ∧ c.accepted ≠ none ∧ c.admitted = none := by
  simp only [State.releasedCmds, List.mem_filterMap, Prod.exists]
  constructor
  · rintro ⟨j, o, hm, ho⟩
    cases o with
    | none => simp at ho
    | some c =>
      simp only [Option.bind_some, Option.ite_none_right_eq_some, Bool.and_eq_true, beq_iff_eq, Option.isSome_iff_ne_none,
        Option.isNone_iff_eq_none, Option.some.injEq] at ho
      obtain ⟨⟨⟨hf, ha⟩, hn⟩, rfl⟩ := ho
      exact ⟨c, hm, hf, ha, hn⟩
  · rintro ⟨c, hm, hf, ha, hn⟩
    exact ⟨id, some c, hm, by simp [hf, hn, Option.isSome_iff_ne_none, ha]⟩

/-- Commands denied one after the other: those leave, the others stand. -/
theorem State.denyAll_cmd (l : List Nat) (reason j : Nat) : ∀ s : State,
    (l.foldl (fun s id => s.deny id reason) s).cmd j = if j ∈ l then none else s.cmd j := by
  induction l with
  | nil => exact fun s => by simp
  | cons id l ih =>
    intro s
    rw [List.foldl_cons, ih, State.deny, State.complete_cmd]
    by_cases hj : j = id <;> simp [hj]

theorem State.denyAll_only (l : List Nat) (reason : Nat) (s : State) : CompletesOnly s (l.foldl (fun s id => s.deny id reason) s) :=
  List.foldlRecOn (motive := fun u => CompletesOnly s u) _ _ rfl fun _ hu _ _ => completesOnly_trans hu (State.complete_only _ _ _ _)

end Sys2Proof.Machine

namespace Sys2Proof.Proofs

open Sys2Proof.Machine Sys2Proof.Claims

/-- Settles O52, by what each register of the command processor takes and refuses. -/
theorem recordsAndRelease : Obligations.RecordsAndRelease := by
  unfold Obligations.RecordsAndRelease
  intro s p f v hp hf hfr x a rec_ cfg ev b n others errs
  have hcfg : cfg < 2 ^ 32 := lt_of_le_of_lt Nat.and_le_right (by norm_num)
  have hrec : rec_ < 2 ^ 32 := lt_of_le_of_lt Nat.and_le_right (by norm_num)
  have hev : ev < 2 ^ 32 := lt_of_le_of_lt Nat.and_le_right (by norm_num)
  have refused : s.partRefused p (partRecord rec_) = true → errs (.cpPartWrite p v) 0 := fun h =>
    errs_of_cpErr (by norm_num) ((exec_cpPartWrite hfr v hp).trans (congrArg Host.Outcome.next (if_pos h)))
  refine ⟨fun h => ?_, refused, fun q d hq hne hd hh hdq hdy => refused (State.partRefused_meets hq hne hd hh hdq hdy),
    fun hq => ⟨fun hb hroom => ?_, fun h => ?_⟩, fun hb hn he hapart => ?_, fun hb => ?_, fun hv hs hr ha => ?_, fun h => ?_,
    fun hv hs hr => ?_, fun h => ?_, fun hen => ?_, fun hen => ?_⟩
  · refine ⟨s.setReg (partReg p) rec_, (exec_cpPartWrite hfr v hp).trans (congrArg Host.Outcome.next (if_neg (by simpa using h))),
      regsOnly_setReg s _ _, ?_, otherRegs_setReg s _ _⟩
    rw [State.reg_setReg_same, Nat.mod_eq_of_lt hrec]
  · have hw := (s.writeFnCfg_eq f v).trans ((if_neg (Nat.not_lt.mpr hq)).trans (if_neg (by simp [hb]; exact hroom)))
    exact ⟨_, (exec_fnCfgWrite hfr false v hf).trans (congrArg Host.Outcome.next hw), s.fnCfg_written f cfg hcfg⟩
  · have hw := (s.writeFnCfg_eq f v).trans ((if_neg (Nat.not_lt.mpr hq)).trans (if_pos (by simp only [Bool.or_eq_true, decide_eq_true_eq]; exact h)))
    exact errs_of_cpErr (by norm_num) ((exec_fnCfgWrite hfr false v hf).trans (congrArg Host.Outcome.next hw))
  · have hw := (s.writeFnEvents_eq f v).trans (if_neg (by rw [State.eventsRefused_not hb hn he hapart]; decide))
    refine ⟨_, (exec_fnCfgWrite hfr true v hf).trans (congrArg Host.Outcome.next hw), ?_, otherRegs_setReg _ _ _, fun e hlo hhi hown => ?_,
      fun e h => ?_⟩
    · exact (State.reg_setReg_same _ _ _).trans (Nat.mod_eq_of_lt hev)
    · rw [State.eventsGranted_events, if_neg]
      simpa [hown] using ⟨hlo, hhi⟩
    · rw [State.eventsGranted_events, if_pos]
      simp only [Bool.or_eq_true, Bool.not_eq_true', Bool.and_eq_false_iff, decide_eq_false_iff_not, not_le, not_lt]
      exact or_assoc.mpr h
  · have hw := (s.writeFnEvents_eq f v).trans (if_pos (State.eventsRefused_busy _ _ hb))
    exact errs_of_cpErr (by norm_num) ((exec_fnCfgWrite hfr true v hf).trans (congrArg Host.Outcome.next hw))
  · refine parts_of_modPart ((exec_preemptStop hfr hp).trans (congrArg Host.Outcome.next (if_neg ?_)))
    simp only [Bool.or_eq_true, Bool.not_eq_true']
    simp [show (s.part p).valid = true from hv, show (s.part p).stopped = false from hs, show (s.part p).stopReq = none from hr,
      show s.pinnedArea (s.part p).func (s.wide (cpReg 0x28)) (s.saveSize (s.part p)) = true from ha]
  · refine errs_of_cpErr (by norm_num) ((exec_preemptStop hfr hp).trans (congrArg Host.Outcome.next (if_pos ?_)))
    simpa [or_assoc, Option.isSome_iff_ne_none] using h
  · refine parts_of_modPart ((exec_preemptResume hfr hp).trans (congrArg Host.Outcome.next (if_neg ?_)))
    simp [hv, show (s.part p).stopped = true from hs, show (s.part p).resumeReq = false from hr]
  · refine errs_of_cpErr (by norm_num) ((exec_preemptResume hfr hp).trans (congrArg Host.Outcome.next (if_pos ?_)))
    simpa [or_assoc] using h
  · have hx := (exec_fnRelease hfr hf).trans (congrArg Host.Outcome.next (State.release_eq hen))
    have honly := State.denyAll_only (s.releasedCmds f) 0x1A
      { s with cp := { s.cp with released := s.cp.released.filter (fun g => g != f) ++ [f] } }
    refine ⟨_, hx, ?_, honly.held, fun id c hm hc ha hn => ?_, fun id h => ?_⟩
    · rw [honly.cp]
      simp
    · rw [State.denyAll_cmd, if_pos (State.mem_releasedCmds.mpr ⟨c, hm, hc, ha, hn⟩)]
    · rw [State.denyAll_cmd, if_neg]
      · rfl
      · intro hin
        obtain ⟨c, hm, hc, ha, hn⟩ := State.mem_releasedCmds.mp hin
        obtain h | h | h := h c hm
        · exact h hc
        · exact ha h
        · exact h hn
  · refine errs_of_cpErr (by norm_num) ((exec_fnRelease hfr hf).trans (congrArg Host.Outcome.next (if_pos ?_)))
    simp [hen]

end Sys2Proof.Proofs
end

section
/-! PROOFS. Doorbells, head writes, enabling and disabling a queue, a failed host access (R337, R344–R347). -/

namespace Sys2Proof.Machine

open Sys2Proof.Claims

/-! ### Queue registers lie apart (R343) -/

theorem queueReg_ne (f q : Nat) {a b : Nat} (h : a ≠ b) : queueReg f q a ≠ queueReg f q b := by
  unfold queueReg bar0
  omega

theorem queueReg_notMem_mirrors (f q : Nat) {a : Nat} (h : a < 64) (h34 : a ≠ 0x34) (hq : q < 64) : queueReg f q a ∉ mirrorRegs f q := by
  simp only [mirrorRegs, queueReg, bar0, List.mem_cons, List.not_mem_nil, or_false, not_or]
  omega

theorem State.bit_congr {s u : State} {a : Nat} (h : u.reg a = s.reg a) (i : Nat) : u.bit a i = s.bit a i := congrArg (bitOf · i) h

/-- A bit outside a field written is as before. -/
theorem State.bit_setField_apart (s : State) (a lo len v i : Nat) (hi : i < 32) (h : i < lo ∨ lo + len ≤ i) :
    (s.setField a lo len v).bit a i = s.bit a i := by
  rw [State.bit_eq, State.bit_eq, State.field_setField_apart s a lo len v i 1 (by omega) (by omega)]

/-! ### What a flush of held records leaves (R347) -/

/-- What a queue keeps while its records are written. -/
def Queue.SameRing (x y : Queue) : Prop :=
  y.on = x.on ∧ y.sqBase = x.sqBase ∧ y.sqLog = x.sqLog ∧ y.cqBase = x.cqBase ∧ y.cqLog = x.cqLog

/-- The registers that a flush may change. -/
def flushRegs (f q : Nat) : List Nat := queueReg f q 0x24 :: queueReg f q 0x2C :: mirrorRegs f q

/-- What a flush of held records leaves as it was. -/
def FlushOnly (f q : Nat) (s u : State) : Prop :=
  RecordsOnly s u ∧ RegsBut (flushRegs f q) s u ∧ (s.queue f q).SameRing (u.queue f q)

theorem flushOnly_markHeld (s : State) (f q : Nat) : FlushOnly f q s (s.markHeld f q) :=
  ⟨recordsOnly_regs (s.markHeld_regsOnly f q), regsBut_setField _ _ _ (regsBut_rfl _ s) (by simp [flushRegs]), rfl, rfl, rfl, rfl, rfl⟩

theorem flushOnly_trans {f q : Nat} {s u w : State} (h : FlushOnly f q s u) (h2 : FlushOnly f q u w) : FlushOnly f q s w := by
  obtain ⟨honly, hregs, h1, h3, h4, h5, h6⟩ := h
  obtain ⟨honly', hregs', h1', h3', h4', h5', h6'⟩ := h2
  exact ⟨recordsOnly_trans honly honly', regsBut_trans hregs hregs', h1'.trans h1, h3'.trans h3, h4'.trans h4, h5'.trans h5, h6'.trans h6⟩

/-- The first held record written. -/
def State.heldOut (s : State) (f q : Nat) (r : Rec) (rs : List Rec) : State := (s.modQueue f q fun u => { u with held := rs }).writeRecord f q r

theorem flushOnly_heldOut (s : State) (f q : Nat) (r : Rec) (rs : List Rec) : FlushOnly f q s (s.heldOut f q r rs) := by
  have hq := (s.modQueue f q fun u => { u with held := rs }).writeRecord_queue f q r
  rw [State.queue_modQueue_same] at hq
  refine ⟨recordsOnly_trans (recordsOnly_modQueue s f q _) (State.writeRecord_only _ f q r), ?_, ?_⟩
  · have h := (s.modQueue f q fun u => { u with held := rs }).writeRecord_regs f q r
    exact regsBut_mono (s := s) (fun b hb => (h b hb).trans rfl) (by simp [flushRegs])
  · unfold State.heldOut
    rw [hq]
    exact ⟨rfl, rfl, rfl, rfl, rfl⟩

theorem State.flushHeld_cons {s : State} {f q : Nat} (n : Nat) {r : Rec} {rs : List Rec} (h : (s.queue f q).held = r :: rs) :
    s.flushHeld f q (n + 1) =
      if s.canWrite f q && decide (0 < s.freeSlots f q) then (s.heldOut f q r rs).flushHeld f q n else s.markHeld f q := by
  rw [State.flushHeld, h]
  rfl

theorem State.flushHeld_nil {s : State} {f q : Nat} (n : Nat) (h : (s.queue f q).held = []) : s.flushHeld f q n = s.markHeld f q := by
  cases n with
  | zero => rfl
  | succ n => rw [State.flushHeld, h]

theorem flushOnly_flushHeld (f q n : Nat) : ∀ s : State, FlushOnly f q s (s.flushHeld f q n) := by
  induction n with
  | zero => exact fun s => flushOnly_markHeld s f q
  | succ n ih =>
    intro s
    cases h : (s.queue f q).held with
    | nil => rw [State.flushHeld_nil _ h]; exact flushOnly_markHeld s f q
    | cons r rs =>
      rw [State.flushHeld_cons n h]
      exact iteInduction (fun _ => flushOnly_trans (flushOnly_heldOut s f q r rs) (ih _)) fun _ => flushOnly_markHeld s f q

/-! ### What the commands come to -/

section

variable {s : State} {f q : Nat} (hf : f < 256) (hq : q < 64) (he : s.queueExists f q = true)

include hf hq he

theorem onQueue_existing (g : State → State) : onQueue f q g s = .next (g s) := by simp [onQueue, hf, hq, he]

/-- A queue's register write while the module runs. -/
theorem onQueue_runs (w g : State → State) (hfr : s.vigil.frozen = false) :
    onQueue f q (fun s => if s.vigil.frozen then w s else g s) s = .next (g s) :=
  (onQueue_existing hf hq he _).trans (congrArg Host.Outcome.next (if_neg (by simp [hfr])))

section

variable (hfr : s.vigil.frozen = false)

include hfr

theorem exec_doorbell (v : Nat) : exec (.doorbell f q v) s = .next (s.writeTail f q v) :=
  onQueue_runs hf hq he (fun s => s.enqueueWrite f (queueReg f q 0x0C) v 15) (fun s => s.writeTail f q v) hfr

theorem exec_cqHeadWrite (v : Nat) : exec (.cqHeadWrite f q v) s = .next (s.writeCqHead f q v) :=
  onQueue_runs hf hq he (fun s => s.enqueueWrite f (queueReg f q 0x20) v 15) (fun s => s.writeCqHead f q v) hfr

theorem exec_queueEnable : exec (.queueEnable f q) s = .next (s.enableQueue f q) :=
  onQueue_runs hf hq he (fun s => s.enqueueWrite f (queueReg f q 0x28) 1 15) (fun s => s.enableQueue f q) hfr

theorem exec_queueDisable : exec (.queueDisable f q) s = .next (s.disableQueue f q) :=
  onQueue_runs hf hq he (fun s => s.enqueueWrite f (queueReg f q 0x28) 0 15) (fun s => s.disableQueue f q) hfr

end

/-- A queue's register write waits under Vigil. -/
theorem onQueue_waits (g : State → State) (a w : Nat) (hfr : s.vigil.frozen = true) (hroom : s.vigil.writes.length < 64) :
    onQueue f q (fun s => if s.vigil.frozen then s.enqueueWrite f a w 15 else g s) s =
      .next { s with vigil := { s.vigil with writes := s.vigil.writes ++ [⟨f, a, w, 15⟩] } } :=
  (onQueue_existing hf hq he _).trans (congrArg Host.Outcome.next ((if_pos hfr).trans (if_pos hroom)))

end

/-! ### A head write (R345, R347) -/

theorem State.writeCqHead_ok {s : State} {f q v : Nat} (h : v % 131072 < s.cqSize f q) :
    s.writeCqHead f q v = (s.setReg (queueReg f q 0x20) (v % 131072)).flushHeld f q (s.queue f q).held.length :=
  if_neg (by simpa using h)

/-- The record that a head write lets out. -/
theorem State.headFreed_facts (s : State) {f q h : Nat} (r : Rec) (hq : q < 64) (hh : h < 2 ^ 32) :
    (let u := ((s.setReg (queueReg f q 0x20) h).heldOut f q r []).markHeld f q
     u.reg (queueReg f q 0x20) = h ∧ u.mem = recorded s f q r ∧ (u.queue f q).held = [] ∧
       (u.queue f q).unread = (s.queue f q).unread ++ [{ r with owed := false }] ∧ u.cmds = s.cmds) := by
  have hflush := flushOnly_trans (flushOnly_heldOut (s.setReg (queueReg f q 0x20) h) f q r []) (flushOnly_markHeld _ f q)
  have hqueue := ((s.setReg (queueReg f q 0x20) h).modQueue f q fun u => { u with held := [] }).writeRecord_queue f q r
  have hmem := ((s.setReg (queueReg f q 0x20) h).modQueue f q fun u => { u with held := [] }).writeRecord_mem f q r
  rw [State.queue_modQueue_same] at hqueue
  obtain ⟨honly, hregs, _⟩ := hflush
  have hnot : queueReg f q 0x20 ∉ flushRegs f q := by
    simp only [flushRegs, List.mem_cons, not_or]
    exact ⟨queueReg_ne f q (by decide), queueReg_ne f q (by decide), queueReg_notMem_mirrors f q (by decide) (by decide) hq⟩
  refine ⟨?_, ?_, ?_, ?_, ?_⟩
  · rw [hregs _ hnot, State.reg_setReg_same, Nat.mod_eq_of_lt hh]
  · refine hmem.trans ?_
    unfold recorded
    rw [State.queue_modQueue_same]
    have htail : ((s.setReg (queueReg f q 0x20) h).modQueue f q fun u => { u with held := [] }).field (queueReg f q 0x24) 0 17 =
        s.field (queueReg f q 0x24) 0 17 := State.field_congr (State.reg_setReg_other s h (queueReg_ne f q (by decide))) 0 17
    rw [htail]
    rfl
  · exact congrArg Queue.held hqueue
  · exact congrArg Queue.unread hqueue
  · exact (congrArg State.cmds honly).trans rfl

/-! ### Enabling and disabling (R347) -/

/-- A queue as ENABLE takes it. -/
def State.enabledQueue (s : State) (f q : Nat) : Queue :=
  let u := s.queue f q
  { u with
    on := true
    sqBase := s.wide (queueReg f q 0x00)
    sqLog := s.field (queueReg f q 0x08) 0 5
    cqBase := s.wide (queueReg f q 0x14)
    cqLog := s.field (queueReg f q 0x1C) 0 5
    held := (u.unread ++ u.held).map (fun r => { r with replayed := true }) ++ u.abandoned
    unread := []
    last := none
    abandoned := [] }

/-- The queue enabled, before its held records go out. -/
def State.enabling (s : State) (f q : Nat) : State :=
  (((s.modQueue f q fun _ => s.enabledQueue f q).setBit (queueReg f q 0x28) 0).setBit (queueReg f q 0x2C) 0).abandonPending

theorem State.enableQueue_ok {s : State} {f q : Nat} (hon : (s.queue f q).on = false) (hs1 : 1 ≤ s.field (queueReg f q 0x08) 0 5)
    (hs2 : s.field (queueReg f q 0x08) 0 5 ≤ 16) (hc1 : 2 ≤ s.field (queueReg f q 0x1C) 0 5) (hc2 : s.field (queueReg f q 0x1C) 0 5 ≤ 17) :
    s.enableQueue f q = (s.enabling f q).flushHeld f q ((s.enabling f q).queue f q).held.length :=
  if_neg (by simp [hon, hs1, hs2, hc1, hc2])

theorem State.enableQueue_not {s : State} {f q : Nat}
    (h : (s.queue f q).on = true ∨ s.field (queueReg f q 0x08) 0 5 < 1 ∨ 16 < s.field (queueReg f q 0x08) 0 5 ∨
      s.field (queueReg f q 0x1C) 0 5 < 2 ∨ 17 < s.field (queueReg f q 0x1C) 0 5) : s.enableQueue f q = s := by
  refine if_pos ?_
  simp only [Bool.or_eq_true, Bool.not_eq_true', Bool.and_eq_false_iff, decide_eq_false_iff_not, not_le]
  exact h.imp_right fun h => by omega

theorem State.abandonPending_regs (s : State) : RegsOnly s s.abandonPending ∧ RegsBut [cpReg 0] s s.abandonPending :=
  ⟨regsOnly_setField s _ _ _ _, regsBut_setField _ _ _ (regsBut_rfl _ s) (by simp)⟩

theorem cpReg_ne_queueReg (f q off a : Nat) (h : off < 0x100000) : cpReg off ≠ queueReg f q a := by
  unfold cpReg queueReg bar0
  omega

theorem State.enabling_facts (s : State) (f q : Nat) :
    RecordsOnly s (s.enabling f q) ∧ RegsBut [queueReg f q 0x28, queueReg f q 0x2C, cpReg 0] s (s.enabling f q) ∧
      (s.enabling f q).bit (queueReg f q 0x28) 0 = true ∧ (s.enabling f q).queue f q = s.enabledQueue f q ∧ (s.enabling f q).mem = s.mem := by
  have hreg := State.abandonPending_regs (((s.modQueue f q fun _ => s.enabledQueue f q).setBit (queueReg f q 0x28) 0).setBit (queueReg f q 0x2C) 0)
  have honly : RegsOnly (s.modQueue f q fun _ => s.enabledQueue f q) (s.enabling f q) :=
    regsOnly_trans (regsOnly_trans (regsOnly_setBit _ _ 0) (regsOnly_setBit _ _ 0)) hreg.1
  refine ⟨recordsOnly_trans (recordsOnly_modQueue s f q _) (recordsOnly_regs honly), ?_, ?_,
    ((congrArg (fun u => State.queue u f q) honly).trans rfl).trans (s.queue_modQueue_same f q fun _ => s.enabledQueue f q),
    (congrArg State.mem honly).trans rfl⟩
  · refine regsBut_trans ?_ (regsBut_mono hreg.2 (by simp))
    exact regsBut_setBit 0 (regsBut_setBit 0 (fun _ _ => rfl) (by simp)) (by simp)
  · refine (State.bit_congr (hreg.2 _ (by simpa using (cpReg_ne_queueReg f q 0 0x28 (by norm_num)).symm)) 0).trans ?_
    refine (State.bit_congr (State.reg_setBit_other _ _ (queueReg_ne f q (by decide))) 0).trans ?_
    exact State.bit_setBit_same _ _ 0 (by norm_num)

/-! ### A failed host access (R337) -/

/-- The queue stopped after a failed access. -/
def State.hostErr (s : State) (f q : Nat) : State :=
  (((s.modQueue f q ({ · with on := false })).clearBit (queueReg f q 0x2C) 0).setBit (queueReg f q 0x2C) 2).markHeld f q

/-- A queue's command that does nothing while the module is halted. -/
theorem onQueue_awake {s : State} {f q : Nat} (g : State → State) (hf : f < 256) (hq : q < 64) (he : s.queueExists f q = true)
    (hh : s.halted = false) : onQueue f q (fun s => if s.halted then s else g s) s = .next (g s) :=
  (onQueue_existing hf hq he _).trans (congrArg Host.Outcome.next (if_neg (by simp [hh])))

theorem exec_hostAccessFail {s : State} {f q : Nat} (write : Bool) (hf : f < 256) (hq : q < 64) (he : s.queueExists f q = true)
    (hh : s.halted = false) : exec (.hostAccessFail f q write) s = .next ((if write then s.unwrite f q else s).hostErr f q) :=
  onQueue_awake (fun s => (if write then s.unwrite f q else s).hostErr f q) hf hq he hh

theorem State.hostErr_facts (s : State) (f q : Nat) :
    RecordsOnly s (s.hostErr f q) ∧ OtherRegs (queueReg f q 0x2C) s (s.hostErr f q) ∧ (s.hostErr f q).mem = s.mem ∧
      (s.hostErr f q).queue f q = { s.queue f q with on := false } ∧
      (s.hostErr f q).bit (queueReg f q 0x2C) 2 = true ∧ (s.hostErr f q).bit (queueReg f q 0x2C) 0 = false ∧
      (s.hostErr f q).field (queueReg f q 0x2C) 4 1 = natOf (!(s.queue f q).held.isEmpty) := by
  have hqueue := s.queue_modQueue_same f q ({ · with on := false })
  have honly : RegsOnly (s.modQueue f q ({ · with on := false })) (s.hostErr f q) :=
    regsOnly_trans (regsOnly_trans (regsOnly_setReg _ _ _) (regsOnly_setBit _ _ 2)) (State.markHeld_regsOnly _ f q)
  refine ⟨recordsOnly_trans (recordsOnly_modQueue s f q _) (recordsOnly_regs honly), ?_, (congrArg State.mem honly).trans rfl,
    ((congrArg (fun u => State.queue u f q) honly).trans rfl).trans hqueue, ?_, ?_, ?_⟩
  · refine otherRegs_of_regsBut ?_
    exact regsBut_setField _ _ _ (regsBut_setBit _ (regsBut_clearBit _ (fun _ _ => rfl) (by simp)) (by simp)) (by simp)
  · refine (State.bit_setField_apart _ _ 4 1 _ 2 (by norm_num) (by norm_num)).trans ?_
    exact State.bit_setBit_same _ _ 2 (by norm_num)
  · refine (State.bit_setField_apart _ _ 4 1 _ 0 (by norm_num) (by norm_num)).trans ?_
    refine (State.bit_setBit_apart _ _ 2 0 (by norm_num) (by norm_num)).trans ?_
    exact State.bit_clearBit_same _ _ 0 (by norm_num)
  · have hheld : natOf (!((s.modQueue f q ({ · with on := false })).queue f q).held.isEmpty) = natOf (!(s.queue f q).held.isEmpty) := by
      rw [hqueue]
    refine (State.field_setField_same _ _ 4 1 _ (by norm_num)).trans (Eq.trans ?_ hheld)
    exact Nat.mod_eq_of_lt (by cases List.isEmpty _ <;> decide)

theorem State.unwrite_none {s : State} {f q : Nat} (h : (s.queue f q).last = none) : s.unwrite f q = s := by
  simp only [State.unwrite, h]

theorem State.unwrite_read {s : State} {f q : Nat} (h : s.field (queueReg f q 0x24) 0 17 = s.field (queueReg f q 0x20) 0 17) :
    s.unwrite f q = s := by
  unfold State.unwrite
  dsimp only
  split
  · rfl
  · exact if_pos (by simpa using h)

/-- The tail of a queue before its last record. -/
def State.tailBefore (s : State) (f q : Nat) : Nat := (s.field (queueReg f q 0x24) 0 17 + 2 ^ (s.queue f q).cqLog - 1) % 2 ^ (s.queue f q).cqLog

/-- The bytes of a failed record as they were, CQ_TAIL before it. -/
def State.recordGone (s : State) (f q : Nat) (old : List Byte) : State :=
  State.setReg { s with mem := Mem.writeBytes s.mem (hostKey ((s.queue f q).cqBase + 32 * s.tailBefore f q)) old } (queueReg f q 0x24)
    (s.tailBefore f q)

theorem State.unwrite_eq {s : State} {f q : Nat} {r : Rec} {old : List Byte} (h : (s.queue f q).last = some (r, old))
    (hr : s.field (queueReg f q 0x24) 0 17 ≠ s.field (queueReg f q 0x20) 0 17) :
    s.unwrite f q = ((s.recordGone f q old).mirrorRec f q r false).modQueue f q fun u => { u with
      unread := u.unread.dropLast
      held := r :: u.held
      last := none
      phase := u.phase != decide (s.tailBefore f q + 1 = 2 ^ (s.queue f q).cqLog) } := by
  simp only [State.unwrite, h]
  exact if_neg (by simpa using hr)

theorem State.unwrite_facts {s : State} {f q : Nat} {r : Rec} {old : List Byte} (h : (s.queue f q).last = some (r, old))
    (hr : s.field (queueReg f q 0x24) 0 17 ≠ s.field (queueReg f q 0x20) 0 17) :
    RecordsOnly s (s.unwrite f q) ∧
      (s.unwrite f q).mem = Mem.writeBytes s.mem (hostKey ((s.queue f q).cqBase + 32 * s.tailBefore f q)) old ∧
      (s.unwrite f q).reg (queueReg f q 0x24) = s.tailBefore f q % 2 ^ 32 ∧
      RegsBut (queueReg f q 0x24 :: mirrorRegs f q) s (s.unwrite f q) ∧
      ((s.unwrite f q).queue f q).held = r :: (s.queue f q).held ∧ ((s.unwrite f q).queue f q).unread = (s.queue f q).unread.dropLast := by
  have hm := regsOnly_mirrorRec (s.recordGone f q old) f q r false
  have hb := regsBut_mirrorRec (s.recordGone f q old) f q r false
  have hqueue : ((s.recordGone f q old).mirrorRec f q r false).queue f q = s.queue f q :=
    (congrArg (fun u => State.queue u f q) hm).trans rfl
  have hnot : queueReg f q 0x24 ∉ mirrorRegs f q := by simp [mirrorRegs, queueReg, bar0]; omega
  have h0 : RegsBut (queueReg f q 0x24 :: mirrorRegs f q) s (s.recordGone f q old) :=
    regsBut_setReg (s := s) (u := { s with mem := Mem.writeBytes s.mem (hostKey ((s.queue f q).cqBase + 32 * s.tailBefore f q)) old }) _
      (fun _ _ => rfl) (by simp)
  rw [State.unwrite_eq h hr, State.queue_modQueue_same, hqueue]
  refine ⟨recordsOnly_trans (recordsOnly_trans (u := s.recordGone f q old) rfl (recordsOnly_regs hm)) (recordsOnly_modQueue _ f q _),
    (congrArg State.mem hm).trans rfl, (hb _ hnot).trans (State.reg_setReg_same _ _ _), ?_, rfl, rfl⟩
  exact regsBut_of_regs (regsBut_trans h0 (regsBut_mono hb (by simp))) rfl

theorem State.unwrite_only (s : State) (f q : Nat) : RecordsOnly s (s.unwrite f q) := by
  cases h : (s.queue f q).last with
  | none => rw [State.unwrite_none h]; rfl
  | some x =>
    by_cases hr : s.field (queueReg f q 0x24) 0 17 = s.field (queueReg f q 0x20) 0 17
    · rw [State.unwrite_read hr]; rfl
    · exact (State.unwrite_facts h hr).1

end Sys2Proof.Machine

namespace Sys2Proof.Proofs

open Sys2Proof.Machine Sys2Proof.Claims

/-- Settles O35, by what each queue register's write leaves. -/
theorem queueRegisters : Obligations.QueueRegisters := by
  unfold Obligations.QueueRegisters
  intro s f q v write hf hq he x sq cq
  refine ⟨fun hfr => ⟨fun h => ?_, fun h => ?_, fun h hx => ?_, fun h => ?_, fun r h hx hcan hfree => ?_, fun h => ?_,
    fun hon hs1 hs2 hc1 hc2 => ?_, ?_⟩, fun hh => ?_, fun hfr hroom => ?_⟩
  · have hw : s.writeTail f q v = s.setReg (queueReg f q 0x0C) (v % 65536) := if_neg (by simpa using h)
    refine ⟨_, (exec_doorbell hf hq he hfr v).trans (congrArg Host.Outcome.next hw), regsOnly_setReg s _ _, ?_, otherRegs_setReg s _ _⟩
    rw [State.reg_setReg_same]
    omega
  · have hw : s.writeTail f q v = s.setBit (queueReg f q 0x2C) 1 := if_pos (by simpa using h)
    exact sets_of_setBit ((exec_doorbell hf hq he hfr v).trans (congrArg Host.Outcome.next hw)) (by norm_num)
  · have hnil : ((s.setReg (queueReg f q 0x20) (v % 131072)).queue f q).held = [] := hx
    have hw := (State.writeCqHead_ok h).trans (State.flushHeld_nil _ hnil)
    refine ⟨_, (exec_cqHeadWrite hf hq he hfr v).trans (congrArg Host.Outcome.next hw),
      regsOnly_trans (regsOnly_setReg s _ _) (State.markHeld_regsOnly _ f q), ?_, ?_⟩
    · refine (State.reg_setReg_other _ _ (queueReg_ne f q (by decide))).trans ((State.reg_setReg_same s _ _).trans ?_)
      omega
    · exact regsBut_setField _ _ _ (regsBut_setReg _ (regsBut_rfl _ s) (by simp)) (by simp)
  · have hw : s.writeCqHead f q v = s.setBit (queueReg f q 0x2C) 1 := if_pos (by simpa using h)
    exact sets_of_setBit ((exec_cqHeadWrite hf hq he hfr v).trans (congrArg Host.Outcome.next hw)) (by norm_num)
  · have hlen : (s.queue f q).held.length = 0 + 1 := congrArg List.length hx
    have hheld : ((s.setReg (queueReg f q 0x20) (v % 131072)).queue f q).held = [r] := hx
    have hgo : ((s.setReg (queueReg f q 0x20) (v % 131072)).canWrite f q &&
        decide (0 < (s.setReg (queueReg f q 0x20) (v % 131072)).freeSlots f q)) = true := by
      rw [Bool.and_eq_true, decide_eq_true_eq]
      exact ⟨hcan, hfree⟩
    have hw := (State.writeCqHead_ok h).trans ((congrArg _ hlen).trans ((State.flushHeld_cons 0 hheld).trans (if_pos hgo)))
    exact ⟨_, (exec_cqHeadWrite hf hq he hfr v).trans (congrArg Host.Outcome.next hw), s.headFreed_facts r hq (by omega)⟩
  · exact (exec_queueEnable hf hq he hfr).trans (congrArg Host.Outcome.next (State.enableQueue_not h))
  · obtain ⟨hrec, hregs, hbit, hqueue, hmem⟩ := s.enabling_facts f q
    have hw := State.enableQueue_ok hon hs1 hs2 hc1 hc2
    obtain ⟨hrec2, hregs2, h1, h2, h3, h4, h5⟩ := flushOnly_flushHeld f q ((s.enabling f q).queue f q).held.length (s.enabling f q)
    have hnot : queueReg f q 0x28 ∉ flushRegs f q := by
      simp only [flushRegs, List.mem_cons, not_or]
      exact ⟨queueReg_ne f q (by decide), queueReg_ne f q (by decide), queueReg_notMem_mirrors f q (by decide) (by decide) hq⟩
    refine ⟨_, (exec_queueEnable hf hq he hfr).trans (congrArg Host.Outcome.next hw), h1.trans (congrArg Queue.on hqueue),
      h2.trans (congrArg Queue.sqBase hqueue), h3.trans (congrArg Queue.sqLog hqueue), h4.trans (congrArg Queue.cqBase hqueue),
      h5.trans (congrArg Queue.cqLog hqueue),
      (State.bit_congr (hregs2 _ hnot) 0).trans hbit, (congrArg State.cmds (recordsOnly_trans hrec hrec2)).trans rfl, ?_, fun hx hu ha => ?_⟩
    · refine regsBut_trans (regsBut_mono hregs ?_) (regsBut_mono hregs2 ?_)
      · simp
      · simp [flushRegs, mirrorRegs]
    · have hnil : ((s.enabling f q).queue f q).held = [] := by
        rw [hqueue]
        simp [State.enabledQueue, show (s.queue f q).held = [] from hx, show (s.queue f q).unread = [] from hu,
          show (s.queue f q).abandoned = [] from ha]
      rw [State.flushHeld_nil _ hnil]
      exact hmem
  · refine ⟨_, exec_queueDisable hf hq he hfr, s.queue_modQueue_same f q ({ · with on := false }), ?_, ?_, ?_, rfl, rfl⟩
    · refine (State.bit_congr (State.reg_clearBit_other _ 0 (queueReg_ne f q (by decide))) 0).trans ?_
      exact State.bit_clearBit_same _ _ 0 (by norm_num)
    · exact State.bit_clearBit_same _ _ 0 (by norm_num)
    · exact regsBut_clearBit _ (regsBut_clearBit _ (fun _ _ => rfl) (by simp)) (by simp)
  · intro n tail t read
    obtain ⟨hrec, hregs, hmem, hqueue, hb2, hb0, hfield⟩ := (if write then s.unwrite f q else s).hostErr_facts f q
    have hrecs : RecordsOnly s (if write then s.unwrite f q else s) :=
      iteInduction (fun _ => s.unwrite_only f q) fun _ => recordsOnly_rfl s
    refine ⟨_, exec_hostAccessFail write hf hq he hh, congrArg Queue.on hqueue, hb2, hb0,
      (congrArg State.cmds (recordsOnly_trans hrecs hrec)).trans rfl, fun h => ?_, fun r old hwr hlast hread => ?_⟩
    · have hsame : (if write then s.unwrite f q else s) = s := by
        obtain h | h | h := h
        · rw [h]; rfl
        · rw [State.unwrite_none h, ite_self]
        · rw [State.unwrite_read h, ite_self]
      rw [hsame] at hregs hmem hqueue ⊢
      exact ⟨hqueue, hregs, hmem⟩
    · subst hwr
      obtain ⟨_, humem, hutail, huregs, huheld, huunread⟩ := State.unwrite_facts hlast hread
      refine ⟨hmem.trans humem, (hregs _ (queueReg_ne f q (by decide))).trans hutail, (congrArg Queue.held hqueue).trans huheld,
        (congrArg Queue.unread hqueue).trans huunread, ?_, ?_⟩
      · rw [State.bit_eq, hfield, if_pos rfl, huheld]
        rfl
      · refine regsBut_trans (regsBut_mono huregs ?_) fun b hb => hregs b fun h => hb (by simp [h])
        simp [mirrorRegs]
  · intro waits
    exact ⟨onQueue_waits hf hq he (fun s => s.writeTail f q v) _ _ hfr hroom, onQueue_waits hf hq he (fun s => s.writeCqHead f q v) _ _ hfr hroom,
      onQueue_waits hf hq he (fun s => s.enableQueue f q) _ _ hfr hroom, onQueue_waits hf hq he (fun s => s.disableQueue f q) _ _ hfr hroom⟩

end Sys2Proof.Proofs
end

section
/-! PROOFS. Fetching a command, and accepting it or turning it away (R345, R350, R351, R357). -/

namespace Sys2Proof.Machine

open Sys2Proof.Claims

/-! ### Pairs of a table -/

theorem mem_kerase {α : Type} (i : Nat) (x : Nat × α) : ∀ m : KMap α, x ∈ kerase m i → x ∈ m := by
  intro m
  induction m with
  | nil => exact fun h => h
  | cons y t ih =>
    obtain ⟨k, v⟩ := y
    intro h
    unfold kerase at h
    split at h
    · exact List.mem_cons_of_mem _ (ih h)
    · obtain rfl | h := List.mem_cons.mp h
      · exact List.mem_cons_self
      · exact List.mem_cons_of_mem _ (ih h)

theorem mem_kinsert {α : Type} (i : Nat) (w : α) (x : Nat × α) : ∀ m : KMap α, x ∈ kinsert m i w → x = (i, w) ∨ x ∈ m := by
  intro m
  induction m with
  | nil => exact fun h => Or.inl (List.mem_singleton.mp h)
  | cons y t ih =>
    obtain ⟨k, v⟩ := y
    intro h
    unfold kinsert at h
    split at h
    · exact List.mem_cons.mp h
    · obtain rfl | h := List.mem_cons.mp h
      · exact Or.inr List.mem_cons_self
      · exact (ih h).imp_right (List.mem_cons_of_mem _)

/-- A pair of a table that was written is the one written or was there before. -/
theorem mem_kset {α : Type} [DecidableEq α] {d : α} {m : KMap α} {i : Nat} {w : α} {x : Nat × α} (h : x ∈ kset d m i w) :
    x = (i, w) ∨ x ∈ m := by
  unfold kset at h
  split at h
  · exact Or.inr (mem_kerase i x m h)
  · exact (mem_kinsert i w x _ h).imp_right (mem_kerase i x m)

theorem lfind_none {α : Type} (p : α → Bool) : ∀ (l : List α) (i : Nat), (∀ x, x ∈ l → p x = false) → lfind p l i = none := by
  intro l
  induction l with
  | nil => exact fun _ _ => rfl
  | cons x t ih =>
    intro i h
    rw [lfind, if_neg (by simp [h x List.mem_cons_self])]
    exact ih _ fun y hy => h y (List.mem_cons_of_mem _ hy)

/-! ### What a record's write leaves -/

theorem RecordsOnly.cmds {s u : State} (h : RecordsOnly s u) : u.cmds = s.cmds := (congrArg State.cmds h).trans rfl
theorem RecordsOnly.cp {s u : State} (h : RecordsOnly s u) : u.cp = s.cp := (congrArg State.cp h).trans rfl
theorem RecordsOnly.held {s u : State} (h : RecordsOnly s u) : u.held = s.held := (congrArg State.held h).trans rfl
theorem RecordsOnly.colls {s u : State} (h : RecordsOnly s u) : u.colls = s.colls := (congrArg State.colls h).trans rfl

theorem cmd_of_cmds {s u : State} (h : u.cmds = s.cmds) (j : Nat) : u.cmd j = s.cmd j := congrArg (fun m => kget none m j) h

theorem queue_of_queues {s u : State} (h : u.queues = s.queues) (f q : Nat) : u.queue f q = s.queue f q :=
  congrArg (fun m => kget ({} : Queue) m (64 * f + q)) h

theorem canWrite_of {s u : State} {f q : Nat} (hq : u.queue f q = s.queue f q) (hc : u.cp.d3hot = s.cp.d3hot) :
    u.canWrite f q = s.canWrite f q := by
  unfold State.canWrite
  rw [hq, hc]

/-! ### Fetched commands -/

theorem State.mem_fetched {s : State} {f q id : Nat} {c : Cmd} :
    (id, c) ∈ s.fetched f q ↔ (id, some c) ∈ s.cmds ∧ c.func = f ∧ c.q = q ∧ c.accepted = none := by
  simp only [State.fetched, List.mem_filterMap, Prod.exists]
  constructor
  · rintro ⟨j, o, hm, ho⟩
    cases o with
    | none => simp at ho
    | some d =>
      simp only [Option.ite_none_right_eq_some, Bool.and_eq_true, beq_iff_eq, Option.isNone_iff_eq_none, Option.some.injEq, Prod.mk.injEq] at ho
      obtain ⟨⟨⟨hf, hq⟩, ha⟩, rfl, rfl⟩ := ho
      exact ⟨hm, hf, hq, ha⟩
  · rintro ⟨hm, hf, hq, ha⟩
    exact ⟨id, some c, hm, by simp [hf, hq, ha]⟩

/-- Nothing behind is consumed where no fetched command is turned away. -/
theorem State.consumeRefused_one {s : State} {f q : Nat} (h : ∀ x ∈ s.fetched f q, x.2.dup = false ∧ x.2.refuse = none) :
    s.consumeRefused f q 1 = s := by
  cases hl : s.fetched f q with
  | nil => simp only [State.consumeRefused, hl]
  | cons x t =>
    obtain ⟨hd, hr⟩ := h x (by rw [hl]; exact List.mem_cons_self)
    simp only [State.consumeRefused, hl, hd, hr]
    rfl

/-- The state of a fetch once its command is read: command n, SQ_HEAD at t. -/
def State.fetchedAs (s : State) (f q n t : Nat) (c : Cmd) : State :=
  let s1 := (s.clearBit (queueReg f q 0x2C) 3).modQueue f q fun u => { u with reserved := u.reserved + 2 }
  let s2 := (s1.setReg (queueReg f q 0x10) t).setCmd n (some c)
  { s2 with cp := { s2.cp with nextId := n + 1 } }

/-- The same for the entry at SQ_HEAD. -/
def State.fetching (s : State) (f q : Nat) (c : Cmd) : State :=
  s.fetchedAs f q s.cp.nextId ((s.field (queueReg f q 0x10) 0 16 + 1) % s.sqSize f q) c

theorem State.fetchOne_eq {s : State} {f q : Nat} (hc : s.canFetch f q = true) (hr : 2 ≤ s.freeSlots f q) :
    s.fetchOne f q = (s.fetching f q (s.readCommand f q (s.field (queueReg f q 0x10) 0 16))).consumeRefused f q 1 := by
  unfold State.fetchOne
  rw [if_neg (by simp [hc]), if_neg (by omega)]
  rfl

theorem modQueue_queues_congr {s u : State} (h : u.queues = s.queues) (f q : Nat) (g : Queue → Queue) :
    (u.modQueue f q g).queues = (s.modQueue f q g).queues := by
  unfold State.modQueue State.queue
  rw [h]

theorem State.fetchedAs_facts (s : State) (f q n : Nat) {t : Nat} (c : Cmd) (ht : t < 2 ^ 32) :
    (s.fetchedAs f q n t c).cmds = kset none s.cmds n (some c) ∧ (s.fetchedAs f q n t c).cp = { s.cp with nextId := n + 1 } ∧
      (s.fetchedAs f q n t c).reg (queueReg f q 0x10) = t ∧
      (s.fetchedAs f q n t c).queue f q = { s.queue f q with reserved := (s.queue f q).reserved + 2 } ∧
      (s.fetchedAs f q n t c).mem = s.mem ∧ RegsBut [queueReg f q 0x10, queueReg f q 0x2C] s (s.fetchedAs f q n t c) := by
  have hb := regsBut_clearBit 3 (regsBut_rfl [queueReg f q 0x10, queueReg f q 0x2C] s) (a := queueReg f q 0x2C) (by simp)
  unfold State.fetchedAs
  have h0 : RegsOnly s (s.clearBit (queueReg f q 0x2C) 3) := regsOnly_setReg s _ _
  generalize s.clearBit (queueReg f q 0x2C) 3 = b at hb h0 ⊢
  have hbq : b.queues = s.queues := (congrArg State.queues h0).trans rfl
  have hqs := modQueue_queues_congr hbq f q fun u => { u with reserved := u.reserved + 2 }
  refine ⟨congrArg (fun m => kset none m n (some c)) ((congrArg State.cmds h0).trans rfl),
    congrArg (fun x : Cp => { x with nextId := n + 1 }) ((congrArg State.cp h0).trans rfl), ?_,
    (queue_of_queues hqs f q).trans (s.queue_modQueue_same f q _), (congrArg State.mem h0).trans rfl, ?_⟩
  · exact (State.reg_setReg_same (b.modQueue f q fun u => { u with reserved := u.reserved + 2 }) _ t).trans (Nat.mod_eq_of_lt ht)
  · exact regsBut_setReg t hb (by simp)

theorem State.fetching_facts (s : State) (f q : Nat) (c : Cmd) :
    (s.fetching f q c).cmds = kset none s.cmds s.cp.nextId (some c) ∧ (s.fetching f q c).cp = { s.cp with nextId := s.cp.nextId + 1 } ∧
      (s.fetching f q c).reg (queueReg f q 0x10) = (s.field (queueReg f q 0x10) 0 16 + 1) % s.sqSize f q ∧
      (s.fetching f q c).queue f q = { s.queue f q with reserved := (s.queue f q).reserved + 2 } ∧ (s.fetching f q c).mem = s.mem ∧
      RegsBut [queueReg f q 0x10, queueReg f q 0x2C] s (s.fetching f q c) := by
  have hhead : s.field (queueReg f q 0x10) 0 16 < 2 ^ 16 := Nat.mod_lt _ (by norm_num)
  have hlt : (s.field (queueReg f q 0x10) 0 16 + 1) % s.sqSize f q < 2 ^ 32 := lt_of_le_of_lt (Nat.mod_le _ _) (by omega)
  exact s.fetchedAs_facts f q s.cp.nextId c hlt

theorem State.fetching_fetched {s : State} {f q : Nat} {c : Cmd} (h : s.fetched f q = []) :
    ∀ x ∈ (s.fetching f q c).fetched f q, x.2 = c := by
  rintro ⟨id, d⟩ hx
  obtain ⟨hm, hf, hq, ha⟩ := State.mem_fetched.mp hx
  rw [(s.fetching_facts f q c).1] at hm
  obtain he | hm := mem_kset hm
  · exact Option.some.inj (congrArg Prod.snd he)
  · have hin : (id, d) ∈ s.fetched f q := State.mem_fetched.mpr ⟨hm, hf, hq, ha⟩
    rw [h] at hin
    exact absurd hin List.not_mem_nil

theorem exec_fetchRound {s : State} (cells : List (Nat × BitVec 8)) (h : s.halted = false) :
    exec (.fetchRound cells) s = .next ((s.hostCells cells).fetchable.foldl (fun s x => s.fetchOne x.1 x.2) (s.hostCells cells)) :=
  if_neg (by simp [h])

theorem exec_commandAccept {s : State} {f q : Nat} (hf : f < 256) (hq : q < 64) (h : s.halted = false) :
    exec (.commandAccept f q) s = .next (s.acceptNext f q) := by
  change execCommandAccept f q s = _
  simp [execCommandAccept, hf, hq, h]

theorem State.acceptNext_nil {s : State} {f q : Nat} (h : s.fetched f q = []) : s.acceptNext f q = s := by
  simp only [State.acceptNext, h]

theorem State.acceptNext_one {s : State} {f q id : Nat} {c : Cmd} (h : s.fetched f q = [(id, c)]) :
    s.acceptNext f q = if c.dup || c.refuse.isSome then s.turnAway id c
      else if s.calendsBad c then s.turnAway id { c with refuse := some 0x15 } else s.accept id c := by
  simp only [State.acceptNext, h]
  rfl

/-! ### A command turned away (R350, R351) -/

/-- A record posted at once, owed by none: only CQ_TAIL moves. -/
theorem State.post_free (s : State) {f q : Nat} (slots : Nat) {r : Rec} (hc : s.canWrite f q = true) (hh : (s.queue f q).held = [])
    (hr : r.owed = false) : RegsBut [queueReg f q 0x24] s (s.post f q slots r) := by
  rw [State.post_written s slots r hc hh]
  exact regsBut_trans (fun _ _ => rfl) (State.writeRecord_regs_free (s.freed f q slots) f q hr)

theorem State.turnAway_dup (s : State) (id : Nat) {c : Cmd} (h : c.dup = true) :
    s.turnAway id c = (s.setCmd id none).post c.func c.q 2 { type := 2, opcode := c.opcode, hseq := c.hseq } := if_pos h

/-- A denied command's state before its record: gone, its number taken unless it left a gap, a REPLAY's report. -/
def State.denying (s : State) (id : Nat) (c : Cmd) : State :=
  let s1 := s.setCmd id none
  let s2 := if c.refuse.getD 0 == 0x13 then s1 else s1.nextHseq c.func c.q
  if c.opcode == 0x31 then s2.replayUnchecked c.func (s2.replayExpect c.func) else s2

theorem State.turnAway_deny (s : State) (id : Nat) {c : Cmd} (h : c.dup = false) :
    s.turnAway id c = (s.denying id c).post c.func c.q 2
      { type := 1, status := 0x11, opcode := c.opcode, hseq := c.hseq, endTick := s.tick, detail := c.refuse.getD 0 } := if_neg (by simp [h])

theorem State.denying_facts (s : State) (id : Nat) (c : Cmd) (hq : c.q < 64) :
    RegsOnly (s.setCmd id none) (s.denying id c) ∧ RegsBut [queueReg c.func c.q 0x30, bar0 c.func 0xA230] s (s.denying id c) ∧
      (s.denying id c).reg (queueReg c.func c.q 0x30) = (if c.refuse.getD 0 = 0x13 then s.reg (queueReg c.func c.q 0x30)
        else (s.reg (queueReg c.func c.q 0x30) + 1) % 2 ^ 32) ∧
      (c.opcode ≠ 0x31 → (s.denying id c).reg (bar0 c.func 0xA230) = s.reg (bar0 c.func 0xA230)) := by
  have hne : bar0 c.func 0xA230 ≠ queueReg c.func c.q 0x30 := by unfold queueReg bar0; omega
  have h2 : RegsOnly (s.setCmd id none) (if c.refuse.getD 0 == 0x13 then s.setCmd id none else (s.setCmd id none).nextHseq c.func c.q) ∧
      RegsBut [queueReg c.func c.q 0x30] s (if c.refuse.getD 0 == 0x13 then s.setCmd id none else (s.setCmd id none).nextHseq c.func c.q) ∧
      State.reg (if c.refuse.getD 0 == 0x13 then s.setCmd id none else (s.setCmd id none).nextHseq c.func c.q) (queueReg c.func c.q 0x30) =
        (if c.refuse.getD 0 = 0x13 then s.reg (queueReg c.func c.q 0x30) else (s.reg (queueReg c.func c.q 0x30) + 1) % 2 ^ 32) := by
    by_cases h : c.refuse.getD 0 = 0x13
    · rw [if_pos (by simpa using h), if_pos h]
      exact ⟨rfl, fun _ _ => rfl, rfl⟩
    · rw [if_neg (by simpa using h), if_neg h]
      exact ⟨rfl, regsBut_setReg _ (fun _ _ => rfl) (by simp), State.reg_setReg_same _ _ _⟩
  have hdef : s.denying id c = if c.opcode == 0x31 then
      (if c.refuse.getD 0 == 0x13 then s.setCmd id none else (s.setCmd id none).nextHseq c.func c.q).replayUnchecked c.func
        ((if c.refuse.getD 0 == 0x13 then s.setCmd id none else (s.setCmd id none).nextHseq c.func c.q).replayExpect c.func)
      else if c.refuse.getD 0 == 0x13 then s.setCmd id none else (s.setCmd id none).nextHseq c.func c.q := rfl
  rw [hdef]
  generalize (if c.refuse.getD 0 == 0x13 then s.setCmd id none else (s.setCmd id none).nextHseq c.func c.q) = u at h2 ⊢
  obtain ⟨honly, hregs, hval⟩ := h2
  by_cases h31 : c.opcode = 0x31
  · rw [if_pos (by simpa using h31)]
    exact ⟨regsOnly_trans honly (regsOnly_setReg u _ _), regsBut_setReg _ (regsBut_mono hregs (by simp)) (by simp),
      (State.reg_setReg_other u _ hne).trans hval, fun h => absurd h31 h⟩
  · rw [if_neg (by simpa using h31)]
    exact ⟨honly, regsBut_mono hregs (by simp), hval, fun _ => hregs _ (by simpa using hne)⟩

/-- What turning a command away with a reason leaves (R351). -/
theorem State.turnAway_facts {s : State} {f q id : Nat} {c : Cmd} (hf : c.func = f) (hq : c.q = q) (hq64 : q < 64) (hd : c.dup = false)
    (hc : s.canWrite f q = true) (hh : (s.queue f q).held = []) :
    (let u := s.turnAway id c
     let r := c.refuse.getD 0
     u.cmd id = none ∧
       u.mem = recorded s f q { type := 1, status := 0x11, opcode := c.opcode, hseq := c.hseq, endTick := s.tick, detail := r } ∧
       u.reg (queueReg f q 0x30) = (if r = 0x13 then s.reg (queueReg f q 0x30) else (s.reg (queueReg f q 0x30) + 1) % 2 ^ 32) ∧
       RegsBut [queueReg f q 0x24, queueReg f q 0x30, bar0 f 0xA230] s u ∧ (c.opcode ≠ 0x31 → u.reg (bar0 f 0xA230) = s.reg (bar0 f 0xA230)) ∧
       u.cp = s.cp) := by
  subst hf hq
  obtain ⟨honly, hregs, h30, h31⟩ := s.denying_facts id c hq64
  have hqueue : (s.denying id c).queue c.func c.q = s.queue c.func c.q := queue_of_queues ((congrArg State.queues honly).trans rfl) _ _
  have hcp : (s.denying id c).cp = s.cp := (congrArg State.cp honly).trans rfl
  have hcan : (s.denying id c).canWrite c.func c.q = true := (canWrite_of hqueue (congrArg (·.d3hot) hcp)).trans hc
  have hne24 : queueReg c.func c.q 0x24 ∉ [queueReg c.func c.q 0x30, bar0 c.func 0xA230] := by
    simp only [List.mem_cons, List.not_mem_nil, or_false, queueReg, bar0]
    omega
  have hpost := (s.denying id c).post_only c.func c.q 2
    { type := 1, status := 0x11, opcode := c.opcode, hseq := c.hseq, endTick := s.tick, detail := c.refuse.getD 0 }
  have hfree := (s.denying id c).post_free 2
    (r := { type := 1, status := 0x11, opcode := c.opcode, hseq := c.hseq, endTick := s.tick, detail := c.refuse.getD 0 })
    hcan (by rw [hqueue, hh]) rfl
  have hmem := (s.denying id c).post_mem 2
    { type := 1, status := 0x11, opcode := c.opcode, hseq := c.hseq, endTick := s.tick, detail := c.refuse.getD 0 } hcan (by rw [hqueue, hh])
  dsimp only
  rw [State.turnAway_deny s id hd]
  refine ⟨?_, hmem.trans (recorded_congr _ ((congrArg State.mem honly).trans rfl) hqueue (hregs _ hne24)), ?_, ?_, fun h => ?_, hpost.cp.trans hcp⟩
  · exact (cmd_of_cmds (hpost.cmds.trans ((congrArg State.cmds honly).trans rfl)) id).trans (s.cmd_setCmd_same id none)
  · rw [hfree _ (by simpa using queueReg_ne c.func c.q (by decide)), h30]
  · exact regsBut_trans (regsBut_mono hregs (by simp)) (regsBut_mono hfree (by simp))
  · rw [hfree _ (by simp only [List.mem_singleton, queueReg, bar0]; omega), h31 h]

/-! ### Acceptance (R357) -/

/-- An accepted command under its journal number. -/
def State.numbered (s : State) (id : Nat) (c : Cmd) : State :=
  let s1 := (s.setCmd id none).setCmd s.cp.nextId (some { c with accepted := some s.tick })
  { s1 with cp := { s1.cp with nextId := s.cp.nextId + 1 } }

/-- The counts of an acceptance in queue q of function f. -/
def State.acceptCounted (s : State) (f q : Nat) : State :=
  (((s.nextHseq f q).noteAccept.tally 11 0 1 1).count (cpReg 0x10) 1).count (cpReg 0x0C) 1

/-- The state of an acceptance before its record. -/
def State.accepting (s : State) (id : Nat) (c : Cmd) : State := (s.numbered id c).acceptCounted c.func c.q

theorem State.noteAccept_facts (s : State) : s.noteAccept = { s with cp := { s.cp with accepts := s.noteAccept.cp.accepts } } := rfl

theorem State.acceptCounted_facts (s : State) (f q : Nat) :
    s.acceptCounted f q = { s with
      cp := { s.cp with accepts := (s.acceptCounted f q).cp.accepts }
      obs := (s.acceptCounted f q).obs
      regs := (s.acceptCounted f q).regs } := by
  have h : RegsOnly ((s.nextHseq f q).noteAccept.tally 11 0 1 1) (s.acceptCounted f q) :=
    regsOnly_trans (regsOnly_setReg _ _ _) (regsOnly_setReg _ _ _)
  unfold RegsOnly at h
  rw [h, State.noteAccept_facts]
  rfl

theorem State.acceptCounted_regs (s : State) (f q : Nat) :
    RegsBut [queueReg f q 0x30, cpReg 0x0C, cpReg 0x10] s (s.acceptCounted f q) ∧
      (s.acceptCounted f q).reg (queueReg f q 0x30) = (s.reg (queueReg f q 0x30) + 1) % 2 ^ 32 := by
  have h0 : RegsBut [queueReg f q 0x30] s ((s.nextHseq f q).noteAccept.tally 11 0 1 1) :=
    regsBut_of_regs (regsBut_setReg (a := queueReg f q 0x30) (s.reg (queueReg f q 0x30) + 1) (regsBut_rfl _ s) (by simp)) rfl
  have h30 : ((s.nextHseq f q).noteAccept.tally 11 0 1 1).reg (queueReg f q 0x30) = (s.reg (queueReg f q 0x30) + 1) % 2 ^ 32 :=
    State.reg_setReg_same s _ _
  refine ⟨regsBut_count 1 (regsBut_count 1 (regsBut_mono h0 (by simp)) (by simp)) (by simp), ?_⟩
  refine (State.reg_setReg_other _ _ (cpReg_ne_queueReg _ _ _ _ (by norm_num))).trans ?_
  exact (State.reg_setReg_other _ _ (cpReg_ne_queueReg _ _ _ _ (by norm_num))).trans h30

/-- The record of an acceptance. -/
def State.acceptRec (s : State) (c : Cmd) : Rec := { type := 0, owed := true, opcode := c.opcode, hseq := c.hseq, tick := s.tick }

theorem State.numbered_facts (s : State) {id : Nat} (c : Cmd) (hid : id ≠ s.cp.nextId) :
    (s.numbered id c).cmd s.cp.nextId = some { c with accepted := some s.tick } ∧ (s.numbered id c).cmd id = none ∧
      ∀ j, j ≠ s.cp.nextId → j ≠ id → (s.numbered id c).cmd j = s.cmd j := by
  have h : (s.numbered id c).cmds = ((s.setCmd id none).setCmd s.cp.nextId (some { c with accepted := some s.tick })).cmds := rfl
  refine ⟨(cmd_of_cmds h _).trans (State.cmd_setCmd_same _ _ _), ?_, fun j hn hj => ?_⟩
  · exact (cmd_of_cmds h _).trans ((State.cmd_setCmd_other (s.setCmd id none) _ hid.symm).trans (State.cmd_setCmd_same s id none))
  · exact (cmd_of_cmds h _).trans ((State.cmd_setCmd_other (s.setCmd id none) _ hn.symm).trans (State.cmd_setCmd_other s none hj.symm))

theorem State.accepting_facts (s : State) (id : Nat) (c : Cmd) :
    (s.accepting id c).cmds = (s.numbered id c).cmds ∧ (s.accepting id c).cp.nextId = s.cp.nextId + 1 ∧
      (s.accepting id c).cp.d3hot = s.cp.d3hot ∧ (s.accepting id c).queues = s.queues ∧ (s.accepting id c).mem = s.mem ∧
      (s.accepting id c).held = s.held ∧ (s.accepting id c).colls = s.colls := by
  have h := (s.numbered id c).acceptCounted_facts c.func c.q
  exact ⟨(congrArg State.cmds h).trans rfl, (congrArg (fun u => u.cp.nextId) h).trans rfl, (congrArg (fun u => u.cp.d3hot) h).trans rfl,
    (congrArg State.queues h).trans rfl, (congrArg State.mem h).trans rfl, (congrArg State.held h).trans rfl, (congrArg State.colls h).trans rfl⟩

theorem State.accepting_regs (s : State) (id : Nat) (c : Cmd) :
    RegsBut [queueReg c.func c.q 0x30, cpReg 0x0C, cpReg 0x10] s (s.accepting id c) ∧
      (s.accepting id c).reg (queueReg c.func c.q 0x30) = (s.reg (queueReg c.func c.q 0x30) + 1) % 2 ^ 32 := by
  obtain ⟨hregs, h30⟩ := (s.numbered id c).acceptCounted_regs c.func c.q
  exact ⟨fun b hb => (hregs b hb).trans rfl, h30⟩

theorem State.accept_plain {s : State} {id : Nat} {c : Cmd} (hg : ∀ g, g ∈ s.colls.gates → g.1 ≠ c.func ∨ g.2.1 ≠ c.q)
    (hr : s.cp.released.contains c.func = false) :
    s.accept id c = (s.accepting id c).post c.func c.q 1 (s.acceptRec c) := by
  have hcolls : ((s.accepting id c).post c.func c.q 1 (s.acceptRec c)).colls.gates = s.colls.gates :=
    congrArg (·.gates) ((((s.accepting id c).post_only c.func c.q 1 (s.acceptRec c)).colls).trans (s.accepting_facts id c).2.2.2.2.2.2)
  have hnone : lfind (fun g => g.1 == c.func && g.2.1 == c.q) ((s.accepting id c).post c.func c.q 1 (s.acceptRec c)).colls.gates 0 = none := by
    rw [hcolls]
    refine lfind_none _ _ _ fun g hm => ?_
    obtain h | h := hg g hm <;> simp [h]
  unfold State.accept
  dsimp only
  rw [if_neg (by simpa using hr)]
  split
  next i hi => exact absurd (hi.symm.trans hnone) (by simp)
  next => rfl

/-- What an ACCEPT record's write does to the registers. -/
theorem State.post_accept (s : State) {f q : Nat} {r : Rec} (hc : s.canWrite f q = true) (hh : (s.queue f q).held = [])
    (ho : r.owed = true) (ht : r.type = 0) :
    (s.post f q 1 r).reg (queueReg f q 0x34) = (s.reg (queueReg f q 0x34) + 1) % 2 ^ 32 ∧
      (s.post f q 1 r).reg (queueReg f q 0x24) = (s.field (queueReg f q 0x24) 0 17 + 1) % 2 ^ (s.queue f q).cqLog % 2 ^ 32 ∧
      RegsBut [queueReg f q 0x24, queueReg f q 0x34, bar0 f 0x1008] s (s.post f q 1 r) := by
  have hput : RegsBut [queueReg f q 0x24] s ((s.freed f q 1).recordPut f q r) :=
    regsBut_setReg (s := s) (u := { s.freed f q 1 with mem := recorded (s.freed f q 1) f q r }) _ (fun _ _ => rfl) (by simp)
  obtain ⟨h34, hmirror⟩ := ((s.freed f q 1).recordPut f q r).mirrorRec_accept f q ho ht
  have hregs : ((s.freed f q 1).writeRecord f q r).regs = (((s.freed f q 1).recordPut f q r).mirrorRec f q r true).regs := by
    rw [State.writeRecord_eq]
    rfl
  rw [State.post_written s 1 r hc hh]
  refine ⟨?_, ?_, ?_⟩
  · rw [State.reg_congr hregs, h34, hput _ (by simpa using queueReg_ne f q (by decide))]
  · rw [State.writeRecord_tail, State.freed_queue]
    rfl
  · exact regsBut_of_regs (regsBut_trans (regsBut_mono hput (by simp)) (regsBut_mono hmirror (by simp))) hregs

end Sys2Proof.Machine

namespace Sys2Proof.Proofs

open Sys2Proof.Machine Sys2Proof.Claims

/-- Settles O36, by the four ends of a fetched command. -/
theorem fetchAndAccept : Obligations.FetchAndAccept := by
  unfold Obligations.FetchAndAccept
  intro s f q id c cells hf hq hh s1 n head size tail
  refine ⟨fun h => ?_, fun h hfree hnone hread hd hr => ?_, fun h => ?_, fun hone hd hcan hheld => ⟨fun hr hcal hrel hid hg => ?_, fun r hr => ?_⟩,
    fun hone hd hcan hheld => ?_⟩
  · rw [exec_fetchRound cells hh, show (s.hostCells cells).fetchable = [] from h]
    rfl
  · have hcan : s1.canFetch f q = true := by
      have hin : (f, q) ∈ s1.fetchable := by rw [h]; exact List.mem_cons_self
      exact (List.mem_filter.mp hin).2
    have hcmd : s1.readCommand f q (s1.field (queueReg f q 0x10) 0 16) = c := hread
    have hx : exec (.fetchRound cells) s = .next (s1.fetching f q c) := by
      rw [exec_fetchRound cells hh, show (s.hostCells cells).fetchable = [(f, q)] from h]
      refine congrArg Host.Outcome.next ((State.fetchOne_eq hcan hfree).trans ?_)
      rw [hcmd]
      refine State.consumeRefused_one fun x hx => ?_
      rw [State.fetching_fetched (s := s1) hnone x hx]
      exact ⟨hd, hr⟩
    obtain ⟨hcmds, hcp, h10, hqueue, hmem, hregs⟩ := s1.fetching_facts f q c
    exact ⟨_, hx, (cmd_of_cmds (s := s.setCmd n (some c)) hcmds n).trans (s.cmd_setCmd_same n _), hcp, h10, hqueue, hmem, hregs,
      fun j hj => (cmd_of_cmds (s := s.setCmd n (some c)) hcmds j).trans (s.cmd_setCmd_other _ hj.symm)⟩
  · exact (exec_commandAccept hf hq hh).trans (congrArg Host.Outcome.next (State.acceptNext_nil h))
  · obtain ⟨_, hcf, hcq, _⟩ := State.mem_fetched.mp (show (id, c) ∈ s.fetched f q by rw [hone]; exact List.mem_cons_self)
    subst hcf hcq
    have hx := (exec_commandAccept hf hq hh).trans (congrArg Host.Outcome.next ((State.acceptNext_one hone).trans
      ((if_neg (by simp [hd, hr])).trans ((if_neg (by simp [hcal])).trans (State.accept_plain hg hrel)))))
    obtain ⟨hnew, hold, hothers⟩ := s.numbered_facts c hid
    obtain ⟨hcmds, hnext, hd3, hqs, hmem, hheld', _⟩ := s.accepting_facts id c
    obtain ⟨hregs, h30⟩ := s.accepting_regs id c
    have hqueue := queue_of_queues hqs c.func c.q
    have hcan' := (canWrite_of hqueue hd3).trans hcan
    have hheld0 : ((s.accepting id c).queue c.func c.q).held = [] := by rw [hqueue, hheld]
    obtain ⟨h34, h24, hpost⟩ := (s.accepting id c).post_accept (r := s.acceptRec c) hcan' hheld0 rfl rfl
    have honly := (s.accepting id c).post_only c.func c.q 1 (s.acceptRec c)
    have hcp : cpReg 0x0C ≠ queueReg c.func c.q 0x34 ∧ cpReg 0x10 ≠ queueReg c.func c.q 0x34 ∧ cpReg 0x0C ≠ queueReg c.func c.q 0x24 ∧
        cpReg 0x10 ≠ queueReg c.func c.q 0x24 :=
      ⟨cpReg_ne_queueReg _ _ _ _ (by norm_num), cpReg_ne_queueReg _ _ _ _ (by norm_num), cpReg_ne_queueReg _ _ _ _ (by norm_num),
        cpReg_ne_queueReg _ _ _ _ (by norm_num)⟩
    have hnot34 : queueReg c.func c.q 0x34 ∉ [queueReg c.func c.q 0x30, cpReg 0x0C, cpReg 0x10] := by
      simp [queueReg_ne c.func c.q (show 0x34 ≠ 0x30 by decide), hcp.1.symm, hcp.2.1.symm]
    have hnot24 : queueReg c.func c.q 0x24 ∉ [queueReg c.func c.q 0x30, cpReg 0x0C, cpReg 0x10] := by
      simp [queueReg_ne c.func c.q (show 0x24 ≠ 0x30 by decide), hcp.2.2.1.symm, hcp.2.2.2.symm]
    refine ⟨_, hx, (cmd_of_cmds (honly.cmds.trans hcmds) _).trans hnew,
      (cmd_of_cmds (honly.cmds.trans hcmds) _).trans hold, (congrArg (·.nextId) honly.cp).trans hnext, ?_, ?_,
      ?_, ?_, honly.held.trans hheld', ?_, fun j hn hj => (cmd_of_cmds (honly.cmds.trans hcmds) _).trans (hothers j hn hj)⟩
    · exact (State.post_mem _ 1 (s.acceptRec c) hcan' hheld0).trans (recorded_congr _ hmem hqueue (hregs _ hnot24))
    · refine (hpost _ ?_).trans h30
      simp only [List.mem_cons, List.not_mem_nil, or_false, queueReg, bar0]
      omega
    · rw [h34, hregs _ hnot34]
    · rw [h24, State.field_congr (hregs _ hnot24), hqueue]
    · exact regsBut_trans (regsBut_mono hregs (by simp)) (regsBut_mono hpost (by simp))
  · obtain ⟨_, hcf, hcq, _⟩ := State.mem_fetched.mp (show (id, c) ∈ s.fetched f q by rw [hone]; exact List.mem_cons_self)
    obtain hr | ⟨hr, hcal, rfl⟩ := hr
    · have hx := (exec_commandAccept hf hq hh).trans (congrArg Host.Outcome.next ((State.acceptNext_one hone).trans (if_pos (by simp [hr]))))
      have hfacts := State.turnAway_facts (id := id) hcf hcq hq hd hcan hheld
      simp only [hr, Option.getD_some] at hfacts
      exact ⟨_, hx, hfacts⟩
    · have hx := (exec_commandAccept hf hq hh).trans (congrArg Host.Outcome.next ((State.acceptNext_one hone).trans
        ((if_neg (by simp [hd, hr])).trans (if_pos hcal))))
      exact ⟨_, hx, State.turnAway_facts (id := id) (c := { c with refuse := some 0x15 }) hcf hcq hq hd hcan hheld⟩
  · obtain ⟨_, hcf, hcq, _⟩ := State.mem_fetched.mp (show (id, c) ∈ s.fetched f q by rw [hone]; exact List.mem_cons_self)
    subst hcf hcq
    have hx := (exec_commandAccept hf hq hh).trans (congrArg Host.Outcome.next ((State.acceptNext_one hone).trans
      ((if_pos (by simp [hd])).trans (s.turnAway_dup id hd))))
    have honly := (s.setCmd id none).post_only c.func c.q 2 { type := 2, opcode := c.opcode, hseq := c.hseq }
    refine ⟨_, hx, (cmd_of_cmds honly.cmds _).trans (s.cmd_setCmd_same id none), ?_, ?_, honly.cp⟩
    · exact State.post_mem (s.setCmd id none) 2 { type := 2, opcode := c.opcode, hseq := c.hseq } hcan hheld
    · exact otherRegs_of_regsBut (State.post_free (s.setCmd id none) 2 (r := { type := 2, opcode := c.opcode, hseq := c.hseq }) hcan hheld rfl)

end Sys2Proof.Proofs
end

section
/-! PROOFS. Admission: the marks it leaves, the frame that takes up a span, and how a command that is refused or skipped
completes (R360, R362, R395). -/

namespace Sys2Proof.Machine

open Sys2Proof.Claims

/-! ### Changes of a command that keep its admission -/

/-- When command id was admitted and whether it is to be skipped, where it exists. -/
def State.cmdMark (s : State) (id : Nat) : Option (Option Nat × Bool) := (s.cmd id).map fun c => (c.admitted, c.skipped)

theorem State.cmd_modCmd (s : State) (id j : Nat) (g : Cmd → Cmd) : (s.modCmd id g).cmd j = if j = id then (s.cmd id).map g else s.cmd j := by
  unfold State.modCmd
  split
  next h =>
    split
    next hj => rw [hj, h]; rfl
    next => rfl
  next c h =>
    split
    next hj => rw [hj, State.cmd_setCmd_same, h]; rfl
    next hj => exact State.cmd_setCmd_other s _ (Ne.symm hj)

theorem State.cmdMark_modCmd (s : State) (id j : Nat) {g : Cmd → Cmd} (hg : ∀ c, ((g c).admitted, (g c).skipped) = (c.admitted, c.skipped)) :
    (s.modCmd id g).cmdMark j = s.cmdMark j := by
  unfold State.cmdMark
  rw [State.cmd_modCmd]
  split
  next hj =>
    rw [hj, Option.map_map]
    exact Option.map_congr fun c _ => hg c
  next => rfl

theorem cmdMark_of_cmds {s u : State} (h : u.cmds = s.cmds) (id : Nat) : u.cmdMark id = s.cmdMark id :=
  congrArg (Option.map _) (cmd_of_cmds h id)

theorem cmd_none_of_mark {s u : State} {id : Nat} (h : u.cmdMark id = s.cmdMark id) (hn : s.cmd id = none) : u.cmd id = none := by
  unfold State.cmdMark at h
  rwa [hn, Option.map_none, Option.map_eq_none_iff] at h

theorem admitted_of_mark {s u : State} {id : Nat} {c : Cmd} (h : u.cmdMark id = s.cmdMark id) (hc : s.cmd id = some c) :
    ∃ d, u.cmd id = some d ∧ d.admitted = c.admitted := by
  unfold State.cmdMark at h
  rw [hc] at h
  obtain ⟨d, hd, he⟩ := Option.map_eq_some_iff.mp h
  exact ⟨d, hd, congrArg Prod.fst he⟩

theorem skipped_of_mark {s u : State} {id : Nat} (h : u.cmdMark id = s.cmdMark id) {d : Cmd} (hd : u.cmd id = some d) :
    ∃ c, s.cmd id = some c ∧ d.skipped = c.skipped := by
  unfold State.cmdMark at h
  rw [hd] at h
  obtain ⟨c, hc, he⟩ := Option.map_eq_some_iff.mp h.symm
  exact ⟨c, hc, (congrArg Prod.snd he).symm⟩

/-! ### The frame that takes up a span (R295) -/

/-- What a frame that takes up a span leaves as it was: it changes frames, counts of the commands' frames, and starts layer copies. -/
def DressOnly (s u : State) : Prop :=
  u = { s with parts := u.parts, cmds := u.cmds, regs := u.regs, obs := u.obs, tiers := { s.tiers with copies := u.tiers.copies } } ∧
    (∀ p, (u.part p).run = (s.part p).run) ∧ RegsBut [obsReg 0x408, obsReg 0x518] s u ∧ (∀ id, u.cmdMark id = s.cmdMark id) ∧
    ∀ id, id < 2 ^ 40 → u.copyRun id = s.copyRun id

theorem dressOnly_rfl (s : State) : DressOnly s s := ⟨rfl, fun _ => rfl, regsBut_rfl _ s, fun _ => rfl, fun _ _ => rfl⟩

theorem dressOnly_trans {s u w : State} (h : DressOnly s u) (h2 : DressOnly u w) : DressOnly s w := by
  obtain ⟨honly, hrun, hregs, hmark, hcopy⟩ := h
  obtain ⟨honly', hrun', hregs', hmark', hcopy'⟩ := h2
  refine ⟨?_, fun p => (hrun' p).trans (hrun p), regsBut_trans hregs hregs', fun id => (hmark' id).trans (hmark id),
    fun id h => (hcopy' id h).trans (hcopy id h)⟩
  rw [honly', honly]

theorem dressOnly_modCmd (s : State) (id : Nat) {g : Cmd → Cmd} (hg : ∀ c, ((g c).admitted, (g c).skipped) = (c.admitted, c.skipped)) :
    DressOnly s (s.modCmd id g) := by
  have h := s.modCmd_only id g
  refine ⟨?_, fun p => congrArg Part.run ((congrArg (fun u => State.part u p) h).trans rfl), ?_, fun j => s.cmdMark_modCmd id j hg,
    fun j _ => (congrArg (fun u => State.copyRun u j) h).trans rfl⟩
  · rw [h]
  · exact regsBut_of_regs (regsBut_rfl _ s) ((congrArg State.regs h).trans rfl)

theorem dressOnly_trace (s : State) (type func arg0 arg1 : Nat) : DressOnly s (s.trace type func arg0 arg1) := by
  have h := s.trace_only type func arg0 arg1
  refine ⟨?_, fun p => congrArg Part.run ((congrArg (fun u => State.part u p) h).trans rfl), regsBut_trace s type func arg0 arg1,
    cmdMark_of_cmds ((congrArg State.cmds h).trans rfl), fun j _ => (congrArg (fun u => State.copyRun u j) h).trans rfl⟩
  rw [h]

theorem dressOnly_noteFailed (s : State) (r : CopyRun) : DressOnly s (s.noteFailed r) := by
  unfold State.noteFailed
  have h := List.foldlRecOn (motive := fun u => DressOnly s u) r.failed
    (fun s x => s.trace 4 r.func (3 + 2 ^ 8 * x.2.1 + 2 ^ 16 * min x.2.2 65535) x.1) (dressOnly_rfl s)
    fun u hu x _ => dressOnly_trans hu (dressOnly_trace u _ _ _ _)
  dsimp only
  split
  · exact h
  · exact dressOnly_trans h (dressOnly_modCmd _ _ fun _ => rfl)

theorem dressOnly_putCopy (s : State) {id : Nat} (r : CopyRun) (h : 2 ^ 40 ≤ id) : DressOnly s (s.putCopy id r) := by
  have h1 : DressOnly s (s.setCopy id (some r)) :=
    ⟨rfl, fun _ => rfl, fun _ _ => rfl, fun _ => rfl, fun j hj => kget_kset_other (i := id) (j := j) none s.tiers.copies (some r) (by omega)⟩
  unfold State.putCopy
  exact iteInduction (fun _ => dressOnly_trans h1 (dressOnly_noteFailed _ r)) fun _ => h1

theorem dressOnly_startLayers (s : State) (p id k : Nat) : DressOnly s (s.startLayers p id k) := by
  unfold State.startLayers
  split
  · exact dressOnly_rfl s
  · refine iteInduction (fun _ => dressOnly_rfl s) fun _ => ?_
    refine List.foldlRecOn (motive := fun u => DressOnly s u) _ _ (dressOnly_rfl s) fun u hu i _ => ?_
    dsimp only
    split
    · refine iteInduction (fun _ => hu) fun _ => dressOnly_trans hu (dressOnly_putCopy _ _ ?_)
      unfold layerCopyId
      omega
    · exact hu

theorem dressOnly_modPart (s : State) (p : Nat) {g : Part → Part} (hg : ∀ x, (g x).run = x.run) : DressOnly s (s.modPart p g) := by
  refine ⟨rfl, fun q => ?_, fun _ _ => rfl, fun _ => rfl, fun _ _ => rfl⟩
  by_cases h : p = q
  · rw [← h, State.part_modPart_same, hg]
  · rw [State.part_modPart_other s g h]

theorem dressOnly_openedBy (s : State) (id ord : Nat) : DressOnly s (s.openedBy id ord) := dressOnly_modCmd s id fun _ => rfl

theorem dressOnly_dressFrame (s : State) (p : Nat) : DressOnly s (s.dressFrame p) := by
  unfold State.dressFrame
  dsimp only
  split
  · refine iteInduction (fun _ => dressOnly_rfl s) fun _ => ?_
    split
    · exact dressOnly_rfl s
    · refine iteInduction (fun _ => dressOnly_rfl s) fun _ => ?_
      refine List.foldlRecOn (motive := fun u => DressOnly s u) _ _ ?_ fun u hu y _ => ?_
      · refine dressOnly_trans (dressOnly_trans (dressOnly_modPart s p fun _ => ?_) (dressOnly_openedBy _ _ _)) (dressOnly_startLayers _ p _ _)
        rfl
      · exact dressOnly_trans hu (dressOnly_trans (dressOnly_openedBy u _ _) (dressOnly_startLayers _ p _ _))
  · exact dressOnly_rfl s

/-- The frames of every partition take up what was admitted. -/
def State.dressAll (s : State) : State := (List.range 8).foldl State.dressFrame s

theorem dressOnly_dressAll (s : State) : DressOnly s s.dressAll :=
  List.foldlRecOn (motive := fun u => DressOnly s u) _ _ (dressOnly_rfl s) fun u hu p _ => dressOnly_trans hu (dressOnly_dressFrame u p)

theorem DressOnly.mem {s u : State} (h : DressOnly s u) : u.mem = s.mem := (congrArg State.mem h.1).trans rfl
theorem DressOnly.held {s u : State} (h : DressOnly s u) : u.held = s.held := (congrArg State.held h.1).trans rfl
theorem DressOnly.events {s u : State} (h : DressOnly s u) : u.events = s.events := (congrArg State.events h.1).trans rfl
theorem DressOnly.cp {s u : State} (h : DressOnly s u) : u.cp = s.cp := (congrArg State.cp h.1).trans rfl
theorem DressOnly.links {s u : State} (h : DressOnly s u) : u.links = s.links := (congrArg State.links h.1).trans rfl
theorem DressOnly.colls {s u : State} (h : DressOnly s u) : u.colls = s.colls := (congrArg State.colls h.1).trans rfl
theorem DressOnly.ckpts {s u : State} (h : DressOnly s u) : u.ckpts = s.ckpts := (congrArg State.ckpts h.1).trans rfl
theorem DressOnly.replays {s u : State} (h : DressOnly s u) : u.replays = s.replays := (congrArg State.replays h.1).trans rfl
theorem DressOnly.core {s u : State} (h : DressOnly s u) (c : Nat) : u.core c = s.core c :=
  (congrArg (fun u => State.core u c) h.1).trans rfl

/-! ### The marks of an admission (R290, R360) -/

/-- The marks of an admission of command c. -/
def State.admitMarks (s : State) (c : Cmd) : Cmd → Cmd := fun d =>
  let p := (s.funcPart c.func).filter fun _ => c.isSpan
  { d with
    admitted := some s.tick, late := d.calEn && decide (d.calends < s.tick), pages := s.namedPages c
    startAcc := if p.isSome then s.reg (bar0 d.func 0xA100) else 0
    startIsrs := p.elim [] s.partIsrs
    startColls := p.elim [] s.partColls }

/-- A command as its admission marks it. -/
def State.asAdmitted (s : State) (c : Cmd) : Cmd := s.admitMarks c c

/-- What an admission's marks leave as it was, beside the commands. -/
def NoteOnly (s u : State) : Prop :=
  u = { s with
    cmds := u.cmds
    free := u.free
    obs := u.obs
    regs := u.regs
    tiers := { s.tiers with pages := u.tiers.pages }
    cp := { s.cp with admittedNow := u.cp.admittedNow } } ∧ RegsBut [cpReg 0x14, obsReg 0x408, obsReg 0x518] s u

theorem noteOnly_trans {s u w : State} (h : NoteOnly s u) (h2 : NoteOnly u w) : NoteOnly s w := by
  obtain ⟨honly, hregs⟩ := h
  obtain ⟨honly', hregs'⟩ := h2
  refine ⟨?_, regsBut_trans hregs hregs'⟩
  rw [honly', honly]

/-- The ages of the pages that a command names. -/
def State.agePages (s : State) (c : Cmd) (pages : List Nat) : State :=
  pages.foldl (fun s k =>
    match s.page c.func (bitOf k 31) (k % 2 ^ 31) with
    | some p => s.setPage c.func (bitOf k 31) (k % 2 ^ 31) (some { p with age := s.tick })
    | none => s) s

/-- The first admission ends the start-up's count of stalls. -/
def State.stallsDone (s : State) : State := if s.obs.admitted then s else s.countStalls

/-- The counts of an admission and its trace record. -/
def State.admitCounted (s : State) (c : Cmd) : State :=
  let s3 := { s with cp := { s.cp with admittedNow := s.cp.admittedNow + 1 }, obs := { s.obs with admitted := true } }
  ((s3.tally 11 0 2 1).count (cpReg 0x14) 1).trace 1 c.func (c.q % 64 + 2 ^ 6 * c.opcode) c.hseq

theorem State.noteAdmitted_marks (s : State) (id : Nat) (c : Cmd) :
    s.noteAdmitted id c = (((s.modCmd id (s.admitMarks c)).agePages c (s.namedPages c)).stallsDone).admitCounted c := rfl

theorem State.noteAdmitted_eq {s : State} {id : Nat} {c : Cmd} (h : s.cmd id = some c) :
    s.noteAdmitted id c = (((s.setCmd id (some (s.asAdmitted c))).agePages c (s.namedPages c)).stallsDone).admitCounted c := by
  have hmod : s.modCmd id (s.admitMarks c) = s.setCmd id (some (s.asAdmitted c)) := by
    simp only [State.modCmd, h, State.asAdmitted]
  rw [State.noteAdmitted_marks, hmod]

theorem noteOnly_agePages (c : Cmd) (pages : List Nat) (s : State) : NoteOnly s (s.agePages c pages) ∧ (s.agePages c pages).cmds = s.cmds := by
  unfold State.agePages
  refine List.foldlRecOn (motive := fun u => NoteOnly s u ∧ u.cmds = s.cmds) _ _ ⟨⟨rfl, regsBut_rfl _ s⟩, rfl⟩ fun u hu k _ => ?_
  split
  · exact ⟨noteOnly_trans hu.1 ⟨rfl, fun _ _ => rfl⟩, hu.2⟩
  · exact hu

theorem noteOnly_stallsDone (s : State) : NoteOnly s s.stallsDone ∧ s.stallsDone.cmds = s.cmds := by
  unfold State.stallsDone State.countStalls
  split
  · exact ⟨⟨rfl, regsBut_rfl _ s⟩, rfl⟩
  · split <;> exact ⟨⟨rfl, fun _ _ => rfl⟩, rfl⟩

theorem noteOnly_trace (s : State) (type func arg0 arg1 : Nat) :
    NoteOnly s (s.trace type func arg0 arg1) ∧ (s.trace type func arg0 arg1).cmds = s.cmds := by
  have h := s.trace_only type func arg0 arg1
  refine ⟨⟨?_, regsBut_mono (regsBut_trace s type func arg0 arg1) (by simp)⟩, (congrArg State.cmds h).trans rfl⟩
  rw [h]

theorem noteOnly_admitCounted (s : State) (c : Cmd) : NoteOnly s (s.admitCounted c) ∧ (s.admitCounted c).cmds = s.cmds := by
  have h0 : NoteOnly s (State.count (State.tally { s with cp := { s.cp with admittedNow := s.cp.admittedNow + 1 }, obs := { s.obs with admitted := true } }
      11 0 2 1) (cpReg 0x14) 1) := ⟨rfl, regsBut_count 1 (fun _ _ => rfl) (by simp)⟩
  exact ⟨noteOnly_trans h0 (noteOnly_trace _ _ _ _ _).1, (noteOnly_trace _ _ _ _ _).2⟩

theorem State.noteAdmitted_facts {s : State} {id : Nat} {c : Cmd} (h : s.cmd id = some c) :
    NoteOnly s (s.noteAdmitted id c) ∧ (s.noteAdmitted id c).cmds = kset none s.cmds id (some (s.asAdmitted c)) := by
  rw [State.noteAdmitted_eq h]
  have h1 := noteOnly_agePages c (s.namedPages c) (s.setCmd id (some (s.asAdmitted c)))
  have h2 := noteOnly_stallsDone ((s.setCmd id (some (s.asAdmitted c))).agePages c (s.namedPages c))
  have h3 := noteOnly_admitCounted (((s.setCmd id (some (s.asAdmitted c))).agePages c (s.namedPages c)).stallsDone) c
  have h0 : NoteOnly s (s.setCmd id (some (s.asAdmitted c))) := ⟨rfl, fun _ _ => rfl⟩
  exact ⟨noteOnly_trans (noteOnly_trans (noteOnly_trans h0 h1.1) h2.1) h3.1, h3.2.trans (h2.2.trans h1.2)⟩

theorem NoteOnly.mem {s u : State} (h : NoteOnly s u) : u.mem = s.mem := (congrArg State.mem h.1).trans rfl
theorem NoteOnly.held {s u : State} (h : NoteOnly s u) : u.held = s.held := (congrArg State.held h.1).trans rfl
theorem NoteOnly.events {s u : State} (h : NoteOnly s u) : u.events = s.events := (congrArg State.events h.1).trans rfl
theorem NoteOnly.queues {s u : State} (h : NoteOnly s u) : u.queues = s.queues := (congrArg State.queues h.1).trans rfl
theorem NoteOnly.links {s u : State} (h : NoteOnly s u) : u.links = s.links := (congrArg State.links h.1).trans rfl
theorem NoteOnly.colls {s u : State} (h : NoteOnly s u) : u.colls = s.colls := (congrArg State.colls h.1).trans rfl
theorem NoteOnly.parts {s u : State} (h : NoteOnly s u) : u.parts = s.parts := (congrArg State.parts h.1).trans rfl
theorem NoteOnly.tick {s u : State} (h : NoteOnly s u) : u.tick = s.tick := (congrArg State.tick h.1).trans rfl
theorem NoteOnly.subtick {s u : State} (h : NoteOnly s u) : u.subtick = s.subtick := (congrArg State.subtick h.1).trans rfl
theorem NoteOnly.d3hot {s u : State} (h : NoteOnly s u) : u.cp.d3hot = s.cp.d3hot := (congrArg (fun u => u.cp.d3hot) h.1).trans rfl
theorem NoteOnly.setNow {s u : State} (h : NoteOnly s u) : u.cp.setNow = s.cp.setNow := (congrArg (fun u => u.cp.setNow) h.1).trans rfl

theorem NoteOnly.queueReg {s u : State} (h : NoteOnly s u) (f q a : Nat) : u.reg (queueReg f q a) = s.reg (queueReg f q a) :=
  h.2 _ (by simp only [List.mem_cons, List.not_mem_nil, or_false, Machine.queueReg, bar0, cpReg, obsReg]; omega)

theorem NoteOnly.bar0 {s u : State} (h : NoteOnly s u) (f a : Nat) : u.reg (bar0 f a) = s.reg (bar0 f a) :=
  h.2 _ (by simp only [List.mem_cons, List.not_mem_nil, or_false, Machine.bar0, cpReg, obsReg]; omega)

/-- The command as it stands after the marks of its admission. -/
theorem State.noteAdmitted_cmd {s : State} {id : Nat} {c : Cmd} (h : s.cmd id = some c) :
    (s.noteAdmitted id c).cmd id = some (s.asAdmitted c) :=
  (cmd_of_cmds (s := s.setCmd id (some (s.asAdmitted c))) (State.noteAdmitted_facts h).2 id).trans (s.cmd_setCmd_same id _)

/-! ### The rows (R360) -/

/-- Every row considers the head of its queue for its opcode. -/
theorem exec_commandRow {op f q : Nat} {i : Instr} (h : commandRow op f q = some i) (s : State) : exec i s = considerCommand op f q s := by
  unfold commandRow at h
  split at h
  any_goals
    obtain rfl := Option.some.inj h
    rfl
  exact absurd h (by simp)

theorem considerCommand_admits {s : State} {op f q id : Nat} {c : Cmd} (hf : f < 256) (hq : q < 64) (hh : s.halted = false)
    (hfind : (queueHeads [] s.cmds).find? (fun x => x.2.func == f && x.2.q == q) = some (id, c)) (hop : c.opcode = op)
    (hlim : s.cp.admittedNow < s.cp.admitLimit) (hadm : s.admissible id c = true) :
    considerCommand op f q s = .next (s.admitCmd id c).dressAll := by
  unfold considerCommand
  rw [if_neg (by simp [hf, hq]), if_neg (by simp [hh]), hfind]
  exact if_pos (by simp [hop, hlim, hadm])

/-- An admitted command's row runs its admission. -/
theorem exec_admitted {s : State} {f q id : Nat} {c : Cmd} {i : Instr} (h : Admits s f q id c i) :
    exec i s = .next (s.admitCmd id c).dressAll ∧ c.func = f ∧ c.q = q ∧ s.cmd id = some c ∧ c.admitted = none ∧ s.subtick ≤ 15 := by
  obtain ⟨hf, hq, hh, hrow, hfind, hcmd, hlim, hadm⟩ := h
  have hsel := List.find?_some hfind
  simp only [Bool.and_eq_true, beq_iff_eq] at hsel
  have hgates := hadm
  simp only [State.admissible, Bool.and_eq_true, decide_eq_true_eq, Option.isNone_iff_eq_none] at hgates
  refine ⟨(exec_commandRow hrow s).trans (considerCommand_admits hf hq hh hfind rfl hlim hadm), hsel.1, hsel.2, hcmd, ?_, ?_⟩
  · tauto
  · tauto

theorem considerCommand_not {s : State} {op f q id : Nat} {c : Cmd} (hf : f < 256) (hq : q < 64)
    (h : s.halted = true ∨ (queueHeads [] s.cmds).find? (fun x => x.2.func == f && x.2.q == q) = none ∨
      ((queueHeads [] s.cmds).find? (fun x => x.2.func == f && x.2.q == q) = some (id, c) ∧
        (c.opcode ≠ op ∨ s.cp.admitLimit ≤ s.cp.admittedNow ∨ s.admissible id c = false))) : considerCommand op f q s = .next s := by
  unfold considerCommand
  rw [if_neg (by simp [hf, hq])]
  obtain h | h | ⟨hfind, h⟩ := h
  · exact if_pos h
  · rw [h]
    exact ite_self _
  · rw [hfind]
    refine (if_congr Iff.rfl rfl (if_neg ?_)).trans (ite_self _)
    obtain h | h | h := h
    · simp [h]
    · simp [Nat.not_lt.mpr h]
    · simp [h]

/-! ### Refused and skipped commands (R351, R362, R363, R395) -/

theorem State.admitCmd_loadBad {s : State} {id r : Nat} {c : Cmd} (hs : c.skipped = false) (h : s.loadBad c = some r) :
    s.admitCmd id c = s.deny id r := by
  simp only [State.admitCmd, hs, h]
  rfl

theorem State.admitCmd_startBad {s : State} {id r : Nat} {c : Cmd} (hc : s.cmd id = some c) (hs : c.skipped = false) (hl : s.loadBad c = none)
    (h : s.startBad c = some r) : s.admitCmd id c = (s.noteAdmitted id c).deny id r := by
  have hs' : (s.asAdmitted c).skipped = false := hs
  simp only [State.admitCmd, hs, hl, State.noteAdmitted_cmd hc, hs', h]
  rfl

theorem State.admitCmd_skipped {s : State} {id : Nat} {c : Cmd} (hc : s.cmd id = some c) (hs : c.skipped = true) :
    s.admitCmd id c = (s.noteAdmitted id c).complete id (s.asAdmitted c).status (s.asAdmitted c).detail := by
  have hs' : (s.asAdmitted c).skipped = true := hs
  simp only [State.admitCmd, hs, State.noteAdmitted_cmd hc, hs', State.completeOwn]
  rfl

theorem State.admitCmd_started {s : State} {id : Nat} {c : Cmd} (hc : s.cmd id = some c) (hs : c.skipped = false) (h : s.admitBad c = none) :
    s.admitCmd id c = (s.noteAdmitted id c).startCmd id (s.asAdmitted c) := by
  have hs' : (s.asAdmitted c).skipped = false := hs
  have hl : s.loadBad c = none := by
    unfold State.admitBad at h
    cases hl : s.loadBad c with
    | none => rfl
    | some r => rw [hl] at h; exact absurd h (by simp)
  have hb : s.startBad c = none := by
    unfold State.admitBad at h
    rwa [hl] at h
  simp only [State.admitCmd, hs, hl, State.noteAdmitted_cmd hc, hs', hb]
  rfl

/-- The record of a command that completes right at its admission, in host memory. -/
theorem State.noted_complete_mem {s : State} {id : Nat} {c : Cmd} (hc : s.cmd id = some c) (status detail : Nat) (hq : c.q < 64)
    (hcan : s.canWrite c.func c.q = true) (hh : (s.queue c.func c.q).held = []) :
    ((s.noteAdmitted id c).complete id status detail).mem = recorded s c.func c.q
      { type := 1, status := status, opcode := c.opcode, hseq := c.hseq, tick := s.tick, endTick := s.tick, detail := detail } := by
  have hnote := (State.noteAdmitted_facts hc).1
  have hqueue := queue_of_queues hnote.queues c.func c.q
  have hm := (s.noteAdmitted id c).complete_mem status detail (State.noteAdmitted_cmd hc) hq ((canWrite_of hqueue hnote.d3hot).trans hcan)
    (by rw [show (s.asAdmitted c).func = c.func from rfl, show (s.asAdmitted c).q = c.q from rfl, hqueue, hh])
  refine hm.trans ((recorded_congr _ hnote.mem hqueue (hnote.queueReg c.func c.q 0x24)).trans ?_)
  unfold State.doneRec
  rw [hnote.tick]
  rfl

end Sys2Proof.Machine

namespace Sys2Proof.Proofs

open Sys2Proof.Machine Sys2Proof.Claims

/-- Settles O37, by the row's condition and the ends of a command that is refused or skipped. -/
theorem commandAdmission : Obligations.CommandAdmission := by
  unfold Obligations.CommandAdmission
  intro s f q id op c i
  refine ⟨fun hrow hf hq h => (exec_commandRow hrow s).trans (considerCommand_not hf hq h), fun hadm hcan hheld => ?_⟩
  obtain ⟨hx, rfl, rfl, hcmd, hnone, _⟩ := exec_admitted hadm
  obtain ⟨hf, hq, _⟩ := hadm
  have hnote := (State.noteAdmitted_facts hcmd).1
  refine ⟨fun r hs hbad => ?_, fun hs hfault humber => ?_⟩
  · cases hl : s.loadBad c with
    | some w =>
      obtain rfl : w = r := by
        unfold State.admitBad at hbad
        rw [hl] at hbad
        exact Option.some.inj hbad
      have hx := hx.trans (congrArg (fun u => Host.Outcome.next (State.dressAll u)) (State.admitCmd_loadBad (id := id) hs hl))
      have hd := dressOnly_dressAll (s.deny id w)
      refine ⟨_, hx, cmd_none_of_mark (hd.2.2.2.1 id) ((s.complete_cmd id 0x11 (w % 256) id).trans (if_pos rfl)),
        hd.held.trans (s.complete_only id 0x11 (w % 256)).held, fun hsig => ?_, hd.mem.trans ?_⟩
      · refine hd.events.trans ((s.complete_events 0x11 (w % 256) hcmd).trans (if_neg (by simp [hsig])))
      · refine (s.complete_mem 0x11 (w % 256) hcmd hq hcan hheld).trans ?_
        unfold State.doneRec
        rw [hnone]
        rfl
    | none =>
      have hb : s.startBad c = some r := by
        unfold State.admitBad at hbad
        rwa [hl] at hbad
      have hx := hx.trans (congrArg (fun u => Host.Outcome.next (State.dressAll u)) (State.admitCmd_startBad hcmd hs hl hb))
      have hd := dressOnly_dressAll ((s.noteAdmitted id c).deny id r)
      refine ⟨_, hx, cmd_none_of_mark (hd.2.2.2.1 id) ((State.complete_cmd _ id 0x11 (r % 256) id).trans (if_pos rfl)),
        hd.held.trans ((State.complete_only _ id 0x11 (r % 256)).held.trans hnote.held), fun hsig => ?_, hd.mem.trans ?_⟩
      · refine hd.events.trans ((State.complete_events _ 0x11 (r % 256) (State.noteAdmitted_cmd hcmd)).trans ((if_neg ?_).trans hnote.events))
        simp [show (s.asAdmitted c).sigAlways = false from hsig]
      · exact State.noted_complete_mem hcmd 0x11 (r % 256) hq hcan hheld
  · have hx := hx.trans (congrArg (fun u => Host.Outcome.next (State.dressAll u)) (State.admitCmd_skipped hcmd hs))
    have hd := dressOnly_dressAll ((s.noteAdmitted id c).complete id (s.asAdmitted c).status (s.asAdmitted c).detail)
    have hstatus : (s.asAdmitted c).status = 0x02 := by
      have hf' : (s.asAdmitted c).fault = none := hfault
      have hu' : (s.asAdmitted c).umber = none := humber
      have hs' : (s.asAdmitted c).skipped = true := hs
      simp [Cmd.status, hf', hu', hs']
    have hdetail : (s.asAdmitted c).detail = 0 := by
      have hf' : (s.asAdmitted c).fault = none := hfault
      have hu' : (s.asAdmitted c).umber = none := humber
      simp [Cmd.detail, hf', hu', hstatus]
    refine ⟨_, hx, cmd_none_of_mark (hd.2.2.2.1 id) ((State.complete_cmd _ id _ _ id).trans (if_pos rfl)),
      hd.held.trans ((State.complete_only _ id _ _).held.trans hnote.held), hd.mem.trans ?_⟩
    rw [hstatus, hdetail]
    exact State.noted_complete_mem hcmd 0x02 0 hq hcan hheld

end Sys2Proof.Proofs
end

section
/-! PROOFS. The commands that complete, or leave their change for the bank swap, at their admission: EVENT, FENCE, COMMIT_STEP,
WINDOW_OPEN, WINDOW_CLOSE (R320, R355, R356, R372, R395). -/

namespace Sys2Proof.Machine

open Sys2Proof.Claims

/-! ### Events (R356, R372) -/

theorem State.signal_events (s : State) (i e : Nat) (hw : s.subtick ≤ 15) :
    kget 0 (s.signal i).events e % 2 ^ 32 = (kget 0 s.events e + if i = e ∧ e ∉ s.cp.setNow then 1 else 0) % 2 ^ 32 := by
  unfold State.signal
  by_cases hset : i ∈ s.cp.setNow
  · rw [if_pos (by simp [hw, hset]), if_neg (by rintro ⟨rfl, h⟩; exact h hset), Nat.add_zero]
  · rw [if_neg (by simp [hset])]
    by_cases he : i = e
    · subst he
      rw [if_pos ⟨rfl, hset⟩]
      exact (congrArg (· % 2 ^ 32) (kget_kset_same 0 s.events i _)).trans (Nat.mod_mod _ _)
    · rw [if_neg (fun h => he h.1), Nat.add_zero]
      exact congrArg (· % 2 ^ 32) (kget_kset_other 0 s.events _ he)

theorem State.signal_window (s : State) (i : Nat) : (s.signal i).subtick = s.subtick ∧ (s.signal i).cp = s.cp := by
  unfold State.signal
  split <;> exact ⟨rfl, rfl⟩

/-- What a completion's signals add to an event. -/
theorem State.signals_events (e : Nat) (l : List Nat) : ∀ s : State, s.subtick ≤ 15 →
    kget 0 (s.signals l).events e % 2 ^ 32 = (kget 0 s.events e + if e ∈ s.cp.setNow then 0 else l.count e) % 2 ^ 32 := by
  induction l with
  | nil => exact fun s _ => by simp [State.signals]
  | cons i l ih =>
    intro s hw
    obtain ⟨hsub, hcp⟩ := s.signal_window i
    have hone := s.signal_events i e hw
    rw [State.signals, ih _ (by rw [hsub]; exact hw), hcp, List.count_cons, Nat.add_mod, hone, ← Nat.add_mod]
    congr 1
    by_cases hset : e ∈ s.cp.setNow
    · simp [hset]
    · by_cases he : i = e
      · simp [hset, he]
        omega
      · simp [hset, he]

/-- The event operation of an EVENT. -/
theorem State.eventOp_events (s : State) (c : Cmd) (e : Nat) :
    kget 0 (s.eventOp c).events e % 2 ^ 32 =
      (if e = c.pay 4 2 then (if c.pay 0 1 = 1 then c.pay 8 4 else kget 0 s.events e + c.pay 8 4) else kget 0 s.events e) % 2 ^ 32 := by
  have hev : (s.eventOp c).events = kset 0 s.events (c.pay 4 2)
      (if c.pay 0 1 == 1 then c.pay 8 4 else (kget 0 s.events (c.pay 4 2) + c.pay 8 4) % 2 ^ 32) := rfl
  rw [hev]
  by_cases he : e = c.pay 4 2
  · subst he
    rw [kget_kset_same, if_pos rfl]
    by_cases h1 : c.pay 0 1 = 1
    · rw [if_pos (by simpa using h1), if_pos h1]
    · rw [if_neg (by simpa using h1), if_neg h1, Nat.mod_mod]
  · rw [kget_kset_other _ _ _ (Ne.symm he), if_neg he]

theorem State.eventOp_same (s : State) (c : Cmd) : (s.eventOp c).held = s.held ∧ (s.eventOp c).subtick = s.subtick ∧ (s.eventOp c).cmds = s.cmds :=
  ⟨rfl, rfl, rfl⟩

theorem State.eventOp_setNow (s : State) (c : Cmd) (e : Nat) :
    e ∈ (s.eventOp c).cp.setNow ↔ e ∈ s.cp.setNow ∨ c.pay 0 1 = 1 ∧ e = c.pay 4 2 := by
  have h : (s.eventOp c).cp.setNow = if c.pay 0 1 == 1 then c.pay 4 2 :: s.cp.setNow else s.cp.setNow := rfl
  rw [h]
  by_cases h1 : c.pay 0 1 = 1 <;> simp [h1, or_comm]

/-- A command without a fault completes with a status that signals. -/
theorem Cmd.status_signals {c : Cmd} (h : c.fault = none) : c.status < 0x10 := by
  unfold Cmd.status
  rw [h]
  simp only [Option.isSome_none, Bool.false_eq_true, if_false]
  split_ifs <;> decide

/-- A command that completes by itself: gone, and its signals. -/
theorem State.completeOwn_facts {s : State} {id : Nat} {c : Cmd} (hc : s.cmd id = some c) :
    (∀ j, (s.completeOwn id).cmd j = if j = id then none else s.cmd j) ∧ CompletesOnly s (s.completeOwn id) ∧
      (c.fault = none → (s.completeOwn id).events = (s.signals c.sigs).events) := by
  have h : s.completeOwn id = s.complete id c.status c.detail := by simp only [State.completeOwn, hc]
  rw [h]
  refine ⟨s.complete_cmd id _ _, s.complete_only id _ _, fun hf => ?_⟩
  rw [s.complete_events _ _ hc, if_pos (by simp [Cmd.status_signals hf])]

theorem State.completeOwn_only (s : State) (id : Nat) : CompletesOnly s (s.completeOwn id) := by
  unfold State.completeOwn
  split
  · rfl
  · exact s.complete_only id _ _

theorem State.completeOwn_cmd (s : State) (id j : Nat) : (s.completeOwn id).cmd j = if j = id then none else s.cmd j := by
  unfold State.completeOwn
  split
  next h =>
    split
    next hj => rw [hj, h]
    next => rfl
  next => exact s.complete_cmd id _ _ j

/-! ### COMMIT_STEP (R395) -/

theorem filterMap_kerase {α β : Type} (g : Nat × α → Option β) (i : Nat) (hg : ∀ v, g (i, v) = none) (m : KMap α) :
    (kerase m i).filterMap g = m.filterMap g := by
  induction m with
  | nil => rfl
  | cons x t ih =>
    obtain ⟨k, v⟩ := x
    unfold kerase
    split
    next h =>
      subst h
      rw [ih, List.filterMap_cons, hg]
    next => rw [List.filterMap_cons, List.filterMap_cons, ih]

theorem filterMap_kinsert {α β : Type} (g : Nat × α → Option β) (i : Nat) (w : α) (hg : g (i, w) = none) (m : KMap α) :
    (kinsert m i w).filterMap g = m.filterMap g := by
  induction m with
  | nil => simp [kinsert, hg]
  | cons x t ih =>
    obtain ⟨k, v⟩ := x
    unfold kinsert
    split
    · rw [List.filterMap_cons, hg]
    · rw [List.filterMap_cons, List.filterMap_cons, ih]

/-- A selection that leaves out a key does not see it written. -/
theorem filterMap_kset {α β : Type} [DecidableEq α] (d : α) (g : Nat × α → Option β) (i : Nat) (w : α) (hg : ∀ v, g (i, v) = none) (m : KMap α) :
    (kset d m i w).filterMap g = m.filterMap g := by
  unfold kset
  split
  · exact filterMap_kerase g i hg m
  · rw [filterMap_kinsert g i w (hg w), filterMap_kerase g i hg]

/-- The commands behind command id are the same after a change of it. -/
theorem State.acceptedAfter_congr {s u : State} {id : Nat} {o : Option Cmd} (h : u.cmds = kset none s.cmds id o) (f q : Nat) :
    u.acceptedAfter f q id = s.acceptedAfter f q id := by
  unfold State.acceptedAfter
  rw [h]
  refine filterMap_kset none _ id o (fun v => ?_) s.cmds
  cases v with
  | none => rfl
  | some c => simp

/-- Commands marked to be skipped. -/
def State.skipAll (s : State) (l : List Nat) : State := l.foldl (fun s i => s.modCmd i ({ · with skipped := true })) s

theorem cmdsOnly_skipAll (s : State) (l : List Nat) : CmdsOnly s (s.skipAll l) :=
  List.foldlRecOn (motive := fun u => CmdsOnly s u) _ _ rfl fun _ hu _ _ => cmdsOnly_modCmd _ _ hu

theorem State.skipAll_cmd (l : List Nat) (j : Nat) : ∀ s : State,
    (s.skipAll l).cmd j = if j ∈ l then (s.cmd j).map ({ · with skipped := true }) else s.cmd j := by
  induction l with
  | nil => exact fun s => by simp [State.skipAll]
  | cons i l ih =>
    intro s
    have hstep : s.skipAll (i :: l) = (s.modCmd i ({ · with skipped := true })).skipAll l := rfl
    rw [hstep, ih, State.cmd_modCmd]
    by_cases hji : j = i
    · subst hji
      simp [Function.comp_def]
    · simp [hji]

/-- Commands that are not considered before the next tick. -/
def State.holdNow (s : State) (l : List Nat) : State := { s with cp := { s.cp with heldNow := s.cp.heldNow ++ l } }

/-- The gate that a COMMIT_STEP leaves for commands to come. -/
def State.withGates (s : State) (g : List (Nat × Nat × Nat)) : State := { s with colls := { s.colls with gates := g } }

section

variable {s : State} {id : Nat} {c : Cmd} (hv : bitOf (s.reg (bar0 c.func 0xA108)) 0 = true) (hstep : s.reg (bar0 c.func 0xA104) = c.gate.1)

include hv hstep

theorem State.commitStep_clean (hd : bitOf (s.reg (bar0 c.func 0xA108)) 1 = false) :
    s.commitStep id c = (s.holdNow ((s.acceptedAfter c.func c.gate.2.1 id).take c.gate.2.2)).completeOwn id := by
  unfold State.commitStep
  rw [if_neg (by simp [hv, hstep]), if_pos (by simp [hd])]
  rfl

theorem State.commitStep_dirty (hd : bitOf (s.reg (bar0 c.func 0xA108)) 1 = true) :
    (let l := (s.acceptedAfter c.func c.gate.2.1 id).take c.gate.2.2
     s.commitStep id c = ((((s.holdNow l).skipAll l).withGates (if l.length < c.gate.2.2
       then ((s.holdNow l).skipAll l).colls.gates ++ [(c.func, c.gate.2.1, c.gate.2.2 - l.length)] else ((s.holdNow l).skipAll l).colls.gates)).modCmd id
         ({ · with skipped := true })).completeOwn id) := by
  unfold State.commitStep
  dsimp only
  rw [if_neg (by simp [hv, hstep]), if_neg (by simp [hd])]
  rfl

end

/-! ### Windows and streams (R320, R355) -/

theorem partOf_congr {s u : State} (hp : u.parts = s.parts) (c : Nat) : u.partOf c = s.partOf c := by
  unfold State.partOf State.part
  rw [hp]

theorem funcPart_congr {s u : State} {f : Nat} (hp : u.parts = s.parts) (hf : u.fnCfg f = s.fnCfg f) : u.funcPart f = s.funcPart f := by
  unfold State.funcPart State.fnEnabled State.fnFiller State.ownerPart State.part
  rw [hf, hp]

theorem windowOk_congr {s u : State} {f : Nat} (hg : u.gradeB44 = s.gradeB44) (hp : u.parts = s.parts) (hc : u.tiers.carve = s.tiers.carve)
    (hf : u.fnCfg f = s.fnCfg f) (w : Window) : u.windowOk f w = s.windowOk f w := by
  have hcore : ∀ c, u.isCore c = s.isCore c := fun c => by
    unfold State.isCore State.perRow
    rw [hg]
  have hstore : ∀ a n, u.ownsStore f a n = s.ownsStore f a n := fun a n => by
    unfold State.ownsStore State.grant
    rw [hc]
  unfold State.windowOk
  dsimp only
  rw [hcore, partOf_congr hp, funcPart_congr hp hf, hstore]

theorem freeWindow_congr {s u : State} (h : u.links = s.links) : u.freeWindow = s.freeWindow := by
  simp only [State.freeWindow, State.win, h]

theorem winCount_congr {s u : State} (h : u.links = s.links) (f : Nat) : u.winCount f = s.winCount f := by
  simp only [State.winCount, h]

/-- A change of the windows that waits for the bank swap. -/
def State.withWinChange (s : State) (x : Nat × Nat × Option Window) : State :=
  { s with links := { s.links with winChanges := s.links.winChanges ++ [x] } }

theorem State.openWindow_window {s : State} {id n : Nat} {c : Cmd} {w : Window} (h0 : bitsOf (leNat c.payload) 0 8 = 0)
    (hw : parseWindow c.func (bitsOf (leNat c.payload) 64 256) = some w) (hn : s.freeWindow = some n) (hc : s.winCount c.func < s.winMax c.func)
    (hok : s.windowOk c.func w = true) : s.openWindow id c = s.withWinChange (id, n, some w) := by
  unfold State.openWindow
  dsimp only
  rw [if_pos (by simpa using h0)]
  simp only [hw, hn]
  exact if_pos (by simp [hc, hok])

theorem State.closeWindow_window {s : State} {id h : Nat} {c : Cmd} {w : Window} (h0 : bitsOf (leNat c.payload) 0 8 = 0)
    (hh : bitsOf (leNat c.payload) 16 12 = h) (hw : s.win h = some w) (hf : w.func = c.func) :
    s.closeWindow id c = s.withWinChange (id, h, none) := by
  unfold State.closeWindow
  dsimp only
  rw [if_pos (by simpa using h0)]
  simp only [hh, hw]
  exact if_pos (by simp [hf])

/-- The record of a stream that WINDOW_OPEN opens. -/
def Cmd.openedStream (c : Cmd) : Stream :=
  let pay := leNat c.payload
  { func := c.func, tclass := bitsOf pay 96 4, dst := bitsOf pay 64 16, dstWin := bitsOf pay 80 12, dstSize := unitsOf (bitsOf pay 128 24) }

theorem State.openWindow_stream {s : State} {id n : Nat} {c : Cmd} (h0 : bitsOf (leNat c.payload) 0 8 ≠ 0) (hn : s.freeStream = some n) :
    s.openWindow id c = (s.setStream n (some c.openedStream)).complete id c.status (if c.status == 0 then n * 2 ^ 16 else c.detail) := by
  unfold State.openWindow
  dsimp only
  rw [if_neg (by simpa using h0)]
  simp only [hn]
  rfl

theorem State.closeWindow_stream {s : State} {id h : Nat} {c : Cmd} {x : Stream} (h0 : bitsOf (leNat c.payload) 0 8 ≠ 0)
    (hh : bitsOf (leNat c.payload) 16 12 = h) (hx : s.stream h = some x) (hf : x.func = c.func) (hc : x.closing = none) :
    s.closeWindow id c = (s.setStream h (some { x with closing := some id })).closeStreams := by
  unfold State.closeWindow
  dsimp only
  rw [if_neg (by simpa using h0)]
  simp only [hh, hx]
  exact if_pos (by simp [hf, hc])

/-- One stream of those to be closed: gone with its command where its ring is empty or it has faulted. -/
def State.closeOne (s : State) (h : Nat) : State :=
  match s.stream h with
  | some x =>
    match x.closing with
    | some id =>
      if x.fault || !(s.links.ring.any fun m => m.stream == h) then
        ((s.setRing (s.links.ring.filter fun m => m.stream != h)).setStream h none).completeOwn id
      else s
    | none => s
  | none => s

/-- What closing one stream does: nothing, or it goes with its messages and its command. -/
theorem State.closeOne_cases (s : State) (k : Nat) :
    s.closeOne k = s ∨ ∃ x id, s.stream k = some x ∧ x.closing = some id ∧ (x.fault = true ∨ ∀ m, m ∈ s.links.ring → m.stream ≠ k) ∧
      s.closeOne k = ((s.setRing (s.links.ring.filter fun m => m.stream != k)).setStream k none).completeOwn id := by
  unfold State.closeOne
  split
  next x hx =>
    split
    next id hid =>
      split
      next hgo =>
        refine Or.inr ⟨x, id, hx, hid, ?_, rfl⟩
        simpa using hgo
      next => exact Or.inl rfl
    next => exact Or.inl rfl
  next => exact Or.inl rfl

/-- A stream that is to be closed and can be. -/
theorem State.closeOne_go {s : State} {k id : Nat} {x : Stream} (hx : s.stream k = some x) (hid : x.closing = some id)
    (h : x.fault = true ∨ ∀ m, m ∈ s.links.ring → m.stream ≠ k) :
    s.closeOne k = ((s.setRing (s.links.ring.filter fun m => m.stream != k)).setStream k none).completeOwn id := by
  simp only [State.closeOne, hx, hid]
  refine if_pos ?_
  simpa using h

/-- What a closed stream leaves: held writes, the other streams and their messages. -/
theorem State.closed_facts (s : State) (k id : Nat) :
    (let u := ((s.setRing (s.links.ring.filter fun m => m.stream != k)).setStream k none).completeOwn id
     u.held = s.held ∧ u.stream k = none ∧ (∀ j, j ≠ k → u.stream j = s.stream j) ∧ (∀ m, m ∈ u.links.ring ↔ m ∈ s.links.ring ∧ m.stream ≠ k) ∧
       ∀ j, u.cmd j = if j = id then none else s.cmd j) := by
  have h := ((s.setRing (s.links.ring.filter fun m => m.stream != k)).setStream k none).completeOwn_only id
  have hl := h.links
  have hstream : ∀ j, (((s.setRing (s.links.ring.filter fun m => m.stream != k)).setStream k none).completeOwn id).stream j =
      ((s.setRing (s.links.ring.filter fun m => m.stream != k)).setStream k none).stream j := fun j =>
    congrArg (fun l : Links => kget none l.streams j) hl
  refine ⟨h.held, (hstream k).trans (kget_kset_same none s.links.streams k none), fun j hj => (hstream j).trans ?_, fun m => ?_, fun j => ?_⟩
  · exact kget_kset_other (i := k) (j := j) none s.links.streams none (Ne.symm hj)
  · rw [hl]
    refine List.mem_filter.trans ?_
    simp
  · exact State.completeOwn_cmd _ id j

/-- What one stream closed leaves, whether or not it goes. -/
theorem State.closeOne_held (s : State) (k : Nat) : (s.closeOne k).held = s.held := by
  obtain h | ⟨x, id, _, _, _, h⟩ := s.closeOne_cases k
  · rw [h]
  · rw [h]; exact (s.closed_facts k id).1

/-- A stream with a message left, and no fault, stays. -/
theorem State.closeAll_stays {h : Nat} {x : Stream} (hf : x.fault = false) (l : List Nat) : ∀ s : State, s.stream h = some x →
    (∃ m, m ∈ s.links.ring ∧ m.stream = h) → (l.foldl State.closeOne s).stream h = some x := by
  induction l with
  | nil => exact fun _ hx _ => hx
  | cons k l ih =>
    intro s hx hm
    obtain ⟨m, hmem, hmh⟩ := hm
    rw [List.foldl_cons]
    obtain he | ⟨y, id, hy, hid, hgo, he⟩ := s.closeOne_cases k
    · rw [he]; exact ih s hx ⟨m, hmem, hmh⟩
    · have hne : h ≠ k := by
        rintro rfl
        rw [hx] at hy
        obtain rfl := Option.some.inj hy
        obtain hgo | hgo := hgo
        · exact absurd (hgo.symm.trans hf) (by simp)
        · exact hgo m hmem hmh
      obtain ⟨_, _, hother, hring, _⟩ := s.closed_facts k id
      rw [he]
      refine ih _ ((hother h hne).trans hx) ⟨m, (hring m).mpr ⟨hmem, ?_⟩, hmh⟩
      rw [hmh]
      exact hne

/-- A stream and its command that are gone stay gone. -/
theorem State.closeAll_gone {h id : Nat} (l : List Nat) : ∀ s : State, s.stream h = none → s.cmd id = none →
    (l.foldl State.closeOne s).stream h = none ∧ (l.foldl State.closeOne s).cmd id = none := by
  induction l with
  | nil => exact fun _ hx hc => ⟨hx, hc⟩
  | cons k l ih =>
    intro s hx hc
    rw [List.foldl_cons]
    obtain he | ⟨y, i, hy, _, _, he⟩ := s.closeOne_cases k
    · rw [he]; exact ih s hx hc
    · have hne : h ≠ k := by
        rintro rfl
        exact absurd (hx.symm.trans hy) (by simp)
      obtain ⟨_, _, hother, _, hcmd⟩ := s.closed_facts k i
      rw [he]
      refine ih _ ((hother h hne).trans hx) ?_
      rw [hcmd, hc, ite_self]

/-- A stream that is to be closed, with no message left or a fault, goes with its command once its turn has come. -/
theorem State.closeAll_goes {h id : Nat} {x : Stream} (hid : x.closing = some id) (l : List Nat) : ∀ s : State, s.stream h = some x →
    (x.fault = true ∨ ∀ m, m ∈ s.links.ring → m.stream ≠ h) → h ∈ l →
    (l.foldl State.closeOne s).stream h = none ∧ (l.foldl State.closeOne s).cmd id = none := by
  induction l with
  | nil => exact fun _ _ _ h => absurd h List.not_mem_nil
  | cons k l ih =>
    intro s hx hgo hin
    rw [List.foldl_cons]
    by_cases hk : k = h
    · subst hk
      obtain ⟨_, hnone, _, _, hcmd⟩ := s.closed_facts k id
      rw [State.closeOne_go hx hid hgo]
      refine State.closeAll_gone l _ hnone ?_
      rw [hcmd, if_pos rfl]
    · have hl : h ∈ l := (List.mem_cons.mp hin).resolve_left (Ne.symm hk)
      obtain he | ⟨y, i, _, _, _, he⟩ := s.closeOne_cases k
      · rw [he]; exact ih s hx hgo hl
      · obtain ⟨_, _, hother, hring, _⟩ := s.closed_facts k i
        rw [he]
        exact ih _ ((hother h (Ne.symm hk)).trans hx) (hgo.imp_right fun hg m hm => hg m ((hring m).mp hm).1) hl

theorem mem_kkeys_of_kget {α : Type} {d : α} {m : KMap α} {k : Nat} (h : kget d m k ≠ d) : k ∈ kkeys m :=
  List.mem_map_of_mem (f := Prod.fst) (mem_of_kget d m k h)

theorem State.closeAll_held (l : List Nat) (s : State) : (l.foldl State.closeOne s).held = s.held :=
  List.foldlRecOn (motive := fun u : State => u.held = s.held) _ _ rfl fun u hu k _ => (u.closeOne_held k).trans hu

/-! ### What an admission starts -/

/-- An admitted command without a refusal: its row runs what it starts. -/
theorem exec_started {s : State} {f q id : Nat} {c : Cmd} {i : Instr} (h : Admits s f q id c i) (hs : c.skipped = false)
    (hb : s.admitBad c = none) :
    exec i s = .next ((s.noteAdmitted id c).startCmd id (s.asAdmitted c)).dressAll ∧ c.func = f ∧ c.q = q ∧ s.cmd id = some c ∧
      s.subtick ≤ 15 := by
  obtain ⟨hx, hf, hq, hcmd, _, hsub⟩ := exec_admitted h
  exact ⟨hx.trans (congrArg (fun u => Host.Outcome.next (State.dressAll u)) (State.admitCmd_started hcmd hs hb)), hf, hq, hcmd, hsub⟩

theorem fnCfg_of_note {s u : State} (h : NoteOnly s u) {f : Nat} (hf : f < 256) : u.fnCfg f = s.fnCfg f :=
  h.2 _ (by simp only [List.mem_cons, List.not_mem_nil, or_false, cpReg, obsReg]; omega)

theorem winMax_of_note {s u : State} (h : NoteOnly s u) (f : Nat) : u.winMax f = s.winMax f := State.field_congr (h.bar0 f 0xA040) 0 13

/-- A command that completes at its admission: gone with its signals, in the state its own effect left. -/
theorem completed_facts {s : State} {id : Nat} {c : Cmd} (hc : s.cmd id = some c) :
    (s.completeOwn id).dressAll.cmd id = none ∧ (s.completeOwn id).dressAll.held = s.held ∧
      (s.completeOwn id).dressAll.cp = s.cp ∧ (s.completeOwn id).dressAll.colls.gates = s.colls.gates ∧
      (c.fault = none → (s.completeOwn id).dressAll.events = (s.signals c.sigs).events) := by
  obtain ⟨hcmd, honly, hev⟩ := State.completeOwn_facts hc
  have hd := dressOnly_dressAll (s.completeOwn id)
  exact ⟨cmd_none_of_mark (hd.2.2.2.1 id) ((hcmd id).trans (if_pos rfl)), hd.held.trans honly.held, hd.cp.trans honly.cp,
    (congrArg (·.gates) hd.colls).trans honly.gates, fun h => hd.events.trans (hev h)⟩

section

variable {s : State} {id : Nat} {c : Cmd} (hc : s.cmd id = some c) (hv : bitOf (s.reg (bar0 c.func 0xA108)) 0 = true)
  (hstep : s.reg (bar0 c.func 0xA104) = c.gate.1)

include hc hv hstep

/-- A COMMIT_STEP with a clean verdict. -/
theorem State.commitStep_clean_done (hd : bitOf (s.reg (bar0 c.func 0xA108)) 1 = false) :
    (let l := (s.acceptedAfter c.func c.gate.2.1 id).take c.gate.2.2
     let u := (s.commitStep id c).dressAll
     u.cmd id = none ∧ u.held = s.held ∧ u.colls.gates = s.colls.gates ∧ ∀ j, j ∈ l → j ∈ u.cp.heldNow) := by
  intro l u
  have hu : u = ((s.holdNow l).completeOwn id).dressAll := congrArg State.dressAll (State.commitStep_clean hv hstep hd)
  have hc0 : (s.holdNow l).cmd id = some c := hc
  obtain ⟨hgone, hheld, hcp, hgates, _⟩ := completed_facts hc0
  rw [hu]
  refine ⟨hgone, hheld, hgates, fun j hj => ?_⟩
  rw [hcp]
  exact List.mem_append_right _ hj

/-- A COMMIT_STEP with the verdict DIRTY. -/
theorem State.commitStep_dirty_done (hd : bitOf (s.reg (bar0 c.func 0xA108)) 1 = true) :
    (let l := (s.acceptedAfter c.func c.gate.2.1 id).take c.gate.2.2
     let u := (s.commitStep id c).dressAll
     u.cmd id = none ∧ u.held = s.held ∧ (∀ j, j ∈ l → j ∈ u.cp.heldNow) ∧ (∀ j, j ∈ l → ∀ d, u.cmd j = some d → d.skipped = true) ∧
       u.colls.gates = if l.length < c.gate.2.2 then s.colls.gates ++ [(c.func, c.gate.2.1, c.gate.2.2 - l.length)] else s.colls.gates) := by
  intro l u
  have honly : CmdsOnly (s.holdNow l) ((s.holdNow l).skipAll l) := cmdsOnly_skipAll _ l
  have hgate0 : ((s.holdNow l).skipAll l).colls.gates = s.colls.gates := (congrArg (fun u => u.colls.gates) honly).trans rfl
  have hcp0 : ((s.holdNow l).skipAll l).cp = (s.holdNow l).cp := (congrArg State.cp honly).trans rfl
  have hheld0 : ((s.holdNow l).skipAll l).held = s.held := (congrArg State.held honly).trans rfl
  have hskip : ∀ j, ((s.holdNow l).skipAll l).cmd j = if j ∈ l then (s.cmd j).map ({ · with skipped := true }) else s.cmd j :=
    fun j => State.skipAll_cmd l j (s.holdNow l)
  have hu : u = (State.completeOwn (State.modCmd (State.withGates ((s.holdNow l).skipAll l) (if l.length < c.gate.2.2
      then ((s.holdNow l).skipAll l).colls.gates ++ [(c.func, c.gate.2.1, c.gate.2.2 - l.length)] else ((s.holdNow l).skipAll l).colls.gates)) id
        ({ · with skipped := true })) id).dressAll := congrArg State.dressAll (State.commitStep_dirty hv hstep hd)
  rw [hgate0] at hu
  generalize (s.holdNow l).skipAll l = t at hgate0 hcp0 hheld0 hskip hu
  generalize hg : (if l.length < c.gate.2.2 then s.colls.gates ++ [(c.func, c.gate.2.1, c.gate.2.2 - l.length)] else s.colls.gates) = g at hu ⊢
  have hmod := (t.withGates g).modCmd_only id ({ · with skipped := true })
  have hcmd : ∀ j, ((t.withGates g).modCmd id ({ · with skipped := true })).cmd j =
      if j = id then (t.cmd id).map ({ · with skipped := true }) else t.cmd j := fun j => (t.withGates g).cmd_modCmd id j _
  have hdone := State.completeOwn_only ((t.withGates g).modCmd id ({ · with skipped := true })) id
  have hd := dressOnly_dressAll (((t.withGates g).modCmd id ({ · with skipped := true })).completeOwn id)
  rw [hu]
  refine ⟨cmd_none_of_mark (hd.2.2.2.1 id) ((State.completeOwn_cmd _ id id).trans (if_pos rfl)),
    hd.held.trans (hdone.held.trans (((congrArg State.held hmod).trans rfl).trans hheld0)), fun j hj => ?_, fun j hj d hjd => ?_,
    (congrArg (·.gates) hd.colls).trans (hdone.gates.trans ((congrArg (fun u => u.colls.gates) hmod).trans rfl))⟩
  · rw [hd.cp, hdone.cp, (congrArg State.cp hmod).trans rfl]
    refine (congrArg (fun x : Cp => j ∈ x.heldNow) hcp0).mpr ?_
    exact List.mem_append_right _ hj
  · obtain ⟨e, he, hse⟩ := skipped_of_mark (hd.2.2.2.1 j) hjd
    have hne : j ≠ id := by
      rintro rfl
      rw [State.completeOwn_cmd, if_pos rfl] at he
      exact absurd he (by simp)
    rw [State.completeOwn_cmd, if_neg hne, hcmd, if_neg hne, hskip, if_pos hj] at he
    obtain ⟨x, _, rfl⟩ := Option.map_eq_some_iff.mp he
    exact hse

end

theorem State.stream_setStream_same (s : State) (h : Nat) (x : Option Stream) : (s.setStream h x).stream h = x := by
  simp [State.stream, State.setStream]

/-- A stream that WINDOW_CLOSE closes (R355). -/
theorem State.closeStreams_done (s : State) {id h : Nat} {y : Stream} (hid : y.closing = some id) :
    (let u := (s.setStream h (some y)).closeStreams.dressAll
     u.held = s.held ∧ (y.fault = false → (∃ m, m ∈ s.links.ring ∧ m.stream = h) → u.stream h = some y) ∧
       (y.fault = true ∨ (∀ m, m ∈ s.links.ring → m.stream ≠ h) → u.stream h = none ∧ u.cmd id = none)) := by
  have hx := s.stream_setStream_same h (some y)
  have hd := dressOnly_dressAll (s.setStream h (some y)).closeStreams
  have hstream : (s.setStream h (some y)).closeStreams.dressAll.stream h = (s.setStream h (some y)).closeStreams.stream h :=
    congrArg (fun l : Links => kget none l.streams h) hd.links
  have hin : h ∈ kkeys (s.setStream h (some y)).links.streams := by
    refine mem_kkeys_of_kget (d := none) ?_
    rw [show kget none (s.setStream h (some y)).links.streams h = some y from hx]
    simp
  refine ⟨hd.held.trans (State.closeAll_held _ _), fun hf hm => ?_, fun hgo => ?_⟩
  · exact hstream.trans (State.closeAll_stays hf _ (s.setStream h (some y)) hx hm)
  · obtain ⟨hnone, hcmd⟩ := State.closeAll_goes hid _ (s.setStream h (some y)) hx hgo hin
    exact ⟨hstream.trans hnone, cmd_none_of_mark (hd.2.2.2.1 id) hcmd⟩

end Sys2Proof.Machine

namespace Sys2Proof.Proofs

open Sys2Proof.Machine Sys2Proof.Claims

/-- Settles O38, opcode by opcode, from what each command does at its admission. -/
theorem shortCommands : Obligations.ShortCommands := by
  unfold Obligations.ShortCommands
  intro s f q id c i hadm hskip hbad hfault pay h verdict changes
  obtain ⟨hx, rfl, rfl, hcmd, hsub⟩ := exec_started hadm hskip hbad
  have hf : c.func < 256 := hadm.1
  obtain ⟨hnote, hcmds⟩ := State.noteAdmitted_facts hcmd
  have hcmd1 := State.noteAdmitted_cmd hcmd
  have hfault1 : (s.asAdmitted c).fault = none := hfault
  have hpay : ∀ a b, (s.asAdmitted c).pay a b = c.pay a b := fun _ _ => rfl
  have hsigs : (s.asAdmitted c).sigs = c.sigs := rfl
  have changesOf : ∀ x, (s.noteAdmitted id c).startCmd id (s.asAdmitted c) = (s.noteAdmitted id c).withWinChange x → changes x := fun x he => by
    have hd := dressOnly_dressAll ((s.noteAdmitted id c).withWinChange x)
    refine ⟨_, hx.trans (congrArg (fun u => Host.Outcome.next (State.dressAll u)) he), ⟨hd.mem.trans hnote.mem, hd.held.trans hnote.held⟩,
      hd.links.trans ?_, admitted_of_mark (hd.2.2.2.1 id) (s := (s.noteAdmitted id c).withWinChange x) hcmd1⟩
    rw [← hnote.links]
    rfl
  refine ⟨fun hop => ?_, fun hop => ?_, fun hop hv hst => ?_, fun hop h0 w n hw hn hlt hok => changesOf _ ?_,
    fun hop h0 n hn => ?_, fun hop h0 w hw hwf => changesOf _ ?_, fun hop h0 x hx' hxf hclosing => ?_⟩
  · have he : (s.noteAdmitted id c).startCmd id (s.asAdmitted c) = ((s.noteAdmitted id c).eventOp (s.asAdmitted c)).completeOwn id := by
      have hop' : (s.asAdmitted c).opcode = 0x22 := hop
      simp only [State.startCmd, hop']
    obtain ⟨hheld0, hsub0, hcmds0⟩ := (s.noteAdmitted id c).eventOp_same (s.asAdmitted c)
    obtain ⟨hgone, hheld, _, _, hev⟩ := completed_facts ((cmd_of_cmds hcmds0 id).trans hcmd1)
    refine ⟨_, hx.trans (congrArg (fun u => Host.Outcome.next (State.dressAll u)) he), hgone, hheld.trans (hheld0.trans hnote.held), fun e => ?_⟩
    have hmem := (s.noteAdmitted id c).eventOp_setNow (s.asAdmitted c) e
    have hop2 := (s.noteAdmitted id c).eventOp_events (s.asAdmitted c) e
    rw [hnote.setNow, hpay, hpay] at hmem
    rw [hnote.events, hpay, hpay, hpay] at hop2
    rw [hev hfault1, State.signals_events e _ _ ((le_of_eq (hsub0.trans hnote.subtick)).trans hsub), if_congr hmem rfl rfl, Nat.add_mod, hop2,
      ← Nat.add_mod, hsigs]
  · have he : (s.noteAdmitted id c).startCmd id (s.asAdmitted c) = (s.noteAdmitted id c).completeOwn id := by
      have hop' : (s.asAdmitted c).opcode = 0x23 := hop
      simp only [State.startCmd, hop']
    obtain ⟨hgone, hheld, _, _, hev⟩ := completed_facts hcmd1
    refine ⟨_, hx.trans (congrArg (fun u => Host.Outcome.next (State.dressAll u)) he), hgone, hheld.trans hnote.held, fun e => ?_⟩
    rw [hev hfault1, State.signals_events e _ _ ((le_of_eq hnote.subtick).trans hsub), hnote.events, hnote.setNow, hsigs]
  · have he : (s.noteAdmitted id c).startCmd id (s.asAdmitted c) = (s.noteAdmitted id c).commitStep id (s.asAdmitted c) := by
      have hop' : (s.asAdmitted c).opcode = 0x19 := hop
      simp only [State.startCmd, hop']
    have hx := hx.trans (congrArg (fun u => Host.Outcome.next (State.dressAll u)) he)
    have hv1 : bitOf ((s.noteAdmitted id c).reg (bar0 (s.asAdmitted c).func 0xA108)) 0 = true :=
      (congrArg (bitOf · 0) (hnote.bar0 c.func 0xA108)).trans hv
    have hst1 : (s.noteAdmitted id c).reg (bar0 (s.asAdmitted c).func 0xA104) = (s.asAdmitted c).gate.1 := (hnote.bar0 c.func 0xA104).trans hst
    have hl : ((s.noteAdmitted id c).acceptedAfter (s.asAdmitted c).func (s.asAdmitted c).gate.2.1 id).take (s.asAdmitted c).gate.2.2 =
        (s.acceptedAfter c.func (c.pay 4 1 % 64) id).take (c.pay 6 2) := by
      rw [State.acceptedAfter_congr hcmds]
      rfl
    have hgates : (s.noteAdmitted id c).colls.gates = s.colls.gates := congrArg (·.gates) hnote.colls
    intro l
    refine ⟨fun hd => ?_, fun hd => ?_⟩
    · obtain ⟨hgone, hheld, hg, hnow⟩ := State.commitStep_clean_done hcmd1 hv1 hst1 ((congrArg (bitOf · 1) (hnote.bar0 c.func 0xA108)).trans hd)
      rw [hl] at hnow
      exact ⟨_, hx, hgone, hheld.trans hnote.held, hg.trans hgates, hnow⟩
    · obtain ⟨hgone, hheld, hnow, hsk, hg⟩ :=
        State.commitStep_dirty_done hcmd1 hv1 hst1 ((congrArg (bitOf · 1) (hnote.bar0 c.func 0xA108)).trans hd)
      rw [hl] at hnow hsk
      rw [hl, hgates] at hg
      exact ⟨_, hx, hgone, hheld.trans hnote.held, hnow, hsk, hg⟩
  · have hop' : (s.asAdmitted c).opcode = 0x20 := hop
    simp only [State.startCmd, hop']
    refine State.openWindow_window (c := s.asAdmitted c) h0 hw ((freeWindow_congr hnote.links).trans hn) ?_ ?_
    · exact (lt_of_eq_of_lt (winCount_congr hnote.links c.func) hlt).trans_eq (winMax_of_note hnote c.func).symm
    · have hgrade : (s.noteAdmitted id c).gradeB44 = s.gradeB44 := (congrArg State.gradeB44 hnote.1).trans rfl
      have hcarve : (s.noteAdmitted id c).tiers.carve = s.tiers.carve := (congrArg (fun u => u.tiers.carve) hnote.1).trans rfl
      exact (windowOk_congr hgrade hnote.parts hcarve (fnCfg_of_note hnote hf) w).trans hok
  · have hop' : (s.asAdmitted c).opcode = 0x20 := hop
    have hn' : (s.noteAdmitted id c).freeStream = some n := by
      simp only [State.freeStream, State.stream, hnote.links]
      exact hn
    have he : (s.noteAdmitted id c).startCmd id (s.asAdmitted c) =
        ((s.noteAdmitted id c).setStream n (some (s.asAdmitted c).openedStream)).complete id (s.asAdmitted c).status
          (if (s.asAdmitted c).status == 0 then n * 2 ^ 16 else (s.asAdmitted c).detail) := by
      simp only [State.startCmd, hop']
      exact State.openWindow_stream (c := s.asAdmitted c) h0 hn'
    have honly := ((s.noteAdmitted id c).setStream n (some (s.asAdmitted c).openedStream)).complete_only id (s.asAdmitted c).status
      (if (s.asAdmitted c).status == 0 then n * 2 ^ 16 else (s.asAdmitted c).detail)
    have hd := dressOnly_dressAll (((s.noteAdmitted id c).setStream n (some (s.asAdmitted c).openedStream)).complete id (s.asAdmitted c).status
      (if (s.asAdmitted c).status == 0 then n * 2 ^ 16 else (s.asAdmitted c).detail))
    refine ⟨_, hx.trans (congrArg (fun u => Host.Outcome.next (State.dressAll u)) he),
      cmd_none_of_mark (hd.2.2.2.1 id) ((State.complete_cmd _ id _ _ id).trans (if_pos rfl)),
      hd.held.trans (honly.held.trans hnote.held), ?_⟩
    have hl := hd.links.trans honly.links
    exact (congrArg (fun l : Links => kget none l.streams n) hl).trans ((s.noteAdmitted id c).stream_setStream_same n (some (s.asAdmitted c).openedStream))
  · have hop' : (s.asAdmitted c).opcode = 0x21 := hop
    simp only [State.startCmd, hop']
    refine State.closeWindow_window (c := s.asAdmitted c) h0 rfl ?_ hwf
    exact (congrArg (fun l : Links => kget none l.windows h) hnote.links).trans hw
  · have hop' : (s.asAdmitted c).opcode = 0x21 := hop
    have hs1 : (s.noteAdmitted id c).stream h = some x := (congrArg (fun l : Links => kget none l.streams h) hnote.links).trans hx'
    have he : (s.noteAdmitted id c).startCmd id (s.asAdmitted c) =
        ((s.noteAdmitted id c).setStream h (some { x with closing := some id })).closeStreams := by
      simp only [State.startCmd, hop']
      exact State.closeWindow_stream (c := s.asAdmitted c) h0 rfl hs1 hxf hclosing
    obtain ⟨hheld, hstays, hgoes⟩ := (s.noteAdmitted id c).closeStreams_done (h := h) (y := { x with closing := some id }) rfl
    rw [hnote.links] at hstays hgoes
    exact ⟨_, hx.trans (congrArg (fun u => Host.Outcome.next (State.dressAll u)) he), hheld.trans hnote.held, hstays, hgoes⟩

end Sys2Proof.Proofs
end

section
/-! PROOFS. Bytes written at once, line by line (R259, R265), and counters, samples, the trace and dumps (R216, R465–R481). -/

namespace Sys2Proof.Machine

open Sys2Proof.Claims

/-! ### Bytes written at once -/

theorem kwf_mergeCells (M : KMap (Option Byte)) (cells : List (Nat × Byte)) (h : kwf none M = true) : kwf none (mergeCells M cells) = true := by
  induction cells generalizing M with
  | nil => exact h
  | cons c cs ih => exact ih _ (kwf_kset none M c.1 (some c.2) h)

/-- Memory after a canonical map of cells: what the map names, and else what stood. -/
theorem Mem.read_writeCells_kmap (M : KMap (Option Byte)) (m : Mem) (h : kwf none M = true) (a : Nat) :
    (m.writeCells (M.filterMap fun c => c.2.map fun b => (c.1, b))).read a = (kget none M a).getD (m.read a) := by
  obtain ⟨hval, hpair⟩ := kwfFrom_spec none M 0 h
  have hkeys : ((M.filterMap fun c => c.2.map fun b => (c.1, b)).map (·.1)).Nodup := by
    rw [List.Nodup, List.pairwise_map]
    refine List.Pairwise.filterMap _ (fun x y hxy x' hx y' hy => ?_) hpair
    obtain ⟨b, -, rfl⟩ := Option.map_eq_some_iff.mp hx
    obtain ⟨b', -, rfl⟩ := Option.map_eq_some_iff.mp hy
    exact Nat.ne_of_lt hxy
  cases hg : kget none M a with
  | some b =>
    have hin : (a, some b) ∈ M := hg ▸ mem_of_kget none M a (by simp [hg])
    exact Mem.read_writeCells_mem _ m (a, b) hkeys (List.mem_filterMap.mpr ⟨_, hin, rfl⟩)
  | none =>
    refine Mem.read_writeCells_other _ m a fun c hc he => ?_
    obtain ⟨x, hx, hxc⟩ := List.mem_filterMap.mp hc
    obtain ⟨b, hb, rfl⟩ := Option.map_eq_some_iff.mp hxc
    have hk : kget none M a = some b := by rw [← hb, ← kget_of_mem none M x hpair hx, ← he]
    rw [hg] at hk
    exact absurd hk (by simp)

/-- A map of cells after a run of bytes reads as memory does after it. -/
theorem kget_mergeCells_run (bs : List Byte) (k a : Nat) (M : KMap (Option Byte)) (x : Byte) (m : Mem)
    (h : (kget none M a).getD x = m.read a) :
    (kget none (mergeCells M (bs.mapIdx fun i b => (k + i, b))) a).getD x = (m.writeBytes k bs).read a := by
  induction bs generalizing k M m with
  | nil => exact h
  | cons b bs ih =>
    have hrest : (bs.mapIdx fun i b => (k + (i + 1), b)) = bs.mapIdx fun i b => (k + 1 + i, b) := by
      refine congrArg (fun f => bs.mapIdx f) (funext fun i => funext fun b => ?_)
      rw [show k + (i + 1) = k + 1 + i by omega]
    have hcells : ((b :: bs).mapIdx fun i b => (k + i, b)) = (k, b) :: bs.mapIdx fun i b => (k + 1 + i, b) :=
      List.mapIdx_cons.trans (congrArg (_ :: ·) hrest)
    rw [hcells]
    refine ih (k + 1) (kset none M k (some b)) (m.write k b) ?_
    by_cases hka : k = a
    · subst hka
      rw [kget_kset_same, Mem.read_write_same]
      rfl
    · rw [kget_kset_other none M _ hka, Mem.read_write_other m b hka, h]

/-- One line of bytes written at once. -/
theorem State.applyEntry_run (s : State) (base : Nat) (mark : Bool) (k : Nat) (bs : List Byte) (a : Nat) :
    Mem.read (s.applyEntry { part := 0, ord := 0, base := base, mark := mark, cells := mergeCells [] (bs.mapIdx fun i b => (k + i, b)) }).mem a
      = (Mem.writeBytes s.mem k bs).read a :=
  (Mem.read_writeCells_kmap _ s.mem (kwf_mergeCells [] _ rfl) a).trans (kget_mergeCells_run bs k a [] _ s.mem rfl)

theorem Mem.read_writeBytes_congr {m m' : Mem} (h : ∀ a, m.read a = m'.read a) (k : Nat) (bs : List Byte) (a : Nat) :
    (m.writeBytes k bs).read a = (m'.writeBytes k bs).read a := by
  induction bs generalizing k m m' with
  | nil => exact h a
  | cons b bs ih =>
    refine ih (fun x => ?_) (k + 1)
    by_cases hx : k = x
    · rw [hx, Mem.read_write_same, Mem.read_write_same]
    · rw [Mem.read_write_other _ b hx, Mem.read_write_other _ b hx, h]

theorem markUnit_pos (k : Nat) : 0 < markUnit k := by
  unfold markUnit
  split
  · split <;> omega
  · omega

theorem lt_markBase (k : Nat) : k < markBase k + markUnit k := by
  have h := Nat.lt_div_mul_add (a := k) (markUnit_pos k)
  exact h

/-- Bytes written at once read as memory with the run in place. -/
theorem read_writeMarked_from (fuel : Nat) (bs : List Byte) (hf : bs.length < fuel) (k : Nat) (mark : Bool) (s : State) (m : Mem)
    (hm : ∀ a, Mem.read s.mem a = m.read a) (a : Nat) :
    Mem.read ((cutUnits fuel k bs).foldl (fun s u =>
      s.applyEntry { part := 0, ord := 0, base := u.1, mark := mark, cells := mergeCells [] u.2 }) s).mem a = (m.writeBytes k bs).read a := by
  induction fuel generalizing bs k s m with
  | zero => exact absurd hf (Nat.not_lt_zero _)
  | succ fuel ih =>
    cases bs with
    | nil => exact hm a
    | cons b bs =>
      have hpos : 0 < markBase k + markUnit k - k := by have := lt_markBase k; omega
      have hlen : ((b :: bs).drop (markBase k + markUnit k - k)).length < fuel := by
        simp only [List.length_drop, List.length_cons] at hf ⊢
        omega
      have hsplit : (m.writeBytes k (b :: bs)).read a = ((m.writeBytes k ((b :: bs).take (markBase k + markUnit k - k))).writeBytes
          (k + (markBase k + markUnit k - k)) ((b :: bs).drop (markBase k + markUnit k - k))).read a := by
        by_cases hn : markBase k + markUnit k - k ≤ (b :: bs).length
        · have happ := Mem.writeBytes_append m k ((b :: bs).take (markBase k + markUnit k - k)) ((b :: bs).drop (markBase k + markUnit k - k))
          rw [List.take_append_drop, List.length_take, Nat.min_eq_left hn] at happ
          rw [happ]
        · rw [List.drop_of_length_le (by omega), List.take_of_length_le (by omega)]
          rfl
      rw [hsplit]
      exact ih _ hlen _ _ _ fun x => (State.applyEntry_run s _ mark k _ x).trans (Mem.read_writeBytes_congr hm k _ x)

theorem State.read_writeMarked (s : State) (k : Nat) (bs : List Byte) (mark : Bool) (a : Nat) :
    Mem.read (s.writeMarked k bs mark).mem a = (Mem.writeBytes s.mem k bs).read a :=
  read_writeMarked_from _ bs (Nat.lt_succ_self _) k mark s s.mem (fun _ => rfl) a

/-- Nothing but memory, marks and the die caches may differ. -/
def WritesOnly (s u : State) : Prop := u = { s with mem := u.mem, marks := u.marks, tiers := { s.tiers with caches := u.tiers.caches } }

theorem writesOnly_rfl (s : State) : WritesOnly s s := rfl

theorem WritesOnly.trans {s u w : State} (h : WritesOnly s u) (h' : WritesOnly u w) : WritesOnly s w := by
  unfold WritesOnly at h h' ⊢
  rw [h', h]

theorem WritesOnly.regs {s u : State} (h : WritesOnly s u) : u.regs = s.regs := (congrArg State.regs h).trans rfl
theorem WritesOnly.held {s u : State} (h : WritesOnly s u) : u.held = s.held := (congrArg State.held h).trans rfl
theorem WritesOnly.cores {s u : State} (h : WritesOnly s u) : u.cores = s.cores := (congrArg State.cores h).trans rfl
theorem WritesOnly.obs {s u : State} (h : WritesOnly s u) : u.obs = s.obs := (congrArg State.obs h).trans rfl
theorem WritesOnly.mgmt {s u : State} (h : WritesOnly s u) : u.mgmt = s.mgmt := (congrArg State.mgmt h).trans rfl

theorem writesOnly_applyEntry (s : State) (h : Held) : WritesOnly s (s.applyEntry h) := rfl

theorem writesOnly_writeMarked (s : State) (k : Nat) (bs : List Byte) (mark : Bool) : WritesOnly s (s.writeMarked k bs mark) :=
  List.foldlRecOn (motive := fun u => WritesOnly s u) _ _ (writesOnly_rfl s) fun u hu _ _ => hu.trans (writesOnly_applyEntry u _)

theorem writesOnly_writeTenant (s : State) (f a : Nat) (bs : List Byte) : WritesOnly s (s.writeTenant f a bs) :=
  List.foldlRecOn (motive := fun u => WritesOnly s u) _ _ (writesOnly_rfl s) fun u hu x _ => by
    split
    · exact hu.trans (writesOnly_writeMarked u _ _ _)
    · exact hu

/-! ### Dumps and the trace -/

theorem writesOnly_writeSink (s : State) (near : Bool) (a : Nat) (b : List Byte) : WritesOnly s (s.writeSink near a b) := by
  unfold State.writeSink
  split
  · exact writesOnly_writeTenant s _ _ _
  · exact writesOnly_writeMarked s _ _ _

theorem State.writeSink_host (s : State) (a : Nat) (b : List Byte) : s.writeSink false a b = s.writeMarked (hostKey a) b false := rfl

/-- A trace record whose type is enabled and which finds room enters the buffer at its place. -/
theorem State.trace_room (s : State) (type func arg0 arg1 : Nat) (h : s.bit (obsReg 0x500) (16 + type) = true ∧ s.obs.buf.length < 32768) :
    s.trace type func arg0 arg1 =
      { s with obs := { s.obs with buf := sepiaInsert ⟨type, func, s.tick, s.subtick, arg0, arg1⟩ s.obs.buf } } := by
  simp only [State.trace, h.1, h.2, Bool.not_true, Bool.false_eq_true, if_false, if_true]

theorem State.writeCntCfg_eq (s : State) (kind k v : Nat) :
    s.writeCntCfg kind k v =
      if bitsOf v 8 2 = 3 then s
      else { s.setReg (cntCfgReg kind k) (v % 1024) with
        obs := { s.obs with armed := s.obs.armed.filter (fun x => x.1 != 16 * kind + k) ++ [(16 * kind + k, v % 1024)] } } := by
  have hb : bitsOf (v % 2 ^ 10) 8 2 = bitsOf v 8 2 := bitsOf_mod v 8 2 10 (by omega)
  unfold State.writeCntCfg
  refine if_congr ?_ rfl rfl
  simpa using congrArg (· = 3) hb

theorem exec_cntCfgWrite (s : State) (kind k v : Nat) (hf : s.vigil.frozen = false) (hk : kind < 12) (hc : k < countersOf kind) :
    exec (.cntCfgWrite kind k v) s = .next (s.writeCntCfg kind k v) := by
  change execCntCfgWrite kind k v s = _
  simp [execCntCfgWrite, hf, Nat.not_le.mpr hk, Nat.not_le.mpr hc]

theorem exec_obsConsentWrite (s : State) (f v : Nat) (hf : s.vigil.frozen = false) (h : f < 256) :
    exec (.obsConsentWrite f v) s = .next (s.setReg (bar0 f 0xA400) (v % 16)) := by
  change execObsConsentWrite f v s = _
  simp [execObsConsentWrite, hf, Nat.not_le.mpr h]

theorem exec_obsPartWrite (s : State) (p v : Nat) (hf : s.vigil.frozen = false) (h : p < 8) :
    exec (.obsPartWrite p v) s = .next (s.setField (obsPart p) 0 2 v) := by
  change execObsPartWrite p v s = _
  simp [execObsPartWrite, hf, Nat.not_le.mpr h, State.writeObsPart]

theorem exec_sepiaHeadWrite (s : State) (v : Nat) (hf : s.vigil.frozen = false) :
    exec (.sepiaHeadWrite v) s = .next (s.setReg (obsReg 0x510) (v % 2 ^ 24)) := by
  change execSepiaHeadWrite v s = _
  simp [execSepiaHeadWrite, hf]

/-- What the comparator of a partition in test mode does on a mismatch. -/
theorem exec_testMismatch (s : State) (c p : Nat) (pc : BitVec 8) (e a : BitVec 20) (hc : s.isCore c = true) (hp : s.partOf c = some p)
    (hh : s.halted = false) (hb : s.bit (obsPart p) 2 = true) :
    exec (.testMismatch c pc e a) s =
      if e ≠ a ∧ s.obs.testHit.contains p = false ∧ s.issueRecord p pc.toNat e.toNat = true then
        .next { s.trace 7 (s.part p).func c (e.toNat + 2 ^ 20 * a.toNat + 2 ^ 40 * pc.toNat) with
          obs := { (s.trace 7 (s.part p).func c (e.toNat + 2 ^ 20 * a.toNat + 2 ^ 40 * pc.toNat)).obs with
            testHit := (s.trace 7 (s.part p).func c (e.toNat + 2 ^ 20 * a.toNat + 2 ^ 40 * pc.toNat)).obs.testHit ++ [p] } }
      else .next s := by
  change execTestMismatch c pc e a s = _
  simp only [execTestMismatch, hc, hp, hh, hb, Bool.not_true, Bool.false_eq_true, if_false, Bool.false_or, Bool.or_eq_true,
    Bool.not_eq_true', beq_iff_eq, ne_eq]
  by_cases h1 : e = a
  · simp [h1]
  · cases h2 : s.obs.testHit.contains p <;> cases h3 : s.issueRecord p pc.toNat e.toNat <;> simp [h1]

theorem exec_threadSample (s : State) (c skid : Nat) (pc : BitVec 8) (hc : s.isCore c = true) (hh : s.halted = false) (ht : 16 ≤ s.subtick)
    (hd : s.sampleDue c = true) (hs : skid ≤ 6) : exec (.threadSample c skid pc) s = .next (s.takeSample c skid pc) := by
  change execThreadSample c skid pc s = _
  have h15 : ¬ s.subtick ≤ 15 := by omega
  simp [execThreadSample, hc, hh, hd, h15, Nat.not_lt.mpr hs]

/-- The state with a sample of core c counted as taken. -/
def State.sampledNow (s : State) (c : Nat) : State :=
  { s with obs := { s.obs with
    sampleNo := kset 0 s.obs.sampleNo c (kget 0 s.obs.sampleNo c + 1)
    sampleLast := kset 0 s.obs.sampleLast c (s.sampleCycle + 1) } }

theorem State.sampledNow_no (s : State) (c : Nat) : kget 0 (s.sampledNow c).obs.sampleNo c = kget 0 s.obs.sampleNo c + 1 := by
  simp [State.sampledNow]

theorem State.trace_sampleNo (s : State) (type func arg0 arg1 : Nat) : (s.trace type func arg0 arg1).obs.sampleNo = s.obs.sampleNo :=
  (congrArg (fun t => t.obs.sampleNo) (s.trace_obs type func arg0 arg1)).trans rfl

theorem State.takeSample_withheld (s : State) (c skid : Nat) (pc : BitVec 8) (h : (s.observer c).filter (fun f => s.consents f 1) = none) :
    s.takeSample c skid pc = (s.sampledNow c).count (obsReg 0x40C) 1 := by
  simp only [State.takeSample, h]
  rfl

theorem State.takeSample_shown (s : State) (c skid f : Nat) (pc : BitVec 8) (ho : s.observer c = some f) (hf : s.consents f 1 = true) :
    s.takeSample c skid pc = (s.sampledNow c).trace 5 f c ((if skid = 0 then ((s.core c).thread (kget 0 s.obs.sampleNo c % 16)).pc else pc).toNat
      + 2 ^ 8 * (kget 0 s.obs.sampleNo c % 16) + 2 ^ 12 * ((s.core c).slotOpen.getD 0).toNat
      + 2 ^ 15 * ((s.core c).thread (kget 0 s.obs.sampleNo c % 16)).state.code + 2 ^ 19 * natOf (s.core c).fillerOpen) := by
  simp only [State.takeSample, ho, Option.filter_some, hf, if_true, beq_iff_eq]
  rfl

theorem exec_sepiaRecord (s : State) (r : Sepia) (rest : List Sepia) (hb : s.obs.buf = r :: rest) (hs : s.sepiaSink = 1)
    (hr : (s.field (obsReg 0x514) 0 24 + 1) % s.sepiaRing ≠ s.field (obsReg 0x510) 0 24 % s.sepiaRing) :
    ∃ u, exec .sepiaRecord s = .next u ∧ u.obs.buf = rest ∧
      u.mem = Mem.writeBytes s.mem (hostKey (s.wide (obsReg 0x504) / 4096 * 4096 + 32 * (s.field (obsReg 0x514) 0 24 % s.sepiaRing)))
        (r.bytes s.obs.phase s.obs.rseq) ∧
      u.reg (obsReg 0x514) = (s.field (obsReg 0x514) 0 24 + 1) % s.sepiaRing % 2 ^ 32 ∧ OtherRegs (obsReg 0x514) s u ∧
      u.obs.rseq = (s.obs.rseq + 1) % 2 ^ 32 ∧ u.held = s.held ∧ u.cores = s.cores := by
  have hx : exec .sepiaRecord s = .next s.drainSepia := rfl
  have hd : s.drainSepia = { s.setReg (obsReg 0x514) ((s.field (obsReg 0x514) 0 24 + 1) % s.sepiaRing) with
      mem := Mem.writeBytes s.mem (hostKey (s.wide (obsReg 0x504) / 4096 * 4096 + 32 * (s.field (obsReg 0x514) 0 24 % s.sepiaRing)))
        (r.bytes s.obs.phase s.obs.rseq)
      obs := { s.obs with
        buf := rest
        rseq := (s.obs.rseq + 1) % 2 ^ 32
        phase := s.obs.phase != decide ((s.field (obsReg 0x514) 0 24 + 1) % s.sepiaRing = 0) } } := by
    simp only [State.drainSepia, hb, hs, bne_self_eq_false, Bool.false_or, beq_iff_eq, hr, if_false]
    rfl
  rw [hx, hd]
  exact ⟨_, rfl, rfl, rfl, State.reg_setReg_same s _ _, otherRegs_setReg s _ _, rfl, rfl, rfl⟩

theorem exec_dump_busy (s : State) (hh : s.halted = false) (hb : s.obs.dumpBusy = true) : exec .dump s = .next s.writeDump := by
  change execDump s = _
  simp [execDump, hh, hb]

/-- The memory with a latched dump written to its slot. -/
def State.dumped (s : State) : State :=
  s.writeSink (s.bit (obsReg 0) 1) (s.wide (obsReg 4) / 256 * 256 + s.obs.dumpNext % max 1 (s.field (obsReg 0x0C) 0 16) * 0x182D00) s.dumpBytes

theorem State.writeDump_eq (s : State) :
    s.writeDump = { s.dumped.setReg (obsReg 0x10) s.obs.dumpNext with
      free := s.dumped.free + 12 * 2 ^ 24
      obs := { s.dumped.obs with dumpBusy := false, dumpNext := s.dumped.obs.dumpNext + 1 } } := rfl

end Sys2Proof.Machine

namespace Sys2Proof.Proofs

open Sys2Proof.Machine Sys2Proof.Claims

/-- Settles O54, by what each register write, sample, record and dump leaves. -/
theorem traceAndDumps : Obligations.TraceAndDumps := by
  unfold Obligations.TraceAndDumps
  intro s kind k f p c v skid pc e a regOnly room hit
  refine ⟨fun hf => ⟨fun hk hc => ⟨fun hv => ?_, fun hv => ?_⟩, fun h => ?_, fun h => ?_, ?_⟩, fun hc hp hh hb => ⟨fun h => ?_, fun h => ?_⟩,
    fun hc hh ht hd hs => ?_, fun hl hr => ?_, fun r rest hb hs => ?_, fun hh hb => ?_, fun hb => ?_⟩
  · rw [exec_cntCfgWrite s kind k v hf hk hc, State.writeCntCfg_eq, if_neg hv]
    refine ⟨_, rfl, ?_, otherRegs_setReg s _ _, ?_, rfl, rfl⟩
    · exact (State.reg_setReg_same s _ _).trans (Nat.mod_eq_of_lt (by omega))
    · exact List.mem_append_right _ (List.mem_singleton.mpr rfl)
  · rw [exec_cntCfgWrite s kind k v hf hk hc, State.writeCntCfg_eq, if_pos hv]
  · exact ⟨_, exec_obsConsentWrite s f v hf h, rfl, (State.reg_setReg_same s _ _).trans (Nat.mod_eq_of_lt (by omega)), otherRegs_setReg s _ _⟩
  · exact ⟨_, exec_obsPartWrite s p v hf h, rfl, State.field_setField_same s _ 0 2 v (by omega),
      State.field_setField_apart s _ 0 2 v 2 2 (by omega) (by omega), otherRegs_setField s _ _ _ _⟩
  · exact ⟨_, exec_sepiaHeadWrite s v hf, rfl, (State.reg_setReg_same s _ _).trans (Nat.mod_eq_of_lt (by omega)), otherRegs_setReg s _ _⟩
  · refine ⟨_, (exec_testMismatch s c p pc e a hc hp hh hb).trans (if_pos h), ?_, ?_, ?_, fun hr => ?_⟩
    · exact congrArg (· ++ [p]) ((congrArg (fun t => t.obs.testHit) (s.trace_obs 7 _ _ _)).trans rfl)
    · exact ⟨s.trace_mem 7 _ _ _, (congrArg State.held (s.trace_obs 7 _ _ _)).trans rfl⟩
    · exact (congrArg State.cores (s.trace_obs 7 _ _ _)).trans rfl
    · rw [s.trace_room 7 _ _ _ hr]
  · exact (exec_testMismatch s c p pc e a hc hp hh hb).trans (if_neg h)
  · rw [exec_threadSample s c skid pc hc hh ht hd hs]
    refine ⟨fun h => ?_, fun ho hf => ?_⟩
    · rw [State.takeSample_withheld s c skid pc h]
      exact ⟨_, rfl, rfl, State.reg_setReg_same _ _ _, s.sampledNow_no c, rfl, rfl⟩
    · rw [State.takeSample_shown s c skid f pc ho hf]
      refine ⟨_, rfl, ?_, ?_, State.trace_mem _ 5 _ _ _, fun hr => ?_⟩
      · exact (congrArg (fun m => kget 0 m c) (State.trace_sampleNo _ 5 _ _ _)).trans (s.sampledNow_no c)
      · exact (congrArg State.cores (State.trace_obs _ 5 _ _ _)).trans rfl
      · rw [State.trace_room (s.sampledNow c) 5 _ _ _ hr]
        exact ⟨rfl, rfl⟩
  · have hx : exec .lost s = .next (({ s with obs := { s.obs with lost := 0, lostSamples := 0 } }).trace 9 0 s.obs.lost s.obs.lostSamples) := by
      change execLost s = _
      have hroom : ¬ 32768 ≤ s.obs.buf.length := Nat.not_le.mpr hr.2
      simp only [execLost, Bool.or_eq_true, Bool.and_eq_true, beq_iff_eq, decide_eq_true_eq, hroom, or_false]
      exact if_neg fun h => hl.elim (fun h' => h' h.1) fun h' => h' h.2
    exact ⟨_, hx, State.trace_room _ 9 _ _ _ hr⟩
  · exact fun hr => exec_sepiaRecord s r rest hb hs hr
  · intro b at_
    have hw : WritesOnly s s.dumped := writesOnly_writeSink s _ _ _
    have hreg (x : Nat) : s.dumped.reg x = s.reg x := State.reg_congr hw.regs x
    refine ⟨_, (exec_dump_busy s hh hb).trans (congrArg Host.Outcome.next s.writeDump_eq), rfl, ?_, State.reg_setReg_same _ _ _, ?_, hw.held, hw.cores,
      fun hn _ => ?_⟩
    · exact congrArg (fun o => o.dumpNext + 1) hw.obs
    · exact fun x hx => (State.reg_setReg_other s.dumped _ hx.symm).trans (hreg x)
    · have hmem (x : Nat) : Mem.read s.dumped.mem x = (Mem.writeBytes s.mem (hostKey at_) b).read x := by
        have hd : s.dumped = s.writeMarked (hostKey at_) b false := by
          unfold State.dumped
          rw [hn, State.writeSink_host]
        rw [hd, State.read_writeMarked]
      refine ⟨fun i hi => ?_, fun x hx => ?_⟩
      · refine (hmem _).trans ((Mem.read_writeBytes_inside b s.mem (hostKey at_) i hi).trans ?_)
        rw [List.getD_eq_getElem?_getD, List.getElem?_eq_getElem hi]
        rfl
      · exact (hmem x).trans (Mem.read_writeBytes_outside b s.mem (hostKey at_) x hx)
  · change execDump s = _
    simp [execDump, hb]

end Sys2Proof.Proofs
end

section
/-! PROOFS. The mailbox and attestation (R502, R503, R507, R521). -/

namespace Sys2Proof.Machine

open Sys2Proof.Claims

/-- The command that the MC has started runs. -/
theorem onMailbox_started (s : State) {code : Nat} (f : State → State) (hr : s.mgmt.mcRestart = false) (hm : s.mgmt.mbox = some code) :
    onMailbox code f s = .next (f s) := by
  simp [onMailbox, hr, hm]

/-- What a reply leaves. -/
theorem State.mboxReply_facts (s : State) (code : Nat) (hc : code < 2 ^ 28) :
    (s.mboxReply code).mgmt = { s.mgmt with mbox := none } ∧ (s.mboxReply code).reg (mgmtReg 0x118) = 16 * code ∧
      OtherRegs (mgmtReg 0x118) s (s.mboxReply code) ∧ SameData s (s.mboxReply code) := by
  refine ⟨rfl, ?_, otherRegs_setReg s _ _, rfl, rfl⟩
  exact (State.reg_setReg_same s (mgmtReg 0x118) (16 * code)).trans (Nat.mod_eq_of_lt (by omega))

theorem State.sucStore_noBuffer (s : State) (h : s.mboxBuffer (s.mboxArg 0) 64 = none) : s.sucStore = s.mboxReply 2 := by
  simp only [State.sucStore, h]

theorem State.sucStore_some (s : State) {a : Nat} (h : s.mboxBuffer (s.mboxArg 0) 64 = some a) :
    s.sucStore = if sucOk (s.seenBytes none a 64) then
      ({ s with mgmt := { s.mgmt with suc := some (s.seenBytes none a 64) } }).mboxReply 0 else s.mboxReply 6 := by
  simp only [State.sucStore, h]

theorem State.sucLoad_noBuffer (s : State) (h : s.mboxBuffer (s.mboxArg 0) 64 = none) : s.sucLoad = s.mboxReply 2 := by
  simp only [State.sucLoad, h]

theorem State.sucLoad_some (s : State) {a : Nat} {r : List Byte} (h : s.mboxBuffer (s.mboxArg 0) 64 = some a) (hr : s.mgmt.suc = some r) :
    s.sucLoad = (s.writeMarked a r false).mboxReply 0 := by
  simp only [State.sucLoad, h, hr]

theorem State.fwStage_noBuffer (s : State) (h : s.mboxBuffer (s.mboxArg 0) (s.mboxArg 1) = none) : s.fwStage = s.mboxReply 2 := by
  simp only [State.fwStage, h]

theorem State.fwStage_refused (s : State) {a code : Nat} (h : s.mboxBuffer (s.mboxArg 0) (s.mboxArg 1) = some a)
    (hc : s.imageRefused (s.seenBytes none a (s.mboxArg 1)) = some code) : s.fwStage = s.mboxReply code := by
  simp only [State.fwStage, h, hc]

theorem State.fwStage_verified (s : State) {a : Nat} (h : s.mboxBuffer (s.mboxArg 0) (s.mboxArg 1) = some a)
    (hc : s.imageRefused (s.seenBytes none a (s.mboxArg 1)) = none) :
    s.fwStage = (s.stageImage (s.seenBytes none a (s.mboxArg 1))).mboxReply 0 := by
  simp only [State.fwStage, h, hc]

theorem State.writeInventory_noBuffer (s : State) (h : s.mboxBuffer (s.mboxArg 0) (s.mboxArg 1) = none) :
    s.writeInventory = s.mboxReply 2 := by
  simp only [State.writeInventory, h]

/-- The bytes of an inventory of n bytes: their form is not given. -/
def State.inventoryBytes (s : State) (n : Nat) : List Byte := (List.range n).map (Config.freeByte s.free)

theorem State.writeInventory_some (s : State) {a : Nat} (h : s.mboxBuffer (s.mboxArg 0) (s.mboxArg 1) = some a) :
    s.writeInventory = ({ s.writeMarked a (s.inventoryBytes (s.mboxArg 1)) false with
      free := s.free + 1 }).mboxReply 0 := by
  simp only [State.writeInventory, h]
  rfl

/-- A reply code for a refused image is one of three. -/
theorem State.imageRefused_lt (s : State) (b : List Byte) {code : Nat} (h : s.imageRefused b = some code) : code < 2 ^ 28 := by
  unfold State.imageRefused at h
  simp only [firstFail] at h
  repeat' split at h
  all_goals grind

theorem State.activeBank_stageImage (s : State) (b : List Byte) :
    (s.stageImage b).activeBank (Config.fwHeader b).1 = 1 - s.activeBank (Config.fwHeader b).1 := by
  simp [State.activeBank, State.stageImage]

theorem State.fwBank_stageImage (s : State) (b : List Byte) :
    (s.stageImage b).fwBank (Config.fwHeader b).1 (1 - s.activeBank (Config.fwHeader b).1) =
      { steppings := (Config.fwHeader b).2.1, svn := (Config.fwHeader b).2.2, image := b, delivered := false } := by
  simp [State.fwBank, State.stageImage]

/-- Bytes written with a reply: the buffer's, and no other. -/
theorem State.read_writeMarked_inside (s : State) (k : Nat) (bs : List Byte) (mark : Bool) (i : Nat) (hi : i < bs.length) :
    Mem.read (s.writeMarked k bs mark).mem (k + i) = bs.getD i 0 := by
  rw [State.read_writeMarked, Mem.read_writeBytes_inside bs _ k i hi, List.getD_eq_getElem?_getD, List.getElem?_eq_getElem hi]
  rfl

theorem sameOutside_writeMarked (s : State) (k : Nat) (bs : List Byte) (mark : Bool) : SameOutside s (s.writeMarked k bs mark) k bs.length :=
  fun a ha => (s.read_writeMarked k bs mark a).trans (Mem.read_writeBytes_outside bs _ k a ha)

/-! ### Attestation (R503) -/

theorem State.doe_setDoe_same (s : State) (f : Nat) (d : Doe) : (s.setDoe f d).doe f = d := by
  simp [State.doe, State.setDoe]

theorem State.doe_setDoe_other (s : State) {f g : Nat} (d : Doe) (h : g ≠ f) : (s.setDoe f d).doe g = s.doe g := by
  simp only [State.doe, State.setDoe]
  exact kget_kset_other _ _ _ (Ne.symm h)

theorem exec_spdmRequest (s : State) (f : Nat) (c : Byte) (rest : List Byte) (hf : f < 256) :
    exec (.spdmRequest f (0x12#8 :: c :: rest)) s =
      if spdmCodes.contains c.toNat then .next (s.spdmAnswer f c.toNat (0x12#8 :: c :: rest))
      else .next (s.setDoe f { s.doe f with reply := [0x12#8, 0x7F#8, 0x07#8, c] }) := by
  change execSpdmRequest f (0x12#8 :: c :: rest) s = _
  simp [execSpdmRequest, Nat.not_le.mpr hf]

/-- An answered request replaces its mailbox's state and no other; the reply is over the transcript before it, emptied by GET_VERSION. -/
theorem State.spdmAnswer_eq (s : State) (f code : Nat) (req : List Byte) :
    ∃ d : Doe, d.reply = Config.spdmReply req (if code = 0x84 then [] else (s.doe f).transcript) s.measurements ∧
      s.spdmAnswer f code req = ({ s with free := s.free + 1 }).setDoe f d := by
  refine ⟨_, ?_, rfl⟩
  simp only [beq_iff_eq]
  by_cases h : code = 0x84
  · subst h
    rfl
  · simp only [h, if_false]
    split <;> rfl

end Sys2Proof.Machine

namespace Sys2Proof.Proofs

open Sys2Proof.Machine Sys2Proof.Claims

/-- Settles O58, by the reply that each command leaves and the two answers to an SPDM request. -/
theorem mailboxCommands : Obligations.MailboxCommands := by
  unfold Obligations.MailboxCommands
  intro s f a code c rest n img hd suc done
  have hdone (u : State) (k : Nat) (hk : k < 2 ^ 28) (hr : ∀ b, u.reg b = s.reg b) (hh : u.held = s.held) : done (u.mboxReply k) k := by
    obtain ⟨hm, h118, hother, -, hheld⟩ := u.mboxReply_facts k hk
    exact ⟨congrArg Mgmt.mbox hm, h118, fun b hb => (hother b hb).trans (hr b), hheld.trans hh⟩
  have hnone (i : Instr) (g : State → State) (k : Nat) (hi : exec i s = onMailbox k g s) (hg : g s = s.mboxReply 2)
      (hr : s.mgmt.mcRestart = false) (hm : s.mgmt.mbox = some k) :
      ∃ u, exec i s = .next u ∧ done u 2 ∧ u.mem = s.mem ∧ u.mgmt = { s.mgmt with mbox := none } :=
    ⟨_, hi.trans ((onMailbox_started s g hr hm).trans (congrArg Host.Outcome.next hg)), hdone s 2 (by decide) (fun _ => rfl) rfl, rfl, rfl⟩
  refine ⟨fun hr => ⟨fun i k hik hm hb => ?_, fun i k hik hm hb => ?_, fun hm hb => ?_, fun r hm hb hs => ?_, fun hm hb => ⟨fun hc => ?_, fun hc => ?_⟩,
    fun hm hb => ?_⟩, fun hf => ⟨fun hc => ?_, fun hc => ?_⟩⟩
  · simp only [List.mem_cons, Prod.mk.injEq, List.not_mem_nil, or_false] at hik
    obtain ⟨rfl, rfl⟩ | ⟨rfl, rfl⟩ := hik
    · exact hnone _ State.sucStore 1 rfl (s.sucStore_noBuffer hb) hr hm
    · exact hnone _ State.sucLoad 2 rfl (s.sucLoad_noBuffer hb) hr hm
  · simp only [List.mem_cons, Prod.mk.injEq, List.not_mem_nil, or_false] at hik
    obtain ⟨rfl, rfl⟩ | ⟨rfl, rfl⟩ := hik
    · exact hnone _ State.fwStage 3 rfl (s.fwStage_noBuffer hb) hr hm
    · exact hnone _ State.writeInventory 4 rfl (s.writeInventory_noBuffer hb) hr hm
  · refine ⟨_, (onMailbox_started s State.sucStore hr hm).trans (congrArg Host.Outcome.next (s.sucStore_some hb)), ?_⟩
    by_cases hs : sucOk suc = true
    · rw [if_pos hs, if_pos hs, if_pos hs]
      exact ⟨hdone _ 0 (by decide) (fun _ => rfl) rfl, rfl, rfl⟩
    · rw [if_neg hs, if_neg hs, if_neg hs]
      exact ⟨hdone s 6 (by decide) (fun _ => rfl) rfl, rfl, rfl⟩
  · have hw := writesOnly_writeMarked s a r false
    exact ⟨_, (onMailbox_started s State.sucLoad hr hm).trans (congrArg Host.Outcome.next (s.sucLoad_some hb hs)),
      hdone _ 0 (by decide) (State.reg_congr hw.regs) hw.held, fun i hi => s.read_writeMarked_inside a r false i hi,
      sameOutside_writeMarked s a r false⟩
  · exact ⟨_, (onMailbox_started s State.fwStage hr hm).trans (congrArg Host.Outcome.next (s.fwStage_refused hb hc)),
      hdone s code (s.imageRefused_lt img hc) (fun _ => rfl) rfl, rfl, rfl, rfl⟩
  · exact ⟨_, (onMailbox_started s State.fwStage hr hm).trans (congrArg Host.Outcome.next (s.fwStage_verified hb hc)),
      hdone _ 0 (by decide) (fun _ => rfl) rfl, rfl, s.activeBank_stageImage img, s.fwBank_stageImage img⟩
  · have hw := writesOnly_writeMarked s a (s.inventoryBytes n) false
    have hlen : (s.inventoryBytes n).length = n := by simp [State.inventoryBytes]
    refine ⟨_, (onMailbox_started s State.writeInventory hr hm).trans (congrArg Host.Outcome.next (s.writeInventory_some hb)),
      hdone _ 0 (by decide) (State.reg_congr hw.regs) hw.held, ?_⟩
    have ho := sameOutside_writeMarked s a (s.inventoryBytes n) false
    rw [hlen] at ho
    exact ho
  · obtain ⟨d, hd, hx⟩ := s.spdmAnswer_eq f c.toNat (0x12#8 :: c :: rest)
    refine ⟨_, ((exec_spdmRequest s f c rest hf).trans (if_pos hc)).trans (congrArg Host.Outcome.next hx), ⟨rfl, rfl⟩, rfl, ?_, fun g hg => ?_⟩
    · rw [State.doe_setDoe_same, hd]
      have hcode : c.toNat = 0x84 ↔ c = 0x84#8 := ⟨fun h => BitVec.eq_of_toNat_eq h, fun h => h ▸ rfl⟩
      simp only [hcode]
    · exact State.doe_setDoe_other _ d hg
  · exact ⟨_, (exec_spdmRequest s f c rest hf).trans (if_neg (Bool.eq_false_iff.mp hc)), rfl, State.doe_setDoe_same s f _,
      fun g hg => State.doe_setDoe_other s _ hg⟩

end Sys2Proof.Proofs
end

section
/-! PROOFS. What a covered fault discards, recovery, and the failure of a command processor (R359, R432, R439–R442, R454). -/

namespace Sys2Proof.Machine

open Sys2Proof.Claims

/-! ### Commands that fault (R34, R361) -/

/-- Has command id faulted, to complete at the next tick? -/
def State.hasFaulted (s : State) (id : Nat) : Prop := ∃ d, s.cmd id = some d ∧ d.ends = true ∧ d.fault.isSome = true

theorem State.faultCmd_same (s : State) {id : Nat} {c : Cmd} (i : FaultInfo) (h : s.cmd id = some c) : (s.faultCmd id i).hasFaulted id := by
  refine ⟨{ c with fault := some (c.fault.getD i), ends := true }, ?_, rfl, rfl⟩
  simp [State.faultCmd, State.cmd_modCmd, h]

theorem State.faultCmd_other (s : State) {id j : Nat} (i : FaultInfo) (h : id ≠ j) : (s.faultCmd id i).cmd j = s.cmd j := by
  rw [State.faultCmd, State.cmd_modCmd, if_neg h.symm]

theorem State.hasFaulted_faultCmd {s : State} {j : Nat} (id : Nat) (i : FaultInfo) (h : s.hasFaulted j) : (s.faultCmd id i).hasFaulted j := by
  by_cases hij : id = j
  · subst hij
    obtain ⟨d, hd, -, -⟩ := h
    exact s.faultCmd_same i hd
  · obtain ⟨d, hd, he, hf⟩ := h
    exact ⟨d, (s.faultCmd_other i hij).trans hd, he, hf⟩

theorem cmdsOnly_faultCmd (s : State) (id : Nat) (i : FaultInfo) : CmdsOnly s (s.faultCmd id i) := cmdsOnly_modCmd id _ rfl

/-! ### The re-check of an image's hops (R217, R220) -/

/-- Nothing but commands may differ, and which image a partition refuses for its hops. -/
def RecheckOnly (s u : State) : Prop :=
  u = { s with cmds := u.cmds, parts := u.parts } ∧ ∀ q, ∃ h, u.part q = { s.part q with hopRefused := h }

theorem recheckOnly_modPart (s : State) (p : Nat) (h : Option (Nat × Nat)) : RecheckOnly s (s.modPart p ({ · with hopRefused := h })) := by
  refine ⟨rfl, fun q => ?_⟩
  by_cases hq : p = q
  · subst hq
    exact ⟨h, s.part_modPart_same p _⟩
  · exact ⟨(s.part q).hopRefused, s.part_modPart_other _ hq⟩

theorem State.recheck_only (s : State) (p : Nat) : RecheckOnly s (s.recheck p) := by
  have hself : RecheckOnly s s := ⟨rfl, fun q => ⟨_, rfl⟩⟩
  unfold State.recheck
  split
  · exact hself
  next m hm =>
    refine iteInduction (motive := RecheckOnly s) (fun _ => recheckOnly_modPart s p none) fun _ => ?_
    dsimp only
    split
    next id hid =>
      obtain ⟨h1, h2⟩ := recheckOnly_modPart s p (some (m.addr, Img.crc m.bytes))
      have hc := cmdsOnly_faultCmd (s.modPart p ({ · with hopRefused := some (m.addr, Img.crc m.bytes) })) id
        { reason := rHop, source := 5, unit := p }
      unfold CmdsOnly at hc
      refine ⟨?_, fun q => ?_⟩
      · rw [hc]
        rfl
      · rw [hc]
        exact h2 q
    · exact recheckOnly_modPart s p _

/-! ### A covered fault (R439–R442) -/

/-- Is the mirror of the sealed frame not complete: the case B of a recovery (R439)? -/
def Part.caseB (x : Part) : Bool := (x.sealed.map fun f => !f.mirrored).getD false

/-- The first ordinal to run again. -/
def Part.againFrom (x : Part) : Nat := if x.caseB then x.ord - 1 else x.ord

/-- The recovery that a fault begins. -/
def State.recovOf (s : State) (p kind : Nat) : Recov :=
  { caseB := (s.part p).caseB
    restoreOrd := if (s.part p).againFrom == 0 then none else some ((s.part p).againFrom - 1)
    firstOrd := (s.part p).againFrom
    kind := kind
    began := (s.part p).discarded s.tick (s.part p).caseB }

/-- The partition that a fault stops, its uncommitted frames discarded. -/
def State.struck (s : State) (p kind : Nat) : State :=
  (s.modPart p fun x => { x with
    recov := some (s.recovOf p kind), frame := none, slips := 0, fastNext := false
    sealed := if (s.part p).caseB then none else x.sealed }).discardFrom p (s.part p).againFrom

/-- What its function's registers, its counters and the trace then show, its windows parked. -/
def State.shown (s : State) (p f kind first tick : Nat) (caseB : Bool) : State :=
  let s3 := ((s.count (bar0 f 0xA340) 1).setWide (bar0 f 0xA344) (tick + 1)).setReg (bar0 f 0xA34C) (kind % 8 + 8 * natOf caseB)
  let s4 := { s3 with obs := { s3.obs with partCnt := kmod 0 s3.obs.partCnt (4 * p + 2) (· + 1) } }
  (s4.park p true).trace 4 f (5 + 2 ^ 8 * kind) first

theorem State.strike_eq (s : State) (p kind first : Nat) (hv : (s.part p).valid = true) (hs : (s.part p).stopped = false)
    (hr : (s.part p).recov = none) :
    s.strike p kind first = ((s.struck p kind).shown p (s.part p).func kind first s.tick (s.part p).caseB).recheck p := by
  unfold State.strike
  simp only [hv, hs, hr, Bool.not_true, Bool.or_self, Bool.false_eq_true, if_false, Option.isSome_none]
  rfl

/-- Registers, counters, the trace and the windows may differ. -/
def ShownOnly (s u : State) : Prop := u = { s with regs := u.regs, obs := u.obs, links := u.links }

theorem ShownOnly.trans {s u w : State} (h : ShownOnly s u) (h' : ShownOnly u w) : ShownOnly s w := by
  unfold ShownOnly at h h' ⊢
  rw [h', h]

theorem shownOnly_regs {s u : State} (h : RegsOnly s u) : ShownOnly s u := by
  unfold RegsOnly at h
  unfold ShownOnly
  rw [h]

theorem shownOnly_trace (s : State) (type func arg0 arg1 : Nat) : ShownOnly s (s.trace type func arg0 arg1) := by
  have h := s.trace_obs type func arg0 arg1
  unfold ShownOnly
  rw [h]

theorem State.shown_only (s : State) (p f kind first tick : Nat) (caseB : Bool) : ShownOnly s (s.shown p f kind first tick caseB) := by
  have h1 : RegsOnly s (s.count (bar0 f 0xA340) 1) := rfl
  have h2 : ∀ (u : State) (a v : Nat), RegsOnly u (u.setWide a v) := fun _ _ _ => rfl
  have h3 : ∀ (u : State) (a v : Nat), RegsOnly u (u.setReg a v) := fun _ _ _ => rfl
  have h4 : ∀ (u : State) (m : KMap Nat), ShownOnly u { u with obs := { u.obs with partCnt := m } } := fun _ _ => rfl
  have h5 : ∀ u : State, ShownOnly u (u.park p true) := fun _ => rfl
  unfold State.shown
  exact ((((shownOnly_regs h1).trans (shownOnly_regs (h2 _ _ _))).trans (shownOnly_regs (h3 _ _ _))).trans
    (h4 _ _)).trans ((h5 _).trans (shownOnly_trace _ 4 f _ first))

theorem State.shown_count (s : State) (p f kind first tick : Nat) (caseB : Bool) :
    (s.shown p f kind first tick caseB).reg (bar0 f 0xA340) = (s.reg (bar0 f 0xA340) + 1) % 2 ^ 32 := by
  have hne : ∀ off, 0xA344 ≤ off → bar0 f off ≠ bar0 f 0xA340 := fun off h => by unfold bar0; omega
  have hregs : bar0 f 0xA340 ∉ [obsReg 0x408, obsReg 0x518] := by
    simp only [List.mem_cons, List.not_mem_nil, or_false, not_or, bar0, obsReg]
    omega
  have h34C : ∀ (u : State) (v : Nat), (u.setReg (bar0 f 0xA34C) v).reg (bar0 f 0xA340) = u.reg (bar0 f 0xA340) :=
    fun u v => State.reg_setReg_other u v (hne 0xA34C (by decide))
  have hwide : ∀ (u : State) (v : Nat), (u.setWide (bar0 f 0xA344) v).reg (bar0 f 0xA340) = u.reg (bar0 f 0xA340) := fun u v =>
    (State.reg_setReg_other _ _ (hne 0xA348 (by decide))).trans (State.reg_setReg_other _ _ (hne 0xA344 (by decide)))
  have hcount : (s.count (bar0 f 0xA340) 1).reg (bar0 f 0xA340) = (s.reg (bar0 f 0xA340) + 1) % 2 ^ 32 := State.reg_setReg_same _ _ _
  have hpark : ∀ (u : State) (m : KMap Nat) (a : Nat), (State.park { u with obs := { u.obs with partCnt := m } } p true).reg a = u.reg a :=
    fun _ _ _ => rfl
  unfold State.shown
  rw [regsBut_trace _ 4 f _ first _ hregs, hpark, h34C, hwide, hcount]

theorem State.shown_part (s : State) (p f kind first tick : Nat) (caseB : Bool) (q : Nat) :
    (s.shown p f kind first tick caseB).part q = s.part q := by
  have h := s.shown_only p f kind first tick caseB
  unfold ShownOnly at h
  rw [h]
  rfl

theorem State.struck_held (s : State) (p kind : Nat) (h : Held) :
    h ∈ (s.struck p kind).held ↔ h ∈ s.held ∧ ¬ (h.part = p ∧ (s.part p).againFrom ≤ h.ord ∧ h.committed = false) := by
  change h ∈ s.held.filter _ ↔ _
  simp only [List.mem_filter, Bool.not_eq_true', Bool.and_eq_false_iff, beq_eq_false_iff_ne, decide_eq_false_iff_not, Bool.not_eq_false',
    not_and_or, Bool.not_eq_false, or_assoc, ne_eq]

theorem State.part_discardFrom (s : State) (p ord q : Nat) : (s.discardFrom p ord).part q = s.part q := rfl

theorem State.struck_part_same (s : State) (p kind : Nat) :
    (s.struck p kind).part p = { s.part p with
      recov := some (s.recovOf p kind), frame := none, slips := 0, fastNext := false
      sealed := if (s.part p).caseB then none else (s.part p).sealed } := by
  unfold State.struck
  rw [State.part_discardFrom, State.part_modPart_same]

theorem State.struck_part_other (s : State) (p kind : Nat) {q : Nat} (h : p ≠ q) : (s.struck p kind).part q = s.part q := by
  unfold State.struck
  rw [State.part_discardFrom, State.part_modPart_other _ _ h]

/-- What a covered fault of a running partition leaves. -/
theorem State.strike_facts (s : State) (p kind first : Nat) (hv : (s.part p).valid = true) (hs : (s.part p).stopped = false)
    (hr : (s.part p).recov = none) :
    let u := s.strike p kind first
    (∃ h, u.part p = { (s.struck p kind).part p with hopRefused := h }) ∧ (∀ q, p ≠ q → ∃ h, u.part q = { s.part q with hopRefused := h }) ∧
      u.held = (s.struck p kind).held ∧ u.mem = s.mem ∧ u.cores = s.cores ∧
      u.reg (bar0 (s.part p).func 0xA340) = (s.reg (bar0 (s.part p).func 0xA340) + 1) % 2 ^ 32 := by
  intro u
  have hstruck : ∀ a, (s.struck p kind).reg a = s.reg a := fun _ => rfl
  have hmem : (s.struck p kind).mem = s.mem := rfl
  have hcores : (s.struck p kind).cores = s.cores := rfl
  have hshown := (s.struck p kind).shown_only p (s.part p).func kind first s.tick (s.part p).caseB
  have hcount := (s.struck p kind).shown_count p (s.part p).func kind first s.tick (s.part p).caseB
  have hpart := (s.struck p kind).shown_part p (s.part p).func kind first s.tick (s.part p).caseB
  have hu : u = _ := s.strike_eq p kind first hv hs hr
  obtain ⟨honly, hparts⟩ := ((s.struck p kind).shown p (s.part p).func kind first s.tick (s.part p).caseB).recheck_only p
  rw [← hu] at honly hparts
  generalize (s.struck p kind).shown p (s.part p).func kind first s.tick (s.part p).caseB = w at hshown hcount hpart honly hparts
  unfold ShownOnly at hshown
  refine ⟨?_, fun q hq => ?_, ?_, ?_, ?_, ?_⟩
  · rw [← hpart p]
    exact hparts p
  · rw [← s.struck_part_other p kind hq, ← hpart q]
    exact hparts q
  · exact ((congrArg State.held honly).trans rfl).trans ((congrArg State.held hshown).trans rfl)
  · exact (((congrArg State.mem honly).trans rfl).trans ((congrArg State.mem hshown).trans rfl)).trans hmem
  · exact (((congrArg State.cores honly).trans rfl).trans ((congrArg State.cores hshown).trans rfl)).trans hcores
  · rw [State.reg_congr ((congrArg State.regs honly).trans rfl : u.regs = w.regs), hcount, hstruck]

/-! ### The command processors (R359, R454) -/

/-- The fetched commands that are given back: registers, commands and queues may differ. -/
def UnfetchOnly (s u : State) : Prop := u = { s with regs := u.regs, cmds := u.cmds, queues := u.queues }

/-- One command given back where it has not been accepted. -/
def State.giveBack (s : State) (x : Nat × Option Cmd) : State :=
  match x.2 with
  | some c =>
    if c.accepted.isSome then s
    else
      ((s.setCmd x.1 none).setReg (queueReg c.func c.q 0x10) ((s.field (queueReg c.func c.q 0x10) 0 16 + s.sqSize c.func c.q - 1) % s.sqSize c.func c.q)).modQueue
        c.func c.q fun u => { u with reserved := u.reserved - 2 }
  | none => s

theorem State.unfetch_eq (s : State) : s.unfetch = s.cmds.foldl State.giveBack s := rfl

theorem State.giveBack_kept (s : State) (x : Nat × Option Cmd) (h : ∀ c, x.2 = some c → c.accepted ≠ none) : s.giveBack x = s := by
  obtain ⟨id, o⟩ := x
  cases o with
  | none => rfl
  | some c => exact if_pos (Option.isSome_iff_ne_none.mpr (h c rfl))

theorem State.giveBack_only (s : State) (x : Nat × Option Cmd) : UnfetchOnly s (s.giveBack x) := by
  unfold State.giveBack
  split
  · exact iteInduction (motive := UnfetchOnly s) (fun _ => rfl) fun _ => rfl
  · rfl

theorem State.giveBack_cmd (s : State) (x : Nat × Option Cmd) (j : Nat) :
    (s.giveBack x).cmd j = s.cmd j ∨ x.1 = j ∧ (s.giveBack x).cmd j = none := by
  unfold State.giveBack
  split
  · refine iteInduction (motive := fun u : State => u.cmd j = s.cmd j ∨ x.1 = j ∧ u.cmd j = none) (fun _ => .inl rfl) fun _ => ?_
    by_cases hj : x.1 = j
    · exact .inr ⟨hj, hj ▸ kget_kset_same none s.cmds x.1 none⟩
    · exact .inl (kget_kset_other none s.cmds none hj)
  · exact .inl rfl

theorem State.giveBack_gone (s : State) {id : Nat} {c : Cmd} (h : c.accepted = none) : (s.giveBack (id, some c)).cmd id = none := by
  simp only [State.giveBack, h, Option.isSome_none, Bool.false_eq_true, if_false]
  exact kget_kset_same none s.cmds id none

/-- Commands given back one after the other. -/
theorem giveBack_foldl (l : List (Nat × Option Cmd)) (s : State) :
    UnfetchOnly s (l.foldl State.giveBack s) ∧
      (∀ id, s.cmd id = none → (l.foldl State.giveBack s).cmd id = none) ∧
      (∀ id c, (id, some c) ∈ l → c.accepted = none → (l.foldl State.giveBack s).cmd id = none) ∧
      (∀ id, (∀ c, (id, some c) ∈ l → c.accepted ≠ none) → (l.foldl State.giveBack s).cmd id = s.cmd id) := by
  induction l generalizing s with
  | nil => exact ⟨rfl, fun _ h => h, fun _ _ h => absurd h List.not_mem_nil, fun _ _ => rfl⟩
  | cons x xs ih =>
    obtain ⟨honly, hnone, hgone, hkept⟩ := ih (s.giveBack x)
    have hx := s.giveBack_only x
    refine ⟨?_, fun id h => ?_, fun id c hc ha => ?_, fun id h => ?_⟩
    · unfold UnfetchOnly at honly hx ⊢
      rw [List.foldl_cons, honly, hx]
    · refine hnone id ?_
      obtain he | ⟨-, he⟩ := s.giveBack_cmd x id
      · rw [he, h]
      · exact he
    · obtain rfl | hc := List.mem_cons.mp hc
      · exact hnone id (s.giveBack_gone ha)
      · exact hgone id c hc ha
    · rw [List.foldl_cons, hkept id fun c hc => h c (List.mem_cons_of_mem x hc)]
      by_cases hid : x.1 = id
      · rw [s.giveBack_kept x fun c hc => h c (by subst hid; rw [← hc]; exact List.mem_cons_self)]
      · obtain he | ⟨he, -⟩ := s.giveBack_cmd x id
        · exact he
        · exact absurd he hid

/-- What a failure of the active command processor sees: the tick window's further admissions left to the next tick. -/
def State.cutAdmissions (s : State) : State :=
  { s with cp := { s.cp with
    admitLimit := if s.subtick ≤ 15 then min s.cp.admitLimit s.cp.admittedNow else s.cp.admitLimit } }

theorem exec_cpFailover (s : State) (h : s.halted = false) : exec .cpFailover s = .next s.cutAdmissions.failCp := by
  change execCpFailover s = _
  unfold execCpFailover
  rw [h]
  rfl

/-- The state of the standby as it takes over. -/
def State.standbyOn (s : State) : State :=
  ((({ s with cp := { s.cp with cpB := !s.cp.cpB, standby := false } }).setField (cpReg 0) 0 1 (natOf (!s.cp.cpB))).clearBit (cpReg 0) 1).count
    (cpReg 0x18) 1

theorem State.failCp_standby (s : State) (h : s.cp.standby = true) : s.failCp = s.standbyOn.unfetch := if_pos h

theorem State.failCp_alone (s : State) (h : s.cp.standby = false) : s.failCp = (List.range 8).foldl (fun s p => s.stopSpans p 0x33 5 p) s :=
  if_neg (by simp [h])

/-! ### The spans of a partition fault (R426) -/

/-- Does the partition run the span, as the command table stands? -/
theorem State.mem_spansOf (s : State) (q id : Nat) :
    id ∈ s.spansOf q ↔ (∃ c, (id, some c) ∈ s.cmds ∧ c.admitted.isSome = true ∧ s.inPart q c.func = true) ∧
      ((s.cmd id).map Cmd.isSpan).getD false = true := by
  simp only [State.spansOf, State.runsIn, List.mem_filter, List.mem_filterMap]
  refine and_congr_left fun _ => ⟨fun ⟨x, hx, h⟩ => ?_, fun ⟨c, hc, ha, hi⟩ => ⟨(id, some c), hc, by simp [ha, hi]⟩⟩
  obtain ⟨j, o⟩ := x
  cases o with
  | none => exact absurd h (by simp)
  | some c =>
    simp only [Option.bind_some, Option.ite_none_right_eq_some, Bool.and_eq_true, Option.some.injEq] at h
    obtain ⟨⟨ha, hi⟩, rfl⟩ := h
    exact ⟨c, hx, ha, hi⟩

theorem inPart_of_cmdsOnly {s u : State} (h : CmdsOnly s u) (q f : Nat) : u.inPart q f = s.inPart q f := by
  unfold CmdsOnly at h
  rw [h]
  rfl

theorem mem_kerase_of_ne {α : Type} {i : Nat} {x : Nat × α} (hi : i ≠ x.1) : ∀ {m : KMap α}, x ∈ m → x ∈ kerase m i
  | (k, v) :: t, h => by
    simp only [kerase]
    obtain rfl | h := List.mem_cons.mp h
    · rw [if_neg (Ne.symm hi)]
      exact List.mem_cons_self
    · split
      · exact mem_kerase_of_ne hi h
      · exact List.mem_cons_of_mem _ (mem_kerase_of_ne hi h)

theorem mem_kinsert_of_mem {α : Type} {i : Nat} {w : α} {x : Nat × α} : ∀ {m : KMap α}, x ∈ m → x ∈ kinsert m i w
  | (k, v) :: t, h => by
    simp only [kinsert]
    split
    · exact List.mem_cons_of_mem _ h
    · obtain rfl | h := List.mem_cons.mp h
      · exact List.mem_cons_self
      · exact List.mem_cons_of_mem _ (mem_kinsert_of_mem h)

theorem mem_kset_of_ne {α : Type} [DecidableEq α] {d : α} {m : KMap α} {i : Nat} {w : α} {x : Nat × α} (hi : i ≠ x.1) (h : x ∈ m) :
    x ∈ kset d m i w := by
  unfold kset
  split
  · exact mem_kerase_of_ne hi h
  · exact mem_kinsert_of_mem (mem_kerase_of_ne hi h)

/-- A span that another command's fault leaves running. -/
theorem mem_spansOf_faultCmd {s : State} {q id j : Nat} (i : FaultInfo) (hj : j ≠ id) (h : id ∈ s.spansOf q) : id ∈ (s.faultCmd j i).spansOf q := by
  obtain ⟨⟨c, hc, ha, hi⟩, hspan⟩ := (s.mem_spansOf q id).mp h
  refine (State.mem_spansOf _ q id).mpr ⟨⟨c, ?_, ha, ?_⟩, ?_⟩
  · have hmem : (id, some c) ∈ (s.modCmd j fun c => { c with fault := some (c.fault.getD i), ends := true }).cmds := by
      unfold State.modCmd
      split
      · exact hc
      next d hd =>
        have hset : ∀ o, (s.setCmd j o).cmds = kset none s.cmds j o := fun _ => rfl
        rw [hset]
        exact mem_kset_of_ne (x := (id, some c)) hj hc
    exact hmem
  · rw [inPart_of_cmdsOnly (cmdsOnly_faultCmd s j i), hi]
  · rw [s.faultCmd_other i hj, hspan]

/-- Has the command faulted, or is it a span that partition q runs? -/
def State.stopping (s : State) (q id : Nat) : Prop := s.hasFaulted id ∨ id ∈ s.spansOf q ∧ ∃ c, s.cmd id = some c

theorem stopping_faultCmd {s : State} {q id : Nat} (j : Nat) (i : FaultInfo) (h : s.stopping q id) : (s.faultCmd j i).stopping q id := by
  obtain h | ⟨hm, c, hc⟩ := h
  · exact .inl (State.hasFaulted_faultCmd j i h)
  · by_cases hj : j = id
    · subst hj
      exact .inl (s.faultCmd_same i hc)
    · exact .inr ⟨mem_spansOf_faultCmd i hj hm, c, (s.faultCmd_other i hj).trans hc⟩

theorem stopping_stopSpans {s : State} {q id : Nat} (p reason source unit : Nat) (h : s.stopping q id) :
    (s.stopSpans p reason source unit).stopping q id := by
  unfold State.stopSpans
  exact List.foldlRecOn (motive := fun u : State => u.stopping q id) _ _ h fun _ hu j _ => stopping_faultCmd j _ hu

/-- Every command of a list faults. -/
theorem hasFaulted_foldl (i : FaultInfo) (id : Nat) (l : List Nat) (s : State) (h : s.hasFaulted id ∨ id ∈ l ∧ ∃ c, s.cmd id = some c) :
    (l.foldl (fun s j => s.faultCmd j i) s).hasFaulted id := by
  induction l generalizing s with
  | nil => exact h.resolve_right fun h' => absurd h'.1 List.not_mem_nil
  | cons j l ih =>
    refine ih _ ?_
    obtain h | ⟨hm, c, hc⟩ := h
    · exact .inl (State.hasFaulted_faultCmd j i h)
    · by_cases hj : j = id
      · subst hj
        exact .inl (s.faultCmd_same i hc)
      · exact .inr ⟨(List.mem_cons.mp hm).resolve_left (Ne.symm hj), c, (s.faultCmd_other i hj).trans hc⟩

theorem stopSpans_faulted {s : State} {q id : Nat} (reason source unit : Nat) (h : s.stopping q id) :
    (s.stopSpans q reason source unit).hasFaulted id := hasFaulted_foldl _ id _ s h

/-- Stopping the spans of partitions one after the other leaves every span of each faulted. -/
theorem stopAll_faulted (l : List Nat) (s : State) {q id : Nat} (h : s.hasFaulted id ∨ q ∈ l ∧ s.stopping q id) :
    (l.foldl (fun s p => s.stopSpans p 0x33 5 p) s).hasFaulted id := by
  induction l generalizing s with
  | nil => exact h.resolve_right fun h' => absurd h'.1 List.not_mem_nil
  | cons p l ih =>
    refine ih _ ?_
    obtain h | ⟨hm, hst⟩ := h
    · refine .inl ?_
      have hst : (s.stopSpans p 0x33 5 p).hasFaulted id := hasFaulted_foldl _ id _ s (.inl h)
      exact hst
    · by_cases hp : q = p
      · subst hp
        exact .inl (stopSpans_faulted 0x33 5 q hst)
      · exact .inr ⟨(List.mem_cons.mp hm).resolve_left hp, stopping_stopSpans p 0x33 5 p hst⟩

theorem cmdsOnly_stopAll (l : List Nat) (s : State) : CmdsOnly s (l.foldl (fun s p => s.stopSpans p 0x33 5 p) s) :=
  List.foldlRecOn (motive := fun u => CmdsOnly s u) _ _ rfl fun _ hu p _ => cmdsOnly_stopSpans p 0x33 5 p hu

/-! ### Recovery (R440) -/

theorem State.restorePart_ends (s : State) (p : Nat) (r : Recov) :
    ∃ w : State, s.restorePart p r = w.modPart p ({ · with recov := some { r with restored := true }, ord := r.firstOrd }) := by
  unfold State.restorePart
  dsimp only
  split
  · split
    · exact ⟨_, rfl⟩
    · exact ⟨_, rfl⟩
  · exact ⟨_, rfl⟩
  · exact ⟨_, rfl⟩
  · split
    · exact ⟨_, rfl⟩
    · split
      · exact ⟨_, rfl⟩
      · exact ⟨_, rfl⟩

theorem exec_recovery (s : State) {p : Nat} {r : Recov} (hp : p < 8) (hh : s.halted = false) (hr : (s.part p).recov = some r)
    (hn : r.restored = false) : exec (.recovery p) s = .next (s.restorePart p r) := by
  change execRecovery p s = _
  simp [execRecovery, Nat.not_le.mpr hp, hh, hr, hn]

end Sys2Proof.Machine

namespace Sys2Proof.Proofs

open Sys2Proof.Machine Sys2Proof.Claims

/-- Settles O51, by what a strike discards, how a recovery ends, and the two cases of a failover. -/
theorem strikesAndFailover : Obligations.StrikesAndFailover := by
  unfold Obligations.StrikesAndFailover
  intro s p kind first n hp x cut
  refine ⟨fun hv hs hr => ?_, fun hh => ⟨fun r hr hn => ?_, fun hr => ?_, ?_, fun hb => ?_, fun hb => ?_⟩⟩
  · intro u caseB ord
    obtain ⟨⟨h, hpart⟩, -, hheld, -, -, hreg⟩ := s.strike_facts p kind first hv hs hr
    have hpart : u.part p = { s.part p with
        recov := some (s.recovOf p kind), frame := none, slips := 0, fastNext := false, hopRefused := h
        sealed := if (s.part p).caseB then none else (s.part p).sealed } := hpart.trans (by rw [s.struck_part_same])
    refine ⟨⟨s.recovOf p kind, ?_, rfl, rfl, rfl, ?_⟩, ?_, ?_, ?_, fun h => ?_, hreg⟩
    · rw [hpart]
    · simp only [State.recovOf, beq_iff_eq]
      rfl
    · rw [hpart]
    · rw [hpart]
    · rw [hpart]
    · exact (iff_of_eq (congrArg (h ∈ ·) hheld)).trans (s.struck_held p kind h)
  · obtain ⟨w, hw⟩ := s.restorePart_ends p r
    refine ⟨_, (exec_recovery s hp hh hr hn).trans (congrArg Host.Outcome.next hw), ?_, ?_⟩
    · rw [State.part_modPart_same]
    · rw [State.part_modPart_same]
  · change execRecovery p s = _
    have hr : (s.part p).recov = none := hr
    simp [execRecovery, Nat.not_le.mpr hp, hr]
  · change execFaultDetection _ s = _
    unfold execFaultDetection
    rw [hh]
    rfl
  · have hstand : s.cutAdmissions.cp.standby = true := hb
    obtain ⟨honly, -, hgone, hkept⟩ := giveBack_foldl s.cutAdmissions.standbyOn.cmds s.cutAdmissions.standbyOn
    unfold UnfetchOnly at honly
    refine ⟨_, (exec_cpFailover s hh).trans (congrArg Host.Outcome.next ((State.failCp_standby _ hstand).trans (State.unfetch_eq _))), ?_,
      hgone, hkept, ⟨?_, ?_⟩, ?_⟩
    · rw [honly]
      rfl
    · rw [honly]
      rfl
    · rw [honly]
      rfl
    · rw [honly]
      rfl
  · have halone : s.cutAdmissions.cp.standby = false := hb
    have honly := cmdsOnly_stopAll (List.range 8) s.cutAdmissions
    unfold CmdsOnly at honly
    refine ⟨_, (exec_cpFailover s hh).trans (congrArg Host.Outcome.next (State.failCp_alone _ halone)), ?_, ⟨?_, ?_⟩, fun q id c hq hm hc => ?_⟩
    · rw [honly]
      rfl
    · rw [honly]
      rfl
    · rw [honly]
      rfl
    · exact stopAll_faulted (List.range 8) s.cutAdmissions (q := q) (.inr ⟨List.mem_range.mpr hq, .inr ⟨hm, c, hc⟩⟩)

end Sys2Proof.Proofs
end

section
/-! PROOFS. Function and device reset, power-down, removal, loss of power (R337, R369, R453, R497, R499, R512, R521, R554). -/

namespace Sys2Proof.Machine

open Sys2Proof.Claims

/-! ### Function reset (R369, R536) -/

/-- A change of the pairs whose key p selects shows at those keys, where it leaves the default's projection. -/
theorem kget_map_if {α β : Type} (d : α) (p : Nat → Bool) (g : α → α) (proj : α → β) (hd : proj (g d) = proj d) (m : KMap α) (k : Nat) :
    proj (kget d (m.map fun x => if p x.1 then (x.1, g x.2) else x) k) = if p k then proj (g (kget d m k)) else proj (kget d m k) := by
  induction m with
  | nil => simp [kget, hd]
  | cons c cs ih =>
    obtain ⟨i, v⟩ := c
    rw [List.map_cons]
    by_cases hi : i = k
    · subst hi
      cases p i <;> simp [kget]
    · cases p i <;> simp [kget, hi, ih]

/-- The queue as a function reset leaves it. -/
def Queue.reset (u : Queue) : Queue := { u with on := false, phase := true, held := u.unread ++ u.held, unread := [], last := none }

/-- A function reset before the queues show what they hold. -/
def State.clearedFor (s : State) (f : Nat) : State :=
  { s with
    regs := s.regs.filter fun x => !(decide (bar0 f 0 ≤ x.1) && decide (x.1 < bar0 f 0x10000)) || keptByFlr (x.1 - bar0 f 0)
    latches := s.latches.filter fun x => !(x.1 / 2 ^ 32 == f)
    stages := s.stages.filter fun x => !(x.1 / 2 ^ 32 == f)
    queues := s.queues.map fun x => if x.1 / 64 == f then (x.1, x.2.reset) else x }

theorem State.functionReset_eq (s : State) (f : Nat) :
    s.functionReset f = (List.range 64).foldl (fun s q => s.markHeld f q) (s.clearedFor f) := rfl

theorem exec_functionReset (s : State) {f : Nat} (h : f < 256) : exec (.functionReset f) s = .next (s.functionReset f) := by
  change execFunctionReset f s = _
  simp [execFunctionReset, Nat.not_le.mpr h]

theorem State.clearedFor_queue (s : State) {f q : Nat} (hq : q < 64) :
    ((s.clearedFor f).queue f q).on = false ∧ ((s.clearedFor f).queue f q).held = (s.queue f q).unread ++ (s.queue f q).held ∧
      ((s.clearedFor f).queue f q).unread = [] := by
  have hkey : ((64 * f + q) / 64 == f) = true := by
    rw [beq_iff_eq]
    omega
  have h : (fun u : Queue => (u.on, u.held, u.unread)) ((s.clearedFor f).queue f q) = _ :=
    kget_map_if {} (fun i => i / 64 == f) Queue.reset (fun u => (u.on, u.held, u.unread)) rfl s.queues (64 * f + q)
  rw [hkey] at h
  obtain ⟨hon, hrest⟩ := Prod.mk.inj h
  obtain ⟨hheld, hun⟩ := Prod.mk.inj hrest
  exact ⟨hon, hheld, hun⟩

theorem resetWord_bar0 (f o : Nat) : resetWord (bar0 f o) = 0 := by
  refine resetWord_eq_zero ?_ ?_ ?_
  · simp only [List.mem_cons, List.not_mem_nil, or_false, not_or, bar0, almReg, collReg, obsReg, mgmtReg, gidReg]
    omega
  · simp only [bar0, tierReg]
    omega
  · unfold bar0
    omega

theorem State.clearedFor_reg (s : State) (f a : Nat) :
    (s.clearedFor f).reg a =
      if a < bar0 f 0 ∨ bar0 f 0x10000 ≤ a ∨ keptByFlr (a - bar0 f 0) = true then s.reg a else resetWord a := by
  refine (kget_filter (resetWord a) (fun i => !(decide (bar0 f 0 ≤ i) && decide (i < bar0 f 0x10000)) || keptByFlr (i - bar0 f 0)) s.regs a).trans ?_
  refine if_congr ?_ rfl rfl
  simp only [Bool.or_eq_true, Bool.not_eq_true', Bool.and_eq_false_iff, decide_eq_false_iff_not, Nat.not_le, Nat.not_lt, or_assoc]

/-- What showing the queues' held records leaves, and shows. -/
theorem markHeld_foldl (f : Nat) (l : List Nat) (s : State) :
    RegsOnly s (l.foldl (fun s q => s.markHeld f q) s) ∧
      (∀ a, (∀ q ∈ l, a ≠ queueReg f q 0x2C) → (l.foldl (fun s q => s.markHeld f q) s).reg a = s.reg a) ∧
      ∀ q ∈ l, q < 64 → (l.foldl (fun s q => s.markHeld f q) s).bit (queueReg f q 0x2C) 4 = !(s.queue f q).held.isEmpty := by
  induction l generalizing s with
  | nil => exact ⟨rfl, fun _ _ => rfl, fun q h => absurd h List.not_mem_nil⟩
  | cons p l ih =>
    obtain ⟨honly, hother, hbit⟩ := ih (s.markHeld f p)
    have hp : RegsOnly s (s.markHeld f p) := regsOnly_setField s _ _ _ _
    have hqueue (q : Nat) : (s.markHeld f p).queue f q = s.queue f q := rfl
    refine ⟨regsOnly_trans hp honly, fun a ha => ?_, fun q hq hlt => ?_⟩
    · rw [List.foldl_cons, hother a fun q hq => ha q (List.mem_cons_of_mem p hq)]
      exact State.reg_setReg_other s _ (Ne.symm (ha p List.mem_cons_self))
    · by_cases hl : q ∈ l
      · rw [List.foldl_cons, hbit q hl hlt, hqueue]
      · obtain rfl := (List.mem_cons.mp hq).resolve_right hl
        have hsame : (l.foldl (fun s q => s.markHeld f q) (s.markHeld f q)).reg (queueReg f q 0x2C) = (s.markHeld f q).reg (queueReg f q 0x2C) := by
          refine hother _ fun r hr he => ?_
          have hqr : q = r := by
            unfold queueReg bar0 at he
            omega
          exact hl (hqr ▸ hr)
        have hmark : (s.markHeld f q).field (queueReg f q 0x2C) 4 1 = natOf (!(s.queue f q).held.isEmpty) % 2 ^ 1 :=
          State.field_setField_same s _ 4 1 _ (by omega)
        rw [List.foldl_cons, State.bit_congr hsame, State.bit_eq, hmark]
        cases (s.queue f q).held.isEmpty <;> rfl

/-! ### Device reset (R369, R453) -/

/-- What a strike keeps: records, stops, recoveries under way and committed writes; and it begins one where the partition runs. -/
def StrikeKeeps (s u : State) : Prop :=
  (∀ q, (u.part q).valid = (s.part q).valid ∧ (u.part q).stopped = (s.part q).stopped ∧ ((s.part q).recov.isSome = true → (u.part q).recov.isSome = true)) ∧
    ∀ h, h ∈ s.held → h.committed = true → h ∈ u.held

theorem strikeKeeps_rfl (s : State) : StrikeKeeps s s := ⟨fun _ => ⟨rfl, rfl, fun h => h⟩, fun _ h _ => h⟩

theorem StrikeKeeps.trans {s u w : State} (h : StrikeKeeps s u) (h' : StrikeKeeps u w) : StrikeKeeps s w :=
  ⟨fun q => ⟨(h'.1 q).1.trans (h.1 q).1, (h'.1 q).2.1.trans (h.1 q).2.1, fun hr => (h'.1 q).2.2 ((h.1 q).2.2 hr)⟩,
    fun x hx hc => h'.2 x (h.2 x hx hc) hc⟩

/-- A covered fault of a partition in no recovery begins one where it runs, and nothing where it does not. -/
theorem State.strike_keeps (s : State) (p kind first : Nat) (hr : (s.part p).recov = none) :
    StrikeKeeps s (s.strike p kind first) ∧
      ((s.part p).valid = true → (s.part p).stopped = false → ((s.strike p kind first).part p).recov.isSome = true) := by
  by_cases hrun : (s.part p).valid = true ∧ (s.part p).stopped = false
  · obtain ⟨⟨h, hsame⟩, hother, hheld, -, -, -⟩ := s.strike_facts p kind first hrun.1 hrun.2 hr
    have hp : (s.strike p kind first).part p = { s.part p with
        recov := some (s.recovOf p kind), frame := none, slips := 0, fastNext := false, hopRefused := h
        sealed := if (s.part p).caseB then none else (s.part p).sealed } := hsame.trans (by rw [s.struck_part_same])
    refine ⟨⟨fun q => ?_, fun x hx hc => ?_⟩, fun _ _ => ?_⟩
    · by_cases hq : p = q
      · subst hq
        rw [hp]
        exact ⟨rfl, rfl, fun _ => rfl⟩
      · obtain ⟨h', hq'⟩ := hother q hq
        rw [hq']
        exact ⟨rfl, rfl, fun hr => hr⟩
    · rw [hheld]
      exact (s.struck_held p kind x).mpr ⟨hx, fun hn => by simp [hc] at hn⟩
    · rw [hp]
      rfl
  · have hself : s.strike p kind first = s := by
      unfold State.strike
      refine if_pos ?_
      cases hv : (s.part p).valid
      · rfl
      · cases hs : (s.part p).stopped
        · exact absurd ⟨hv, hs⟩ hrun
        · rfl
    rw [hself]
    exact ⟨strikeKeeps_rfl s, fun hv hs => absurd ⟨hv, hs⟩ hrun⟩

/-- A device reset strikes a partition that is in no recovery. -/
def State.resetStrike (s : State) (p : Nat) : State := if (s.part p).recov.isSome then s else s.strike p 6 s.tick

theorem State.resetStrike_keeps (s : State) (p : Nat) :
    StrikeKeeps s (s.resetStrike p) ∧
      ((s.part p).valid = true → (s.part p).stopped = false → ((s.resetStrike p).part p).recov.isSome = true) := by
  unfold State.resetStrike
  cases hr : (s.part p).recov with
  | some r => exact ⟨strikeKeeps_rfl s, fun _ _ => by simp [hr]⟩
  | none => exact s.strike_keeps p 6 s.tick hr

/-- Every partition struck. -/
theorem resetStrike_foldl (l : List Nat) (s : State) :
    StrikeKeeps s (l.foldl (fun s p => s.resetStrike p) s) ∧
      ∀ p ∈ l, (s.part p).valid = true → (s.part p).stopped = false → ((l.foldl (fun s p => s.resetStrike p) s).part p).recov.isSome = true := by
  induction l generalizing s with
  | nil => exact ⟨strikeKeeps_rfl s, fun p h => absurd h List.not_mem_nil⟩
  | cons p l ih =>
    obtain ⟨hkeep, hall⟩ := ih (s.resetStrike p)
    obtain ⟨hkp, hrp⟩ := s.resetStrike_keeps p
    refine ⟨hkp.trans hkeep, fun q hq hv hs => ?_⟩
    by_cases hqp : q = p
    · subst hqp
      exact (hkeep.1 q).2.2 (hrp hv hs)
    · exact hall q ((List.mem_cons.mp hq).resolve_left hqp) ((hkp.1 q).1.trans hv) ((hkp.1 q).2.1.trans hs)

/-- Every partition that is in no recovery struck. -/
def State.allStruck (s : State) : State := (List.range 8).foldl (fun s p => s.resetStrike p) s

theorem State.allStruck_facts (s : State) :
    StrikeKeeps s s.allStruck ∧
      ∀ p, p < 8 → (s.part p).valid = true → (s.part p).stopped = false → (s.allStruck.part p).recov.isSome = true := by
  obtain ⟨hkeep, hall⟩ := resetStrike_foldl (List.range 8) s
  unfold State.allStruck
  exact ⟨hkeep, fun p hp => hall p (List.mem_range.mpr hp)⟩

/-- A device reset of that state before the fetched commands are given back. -/
def State.deviceCleared (s : State) : State :=
  ({ s with latches := [], stages := [], obs := { s.obs with dumpBusy := false }, vigil := { s.vigil with scanBusy := false } }).setReg (obsReg 0x74C) 0

theorem State.deviceReset_eq (s : State) : s.deviceReset = s.allStruck.deviceCleared.unfetch := by
  simp only [State.deviceReset, State.allStruck, State.deviceCleared, State.resetStrike]

theorem State.deviceCleared_facts (s : State) :
    s.deviceCleared.latches = [] ∧ s.deviceCleared.stages = [] ∧ s.deviceCleared.obs.dumpBusy = false ∧ s.deviceCleared.held = s.held ∧
      s.deviceCleared.parts = s.parts := ⟨rfl, rfl, rfl, rfl, rfl⟩

theorem part_of_parts {s u : State} (h : u.parts = s.parts) (p : Nat) : u.part p = s.part p := by rw [State.part, h, State.part]

theorem State.unfetch_only (s : State) : UnfetchOnly s s.unfetch := s.unfetch_eq ▸ (giveBack_foldl s.cmds s).1

theorem exec_deviceReset (s : State) (hd : s.mgmt.dark = false) (hf : s.vigil.frozen = false) : exec .deviceReset s = .next s.deviceReset := by
  change execDeviceReset s = _
  simp [execDeviceReset, hd, hf]

/-! ### Loss of power (R371, R453, R499) -/

/-- Registers and queues may differ. -/
def RegsAndQueues (s u : State) : Prop := u = { s with regs := u.regs, queues := u.queues }

theorem RegsAndQueues.trans {s u w : State} (h : RegsAndQueues s u) (h' : RegsAndQueues u w) : RegsAndQueues s w := by
  unfold RegsAndQueues at h h' ⊢
  rw [h', h]

/-- Accepted commands are reported: nothing but the queues may differ. -/
theorem State.abandon_only (s : State) (reason : Nat) : s.abandon reason = { s with queues := (s.abandon reason).queues } := by
  unfold State.abandon
  refine List.foldlRecOn (motive := fun u : State => u = { s with queues := u.queues }) _ _ rfl fun u hu x _ => ?_
  split
  · refine iteInduction (motive := fun w : State => w = { s with queues := w.queues }) (fun _ => hu) fun _ => ?_
    rw [hu]
    rfl
  · exact hu

/-- The ports down, and the module not ready. -/
def State.portsOff (s : State) (reason : Nat) : State :=
  (List.range 8).foldl (fun s p => s.setPortState p 0) ((s.abandon reason).clearBit (mgmtReg 0) 4)

theorem State.portsOff_only (s : State) (reason : Nat) : RegsAndQueues s (s.portsOff reason) := by
  have hstart : RegsAndQueues s ((s.abandon reason).clearBit (mgmtReg 0) 4) := by
    have h := s.abandon_only reason
    unfold RegsAndQueues
    rw [h]
    rfl
  exact List.foldlRecOn (motive := fun u => RegsAndQueues s u) _ _ hstart fun u hu p _ => hu.trans rfl

theorem State.portsOff_reg (s : State) (reason off : Nat) (h : off ≠ 0) (hlt : off < 0x1000) :
    (s.portsOff reason).reg (mgmtReg off) = s.reg (mgmtReg off) := by
  have hstart : ((s.abandon reason).clearBit (mgmtReg 0) 4).reg (mgmtReg off) = s.reg (mgmtReg off) := by
    have hne : mgmtReg 0 ≠ mgmtReg off := by unfold mgmtReg; omega
    rw [State.reg_clearBit_other _ _ hne, s.abandon_only reason]
    rfl
  refine List.foldlRecOn (motive := fun u : State => u.reg (mgmtReg off) = s.reg (mgmtReg off)) _ _ hstart fun u hu p hp => ?_
  have hp8 : p < 8 := List.mem_range.mp hp
  have hne : linkReg (0x40 + 16 * p) ≠ mgmtReg off := by unfold linkReg mgmtReg; omega
  exact (State.reg_setReg_other u _ hne).trans hu

/-- A removal that begins at once. -/
theorem State.beginRemoval_facts (s : State) (hv : s.vigil.frozen = false) :
    s.beginRemoval.cp = { s.cp with powerDown := true } ∧ s.beginRemoval.bit (mgmtReg 0) 7 = true ∧ OtherRegs (mgmtReg 0) s s.beginRemoval ∧
      s.beginRemoval.mem = s.mem ∧ s.beginRemoval.cmds = s.cmds ∧ s.beginRemoval.mgmt.mbox = s.mgmt.mbox := by
  have h : s.beginRemoval = ({ s with mgmt := { s.mgmt with attnPending := false } }.setBit (mgmtReg 0) 7).beginPowerDown :=
    if_neg (by simp [hv])
  have hreg (a : Nat) : s.beginRemoval.reg a = (s.setBit (mgmtReg 0) 7).reg a := by
    rw [h]
    rfl
  refine ⟨by rw [h]; rfl, ?_, fun a ha => (hreg a).trans (State.reg_setBit_other s 7 (Ne.symm ha)), by rw [h]; rfl, by rw [h]; rfl, by rw [h]; rfl⟩
  rw [State.bit_congr (hreg _)]
  exact State.bit_setBit_same s _ 7 (by omega)

/-- What is left of the module's memory: flash, and what lies outside the module. -/
theorem Mem.read_filter_flash (m : Mem) (a : Nat) :
    Mem.read (m.filter fun x => decide (flashKey 0 0 ≤ x.1)) a = if flashKey 0 0 ≤ a then m.read a else 0#8 :=
  (kget_filter 0#8 (fun i => decide (flashKey 0 0 ≤ i)) m a).trans (if_congr decide_eq_true_iff rfl rfl)

/-- What a loss of power leaves. -/
theorem State.powerOff_facts (s : State) (reason : Nat) :
    let u := s.powerOff reason
    u.mgmt.dark = true ∧ u.cmds = [] ∧ u.held = [] ∧ u.cores = [] ∧ (∀ p, (u.part p).valid = false) ∧
      (∀ a, Mem.read u.mem a = if flashKey 0 0 ≤ a then Mem.read s.mem a else 0#8) ∧ u.regs = (s.portsOff reason).regs := by
  have hmem : (s.portsOff reason).mem = s.mem := (congrArg State.mem (s.portsOff_only reason)).trans rfl
  refine ⟨rfl, rfl, rfl, rfl, fun _ => rfl, fun a => ?_, rfl⟩
  refine (Mem.read_filter_flash (s.portsOff reason).mem a).trans ?_
  rw [hmem]

end Sys2Proof.Machine

namespace Sys2Proof.Proofs

open Sys2Proof.Machine Sys2Proof.Claims

/-- Settles O53, by what each reset, request and loss of power leaves. -/
theorem resetsAndPower : Obligations.ResetsAndPower := by
  unfold Obligations.ResetsAndPower
  intro s f d3 hf down off
  have hoff (w : State) (hw : w.mem = s.mem) (reason : Nat) : off (w.powerOff reason) := by
    obtain ⟨hd, hc, hh, hk, hp, hm, -⟩ := w.powerOff_facts reason
    refine ⟨hd, hc, hh, hk, hp, fun a ha => ?_, fun a ha => ?_⟩
    · rw [hm a, if_pos ha, hw]
    · rw [hm a, if_neg (Nat.not_le.mpr ha)]
  refine ⟨?_, fun hd hv => ?_, fun hd => ?_, ?_, ?_⟩
  · obtain ⟨honly, hother, hbit⟩ := markHeld_foldl f (List.range 64) (s.clearedFor f)
    have hreg (a : Nat) (ha : ∀ q, q < 64 → a ≠ queueReg f q 0x2C) : (s.functionReset f).reg a = (s.clearedFor f).reg a :=
      hother a fun q hq => ha q (List.mem_range.mp hq)
    rw [← s.functionReset_eq f] at honly hbit
    have hqueues : (s.functionReset f).queues = (s.clearedFor f).queues := (congrArg State.queues honly).trans rfl
    have hin (o : Nat) (ho : o < 0x10000) : ¬ (bar0 f o < bar0 f 0 ∨ bar0 f 0x10000 ≤ bar0 f o) := by unfold bar0; omega
    have hoffset (o : Nat) : bar0 f o - bar0 f 0 = o := by unfold bar0; omega
    refine ⟨_, exec_functionReset s hf, (congrArg State.mem honly).trans rfl, (congrArg State.cmds honly).trans rfl,
      (congrArg State.parts honly).trans rfl, (congrArg State.cores honly).trans rfl, fun q hq => ?_, fun o ho hk hne => ?_, fun o ho hk => ?_, fun a ha => ?_⟩
    · obtain ⟨hon, hheld, hun⟩ := s.clearedFor_queue (f := f) hq
      rw [queue_of_queues hqueues, hbit q (List.mem_range.mpr hq) hq, hheld]
      exact ⟨hon, rfl, hun, rfl⟩
    · rw [hreg _ fun q hq he => ?_, s.clearedFor_reg, hoffset, if_neg, resetWord_bar0]
      · rw [hk]
        have := hin o ho
        simp only [Bool.false_eq_true, or_false]
        exact this
      · unfold queueReg bar0 at he
        omega
    · rw [hreg _ fun q hq he => ?_, s.clearedFor_reg, hoffset, if_pos (.inr (.inr hk))]
      have ho' : o = 64 * q + 0x2C := by unfold queueReg bar0 at he; omega
      have hlt : o < 0x1000 := by omega
      have hmod : o % 64 = 0x2C := by omega
      rw [keptByFlr, if_pos hlt, hmod] at hk
      exact absurd hk (by decide)
    · rw [hreg _ fun q hq he => ?_, s.clearedFor_reg, if_pos (ha.imp_right Or.inl)]
      unfold queueReg bar0 at he
      unfold bar0 at ha
      omega
  · obtain ⟨hkeep, hall⟩ := s.allStruck_facts
    obtain ⟨hlatches, hstages, hdump, hheld, hparts⟩ := s.allStruck.deviceCleared_facts
    have honly := s.allStruck.deviceCleared.unfetch_only
    unfold UnfetchOnly at honly
    refine ⟨_, (exec_deviceReset s hd hv).trans (congrArg Host.Outcome.next s.deviceReset_eq), ?_, ?_, ?_, fun p hp hvalid hs => ?_, fun h hh hc => ?_⟩
    · rw [honly, hlatches]
    · rw [honly, hstages]
    · rw [honly, hdump]
    · have hp' : s.allStruck.deviceCleared.unfetch.parts = s.allStruck.parts := by rw [honly, hparts]
      rw [part_of_parts hp' p]
      exact hall p hp hvalid hs
    · rw [honly, hheld]
      exact hkeep.2 h hh hc
  · have hreq (w : State) (hw : w.mgmt.dark = false) : w.requestPowerDown = { w with cp := { w.cp with powerDown := true } } :=
      if_neg (by simp [hw])
    have hrem (w : State) (hw : w.mgmt.dark = false) : w.requestRemoval = w.beginRemoval := if_neg (by simp [hw])
    refine ⟨?_, ?_, ?_, ?_, ?_, fun hv => ?_, fun hv => ?_, fun hr => ⟨fun hm => ?_, fun hm hv => ?_⟩⟩
    · change execOrderlyPowerDown s = _
      exact if_neg (by simp [hd])
    · exact congrArg Host.Outcome.next (hreq s hd)
    · exact congrArg Host.Outcome.next (hreq { s with mgmt := { s.mgmt with refclkLost := true } } hd)
    · refine ⟨(s.setBit (mgmtReg 0x208) 5).powerOff 0, if_neg (by simp [hd]), hoff (s.setBit (mgmtReg 0x208) 5) rfl 0, ?_⟩
      obtain ⟨-, -, -, -, -, -, hregs⟩ := (s.setBit (mgmtReg 0x208) 5).powerOff_facts 0
      rw [State.bit_congr ((State.reg_congr hregs _).trans ((s.setBit (mgmtReg 0x208) 5).portsOff_reg 0 0x208 (by decide) (by decide)))]
      exact State.bit_setBit_same s _ 5 (by omega)
    · exact ⟨s.powerOff 0, if_neg (by simp [hd]), hoff s rfl 0⟩
    · obtain ⟨hcp, hbit, hother, hmem, hcmds, -⟩ := s.beginRemoval_facts hv
      exact ⟨_, congrArg Host.Outcome.next (hrem s hd), hcp, hbit, hother, hmem, hcmds⟩
    · refine congrArg Host.Outcome.next ((hrem s hd).trans ?_)
      exact if_pos hv
    · obtain ⟨-, h118, hother, -, -⟩ := s.mboxReply_facts 0 (by decide)
      have hx : exec .powerDown s = .next (s.mboxReply 0).requestPowerDown :=
        onMailbox_started s (fun s => (s.mboxReply 0).requestPowerDown) hr hm
      exact ⟨_, hx.trans (congrArg Host.Outcome.next (hreq (s.mboxReply 0) hd)), rfl, h118, rfl, hother, rfl, rfl⟩
    · obtain ⟨-, h118, -, -, -⟩ := s.mboxReply_facts 0 (by decide)
      obtain ⟨hcp, hbit, hother, hmem, hcmds, hmbox⟩ := (s.mboxReply 0).beginRemoval_facts hv
      have hx : exec .remove s = .next (s.mboxReply 0).requestRemoval := onMailbox_started s (fun s => (s.mboxReply 0).requestRemoval) hr hm
      exact ⟨_, hx.trans (congrArg Host.Outcome.next (hrem (s.mboxReply 0) hd)), hcp,
        (hother _ (by decide)).trans h118, hbit, hmbox, hmem, hcmds⟩
  · exact ⟨_, rfl, rfl, State.reg_setReg_same s _ _, otherRegs_count s _ _⟩
  · refine ⟨if d3 || s.halted then { s with cp := { s.cp with d3hot := d3 } } else State.flushQueues { s with cp := { s.cp with d3hot := d3 } }, rfl, ?_⟩
    cases hd : d3 || s.halted
    · have honly : RecordsOnly { s with cp := { s.cp with d3hot := d3 } } (State.flushQueues { s with cp := { s.cp with d3hot := d3 } }) := by
        unfold State.flushQueues
        refine List.foldlRecOn (motive := RecordsOnly _) _ _ (recordsOnly_rfl _) fun u hu x _ => ?_
        exact iteInduction (fun _ => recordsOnly_trans hu (flushOnly_flushHeld _ _ _ u).1) fun _ => hu
      exact ⟨honly.cp, honly.held, honly.cmds, (congrArg State.parts honly).trans rfl, fun h => by simp [h] at hd⟩
    · exact ⟨rfl, rfl, rfl, rfl, fun _ => rfl⟩

end Sys2Proof.Proofs
end

section
/-! PROOFS. The Vigil freeze, its floods and its end, and the circular scan (R309, R482–R491, R535). -/

namespace Sys2Proof.Machine

open Sys2Proof.Claims

/-! ### The freeze (R482, R491) -/

theorem State.serveAcc_only (s : State) (c off n : Nat) : s.serveAcc c off n = { s with obs := (s.serveAcc c off n).obs } := by
  unfold State.serveAcc
  exact iteInduction (motive := fun u : State => u = { s with obs := u.obs }) (fun _ => rfl) fun _ => rfl

theorem State.serveWaiting_only (s : State) : s.serveWaiting = { s with obs := s.serveWaiting.obs } := by
  unfold State.serveWaiting
  refine List.foldlRecOn (motive := fun u : State => u = { s with obs := u.obs }) _ _ rfl fun u hu x _ => ?_
  rw [State.serveAcc_only u, hu]

/-- The sub-tick that a freeze keeps: the tick window's end where one runs. -/
def State.frozenSub (s : State) : Nat := if s.subtick ≤ 15 then 16 else s.subtick

/-- The registers that a freeze writes. -/
def freezeRegs : List Nat := [vigilStatus, obsReg 0x718, obsReg 0x71C]

/-- The word of VIGIL_STATUS after a freeze. -/
def State.freezeWord (s : State) (source : Nat) : Nat := 1 + 4 * natOf (s.bit vigilStatus 2) + 8 * source + 2 ^ 5 * s.frozenSub

theorem bitOf_freezeWord (s : State) (source : Nat) : bitOf (s.freezeWord source % 2 ^ 32) 0 = true := by
  rw [bitOf_eq, bitsOf_word _ _ _ (by omega), State.freezeWord, bitsOf]
  simp only [Nat.pow_zero, Nat.div_one, beq_iff_eq]
  omega

/-- The module as it freezes, before the debug reads that wait are served. -/
def State.freezing (s : State) (source : Nat) (scheduled : Bool) : State :=
  { (s.setReg vigilStatus (s.freezeWord source)).setWide (obsReg 0x718) s.tick with
    subtick := s.frozenSub
    vigil := { s.vigil with
      frozen := true, source := source, scheduled := scheduled, armed := none, resumeAt := none, rateChanged := false
      frozeTick := s.tick, frozeSub := s.frozenSub } }

theorem State.freeze_eq (s : State) (source : Nat) (scheduled : Bool) (h : s.halted = false) :
    s.freeze source scheduled = (s.freezing source scheduled).serveWaiting := if_neg (Bool.eq_false_iff.mp h)

theorem State.freezing_only (s : State) (source : Nat) (scheduled : Bool) :
    s.freezing source scheduled = { s with
      regs := (s.freezing source scheduled).regs
      subtick := s.frozenSub
      vigil := { s.vigil with
        frozen := true, source := source, scheduled := scheduled, armed := none, resumeAt := none, rateChanged := false
        frozeTick := s.tick, frozeSub := s.frozenSub } } := by
  have hbase : ∀ x y, RegsOnly s ((s.setReg vigilStatus x).setWide (obsReg 0x718) y) := fun _ _ => rfl
  unfold State.freezing
  have hw := hbase (s.freezeWord source) s.tick
  generalize (s.setReg vigilStatus (s.freezeWord source)).setWide (obsReg 0x718) s.tick = w at hw
  unfold RegsOnly at hw
  rw [hw]

theorem State.freezing_regs (s : State) (source : Nat) (scheduled : Bool) :
    RegsBut freezeRegs s (s.freezing source scheduled) ∧ (s.freezing source scheduled).reg vigilStatus = s.freezeWord source % 2 ^ 32 := by
  have hreg (a : Nat) : (s.freezing source scheduled).reg a = ((s.setReg vigilStatus (s.freezeWord source)).setWide (obsReg 0x718) s.tick).reg a := rfl
  have hwide (u : State) (v a : Nat) (h2 : a ≠ obsReg 0x718) (h3 : a ≠ obsReg 0x71C) : (u.setWide (obsReg 0x718) v).reg a = u.reg a :=
    (State.reg_setReg_other _ _ (Ne.symm h3)).trans (State.reg_setReg_other _ _ (Ne.symm h2))
  refine ⟨fun a ha => ?_, ?_⟩
  · simp only [freezeRegs, List.mem_cons, List.not_mem_nil, or_false, not_or] at ha
    obtain ⟨h1, h2, h3⟩ := ha
    rw [hreg, hwide _ _ _ h2 h3, State.reg_setReg_other _ _ (Ne.symm h1)]
  · rw [hreg, hwide _ _ _ (by decide) (by decide), State.reg_setReg_same]

/-- What a freeze of a running module leaves. -/
theorem State.freeze_facts (s : State) (source : Nat) (scheduled : Bool) (h : s.halted = false) :
    let u := s.freeze source scheduled
    u = { s with regs := u.regs, obs := u.obs, subtick := s.frozenSub, vigil := { s.vigil with
      frozen := true, source := source, scheduled := scheduled, armed := none, resumeAt := none, rateChanged := false
      frozeTick := s.tick, frozeSub := s.frozenSub } } ∧
      RegsBut freezeRegs s u ∧ u.bit vigilStatus 0 = true := by
  intro u
  have hpre := s.freezing_only source scheduled
  obtain ⟨hregs, hword⟩ := s.freezing_regs source scheduled
  have hu : u = { s.freezing source scheduled with obs := (s.freezing source scheduled).serveWaiting.obs } :=
    (s.freeze_eq source scheduled h).trans (State.serveWaiting_only _)
  generalize s.freezing source scheduled = w at hpre hregs hword hu
  have hur : u.regs = w.regs := by rw [hu]
  refine ⟨?_, fun a ha => (State.reg_congr hur a).trans (hregs a ha), ?_⟩
  · rw [hu, hpre]
  · rw [State.bit, State.reg_congr hur, hword]
    exact bitOf_freezeWord s source

/-! ### Floods (R309) -/

/-- The ports that a flood leaves on. -/
def State.floodPorts (s : State) (but : Option Nat) : List Nat := (List.range 8).filter fun q => s.portState q == 2 && some q != but

theorem State.floodPorts_congr {s u : State} (h : ∀ p, p < 8 → u.portState p = s.portState p) (but : Option Nat) : u.floodPorts but = s.floodPorts but :=
  List.filter_congr fun q hq => by rw [h q (List.mem_range.mp hq)]

/-- What a flood leaves: its ports' symbols, and that it was sent. -/
theorem State.flood_only (s : State) (but : Option Nat) (kind count : Nat) :
    s.flood but kind count = { s with
      vigil := { s.vigil with
        floods := s.vigil.floods ++ (s.floodPorts but).map fun p => (p, kind, count)
        heard := kset none s.vigil.heard kind (some count) }
      links := { s.links with ports := (s.flood but kind count).links.ports } } := by
  unfold State.flood
  refine List.foldlRecOn (motive := fun u : State => u = { s with
      vigil := { s.vigil with
        floods := s.vigil.floods ++ (s.floodPorts but).map fun p => (p, kind, count)
        heard := kset none s.vigil.heard kind (some count) }
      links := { s.links with ports := u.links.ports } }) _ _ rfl fun u hu p _ => ?_
  rw [hu]
  rfl

/-! ### Arming (R484, R486) -/

/-- What arming a freeze leaves. -/
theorem State.armFreeze_facts (s : State) (count source : Nat) :
    let u := s.armFreeze count source
    u = { s with regs := u.regs, vigil := { s.vigil with
      armed := some (if count ≤ s.tick then s.tick + 1 else count), armedSource := source, heard := kset none s.vigil.heard 1 none } } ∧
      OtherRegs vigilStatus s u ∧ u.bit vigilStatus 1 = true ∧ (count ≤ s.tick → u.bit vigilStatus 2 = true) := by
  intro u
  by_cases hc : count ≤ s.tick
  · have hu : u = { (s.setBit vigilStatus 2).setBit vigilStatus 1 with vigil := { s.vigil with
        armed := some (s.tick + 1), armedSource := source, heard := kset none s.vigil.heard 1 none } } := by
      change s.armFreeze count source = _
      simp only [State.armFreeze, hc, decide_true, if_true]
      rfl
    have hreg (a : Nat) : u.reg a = ((s.setBit vigilStatus 2).setBit vigilStatus 1).reg a := by
      rw [hu]
      rfl
    refine ⟨?_, fun a ha => ?_, ?_, fun _ => ?_⟩
    · rw [if_pos hc, hu]
      rfl
    · rw [hreg]
      exact (State.reg_setBit_other _ 1 (Ne.symm ha)).trans (State.reg_setBit_other s 2 (Ne.symm ha))
    · rw [State.bit_congr (hreg _)]
      exact State.bit_setBit_same _ _ 1 (by omega)
    · rw [State.bit_congr (hreg _), State.bit_setBit_apart _ _ 1 2 (by omega) (by omega)]
      exact State.bit_setBit_same _ _ 2 (by omega)
  · have hu : u = { s.setBit vigilStatus 1 with vigil := { s.vigil with
        armed := some count, armedSource := source, heard := kset none s.vigil.heard 1 none } } := by
      change s.armFreeze count source = _
      simp only [State.armFreeze, hc, decide_false, Bool.false_eq_true, if_false]
      rfl
    have hreg (a : Nat) : u.reg a = (s.setBit vigilStatus 1).reg a := by
      rw [hu]
      rfl
    refine ⟨?_, fun a ha => ?_, ?_, fun h => absurd h hc⟩
    · rw [if_neg hc, hu]
      rfl
    · rw [hreg]
      exact State.reg_setBit_other s 1 (Ne.symm ha)
    · rw [State.bit_congr (hreg _)]
      exact State.bit_setBit_same _ _ 1 (by omega)

theorem State.armResume_due (s : State) {count : Nat} (hf : s.vigil.frozen = true) (hc : s.tick + 2 ≤ count) :
    s.armResume count = { s with vigil := { s.vigil with resumeAt := some count } } := by
  simp only [State.armResume, hf, Bool.not_true, Bool.false_eq_true, if_false, Nat.not_lt.mpr hc]

theorem State.armResume_late (s : State) {count : Nat} (hf : s.vigil.frozen = true) (hc : count < s.tick + 2) :
    s.armResume count = s.setBit vigilStatus 2 := by
  simp only [State.armResume, hf, Bool.not_true, Bool.false_eq_true, if_false, hc, if_true]

theorem State.armResume_running (s : State) (count : Nat) (hf : s.vigil.frozen = false) : s.armResume count = s := by
  simp only [State.armResume, hf, Bool.not_false, if_true]

/-- A port's state where the port registers stand. -/
theorem portState_of_regs {s u : State} {l : List Nat} (h : RegsBut l s u) (hl : ∀ p, p < 8 → linkReg (0x40 + 16 * p) ∉ l) {p : Nat} (hp : p < 8) :
    u.portState p = s.portState p := State.field_congr (h _ (hl p hp)) 0 3

/-! ### The resume point (R486, R491) -/

theorem State.pumpPort_only (s : State) (p : Nat) : s.pumpPort p = { s with links := (s.pumpPort p).links, obs := (s.pumpPort p).obs } := by
  unfold State.pumpPort
  exact iteInduction (motive := fun u : State => u = { s with links := u.links, obs := u.obs }) (fun _ => rfl) fun _ => rfl

/-- The module as it runs again, its waiting writes still to land. -/
def State.thawed (s : State) : State :=
  { s.setReg vigilStatus (s.reg vigilStatus / 8 * 8) with
    subtick := if s.vigil.rateChanged then 16 else s.vigil.frozeSub
    vigil := { s.vigil with frozen := false, resumeAt := none, writes := [], rateChanged := false, heard := [] } }

/-- The same with its VIGIL record, its ports sending again. -/
def State.running (s : State) : State :=
  (List.range 8).foldl State.pumpPort (s.thawed.trace 8 0
    (s.vigil.source + 4 * natOf s.vigil.scheduled + 8 * natOf (s.bit vigilStatus 2) + 16 * s.vigil.frozeSub) s.vigil.frozeTick)

theorem State.unfreeze_eq (s : State) :
    s.unfreeze = if (s.vigil.writes.foldl (fun t w => t.land w.who w.addr w.value w.mask) s.running).mgmt.attnPending = true then
      (s.vigil.writes.foldl (fun t w => t.land w.who w.addr w.value w.mask) s.running).beginRemoval
    else s.vigil.writes.foldl (fun t w => t.land w.who w.addr w.value w.mask) s.running := by
  unfold State.unfreeze State.running State.thawed
  rfl

/-- What running again leaves: registers, links, the trace and the counters may differ from the thawed state. -/
theorem State.running_only (s : State) : ShownOnly s.thawed s.running :=
  List.foldlRecOn (motive := fun u => ShownOnly s.thawed u) _ _ (shownOnly_trace _ 8 0 _ _) fun u hu p _ => by
    have h : ShownOnly u (u.pumpPort p) := by
      unfold ShownOnly
      rw [u.pumpPort_only p]
    exact hu.trans h

theorem State.running_status (s : State) : s.running.bit vigilStatus 2 = false := by
  have hthaw : s.thawed.reg vigilStatus = s.reg vigilStatus / 8 * 8 % 2 ^ 32 := State.reg_setReg_same s _ _
  have hreg : s.running.reg vigilStatus = s.reg vigilStatus / 8 * 8 % 2 ^ 32 := by
    refine List.foldlRecOn (motive := fun u : State => u.reg vigilStatus = s.reg vigilStatus / 8 * 8 % 2 ^ 32) _ _ ?_ fun u hu p _ => ?_
    · exact (regsBut_trace _ 8 0 _ _ _ (by decide)).trans hthaw
    · rw [u.pumpPort_only p]
      exact hu
  rw [State.bit, hreg, bitOf_eq, bitsOf_word _ _ _ (by omega), bitsOf]
  simp only [beq_eq_false_iff_ne]
  omega

/-- Writes that wait do not change how the module runs again. -/
theorem State.running_writes (s : State) : State.running { s with vigil := { s.vigil with writes := [] } } = s.running := rfl

theorem exec_vigilResumePoint (s : State) {n : Nat} (hf : s.vigil.frozen = true) (hr : s.vigil.resumeAt = some n) (hn : n ≤ s.tick) :
    exec .vigilResumePoint s = if s.vigil.scanBusy = true then .next (s.setBit vigilStatus 2) else .next s.unfreeze := by
  change execVigilResumePoint s = _
  simp only [execVigilResumePoint, hr, hf, Bool.not_true, Bool.false_or, decide_eq_true_eq, Nat.not_lt.mpr hn, if_false]

theorem exec_vigilResumePoint_running (s : State) (hf : s.vigil.frozen = false) : exec .vigilResumePoint s = .next s := by
  change execVigilResumePoint s = _
  cases hr : s.vigil.resumeAt <;> simp [execVigilResumePoint, hr, hf]

/-! ### What starts a freeze (R482, R484) -/

/-- What the pin does in each mode. -/
def pinOutcome (mode : Nat) (s : State) : Host.Outcome State Fault Refusal :=
  match mode with
  | 1 => .next (s.freeze 0 false)
  | 2 => .next ((s.freeze 0 false).flood none 0 0)
  | _ => .next s

theorem exec_scheduledFreeze_due (s : State) {n : Nat} (ha : s.vigil.armed = some n) (hn : n ≤ s.tick) :
    exec .scheduledFreeze s = .next (s.freeze s.vigil.armedSource true) := by
  change execScheduledFreeze s = _
  simp only [execScheduledFreeze, ha, hn, if_true]

theorem exec_scheduledFreeze_early (s : State) {n : Nat} (ha : s.vigil.armed = some n) (hn : s.tick < n) : exec .scheduledFreeze s = .next s := by
  change execScheduledFreeze s = _
  simp only [execScheduledFreeze, ha, Nat.not_le.mpr hn, if_false]

theorem exec_floodReceive_copy (s : State) {p k : Nat} (n : Nat) (hp : p < 8) (h : kget none s.vigil.heard k = some (if k = 0 then 0 else n)) :
    exec (.floodReceive p k n) s = .next s := by
  change execFloodReceive p k n s = _
  have hport : isPort p = true := decide_eq_true hp
  simp [execFloodReceive, hport, h]

section

variable (s : State) {p : Nat} (hp : p < 8) (hs : s.portState p = 2) (hd : s.mgmt.dark = false)

include hp hs hd

theorem exec_floodReceive_now (n : Nat) (h : kget none s.vigil.heard 0 ≠ some 0) :
    exec (.floodReceive p 0 n) s = .next ((s.freeze 2 false).flood (some p) 0 0) := by
  change execFloodReceive p 0 n s = _
  have hport : isPort p = true := decide_eq_true hp
  simp [execFloodReceive, hport, hs, hd, h]

theorem exec_floodReceive_sched {n : Nat} (h : kget none s.vigil.heard 1 ≠ some n) :
    exec (.floodReceive p 1 n) s = .next ((s.armFreeze n 2).flood (some p) 1 n) := by
  change execFloodReceive p 1 n s = _
  have hport : isPort p = true := decide_eq_true hp
  simp [execFloodReceive, hport, hs, hd, h]

theorem exec_floodReceive_resume {n : Nat} (h : kget none s.vigil.heard 2 ≠ some n) :
    exec (.floodReceive p 2 n) s = .next ((s.armResume n).flood (some p) 2 n) := by
  change execFloodReceive p 2 n s = _
  have hport : isPort p = true := decide_eq_true hp
  simp [execFloodReceive, hport, hs, hd, h]

end

/-! ### The circular scan (R488, R489) -/

theorem Mem.read_scanOne (s : State) (base : Nat) (pads : Bool) (m : Mem) (c a : Nat) (h : a < 2 ^ 64) : (s.scanOne base pads m c).read a = m.read a := by
  have hkey (x : Nat) : a < hostKey x := by unfold hostKey; omega
  unfold State.scanOne
  dsimp only
  split
  · rw [Mem.read_writeBytes_outside _ _ _ _ (.inl (hkey _)), Mem.read_writeBytes_outside _ _ _ _ (.inl (hkey _))]
  · rw [Mem.read_writeBytes_outside _ _ _ _ (.inl (hkey _))]

/-- The scan's registers before DONE: n cores withheld counted, LATE where the resume point has passed. -/
def State.scanCounted (s : State) (n : Nat) : State :=
  if s.resumePassed then (s.count (obsReg 0x750) n).setBit vigilStatus 2 else s.count (obsReg 0x750) n

theorem State.scanCounted_only (s : State) (n : Nat) : RegsOnly s (s.scanCounted n) ∧ RegsBut [obsReg 0x750, vigilStatus] s (s.scanCounted n) := by
  have h1 : RegsBut [obsReg 0x750, vigilStatus] s (s.count (obsReg 0x750) n) := regsBut_count _ (regsBut_rfl _ s) (by simp)
  unfold State.scanCounted
  exact iteInduction (motive := fun u => RegsOnly s u ∧ RegsBut [obsReg 0x750, vigilStatus] s u)
    (fun _ => ⟨rfl, regsBut_setBit _ h1 (by simp)⟩) fun _ => ⟨rfl, h1⟩

theorem State.scanCounted_late (s : State) (n : Nat) (h : s.resumePassed = true) : (s.scanCounted n).bit vigilStatus 2 = true := by
  have hs : s.scanCounted n = _ := if_pos h
  rw [hs]
  exact State.bit_setBit_same _ _ 2 (by omega)

/-- Cores that the scan shows as zeros: those in no partition in debug mode. -/
def State.scanWithheld (s : State) : Nat := (((List.range 49152).filter s.isCore).filter fun c => (s.debugPart c).isNone).length

theorem State.endScan_eq (s : State) :
    s.endScan = { (s.scanCounted s.scanWithheld).setReg scanStatus 2 with
      mem := ((List.range 49152).filter s.isCore).foldl (s.scanOne (s.wide (obsReg 0x744) / 256 * 256) (s.bit (obsReg 0x740) 1)) s.mem
      vigil := { s.vigil with scanBusy := false, resumeAt := if s.resumePassed then some (s.tick + 1) else s.vigil.resumeAt } } := by
  simp only [State.endScan, State.scanCounted, State.scanWithheld]

theorem State.startScan_eq (s : State) :
    s.startScan = if (!s.vigil.frozen || s.vigil.scanBusy) = true then s
      else { s.setReg scanStatus 1 with vigil := { s.vigil with scanBusy := true } } := rfl

theorem State.endScan_regs (s : State) : s.endScan.regs = ((s.scanCounted s.scanWithheld).setReg scanStatus 2).regs := by
  rw [s.endScan_eq]

theorem Mem.read_scan (s : State) (base : Nat) (pads : Bool) (cores : List Nat) (a : Nat) (h : a < 2 ^ 64) :
    Mem.read (cores.foldl (s.scanOne base pads) s.mem) a = Mem.read s.mem a :=
  List.foldlRecOn (motive := fun m : Mem => m.read a = Mem.read s.mem a) _ _ rfl fun m hm c _ => (Mem.read_scanOne s _ _ m c a h).trans hm

theorem State.endScan_mem (s : State) (a : Nat) (h : a < 2 ^ 64) : Mem.read s.endScan.mem a = Mem.read s.mem a := by
  rw [s.endScan_eq]
  dsimp only
  rw [Mem.read_scan s _ _ _ a h]

end Sys2Proof.Machine

namespace Sys2Proof.Proofs

open Sys2Proof.Machine Sys2Proof.Claims

/-- Settles O55, by what a freeze, a flood, an arming, the resume point and a scan each leave. -/
theorem vigilAndScan : Obligations.VigilAndScan := by
  unfold Obligations.VigilAndScan
  refine ⟨?_, fun s => ⟨fun hf hb => ?_, fun h => ?_, fun hb => ?_, fun hb => ?_⟩⟩
  · intro s p n ports floods frozen armed resumes first
    have hflood (w : State) (but : Option Nat) (kind count : Nat) (hp : ∀ q, q < 8 → w.portState q = s.portState q)
        (hw : w.vigil.floods = s.vigil.floods) : (w.flood but kind count).vigil.floods = floods but kind count := by
      rw [w.flood_only but kind count, State.floodPorts_congr hp, hw]
      rfl
    have hfreeze (source : Nat) (scheduled : Bool) (hh : s.halted = false) : frozen (s.freeze source scheduled) source := by
      obtain ⟨hu, -, hbit⟩ := s.freeze_facts source scheduled hh
      refine ⟨?_, ?_, ?_, ?_, ?_, ⟨?_, ?_⟩, ?_, ?_, ?_, hbit⟩ <;> rw [hu] <;> rfl
    have hfrozen (w : State) (source : Nat) (but : Option Nat) (kind count : Nat) (h : frozen w source) : frozen (w.flood but kind count) source := by
      obtain ⟨h1, h2, h3, h4, h5, ⟨h6, h7⟩, h8, h9, h10, h11⟩ := h
      rw [w.flood_only but kind count]
      exact ⟨h1, h2, h3, h4, h5, ⟨h6, h7⟩, h8, h9, h10, h11⟩
    have hnowPorts (source : Nat) (scheduled : Bool) (hh : s.halted = false) (q : Nat) (hq : q < 8) :
        (s.freeze source scheduled).portState q = s.portState q := by
      refine portState_of_regs (s.freeze_facts source scheduled hh).2.1 (fun r hr => ?_) hq
      simp only [freezeRegs, List.mem_cons, List.not_mem_nil, or_false, not_or, linkReg, vigilStatus, obsReg]
      omega
    have hnowFloods (source : Nat) (scheduled : Bool) (hh : s.halted = false) : (s.freeze source scheduled).vigil.floods = s.vigil.floods := by
      rw [(s.freeze_facts source scheduled hh).1]
    have harm (count source : Nat) : armed (s.armFreeze count source) count source := by
      obtain ⟨hu, hother, h1, h2⟩ := s.armFreeze_facts count source
      refine ⟨?_, ?_, h1, h2, hother, ⟨?_, ?_⟩, ?_, ?_⟩ <;> rw [hu]
    have harmed (w : State) (count source : Nat) (but : Option Nat) (k c : Nat) (h : armed w count source) : armed (w.flood but k c) count source := by
      obtain ⟨h1, h2, h3, h4, h5, ⟨h6, h7⟩, h8, h9⟩ := h
      rw [w.flood_only but k c]
      exact ⟨h1, h2, h3, h4, h5, ⟨h6, h7⟩, h8, h9⟩
    have harmPorts (count source q : Nat) (hq : q < 8) : (s.armFreeze count source).portState q = s.portState q := by
      refine State.field_congr ((s.armFreeze_facts count source).2.1 _ ?_) 0 3
      unfold linkReg vigilStatus obsReg
      omega
    have harmFloods (count source : Nat) : (s.armFreeze count source).vigil.floods = s.vigil.floods := by
      rw [(s.armFreeze_facts count source).1]
    have hresume (count : Nat) (hf : s.vigil.frozen = true) (hc : s.tick + 2 ≤ count) (but : Option Nat) :
        resumes ((s.armResume count).flood but 2 count) count (floods but 2 count) := by
      have hw := s.armResume_due hf hc
      have hfl := hflood (s.armResume count) but 2 count (fun q _ => by rw [hw]; rfl) (by rw [hw])
      have honly := (s.armResume count).flood_only but 2 count
      rw [hw] at honly hfl ⊢
      refine ⟨by rw [honly], hfl, by rw [honly], ?_⟩
      rw [honly]
    have hdark (h : s.halted = false) : s.mgmt.dark = false := (Bool.or_eq_false_iff.mp h).2
    have hpin (m : Nat) (hh : s.halted = false) (hm : s.field (obsReg 0x700) 4 2 = m) : exec .vigilPin s = pinOutcome m s := by
      rw [← hm]
      exact if_neg (Bool.eq_false_iff.mp hh)
    refine ⟨fun hh => ⟨?_, ?_, fun hm => ?_, fun hm => ?_, fun ha hn => ?_, fun hp hs => ⟨fun h => ?_, fun h => ?_, fun h => ?_, fun h => ?_⟩⟩,
      fun hp hs hd hf h hn => ?_, fun h => ?_, ?_, ?_, fun ha hn => ?_, fun hf => ⟨fun hn => ⟨?_, ?_⟩, fun hn => ?_, fun hr hn hat => ⟨fun hb => ?_, fun hb => ?_⟩⟩,
      fun hf => ⟨?_, ?_⟩⟩
    · exact ⟨_, rfl, hfreeze 1 false hh, hnowFloods 1 false hh⟩
    · exact ⟨_, rfl, hfrozen _ 1 _ _ _ (hfreeze 1 false hh), hflood _ none 0 0 (hnowPorts 1 false hh) (hnowFloods 1 false hh)⟩
    · exact ⟨_, hpin 1 hh hm, hfreeze 0 false hh, hnowFloods 0 false hh⟩
    · exact ⟨_, hpin 2 hh hm, hfrozen _ 0 _ _ _ (hfreeze 0 false hh), hflood _ none 0 0 (hnowPorts 0 false hh) (hnowFloods 0 false hh)⟩
    · refine ⟨_, exec_scheduledFreeze_due s ha hn, hfreeze _ true hh, ?_⟩
      rw [(s.freeze_facts _ true hh).1]
    · exact ⟨_, exec_floodReceive_now s hp hs (hdark hh) n h, hfrozen _ 2 _ _ _ (hfreeze 2 false hh),
        hflood _ (some p) 0 0 (hnowPorts 2 false hh) (hnowFloods 2 false hh)⟩
    · exact ⟨_, exec_floodReceive_sched s hp hs (hdark hh) h, harmed _ n 2 _ _ _ (harm n 2), hflood _ (some p) 1 n (harmPorts n 2) (harmFloods n 2)⟩
    · exact exec_floodReceive_copy s n hp (Decidable.not_not.mp h)
    · exact exec_floodReceive_copy s n hp (Decidable.not_not.mp h)
    · exact ⟨_, exec_floodReceive_resume s hp hs hd h, hresume n hf hn (some p)⟩
    · cases hh : s.halted
      · exact hpin 0 hh (h.resolve_right (by simp [hh]))
      · exact if_pos hh
    · exact ⟨_, rfl, harm _ 1, harmFloods _ 1⟩
    · exact ⟨_, rfl, harmed _ _ 1 _ _ _ (harm _ 1), hflood _ none 1 _ (harmPorts _ 1) (harmFloods _ 1)⟩
    · exact exec_scheduledFreeze_early s ha hn
    · have hw := s.armResume_due hf hn
      refine ⟨_, congrArg Host.Outcome.next hw, rfl, rfl, rfl, rfl⟩
    · exact ⟨_, rfl, hresume _ hf hn none⟩
    · exact ⟨_, congrArg Host.Outcome.next (s.armResume_late hf hn), rfl, State.bit_setBit_same s _ 2 (by omega), otherRegs_setBit s _ _⟩
    · exact ⟨_, (exec_vigilResumePoint s hf hr hn).trans (if_pos hb), rfl, State.bit_setBit_same s _ 2 (by omega)⟩
    · have honly := s.running_only
      unfold ShownOnly at honly
      have hthaw : s.thawed.mgmt = s.mgmt := rfl
      have hmgmt : s.running.mgmt = s.mgmt := ((congrArg State.mgmt honly).trans rfl).trans hthaw
      refine ⟨s.running, ?_, ?_, ?_, ?_, s.running_status, ⟨?_, ?_⟩, ?_, ?_, ?_, ?_⟩
      · have hx := exec_vigilResumePoint { s with vigil := { s.vigil with writes := [] } } hf hr hn
        refine hx.trans ((if_neg (Bool.eq_false_iff.mp hb)).trans (congrArg Host.Outcome.next ?_))
        rw [State.unfreeze_eq]
        refine (if_neg ?_).trans s.running_writes
        rw [List.foldl_nil, s.running_writes, hmgmt, hat]
        exact Bool.false_ne_true
      · rw [honly]
        rfl
      · rw [honly]
        rfl
      · rw [honly]
        rfl
      · rw [honly]
        rfl
      · rw [honly]
        rfl
      · rw [honly]
        rfl
      · rw [honly]
        rfl
      · rw [honly]
        rfl
      · exact (exec_vigilResumePoint s hf hr hn).trans ((if_neg (Bool.eq_false_iff.mp hb)).trans (congrArg Host.Outcome.next s.unfreeze_eq))
    · exact congrArg Host.Outcome.next (s.armResume_running _ hf)
    · exact exec_vigilResumePoint_running s hf
  · have hx : exec .scanGo s = .next { s.setReg scanStatus 1 with vigil := { s.vigil with scanBusy := true } } :=
      congrArg Host.Outcome.next (s.startScan_eq.trans (if_neg (by simp [hf, hb])))
    exact ⟨_, hx, rfl, State.reg_setReg_same s scanStatus 1, fun b hb => State.reg_setReg_other s 1 (Ne.symm hb), rfl⟩
  · refine congrArg Host.Outcome.next (s.startScan_eq.trans (if_pos ?_))
    obtain h | h := h <;> simp [h]
  · obtain ⟨honly, hregs⟩ := s.scanCounted_only s.scanWithheld
    have hreg := State.reg_congr s.endScan_regs
    refine ⟨_, if_pos hb, ?_, ?_, fun hr => ?_, ?_, s.endScan_mem, ?_, ?_, ?_, ?_, ?_⟩
    · exact (hreg _).trans (State.reg_setReg_same _ _ 2)
    · rw [s.endScan_eq]
    · rw [State.bit_congr (hreg _), State.bit_congr (State.reg_setReg_other _ 2 (by decide : scanStatus ≠ vigilStatus))]
      exact s.scanCounted_late s.scanWithheld hr
    · intro b hb
      simp only [List.mem_cons, List.not_mem_nil, or_false, not_or] at hb
      rw [hreg, State.reg_setReg_other _ _ (Ne.symm hb.1)]
      exact hregs b (by simp [hb])
    all_goals
      rw [s.endScan_eq]
      unfold RegsOnly at honly
      rw [honly]
      rfl
  · exact if_neg (by simp [hb])

end Sys2Proof.Proofs
end

section
/-! PROOFS. Link blocks, replay, port requests and link state (R307–R316): where the statement fails. -/

namespace Sys2Proof.Proofs

open Sys2Proof.Machine Sys2Proof.Claims

/-- A module with port 0 in service whose count of corrected errors holds a number that does not fit its 32-bit word: no step of the model
writes one, but a state's register map admits it. -/
def wideCount : State :=
  { State.reset with
    regs := [(linkReg 0x40, 2), (linkReg 0x44, 2 ^ 32)]
    mgmt := { State.reset.mgmt with dark := false } }

theorem wideCount_exec : exec (.linkBlockReceive 0 false false []) wideCount = .next (wideCount.blockReceive 0 false false []) := rfl

theorem wideCount_count : (wideCount.blockReceive 0 false false []).reg (linkReg 0x44) = 2 ^ 32 := by decide

/-- Refutes O45: a block that does not check and had nothing corrected leaves the count of corrected errors as it is, and the statement says
that it is then what it was modulo 2^32; in a state whose word is 2^32 it is not. -/
theorem not_portsAndBlocks : ¬ Obligations.PortsAndBlocks := by
  unfold Obligations.PortsAndBlocks
  intro h
  obtain ⟨hblocks, -⟩ := h wideCount 0 0 0 0 0 0 0 0 false false [] (by decide) (by decide)
  obtain ⟨hnak, -⟩ := hblocks (by decide)
  obtain ⟨u, hx, hcount, -⟩ := hnak (by decide)
  rw [wideCount_exec] at hx
  obtain rfl := Host.Outcome.next.inj hx
  rw [wideCount_count] at hcount
  exact absurd hcount (by decide)

end Sys2Proof.Proofs
end

section
/-! PROOFS. Acknowledgements, bounds and timeouts of streams (R327–R330, R332). -/

namespace Sys2Proof.Machine

open Sys2Proof.Claims

/-! ### One stream and the hold rings -/

theorem State.stream_setStream_other (s : State) {h j : Nat} (x : Option Stream) (hj : j ≠ h) : (s.setStream h x).stream j = s.stream j :=
  kget_kset_other none s.links.streams x (Ne.symm hj)

/-- From s to u stream k has become y and the rings' messages l; no other stream, no byte and no held write has changed. -/
def StreamStep (k : Nat) (l : List HeldMsg) (y : Stream) (s u : State) : Prop :=
  SameData s u ∧ u.stream k = some y ∧ u.links.ring = l ∧ ∀ j, j ≠ k → u.stream j = s.stream j

theorem StreamStep.trans {k : Nat} {l l' : List HeldMsg} {y y' : Stream} {s u w : State} (h : StreamStep k l y s u) (h' : StreamStep k l' y' u w) :
    StreamStep k l' y' s w := by
  obtain ⟨⟨hm, hh⟩, -, -, hj⟩ := h
  obtain ⟨⟨hm', hh'⟩, hk', hl', hj'⟩ := h'
  exact ⟨⟨hm'.trans hm, hh'.trans hh⟩, hk', hl', fun j hne => (hj' j hne).trans (hj j hne)⟩

/-- Where nothing but ports differs a stream step goes on from the one state as from the other. -/
theorem streamStep_of_ports {k : Nat} {l : List HeldMsg} {y : Stream} {s s0 u : State} (hp : PortsOnly s s0) (h : StreamStep k l y s0 u) :
    StreamStep k l y s u := by
  unfold PortsOnly at hp
  rw [hp] at h
  exact h

theorem stream_of_ports {s s0 : State} (hp : PortsOnly s s0) (k : Nat) : s0.stream k = s.stream k := by
  unfold PortsOnly at hp
  rw [hp]
  rfl

theorem ring_of_ports {s s0 : State} (hp : PortsOnly s s0) : s0.links.ring = s.links.ring := by
  unfold PortsOnly at hp
  rw [hp]

theorem streamStep_setRing (s : State) {k : Nat} {x : Stream} (l : List HeldMsg) (h : s.stream k = some x) : StreamStep k l x s (s.setRing l) :=
  ⟨⟨rfl, rfl⟩, h, rfl, fun _ _ => rfl⟩

theorem streamStep_setStream (s : State) (k : Nat) (y : Stream) : StreamStep k s.links.ring y s (s.setStream k (some y)) :=
  ⟨⟨rfl, rfl⟩, State.stream_setStream_same _ _ _, rfl, fun _ hj => State.stream_setStream_other _ _ hj⟩

theorem streamStep_modStream (s : State) {k : Nat} {x : Stream} (f : Stream → Stream) (h : s.stream k = some x) :
    StreamStep k s.links.ring (f x) s (s.modStream k f) := by
  unfold State.modStream
  rw [h]
  exact streamStep_setStream s k (f x)

/-- A message of the stream that has not been acknowledged is to be sent again. -/
def unsent (k : Nat) (l : List HeldMsg) : List HeldMsg := l.map fun m => if m.stream == k && !m.acked then { m with sent := false } else m

/-- The messages before a point acknowledged. -/
def ackedUpTo (k f q : Nat) (l : List HeldMsg) : List HeldMsg :=
  l.map fun m => if m.stream == k && m.before f q then { m with acked := true, sent := true } else m

/-- The stream after an acknowledgement: progress ends the count of rounds and a pause. -/
def Stream.afterAck (x : Stream) (l l' : List HeldMsg) : Stream := if l' = l then x else { x with rounds := 0, paused := false }

theorem streamStep_acknowledge (s : State) {k : Nat} {x : Stream} (f q : Nat) (h : s.stream k = some x) :
    StreamStep k (ackedUpTo k f q s.links.ring) (x.afterAck s.links.ring (ackedUpTo k f q s.links.ring)) s (s.acknowledge k f q) := by
  have hs : s.acknowledge k f q = if ackedUpTo k f q s.links.ring = s.links.ring then s
      else (s.setRing (ackedUpTo k f q s.links.ring)).modStream k fun x => { x with rounds := 0, paused := false } :=
    if_congr (by simp only [beq_iff_eq]; rfl) rfl rfl
  rw [hs, Stream.afterAck]
  by_cases he : ackedUpTo k f q s.links.ring = s.links.ring
  · rw [if_pos he, if_pos he, he]
    exact ⟨⟨rfl, rfl⟩, h, rfl, fun _ _ => rfl⟩
  · rw [if_neg he, if_neg he]
    exact (streamStep_setRing s _ h).trans (streamStep_modStream (s.setRing (ackedUpTo k f q s.links.ring)) _ h)

/-- The stream after one more round of resending. -/
def Stream.again (x : Stream) : Stream := { x with rounds := x.rounds + 1, resends := (x.resends + 1) % 2 ^ 32 }

theorem streamStep_resendRound (s : State) {k : Nat} {x : Stream} (h : s.stream k = some x) (hf : x.fault = false) (hr : x.rounds < 8) :
    StreamStep k (unsent k s.links.ring) x.again s (s.resendRound k) := by
  have hs : s.resendRound k = (s.setStream k (some x.again)).setRing (unsent k s.links.ring) := by
    unfold State.resendRound
    rw [h]
    exact (if_neg (by simp [hf])).trans (if_neg (Nat.not_le.mpr hr))
  rw [hs]
  exact (streamStep_setStream s k x.again).trans (streamStep_setRing _ _ (State.stream_setStream_same s k (some x.again)))

/-- A fault of a running command after a stream's. -/
theorem streamStep_modCmd (s : State) {k : Nat} {x : Stream} (id : Nat) (f : Cmd → Cmd) (h : s.stream k = some x) :
    StreamStep k s.links.ring x s (s.modCmd id f) := by
  rw [State.modCmd_only]
  exact ⟨⟨rfl, rfl⟩, h, rfl, fun _ _ => rfl⟩

theorem streamStep_trace (s : State) {k : Nat} {x : Stream} (type func arg0 arg1 : Nat) (h : s.stream k = some x) :
    StreamStep k s.links.ring x s (s.trace type func arg0 arg1) := by
  rw [State.trace_obs]
  exact ⟨⟨rfl, rfl⟩, h, rfl, fun _ _ => rfl⟩

theorem streamStep_streamFault (s : State) {k : Nat} {x : Stream} (cause : Nat) (h : s.stream k = some x) (hf : x.fault = false) :
    StreamStep k s.links.ring { x with fault := true } s (s.streamFault k cause) := by
  have hset := streamStep_setStream s k { x with fault := true }
  have htrace := hset.trans (streamStep_trace (s.setStream k (some { x with fault := true })) 4 x.func (2 + 256 * cause) k hset.2.1)
  unfold State.streamFault
  rw [h]
  simp only [hf, Bool.false_eq_true, if_false]
  split
  · exact htrace
  · refine htrace.trans ?_
    have hcmd := streamStep_modCmd ((s.setStream k (some { x with fault := true })).trace 4 x.func (2 + 256 * cause) k) ‹Nat›
      (fun c => { c with fault := some (c.fault.getD { reason := 0x31, source := 2, unit := k }) }) htrace.2.1
    rw [htrace.2.2.1] at hcmd
    exact hcmd

theorem streamStep_send {s u : State} {k : Nat} {x : Stream} (hs : SendOnly s u) (h : s.stream k = some x) :
    StreamStep k s.links.ring x s u := by
  rw [hs.only]
  exact ⟨⟨rfl, rfl⟩, h, rfl, fun _ _ => rfl⟩

/-! ### The commands -/

theorem State.mine_stream {s : State} {hdr : BitVec 256} {kind : Nat} {x : Stream} (h : s.mine hdr kind = some x) :
    s.stream (parseHdr hdr).stream = some x := by
  unfold State.mine at h
  simp only at h
  split at h
  · split at h
    next y hy =>
      split at h
      · exact hy.trans h
      · exact absurd h (by simp)
    · exact absurd h (by simp)
  · exact absurd h (by simp)

section

variable {s : State} {hdr : BitVec 256} {x : Stream} (hh : s.halted = false)

include hh

theorem exec_ack (h : s.mine hdr 2 = some x) :
    exec (.ack hdr) s = .next ((s.passAny (messageBytes hdr [])).acknowledge (parseHdr hdr).stream (parseHdr hdr).sframe (parseHdr hdr).seq) := by
  change execAck hdr s = _
  simp only [execAck, hh, Bool.false_eq_true, if_false, h]

theorem exec_retire (h : s.mine hdr 3 = some x) :
    exec (.retire hdr) s =
      if (parseHdr hdr).sframe < x.retSframe ∨ (parseHdr hdr).sframe = x.retSframe ∧ (parseHdr hdr).seq ≤ x.retSeq then
        .next (s.passAny (messageBytes hdr []))
      else .next (((s.passAny (messageBytes hdr [])).setRing ((s.passAny (messageBytes hdr [])).links.ring.filter fun m =>
          !(m.stream == (parseHdr hdr).stream && m.before (parseHdr hdr).sframe (parseHdr hdr).seq))).setStream (parseHdr hdr).stream
        (some { x with retSframe := (parseHdr hdr).sframe, retSeq := (parseHdr hdr).seq, rounds := 0 })) := by
  change execRetire hdr s = _
  simp only [execRetire, hh, Bool.false_eq_true, if_false, h, Bool.or_eq_true, Bool.and_eq_true, decide_eq_true_eq, beq_iff_eq]

theorem exec_rewind (h : s.mine hdr 5 = some x) :
    exec (.rewind hdr) s = .next ((s.passAny (messageBytes hdr [])).setRing (s.links.ring.map fun m =>
      if m.stream == (parseHdr hdr).stream && m.seq.isSome && !m.before (parseHdr hdr).sframe (parseHdr hdr).seq then
        { m with sent := false, acked := false } else m)) := by
  change execRewind hdr s = _
  simp only [execRewind, hh, Bool.false_eq_true, if_false, h]

theorem exec_nak (h : s.mine hdr 4 = some x) (hn : (parseHdr hdr).nak ≠ 7) :
    exec (.nak hdr) s = .next ((s.passAny (messageBytes hdr [])).nakStream (parseHdr hdr)) := by
  change execNak hdr s = _
  simp only [execNak, hh, Bool.false_eq_true, if_false, h, beq_iff_eq, hn]

theorem onStream_runs {g : Nat} (f : State → State) (hg : g < 4096) : onStream g f s = .next (f s) := by
  simp [onStream, Nat.not_le.mpr hg, hh]

theorem exec_resendTimeout {g : Nat} (hg : g < 4096) (hx : s.stream g = some x) (hp : x.paused = false)
    (hm : ∃ m, m ∈ s.links.ring ∧ m.stream = g ∧ m.sent = true ∧ m.acked = false) : exec (.resendTimeout g) s = .next (s.resendRound g) := by
  have hany : (s.links.ring.any fun m => m.stream == g && m.sent && !m.acked) = true := by
    obtain ⟨m, hmem, hstream, hsent, hack⟩ := hm
    exact List.any_eq_true.mpr ⟨m, hmem, by simp [hstream, hsent, hack]⟩
  change onStream g _ s = _
  rw [onStream_runs hh _ hg]
  simp only [hany, if_true, hx, Option.map_some, Option.getD_some, hp, Bool.false_eq_true, if_false]

theorem exec_parkedRepeat {g : Nat} (hg : g < 4096) (hx : s.stream g = some x) (hp : x.paused = true) (hf : x.fault = false) :
    exec (.parkedRepeat g) s = .next (s.setRing (unsent g s.links.ring)) := by
  change execParkedRepeat g s = _
  unfold execParkedRepeat
  rw [onStream_runs hh _ hg]
  simp only [hx, hp, hf, Bool.not_false, Bool.and_self, if_true]
  rfl

theorem exec_messageTransmit {g : Nat} (hg : g < 4096) : exec (.messageTransmit g) s = .next (s.transmit g) :=
  onStream_runs hh (fun s => s.transmit g) hg

end

/-! ### The next message of a stream (R327, R332) -/

/-- The header of a message that a stream sends. -/
def State.messageHdr (s : State) (g : Nat) (x : Stream) (m : HeldMsg) : Hdr :=
  { dst := x.dst, src := s.address, kind := 0, tclass := x.tclass, win := x.dstWin, stream := g, sframe := m.ord
    seq := m.seq.getD 0, offset := m.offset / 32, lenM1 := m.data.length / 32 - 1, last := m.last
    first := m.first, umber := m.mark, func := x.func }

/-- The turn among the streams of a die and class passed on. -/
def State.passTurn (s : State) (key h : Nat) : State := { s with links := { s.links with next := kset 0 s.links.next key h } }

theorem streamStep_passTurn (s : State) {k : Nat} {x : Stream} (key h : Nat) (hx : s.stream k = some x) :
    StreamStep k s.links.ring x s (s.passTurn key h) := ⟨⟨rfl, rfl⟩, hx, rfl, fun _ _ => rfl⟩

/-- The messages once m has been sent. -/
def sentIn (m : HeldMsg) (l : List HeldMsg) : List HeldMsg := l.map fun y => if y == m then { y with sent := true } else y

/-- The state with the message sent, and the turn passed on. -/
def State.messageSent (s : State) (g : Nat) (x : Stream) (m : HeldMsg) : State :=
  (((s.launch (s.messageHdr g x m).bits m.data).1).setRing (sentIn m s.links.ring)).passTurn (16 * dieOf m.core + x.tclass) (g + 1)

theorem State.transmit_eq (s : State) {g : Nat} {x : Stream} {m : HeldMsg} (hx : s.stream g = some x) (hm : s.nextMsg g = some m) :
    s.transmit g = if (x.fault || decide (s.subtick < 16)) = true then s
      else if (!s.reachable x.dst) = true then s.streamFault g 5
      else if (s.nextSender (dieOf m.core) x.tclass != some g) = true then s
      else s.messageSent g x m := by
  unfold State.transmit
  rw [hx, hm]
  rfl

theorem streamStep_messageSent (s : State) {g : Nat} {x : Stream} (m : HeldMsg) (hx : s.stream g = some x) :
    StreamStep g (sentIn m s.links.ring) x s (s.messageSent g x m) := by
  have hsend := streamStep_send (sendOnly_launch s (s.messageHdr g x m).bits m.data false) hx
  have hring := hsend.trans (streamStep_setRing _ (sentIn m s.links.ring) hsend.2.1)
  exact hring.trans (streamStep_passTurn _ _ _ hring.2.1)

/-- A NAK that asks for a resend from its point on. -/
theorem streamStep_nakResend (s : State) {k : Nat} {x : Stream} (f q : Nat) (h : s.stream k = some x) (hf : x.fault = false)
    (hr : (x.afterAck s.links.ring (ackedUpTo k f q s.links.ring)).rounds < 8) :
    StreamStep k (unsent k (ackedUpTo k f q s.links.ring)) (x.afterAck s.links.ring (ackedUpTo k f q s.links.ring)).again s
      ((s.acknowledge k f q).resendRound k) := by
  have hack := streamStep_acknowledge s f q h
  have hfault : (x.afterAck s.links.ring (ackedUpTo k f q s.links.ring)).fault = false := by
    unfold Stream.afterAck
    split
    · exact hf
    · exact hf
  have hround := streamStep_resendRound _ hack.2.1 hfault hr
  rw [hack.2.2.1] at hround
  exact hack.trans hround

/-- What a NAK with each reason does to a stream that has not faulted. -/
theorem streamStep_nakStream (s : State) (h : Hdr) {x : Stream} (hx : s.stream h.stream = some x) (hf : x.fault = false) :
    (h.nak = 1 → (x.afterAck s.links.ring (ackedUpTo h.stream h.sframe h.seq s.links.ring)).rounds < 8 →
      StreamStep h.stream (unsent h.stream (ackedUpTo h.stream h.sframe h.seq s.links.ring))
        (x.afterAck s.links.ring (ackedUpTo h.stream h.sframe h.seq s.links.ring)).again s (s.nakStream h)) ∧
    (2 ≤ h.nak → h.nak ≤ 4 → StreamStep h.stream s.links.ring { x with fault := true } s (s.nakStream h)) ∧
    (h.nak = 5 → StreamStep h.stream s.links.ring { x with paused := true } s (s.nakStream h)) ∧
    (h.nak = 6 → x.rounds < 8 → StreamStep h.stream (unsent h.stream s.links.ring) x.again s (s.nakStream h)) := by
  unfold State.nakStream
  refine ⟨fun hn hr => ?_, fun h2 h4 => ?_, fun hn => ?_, fun hn hr => ?_⟩
  · rw [hn]
    exact streamStep_nakResend s _ _ hx hf hr
  · have hcause : h.nak = 2 ∨ h.nak = 3 ∨ h.nak = 4 := by omega
    obtain hn | hn | hn := hcause
    · rw [hn]
      exact streamStep_streamFault s 1 hx hf
    · rw [hn]
      exact streamStep_streamFault s 2 hx hf
    · rw [hn]
      exact streamStep_streamFault s 3 hx hf
  · rw [hn]
    exact streamStep_modStream s _ hx
  · rw [hn]
    exact streamStep_resendRound s hx hf hr

end Sys2Proof.Machine

namespace Sys2Proof.Proofs

open Sys2Proof.Machine Sys2Proof.Claims

/-- Settles O47, by what each answer, timeout and turn does to the stream and its messages. -/
theorem streamAnswers : Obligations.StreamAnswers := by
  unfold Obligations.StreamAnswers
  intro s hdr x m g hh h unsent' acked after again goes ring
  have hpass : PortsOnly s (s.passAny (messageBytes hdr [])) := portsOnly_passAny s _
  have hring := ring_of_ports hpass
  refine ⟨fun hm => ?_, fun hm => ⟨fun hn => ?_, fun hn => ?_⟩, fun hm => ?_, fun hm hf => ⟨fun hn hr => ?_, fun h2 h4 => ?_, fun hn => ?_, fun hn hr => ?_⟩,
    fun hg hx hf => ⟨fun hp hany => ⟨fun hr => ?_, fun hr => ?_⟩, fun hp => ?_, fun hnext => ?_⟩⟩
  · have hack := streamStep_acknowledge _ h.sframe h.seq ((stream_of_ports hpass _).trans (State.mine_stream hm))
    rw [hring] at hack
    exact ⟨_, exec_ack hh hm, streamStep_of_ports hpass hack⟩
  · have hnot : ¬ (h.sframe < x.retSframe ∨ h.sframe = x.retSframe ∧ h.seq ≤ x.retSeq) := by omega
    refine ⟨_, (exec_retire hh hm).trans (if_neg hnot), ?_⟩
    rw [hring]
    exact streamStep_of_ports hpass ((streamStep_setRing _ _ ((stream_of_ports hpass _).trans (State.mine_stream hm))).trans (streamStep_setStream _ _ _))
  · exact ⟨_, (exec_retire hh hm).trans (if_pos hn), hpass⟩
  · exact ⟨_, exec_rewind hh hm, streamStep_of_ports hpass (streamStep_setRing _ _ ((stream_of_ports hpass _).trans (State.mine_stream hm)))⟩
  · have hnak := (streamStep_nakStream _ h ((stream_of_ports hpass _).trans (State.mine_stream hm)) hf).1 hn
    rw [hring] at hnak
    exact ⟨_, exec_nak hh hm (hn ▸ by decide), streamStep_of_ports hpass (hnak hr)⟩
  · have hnak := (streamStep_nakStream _ h ((stream_of_ports hpass _).trans (State.mine_stream hm)) hf).2.1 h2 h4
    rw [hring] at hnak
    exact ⟨_, exec_nak hh hm (Nat.ne_of_lt (Nat.lt_of_le_of_lt h4 (by decide))), streamStep_of_ports hpass hnak⟩
  · have hnak := (streamStep_nakStream _ h ((stream_of_ports hpass _).trans (State.mine_stream hm)) hf).2.2.1 hn
    rw [hring] at hnak
    exact ⟨_, exec_nak hh hm (hn ▸ by decide), streamStep_of_ports hpass hnak⟩
  · have hnak := (streamStep_nakStream _ h ((stream_of_ports hpass _).trans (State.mine_stream hm)) hf).2.2.2 hn hr
    rw [hring] at hnak
    exact ⟨_, exec_nak hh hm (hn ▸ by decide), streamStep_of_ports hpass hnak⟩
  · exact ⟨_, exec_resendTimeout hh hg hx hp hany, streamStep_resendRound s hx hf hr⟩
  · refine ⟨_, (exec_resendTimeout hh hg hx hp hany).trans (congrArg Host.Outcome.next ?_), streamStep_streamFault s 4 hx hf⟩
    unfold State.resendRound
    rw [hx]
    exact (if_neg (by simp [hf])).trans (if_pos hr)
  · exact ⟨_, exec_parkedRepeat hh hg hx hp hf, streamStep_setRing s _ hx⟩
  · intro turn
    have hsend := (exec_messageTransmit hh hg).trans (congrArg Host.Outcome.next (s.transmit_eq hx hnext))
    refine ⟨fun ht => ?_, fun ht hu => ?_, fun ht hu hturn => ?_, fun ht hu hturn => ?_⟩
    · exact hsend.trans (congrArg Host.Outcome.next (if_pos (by simp [ht])))
    all_goals have hearly : ¬ (x.fault || decide (s.subtick < 16)) = true := by simp [hf, ht]
    · exact ⟨_, hsend.trans (congrArg Host.Outcome.next ((if_neg hearly).trans (if_pos (by simp [hu])))), streamStep_streamFault s 5 hx hf⟩
    · exact hsend.trans (congrArg Host.Outcome.next ((if_neg hearly).trans ((if_neg (by simp [hu])).trans (if_pos (bne_iff_ne.mpr hturn)))))
    · exact ⟨_, hsend.trans (congrArg Host.Outcome.next ((if_neg hearly).trans ((if_neg (by simp [hu])).trans
        (if_neg (fun hne => bne_iff_ne.mp hne hturn))))), streamStep_messageSent s m hx⟩

end Sys2Proof.Proofs
end

section
/-! PROOFS. Messages received, forwarded and answered at the windows (R92, R262, R314, R317, R320, R321, R328). -/

namespace Sys2Proof.Machine

open Sys2Proof.Claims

/-! ### What lands nothing -/

theorem core_of_cores {s u : State} (h : u.cores = s.cores) (c : Nat) : u.core c = s.core c := by rw [State.core, h, State.core]

/-- No byte, no held write, no window, no record and no core has changed. -/
def LandsNothing (s u : State) : Prop :=
  SameData s u ∧ u.links.windows = s.links.windows ∧ u.links.isrs = s.links.isrs ∧ u.cores = s.cores

theorem LandsNothing.trans {s u w : State} (h : LandsNothing s u) (h' : LandsNothing u w) : LandsNothing s w := by
  obtain ⟨⟨h1, h2⟩, h3, h4, h5⟩ := h
  obtain ⟨⟨h1', h2'⟩, h3', h4', h5'⟩ := h'
  exact ⟨⟨h1'.trans h1, h2'.trans h2⟩, h3'.trans h3, h4'.trans h4, h5'.trans h5⟩

theorem landsNothing_send {s u : State} (h : SendOnly s u) : LandsNothing s u := by
  rw [h.only]
  exact ⟨⟨rfl, rfl⟩, rfl, rfl, rfl⟩

theorem landsNothing_ports {s u : State} (h : PortsOnly s u) : LandsNothing s u := by
  unfold PortsOnly at h
  rw [h]
  exact ⟨⟨rfl, rfl⟩, rfl, rfl, rfl⟩

theorem landsNothing_regs {s u : State} (h : RegsOnly s u) : LandsNothing s u := by
  unfold RegsOnly at h
  rw [h]
  exact ⟨⟨rfl, rfl⟩, rfl, rfl, rfl⟩

theorem landsNothing_answer (s : State) (kind dst stream lf ns : Nat) (closed : Bool) (reason : Nat) :
    LandsNothing s (s.answer kind dst stream lf ns closed reason) := landsNothing_send (sendOnly_answer s _ _ _ _ _ _ _)

/-- A message counted and answered: nothing lands, and the counter has one more. -/
theorem landsNothing_counted (s : State) {off : Nat} (ho : off = 0x20 ∨ off = 0x24) (kind dst stream lf ns : Nat) (closed : Bool) (reason : Nat) :
    LandsNothing s ((s.count (linkReg off) 1).answer kind dst stream lf ns closed reason) ∧
      ((s.count (linkReg off) 1).answer kind dst stream lf ns closed reason).reg (linkReg off) = (s.reg (linkReg off) + 1) % 2 ^ 32 := by
  refine ⟨(landsNothing_regs (regsOnly_setReg s _ _)).trans (landsNothing_answer _ _ _ _ _ _ _ _), ?_⟩
  have hne : linkReg off ∉ [linkReg 0x28, collReg 0x10] := by
    simp only [List.mem_cons, List.not_mem_nil, or_false, not_or, linkReg, collReg]
    omega
  exact ((sendOnly_answer _ _ _ _ _ _ _ _).regs _ hne).trans (State.reg_setReg_same _ _ _)

/-! ### A message that lands (R92, R328) -/

/-- The bytes and marks of an accepted message, its window's count and its core's counter, are those of the message. -/
structure Landed (w : Window) (h : Hdr) (payload : List Byte) (s u : State) : Prop where
  held : u.held = s.held
  win : u.win h.win = some { w with accepted := (w.accepted + 1) % 2 ^ 32 }
  cores : ∀ c, c ≠ w.notifyCore → u.core c = s.core c
  store : w.store = true → (∀ o, o < 32 * (h.lenM1 + 1) → Mem.read u.mem (w.base + 32 * h.offset + o) = payload.getD o 0) ∧
    SameOutside s u (w.base + 32 * h.offset) (32 * (h.lenM1 + 1)) ∧
    (u.core w.notifyCore).ctr w.ctr = (s.core w.notifyCore).ctr w.ctr + 1
  pad : w.store = false → u.mem = s.mem ∧ u.core w.notifyCore = { s.core w.notifyCore with
    ext := (s.core w.notifyCore).ext ++ (List.range (h.lenM1 + 1)).map fun m =>
      ExtReq.window (w.base + 32 * h.offset + 32 * m) ((payload.drop (32 * m)).take 32) h.umber (if m == h.lenM1 then some w.ctr else none) }

/-- The window's count of accepted messages. -/
def State.accepts (s : State) (n : Nat) (w : Window) : State :=
  { s with links := { s.links with windows := kset none s.links.windows n (some { w with accepted := (w.accepted + 1) % 2 ^ 32 }) } }

theorem State.win_accepts (s : State) (n : Nat) (w : Window) :
    (s.accepts n w).win n = some { w with accepted := (w.accepted + 1) % 2 ^ 32 } := by simp [State.accepts, State.win]

theorem State.landMsg_store (s : State) (n : Nat) (w : Window) (h : Hdr) (payload : List Byte) (hl : payload.length = 32 * (h.lenM1 + 1))
    (hs : w.store = true) : s.landMsg n w h payload =
      ((s.accepts n w).writeMarked (w.base + 32 * h.offset) payload h.umber).modCore w.notifyCore fun k => k.addCtr w.ctr 1 := by
  unfold State.landMsg
  rw [← hl, List.take_length]
  exact if_pos hs

theorem State.landMsg_pad (s : State) (n : Nat) (w : Window) (h : Hdr) (payload : List Byte) (hl : payload.length = 32 * (h.lenM1 + 1))
    (hs : w.store = false) : s.landMsg n w h payload =
      (s.accepts n w).modCore w.notifyCore fun k => { k with
        ext := k.ext ++ (List.range (h.lenM1 + 1)).map fun m =>
          ExtReq.window (w.base + 32 * h.offset + 32 * m) ((payload.drop (32 * m)).take 32) h.umber (if m == h.lenM1 then some w.ctr else none) } := by
  unfold State.landMsg
  rw [← hl, List.take_length]
  exact if_neg (by simp [hs])

theorem landed_landMsg (s : State) (w : Window) (h : Hdr) (payload : List Byte) (hl : payload.length = 32 * (h.lenM1 + 1)) :
    Landed w h payload s (s.landMsg h.win w h payload) ∧ (s.landMsg h.win w h payload).links.isrs = s.links.isrs := by
  cases hs : w.store with
  | true =>
    rw [s.landMsg_store h.win w h payload hl hs]
    have hw := writesOnly_writeMarked (s.accepts h.win w) (w.base + 32 * h.offset) payload h.umber
    have hlinks : ((s.accepts h.win w).writeMarked (w.base + 32 * h.offset) payload h.umber).links = (s.accepts h.win w).links :=
      (congrArg State.links hw).trans rfl
    have hcore (c : Nat) : ((s.accepts h.win w).writeMarked (w.base + 32 * h.offset) payload h.umber).core c = s.core c :=
      core_of_cores hw.cores c
    refine ⟨⟨hw.held, ?_, fun c hc => ?_, fun _ => ⟨fun o ho => ?_, fun a ha => ?_, ?_⟩, fun hf => absurd hf (by simp [hs])⟩, ?_⟩
    · exact (congrArg (fun l : Links => kget none l.windows h.win) hlinks).trans (s.win_accepts h.win w)
    · exact (State.core_modCore_other _ _ hc.symm).trans (hcore c)
    · exact State.read_writeMarked_inside _ _ payload _ o (hl ▸ ho)
    · exact sameOutside_writeMarked (s.accepts h.win w) _ payload _ a (hl ▸ ha)
    · rw [State.core_modCore_same, Core.addCtr_ctr_same, hcore]
    · exact (congrArg Links.isrs hlinks).trans rfl
  | false =>
    rw [s.landMsg_pad h.win w h payload hl hs]
    refine ⟨⟨rfl, s.win_accepts h.win w, fun c hc => State.core_modCore_other _ _ hc.symm, fun ht => absurd ht (by simp [hs]), fun _ => ⟨rfl, ?_⟩⟩, rfl⟩
    exact State.core_modCore_same _ _ _

/-- What changes nothing that landing speaks of. -/
theorem Landed.then {w : Window} {h : Hdr} {payload : List Byte} {s u v : State} (hl : Landed w h payload s u) (hn : LandsNothing u v) :
    Landed w h payload s v := by
  obtain ⟨⟨hm, hh⟩, hw, -, hc⟩ := hn
  have hcore (c : Nat) : v.core c = u.core c := core_of_cores hc c
  refine ⟨hh.trans hl.held, (congrArg (fun m => kget none m h.win) hw).trans hl.win, fun c hne => (hcore c).trans (hl.cores c hne), fun ht => ?_, fun hf => ?_⟩
  · obtain ⟨h1, h2, h3⟩ := hl.store ht
    rw [hcore, hm]
    exact ⟨h1, fun a ha => (congrArg (fun m => Mem.read m a) hm).trans (h2 a ha), h3⟩
  · rw [hcore, hm]
    exact hl.pad hf

theorem Landed.of_setIsr {w : Window} {h : Hdr} {payload : List Byte} {s u : State} (i : Nat) (x : Option Isr) (hl : Landed w h payload s u) :
    Landed w h payload s (u.setIsr i x) := ⟨hl.held, hl.win, hl.cores, hl.store, hl.pad⟩

theorem State.isr_setIsr (s : State) (i : Nat) (x : Option Isr) : kget none (s.setIsr i x).links.isrs i = x := by simp [State.setIsr]

/-- The record after an accepted message, `un` messages then not acknowledged. -/
def Isr.moved (o : Isr) (h : Hdr) (un : Nat) : Isr :=
  { o with lf := h.sframe, ns := h.seq + 1, closed := h.last, unacked := if h.last = true ∨ 64 ≤ un then 0 else un }

/-! ### The order rule (R328) -/

/-- Does a message stand before the record's point? -/
def Isr.past (r : Isr) (h : Hdr) : Prop := (h.sframe : Int) < r.lf ∨ (h.sframe : Int) = r.lf ∧ (r.closed = true ∨ h.seq < r.ns)

/-- Does it follow the last one of its stream? -/
def Isr.next (r : Isr) (h : Hdr) : Prop :=
  (h.sframe : Int) = r.lf ∧ h.seq = r.ns ∧ r.closed = false ∨ r.lf < (h.sframe : Int) ∧ h.seq = 0 ∧ r.closed = true

theorem Isr.past_iff (r : Isr) (h : Hdr) :
    (decide ((h.sframe : Int) < r.lf) || ((h.sframe : Int) == r.lf && (r.closed || decide (h.seq < r.ns)))) = true ↔ r.past h := by
  simp only [Bool.or_eq_true, Bool.and_eq_true, decide_eq_true_eq, beq_iff_eq, Isr.past]

theorem Isr.not_past_of_next {r : Isr} {h : Hdr} (hn : r.next h) : ¬ r.past h := by
  rintro (hp | ⟨hf, hp⟩)
  · obtain ⟨hf, -, -⟩ | ⟨hf, -, -⟩ := hn <;> omega
  · obtain ⟨-, hs, hc⟩ | ⟨hf', -, -⟩ := hn
    · obtain hp | hp := hp
      · simp [hc] at hp
      · omega
    · omega

theorem Isr.next_iff {r : Isr} {h : Hdr} (hp : ¬ r.past h) :
    (((h.sframe : Int) == r.lf && h.seq == r.ns) || (decide (r.lf < (h.sframe : Int)) && h.seq == 0 && r.closed)) = true ↔ r.next h := by
  simp only [Bool.or_eq_true, Bool.and_eq_true, decide_eq_true_eq, beq_iff_eq, Isr.next, and_assoc]
  refine or_congr_left ⟨fun ⟨hf, hs⟩ => ⟨hf, hs, ?_⟩, fun ⟨hf, hs, _⟩ => ⟨hf, hs⟩⟩
  cases hc : r.closed
  · rfl
  · exact absurd (Or.inr ⟨hf, Or.inl hc⟩) hp

section

variable (s : State) (n i : Nat) (w : Window) {r : Isr} {h : Hdr} (payload : List Byte)

theorem State.orderRule_past (hp : r.past h) :
    s.orderRule n i w r h payload = (s.count (linkReg 0x20) 1).answer 2 h.src h.stream r.lf.toNat r.ns r.closed 0 :=
  if_pos ((r.past_iff h).mpr hp)

theorem State.orderRule_next (hn : r.next h) :
    s.orderRule n i w r h payload = if (h.last || decide (64 ≤ r.unacked + 1)) = true then
      ((s.landMsg n w h payload).setIsr i (some { r with lf := h.sframe, ns := h.seq + 1, closed := h.last, unacked := 0 })).answer 2 h.src h.stream
        h.sframe (h.seq + 1) h.last 0
    else (s.landMsg n w h payload).setIsr i (some { r with lf := h.sframe, ns := h.seq + 1, closed := h.last, unacked := r.unacked + 1 }) := by
  have hp := Isr.not_past_of_next hn
  exact (if_neg fun he => hp ((r.past_iff h).mp he)).trans (if_pos ((Isr.next_iff hp).mpr hn))

theorem State.orderRule_other (hp : ¬ r.past h) (hn : ¬ r.next h) :
    s.orderRule n i w r h payload = s.answer 4 h.src h.stream r.lf.toNat r.ns r.closed 1 :=
  (if_neg fun he => hp ((r.past_iff h).mp he)).trans (if_neg fun he => hn ((Isr.next_iff hp).mp he))

end

/-- A message that follows lands, and its record moves. -/
theorem landed_orderRule (s : State) (i : Nat) (w : Window) {r : Isr} {h : Hdr} (payload : List Byte) (hn : r.next h)
    (hl : payload.length = 32 * (h.lenM1 + 1)) :
    Landed w h payload s (s.orderRule h.win i w r h payload) ∧
      kget none (s.orderRule h.win i w r h payload).links.isrs i = some (r.moved h (r.unacked + 1)) := by
  obtain ⟨hland, -⟩ := landed_landMsg s w h payload hl
  rw [s.orderRule_next h.win i w payload hn]
  by_cases hack : (h.last || decide (64 ≤ r.unacked + 1)) = true
  · rw [if_pos hack]
    have hans := landsNothing_answer ((s.landMsg h.win w h payload).setIsr i
      (some { r with lf := h.sframe, ns := h.seq + 1, closed := h.last, unacked := 0 })) 2 h.src h.stream h.sframe (h.seq + 1) h.last 0
    refine ⟨(hland.of_setIsr i _).then hans, ?_⟩
    rw [hans.2.2.1, State.isr_setIsr, Isr.moved, if_pos (by simpa using hack)]
  · rw [if_neg hack]
    refine ⟨hland.of_setIsr i _, ?_⟩
    rw [State.isr_setIsr, Isr.moved, if_neg (by simpa using hack)]

/-! ### The checks of a WRITE message (R328) -/

section

variable {s : State} {hdr : BitVec 256} {w : Window} (payload : List Byte)

theorem State.receiveWrite_noWindow (hw : s.win (parseHdr hdr).win = none) :
    s.receiveWrite hdr payload = (s.count (linkReg 0x24) 1).answer 4 (parseHdr hdr).src (parseHdr hdr).stream 0 0 false 2 := by
  simp only [State.receiveWrite, hw]

theorem State.receiveWrite_parked (hw : s.win (parseHdr hdr).win = some w) (hp : w.parked = true) :
    s.receiveWrite hdr payload = s.answer 4 (parseHdr hdr).src (parseHdr hdr).stream 0 0 false 5 := by
  simp only [State.receiveWrite, hw, hp, if_true]

theorem State.receiveWrite_refused (hw : s.win (parseHdr hdr).win = some w) (hp : w.parked = false)
    (hr : w.admits (parseHdr hdr).src (parseHdr hdr).func = false ∨ s.inWindow w (parseHdr hdr) = false) :
    ∃ k, s.receiveWrite hdr payload = (s.count (linkReg 0x24) 1).answer 4 (parseHdr hdr).src (parseHdr hdr).stream 0 0 false k := by
  cases ha : w.admits (parseHdr hdr).src (parseHdr hdr).func with
  | false => exact ⟨3, by simp [State.receiveWrite, hw, hp, ha]⟩
  | true => exact ⟨4, by simp [State.receiveWrite, hw, hp, ha, hr.resolve_left (by simp [ha])]⟩

variable (hw : s.win (parseHdr hdr).win = some w) (hp : w.parked = false) (ha : w.admits (parseHdr hdr).src (parseHdr hdr).func = true)
  (hi : s.inWindow w (parseHdr hdr) = true)

include hw hp ha hi

theorem State.receiveWrite_record {i : Nat} {r : Isr} (hr : s.isrOf (parseHdr hdr).src (parseHdr hdr).stream = some (i, r)) :
    s.receiveWrite hdr payload = s.orderRule (parseHdr hdr).win i w r (parseHdr hdr) payload := by
  simp [State.receiveWrite, hw, hp, ha, hi, hr]

theorem State.receiveWrite_noRecord (hr : s.isrOf (parseHdr hdr).src (parseHdr hdr).stream = none)
    (hn : (parseHdr hdr).first = false ∨ s.freeIsr = none) : LandsNothing s (s.receiveWrite hdr payload) := by
  cases hf : (parseHdr hdr).first with
  | false =>
    have hx : s.receiveWrite hdr payload = s.answer 4 (parseHdr hdr).src (parseHdr hdr).stream 0 0 false 1 := by
      simp [State.receiveWrite, hw, hp, ha, hi, hr, hf]
    rw [hx]
    exact landsNothing_answer s _ _ _ _ _ _ _
  | true =>
    have hx : s.receiveWrite hdr payload = (s.setBit (linkReg 0x0C) 4).answer 4 (parseHdr hdr).src (parseHdr hdr).stream 0 0 false 6 := by
      simp [State.receiveWrite, hw, hp, ha, hi, hr, hf, hn.resolve_left (by simp [hf])]
    rw [hx]
    exact (landsNothing_regs (regsOnly_setBit s _ _)).trans (landsNothing_answer _ _ _ _ _ _ _ _)

/-- The record that a stream's first message begins. -/
def freshIsr (h : Hdr) : Isr := { src := h.src, stream := h.stream, win := h.win, lf := (h.sframe : Int) - 1, ns := 0, closed := true }

theorem State.receiveWrite_fresh {j : Nat} (hr : s.isrOf (parseHdr hdr).src (parseHdr hdr).stream = none) (hf : (parseHdr hdr).first = true)
    (hj : s.freeIsr = some j) :
    s.receiveWrite hdr payload = (s.setIsr j (some (freshIsr (parseHdr hdr)))).orderRule (parseHdr hdr).win j w (freshIsr (parseHdr hdr))
      (parseHdr hdr) payload := by
  simp [State.receiveWrite, hw, hp, ha, hi, hr, hf, hj]
  rfl

end

theorem freshIsr_next (h : Hdr) (hs : h.seq = 0) : (freshIsr h).next h := .inr ⟨by simp only [freshIsr]; omega, hs, rfl⟩

/-- What landing says from a state with one more record it says from the state before. -/
theorem Landed.of_start {w : Window} {h : Hdr} {payload : List Byte} {s u : State} (i : Nat) (x : Option Isr)
    (hl : Landed w h payload (s.setIsr i x) u) : Landed w h payload s u := ⟨hl.held, hl.win, hl.cores, hl.store, hl.pad⟩

theorem exec_writeMessageReceive (s : State) {p : Nat} (hdr : BitVec 256) (payload : List Byte) (hp : p < 8) (hh : s.halted = false)
    (hs : s.portState p = 2) (hd : (parseHdr hdr).dst = s.address) (hk : (parseHdr hdr).kind = 0) :
    exec (.writeMessageReceive p hdr payload) s = .next ((s.passOn p (messageBytes hdr payload)).1.receiveWrite hdr payload) := by
  have hd' : bitsOf hdr.toNat 0 16 = s.address := hd
  have hk' : bitsOf hdr.toNat 32 4 = 0 := hk
  have hport : isPort p = true := decide_eq_true hp
  change execWriteMessageReceive p hdr payload s = _
  simp [execWriteMessageReceive, onPort, hport, hh, hs, hd', hk']

/-! ### Messages passed on, answers that are due (R314, R317, R328) -/

theorem exec_messageForward (s : State) {p : Nat} (hdr : BitVec 256) (payload : List Byte) (hp : p < 8) (hh : s.halted = false)
    (hs : s.portState p = 2) (hc : coordOf (portAxis p) (parseHdr hdr).dst ≠ coordOf (portAxis p) s.address) :
    exec (.messageForward p hdr payload) s = .next ((s.passOn p (messageBytes hdr payload)).1.emit (portAxis p) (dirsBit hdr.toNat (portAxis p))
      hdr.toNat payload true (s.passOn p (messageBytes hdr payload)).2) := by
  have hc' : coordOf (portAxis p) (bitsOf hdr.toNat 0 16) ≠ coordOf (portAxis p) s.address := hc
  have hport : isPort p = true := decide_eq_true hp
  change execMessageForward p hdr payload s = _
  simp [execMessageForward, onPort, hport, hh, hs, hc']

theorem State.emit_out (s : State) (axis dir hdr : Nat) (payload : List Byte) (fwd : Bool) (came : Option Nat)
    (hs : s.portState (axisPort axis dir) = 2) :
    s.emit axis dir hdr payload fwd came = s.portSend (axisPort axis dir)
      { vc := s.channel hdr axis dir came, cls := bitsOf hdr 36 4, fwd := fwd, bytes := leBytes 32 hdr ++ payload } :=
  if_pos (by simp [hs])

theorem State.emit_answerLost (s : State) (axis dir hdr : Nat) (payload : List Byte) (fwd : Bool) (came : Option Nat)
    (hs : s.portState (axisPort axis dir) ≠ 2) (hk : 1 < bitsOf hdr 32 4) : s.emit axis dir hdr payload fwd came = s :=
  (if_neg (by simp [hs])).trans (if_pos hk)

theorem State.emit_turnedLost (s : State) (axis dir hdr : Nat) (payload : List Byte) (fwd : Bool) (came : Option Nat)
    (hs : s.portState (axisPort axis dir) ≠ 2) (hk : bitsOf hdr 32 4 ≤ 1) (ht : bitOf hdr 174 = true) :
    s.emit axis dir hdr payload fwd came = s.count (linkReg 0x28) 1 :=
  (if_neg (by simp [hs])).trans ((if_neg (Nat.not_lt.mpr hk)).trans (if_pos ht))

theorem State.pumpPort_running (s : State) (q : Nat) (hf : s.vigil.frozen = false) :
    s.pumpPort q = (s.modPort q fun _ => (s.port q).pump s.shareList (2 * (s.port q).queue.length)).tally 3 q 1
      (((s.port q).pump s.shareList (2 * (s.port q).queue.length)).wire.length - (s.port q).wire.length) := if_neg (by simp [hf])

theorem State.port_tally (s : State) (kind inst event n q : Nat) : (s.tally kind inst event n).port q = s.port q := rfl

/-- A message that waits at a port of a running module: the port sends what can go. -/
theorem State.portSend_facts (s : State) (q : Nat) (m : PortMsg) (hf : s.vigil.frozen = false) :
    let u := s.portSend q m
    let x : Port := { s.port q with queue := (s.port q).queue ++ [m] }
    SameData s u ∧ u.regs = s.regs ∧ u.links = { s.links with ports := u.links.ports } ∧ (∀ k, k ≠ q → u.port k = s.port k) ∧
      u.port q = x.pump s.shareList (2 * x.queue.length) := by
  intro u x
  have hport : (s.modPort q fun x => { x with queue := x.queue ++ [m] }).port q = x := State.port_modPort_same s q _
  have hu : u = _ := State.pumpPort_running (s.modPort q fun x => { x with queue := x.queue ++ [m] }) q hf
  rw [hport] at hu
  rw [hu]
  refine ⟨⟨rfl, rfl⟩, rfl, rfl, fun k hk => ?_, ?_⟩
  · rw [State.port_tally, State.port_modPort_other _ _ hk, State.port_modPort_other _ _ hk]
  · rw [State.port_tally, State.port_modPort_same]
    rfl

theorem exec_ackTimer (s : State) {i src stream : Nat} {r : Isr} (hh : s.halted = false) (hr : s.isrOf src stream = some (i, r)) (hu : 0 < r.unacked) :
    exec (.ackTimer src stream) s = .next ((s.setIsr i (some { r with unacked := 0 })).answer 2 src stream r.lf.toNat r.ns r.closed 0) := by
  change execAckTimer src stream s = _
  simp [execAckTimer, hh, hr, hu]

end Sys2Proof.Machine

namespace Sys2Proof.Proofs

open Sys2Proof.Machine Sys2Proof.Claims

/-- Settles O46, by the checks of a received message in their order, the order rule, and the ways a message leaves. -/
theorem writesReceived : Obligations.WritesReceived := by
  unfold Obligations.WritesReceived
  intro s p i j src stream hdr payload w r hp hh h f a n bytes inside keeps lands later earlier ax q y
  have hy : PortsOnly s y.1 := portsOnly_passOn s p bytes
  refine ⟨fun hs hd hk => ?_, fun hs hc => ?_, fun hr hu => ?_⟩
  · have hx := exec_writeMessageReceive s hdr payload hp hh hs hd hk
    have hkeeps (hl : LandsNothing y.1 (y.1.receiveWrite hdr payload)) : keeps none :=
      ⟨_, hx, ((landsNothing_ports hy).trans hl).1, ((landsNothing_ports hy).trans hl).2.1, ((landsNothing_ports hy).trans hl).2.2.1,
        ((landsNothing_ports hy).trans hl).2.2.2, fun c hc => absurd hc (by simp)⟩
    have hcounts (off : Nat) (hl : LandsNothing y.1 (y.1.receiveWrite hdr payload) ∧
        (y.1.receiveWrite hdr payload).reg (linkReg off) = (y.1.reg (linkReg off) + 1) % 2 ^ 32) : keeps (some (linkReg off)) := by
      obtain ⟨hsame, hwin, hisr, hcores⟩ := (landsNothing_ports hy).trans hl.1
      refine ⟨_, hx, hsame, hwin, hisr, hcores, fun c hc => ?_⟩
      obtain rfl := Option.some.inj hc
      have hreg : y.1.reg (linkReg off) = s.reg (linkReg off) := by
        unfold PortsOnly at hy
        rw [hy]
        rfl
      rw [← hreg]
      exact hl.2
    have hwin (k : Nat) : y.1.win k = s.win k := congrArg (fun m => kget none m k) (landsNothing_ports hy).2.1
    have hisr : y.1.isrOf h.src h.stream = s.isrOf h.src h.stream := by
      unfold State.isrOf
      rw [(landsNothing_ports hy).2.2.1]
    have hfree : y.1.freeIsr = s.freeIsr := by
      unfold State.freeIsr
      rw [(landsNothing_ports hy).2.2.1]
    have hinside : y.1.inWindow w h = true ↔ inside := by
      have hown : y.1.ownsStore w.func a n = s.ownsStore w.func a n := by
        unfold PortsOnly at hy
        rw [hy]
        rfl
      simp only [State.inWindow, Bool.and_eq_true, Bool.or_eq_true, Bool.not_eq_true', decide_eq_true_eq]
      refine and_congr_right fun _ => ?_
      rw [← hown]
      cases w.store <;> simp [a, n]
    have hlands (k un : Nat) (o : Isr) (hl : Landed w h payload y.1 (y.1.receiveWrite hdr payload))
        (hk : kget none (y.1.receiveWrite hdr payload).links.isrs k = some (o.moved h un)) : lands k un o := by
      obtain ⟨⟨hmem, hheld⟩, -, -, hcores⟩ := landsNothing_ports hy
      refine ⟨_, hx, hl.held.trans hheld, hl.win, fun c hne => (hl.cores c hne).trans (core_of_cores hcores c), fun ht => ?_, fun hf => ?_, hk⟩
      · obtain ⟨h1, h2, h3⟩ := hl.store ht
        exact ⟨h1, fun x hx => (h2 x hx).trans (congrArg (fun m => Mem.read m x) hmem), h3.trans (by rw [core_of_cores hcores])⟩
      · obtain ⟨h1, h2⟩ := hl.pad hf
        exact ⟨h1.trans hmem, h2.trans (by rw [core_of_cores hcores])⟩
    refine ⟨fun hw => hcounts 0x24 ?_, fun hw hpark => hkeeps ?_, fun hw hpark => ⟨fun hbad => hcounts 0x24 ?_, fun ha hin => ⟨fun hr => ⟨fun he => hcounts 0x20 ?_,
      fun hl hlen => ?_, fun he hl => hkeeps ?_⟩, fun hr => ⟨fun hn => hkeeps ?_, fun hfirst hseq hj hlen => ?_⟩⟩⟩⟩
    · rw [State.receiveWrite_noWindow payload ((hwin _).trans hw)]
      exact landsNothing_counted _ (.inr rfl) _ _ _ _ _ _ _
    · rw [State.receiveWrite_parked payload ((hwin _).trans hw) hpark]
      exact landsNothing_answer _ _ _ _ _ _ _ _
    · obtain ⟨k, hk⟩ := State.receiveWrite_refused payload ((hwin _).trans hw) hpark
        (hbad.imp_right fun hn => Bool.eq_false_iff.mpr fun ht => hn (hinside.mp ht))
      rw [hk]
      exact landsNothing_counted _ (.inr rfl) _ _ _ _ _ _ _
    · rw [State.receiveWrite_record payload ((hwin _).trans hw) hpark ha (hinside.mpr hin) (hisr.trans hr), State.orderRule_past _ _ _ _ _ he]
      exact landsNothing_counted _ (.inl rfl) _ _ _ _ _ _ _
    · have hrec := State.receiveWrite_record payload ((hwin _).trans hw) hpark ha (hinside.mpr hin) (hisr.trans hr)
      obtain ⟨hland, hmoved⟩ := landed_orderRule y.1 i w payload (r := r) (h := h) hl hlen
      rw [← hrec] at hland hmoved
      exact hlands i (r.unacked + 1) r hland hmoved
    · rw [State.receiveWrite_record payload ((hwin _).trans hw) hpark ha (hinside.mpr hin) (hisr.trans hr), State.orderRule_other _ _ _ _ _ he hl]
      exact landsNothing_answer _ _ _ _ _ _ _ _
    · exact State.receiveWrite_noRecord payload ((hwin _).trans hw) hpark ha (hinside.mpr hin) (hisr.trans hr) (hn.imp_right hfree.trans)
    · have hfresh := State.receiveWrite_fresh payload ((hwin _).trans hw) hpark ha (hinside.mpr hin) (hisr.trans hr) hfirst (hfree.trans hj)
      obtain ⟨hland, hmoved⟩ := landed_orderRule (y.1.setIsr j (some (freshIsr h))) j w payload (freshIsr_next h hseq) hlen
      rw [← hfresh] at hland hmoved
      exact hlands j 1 _ (hland.of_start j _) hmoved
  · have hx := exec_messageForward s hdr payload hp hh hs hc
    have hstate (r : Nat) : y.1.portState r = s.portState r := by
      unfold PortsOnly at hy
      rw [hy]
      rfl
    refine ⟨fun hq => ?_, fun hq hk => ?_, fun hq hk ht => ?_⟩
    · have hframe : SameData s y.1 ∧ y.1.regs = s.regs ∧ y.1.links = { s.links with ports := y.1.links.ports } ∧ y.1.shareList = s.shareList ∧
          (∀ d, y.1.channel hdr.toNat ax (dirsBit hdr.toNat ax) d = s.channel hdr.toNat ax (dirsBit hdr.toNat ax) d) ∧ y.1.vigil = s.vigil := by
        unfold PortsOnly at hy
        rw [hy]
        exact ⟨⟨rfl, rfl⟩, rfl, rfl, rfl, fun _ => rfl, rfl⟩
      obtain ⟨⟨hmem, hheld⟩, hregs, hlinks, hshare, hchannel, hvigil⟩ := hframe
      have hfrozen : y.1.vigil.frozen = false := by
        rw [hvigil]
        exact (Bool.or_eq_false_iff.mp hh).1
      have hout := y.1.emit_out ax (dirsBit hdr.toNat ax) hdr.toNat payload true y.2 ((hstate q).trans hq)
      rw [hchannel] at hout
      obtain ⟨⟨h1, h2⟩, h3, h4, h5, h6⟩ := y.1.portSend_facts q
        { vc := s.channel hdr.toNat ax (dirsBit hdr.toNat ax) y.2, cls := h.tclass, fwd := true, bytes := bytes } hfrozen
      rw [hshare] at h6
      refine ⟨_, hx.trans (congrArg Host.Outcome.next hout), ⟨h1.trans hmem, h2.trans hheld⟩, h3.trans hregs, ?_, h5, h6⟩
      refine h4.trans ?_
      rw [hlinks]
      rfl
    · exact hx.trans (congrArg Host.Outcome.next (y.1.emit_answerLost _ _ _ payload _ _ (fun he => hq ((hstate q).symm.trans he)) hk))
    · exact hx.trans (congrArg Host.Outcome.next (y.1.emit_turnedLost _ _ _ payload _ _ (fun he => hq ((hstate q).symm.trans he)) hk ht))
  · have hans := landsNothing_answer (s.setIsr i (some { r with unacked := 0 })) 2 src stream r.lf.toNat r.ns r.closed 0
    exact ⟨_, exec_ackTimer s hh hr hu, hans.1, (congrArg (fun m => kget none m i) hans.2.2.1).trans (s.isr_setIsr i _)⟩

end Sys2Proof.Proofs
end

section
/-! PROOFS. Sites, tracks and slices replaced, and words counted (R446–R450): where the statement fails. -/

namespace Sys2Proof.Proofs

open Sys2Proof.Machine Sys2Proof.Claims

/-- A module whose first store holds, as its count of corrected errors, a number that does not fit its 32-bit word: no step of the model
writes one, but a state's register map admits it. -/
def wideStoreCount : State :=
  { State.reset with
    regs := [(storeReg 0 0x0C, 2 ^ 32)]
    mgmt := { State.reset.mgmt with dark := false } }

theorem wideStoreCount_count (u : State) (hx : exec (.faultDetection (.correctable 0 false true)) wideStoreCount = .next u) :
    u.reg (storeReg 0 0x0C) = 2 ^ 32 := by
  have he : exec (.faultDetection (.correctable 0 false true)) wideStoreCount = .next (wideStoreCount.count (scrubReg 0 4) 1) := rfl
  rw [he] at hx
  obtain rfl := Host.Outcome.next.inj hx
  decide

/-- Refutes O49: a corrected error that the scrubber alone found leaves the store's count as it is, and the statement says that it is then
what it was modulo 2^32; in a state whose word is 2^32 it is not. -/
theorem not_sitesReplaced : ¬ Obligations.SitesReplaced := by
  unfold Obligations.SitesReplaced
  intro h
  obtain ⟨-, -, -, -, -, hcorrected, -⟩ := h wideStoreCount 0 0 0 0 0 0 0 0 0 false true false false false (by decide) (by decide)
    (by decide) (by decide)
  obtain ⟨u, hx, -, hcount, -⟩ := hcorrected
  rw [wideStoreCount_count u hx] at hcount
  exact absurd hcount (by decide)

end Sys2Proof.Proofs
end

section
/-! PROOFS. Slice rebuilds, bad lines, REMAP_GO, remap records and the scrubber's vote (R35, R37, R426, R444–R450, R462, R492). -/

namespace Sys2Proof.Machine

open Sys2Proof.Claims

/-! ### What a covered fault leaves of the remap sequencer -/

/-- The remap sequencer stands, and so does every register of the dies. -/
def SequencerStands (s u : State) : Prop := u.remap = s.remap ∧ ∀ a, 0x2000000 ≤ a → a < 0xA000000 → u.reg a = s.reg a

theorem SequencerStands.trans {s u w : State} (h : SequencerStands s u) (h' : SequencerStands u w) : SequencerStands s w :=
  ⟨h'.1.trans h.1, fun a lo hi => (h'.2 a lo hi).trans (h.2 a lo hi)⟩

theorem sequencerStands_of_cmds {s u : State} (h : CmdsOnly s u) : SequencerStands s u := by
  unfold CmdsOnly at h
  rw [h]
  exact ⟨rfl, fun _ _ _ => rfl⟩

theorem sequencerStands_setReg (s : State) (a v : Nat) (ha : a < 0x2000000 ∨ 0xA000000 ≤ a) : SequencerStands s (s.setReg a v) :=
  ⟨rfl, fun b lo hi => s.reg_setReg_other v (by omega)⟩

theorem sequencerStands_trace (s : State) (type func arg0 arg1 : Nat) : SequencerStands s (s.trace type func arg0 arg1) := by
  refine ⟨by rw [s.trace_obs], fun a lo _ => regsBut_trace s type func arg0 arg1 a ?_⟩
  simp only [List.mem_cons, List.not_mem_nil, or_false, not_or, obsReg]
  omega

theorem State.shown_sequencer (s : State) (p f kind first tick : Nat) (caseB : Bool) :
    SequencerStands s (s.shown p f kind first tick caseB) := by
  have hbar (off : Nat) : 0xA000000 ≤ bar0 f off := by unfold bar0; omega
  have hcount := sequencerStands_setReg s (bar0 f 0xA340) (s.reg (bar0 f 0xA340) + 1) (Or.inr (hbar _))
  have hwide (u : State) : SequencerStands u (u.setWide (bar0 f 0xA344) (tick + 1)) :=
    (sequencerStands_setReg u _ _ (Or.inr (hbar _))).trans (sequencerStands_setReg _ _ _ (Or.inr ((hbar _).trans (Nat.le_add_right _ 4))))
  have hkind (u : State) := sequencerStands_setReg u (bar0 f 0xA34C) (kind % 8 + 8 * natOf caseB) (Or.inr (hbar _))
  have hobs (u : State) (m : KMap Nat) : SequencerStands u { u with obs := { u.obs with partCnt := m } } := ⟨rfl, fun _ _ _ => rfl⟩
  have hpark (u : State) : SequencerStands u (u.park p true) := ⟨rfl, fun _ _ _ => rfl⟩
  unfold State.shown
  exact ((((hcount.trans (hwide _)).trans (hkind _)).trans (hobs _ _)).trans (hpark _)).trans (sequencerStands_trace _ 4 f _ first)

theorem State.strike_sequencer (s : State) (p kind first : Nat) : SequencerStands s (s.strike p kind first) := by
  by_cases hrun : (!(s.part p).valid || (s.part p).stopped) = true
  · rw [show s.strike p kind first = s from if_pos hrun]
    exact ⟨rfl, fun _ _ _ => rfl⟩
  · cases hr : (s.part p).recov with
    | some r =>
      rw [show s.strike p kind first = s.stopSpans p 0x33 5 p from (if_neg hrun).trans (if_pos (by simp [hr]))]
      exact sequencerStands_of_cmds (cmdsOnly_stopSpans p 0x33 5 p rfl)
    | none =>
      simp only [Bool.or_eq_true, Bool.not_eq_true', not_or, Bool.not_eq_false, Bool.not_eq_true] at hrun
      rw [s.strike_eq p kind first hrun.1 hrun.2 hr]
      have hstruck : SequencerStands s (s.struck p kind) := ⟨rfl, fun _ _ _ => rfl⟩
      have hrecheck (u : State) : SequencerStands u (u.recheck p) := by
        obtain ⟨h, -⟩ := u.recheck_only p
        rw [h]
        exact ⟨rfl, fun _ _ _ => rfl⟩
      exact (hstruck.trans ((s.struck p kind).shown_sequencer p _ kind first s.tick _)).trans (hrecheck _)

theorem State.strikeAll_sequencer (s : State) (kind first : Nat) (l : List Nat) : SequencerStands s (s.strikeAll kind first l) := by
  unfold State.strikeAll
  exact List.foldlRecOn (motive := SequencerStands s) _ _ ⟨rfl, fun _ _ _ => rfl⟩ fun u h p _ => h.trans (u.strike_sequencer p kind first)

/-! ### Slices (R446) -/

theorem storeReg_range {d : Nat} (hd : d < 8) : 0x2000000 ≤ storeReg d 0 ∧ storeReg d 0 < 0xA000000 := by unfold storeReg; omega

theorem remapReg_range {d off : Nat} (hd : d < 8) (ho : off < 0x400) : 0x2000000 ≤ remapReg d off ∧ remapReg d off < 0xA000000 := by
  unfold remapReg
  omega

theorem storeReg_ne_remapReg {d off : Nat} (ho : off < 0x400) : storeReg d 0 ≠ remapReg d off := by
  unfold storeReg remapReg
  omega

/-- The failed slice of a half noted, its rebuild shown. -/
def State.rebuilding (s : State) (d h l : Nat) (software : Bool) : State :=
  let s1 := { s with remap := { s.remap with failedSlice := kset none s.remap.failedSlice (2 * d + h) (some l), software := software } }
  ((s1.setBit (storeReg d 0) 2).setField (storeReg d 0) 3 7 l).setBit (remapReg d 0) 0

theorem State.rebuilding_shows (s : State) {d h l : Nat} (software : Bool) :
    (s.rebuilding d h l software).bit (storeReg d 0) 2 = true ∧ (s.rebuilding d h l software).bit (remapReg d 0) 0 = true := by
  have hne := storeReg_ne_remapReg (d := d) (off := 0) (by omega)
  have hstore (u : State) : ((u.setBit (storeReg d 0) 2).setField (storeReg d 0) 3 7 l).bit (storeReg d 0) 2 = true := by
    rw [State.bit_setField_apart _ _ _ _ _ _ (by omega) (by omega)]
    exact u.bit_setBit_same _ 2 (by omega)
  exact ⟨(State.bit_congr (State.reg_setBit_other _ 0 hne.symm) 2).trans (hstore _), State.bit_setBit_same _ _ 0 (by omega)⟩

/-- A slice that fails under parity, neither it nor another of its half replaced: its rebuild begins, and the partitions it serves recover. -/
theorem State.failSlice_eq (s : State) {d h l : Nat} (software : Bool) (hl : l < 64) (hparity : s.sliceParity d h = true)
    (hspare : s.spareServes d h ≠ some l) (hnone : kget none s.remap.failedSlice (2 * d + h) = none) :
    s.failSlice d h l software = (s.rebuilding d h l software).strikeAll 2 (s.tick + 1) (s.partsOnStore d) := by
  have hserve : (s.spareServes d h == some l || kget none s.remap.failedSlice (2 * d + h) == some l) = false := by
    simp [hspare, hnone]
  unfold State.failSlice
  rw [if_neg (by omega), if_neg (by simp; omega), if_neg (by simp [hserve]), hnone]
  simp only [hparity, if_true]
  rfl

theorem State.failSlice_rebuilds (s : State) {d h l : Nat} (software : Bool) (hd : d < 8) (hl : l < 64) (hparity : s.sliceParity d h = true)
    (hspare : s.spareServes d h ≠ some l) (hnone : kget none s.remap.failedSlice (2 * d + h) = none) :
    let u := s.failSlice d h l software
    kget none u.remap.failedSlice (2 * d + h) = some l ∧ u.bit (storeReg d 0) 2 = true ∧ u.bit (remapReg d 0) 0 = true := by
  intro u
  have hu : u = _ := s.failSlice_eq software hl hparity hspare hnone
  obtain ⟨hremap, hregs⟩ := (s.rebuilding d h l software).strikeAll_sequencer 2 (s.tick + 1) (s.partsOnStore d)
  rw [← hu] at hremap hregs
  obtain ⟨hstore, hbusy⟩ := s.rebuilding_shows (d := d) (h := h) (l := l) software
  have hs := storeReg_range hd
  have hr := remapReg_range (off := 0) hd (by omega)
  refine ⟨?_, (State.bit_congr (hregs _ hs.1 hs.2) 2).trans hstore, (State.bit_congr (hregs _ hr.1 hr.2) 0).trans hbusy⟩
  rw [hremap]
  exact kget_kset_same none s.remap.failedSlice (2 * d + h) (some l)

/-- A rebuild that ends: parity is out of service and nothing busy. -/
theorem State.endRebuild_facts (s : State) {d h : Nat} (hh : h < 2) :
    let u := s.endRebuild d h
    u = { s with regs := u.regs, remap := { s.remap with failedSlice := kset none s.remap.failedSlice (2 * d + h) none } } ∧
      u.bit (storeReg d 0) h = false ∧ u.bit (remapReg d 0) 0 = false ∧ RegsBut [storeReg d 0, remapReg d 0] s u := by
  intro u
  have hne := storeReg_ne_remapReg (d := d) (off := 0) (by omega)
  have hstore (u : State) : ((u.clearBit (storeReg d 0) h).setField (storeReg d 0) 2 8 0).bit (storeReg d 0) h = false := by
    rw [State.bit_setField_apart _ _ _ _ _ _ (by omega) (by omega)]
    exact u.bit_clearBit_same _ h (by omega)
  refine ⟨rfl, (State.bit_congr (State.reg_clearBit_other _ 0 hne.symm) h).trans (hstore _), State.bit_clearBit_same _ _ 0 (by omega), ?_⟩
  exact regsBut_clearBit _ (regsBut_setField _ _ _ (regsBut_clearBit _ (regsBut_rfl _ _) (by simp)) (by simp)) (by simp)

/-! ### Bad lines (R426, R446) -/

theorem State.sliceOf_store (s : State) (home : Nat) {k : Nat} (lo : storeKey ≤ k) (hi : (k - storeKey) / 0x20000000 < 8) :
    s.sliceOf home k / 128 = (k - storeKey) / 0x20000000 := by
  unfold storeKey at lo hi
  unfold State.sliceOf
  rw [if_neg (by unfold farKey; omega), if_neg (by unfold storeKey; omega), if_pos (by unfold padKey; omega)]
  unfold storeKey
  dsimp only
  omega

theorem State.countBadLine_few (s : State) (sl : Nat) (h : kget 0 s.remap.badLines sl + 1 ≠ 4) :
    s.countBadLine sl = { s with remap := { s.remap with badLines := kset 0 s.remap.badLines sl (kget 0 s.remap.badLines sl + 1) } } :=
  if_neg (by simpa using h)

/-- A bad line of a store, to be rebuilt: what parity makes of it, then its count. -/
theorem State.badStoreLine_eq (s : State) {base : Nat} (lo : storeKey ≤ base) (hi : (base - storeKey) / 0x20000000 < 8) :
    s.badStoreLine base true =
      (if s.sliceParity ((base - storeKey) / 0x20000000) (s.sliceOf 0 base % 128 / 64) = true
        then s.count (storeReg ((base - storeKey) / 0x20000000) 0x10) 1
        else (s.markLines [base / 256 * 256]).count (storeReg ((base - storeKey) / 0x20000000) 0x14) 1).countBadLine (s.sliceOf 0 base) := by
  unfold State.badStoreLine
  rw [if_neg (by simp; omega)]
  simp only [Bool.true_and]

/-- The fourth bad line of a slice under parity begins the slice's rebuild. -/
theorem State.countBadLine_fourth (s : State) {sl : Nat} (hd : sl / 128 < 8) (h : kget 0 s.remap.badLines sl + 1 = 4)
    (hparity : s.sliceParity (sl / 128) (sl % 128 / 64) = true) (hspare : s.spareServes (sl / 128) (sl % 128 / 64) = none)
    (hnone : kget none s.remap.failedSlice (2 * (sl / 128) + sl % 128 / 64) = none) :
    let u := s.countBadLine sl
    kget none u.remap.failedSlice (2 * (sl / 128) + sl % 128 / 64) = some (sl % 64) ∧ u.bit (storeReg (sl / 128) 0) 2 = true := by
  intro u
  let s1 := { s with remap := { s.remap with badLines := kset 0 s.remap.badLines sl (kget 0 s.remap.badLines sl + 1) } }
  have hu : u = s1.failSlice (sl / 128) (sl % 128 / 64) (sl % 64) false := by
    have hslice : (if s.spareServes (sl / 128) (sl % 128 / 64) == some (sl % 64) then 64 else sl % 64) = sl % 64 := if_neg (by simp [hspare])
    refine (if_pos (by simp [h])).trans ?_
    rw [hslice]
  have hfacts := s1.failSlice_rebuilds false hd (Nat.mod_lt sl (by omega)) hparity (fun he => by
    have : s1.spareServes (sl / 128) (sl % 128 / 64) = none := hspare
    simp [this] at he) hnone
  rw [← hu] at hfacts
  exact ⟨hfacts.1, hfacts.2.1⟩

/-! ### Sites and tracks (R444) -/

theorem find?_filter_ne_append {α : Type} (l : List (Nat × α)) (k : Nat) (v : α) :
    ((l.filter fun x => x.1 != k) ++ [(k, v)]).find? (fun x => x.1 == k) = some (k, v) := by
  have hnone : (l.filter fun x => x.1 != k).find? (fun x => x.1 == k) = none := by
    rw [List.find?_eq_none]
    intro x hx
    simpa using (List.mem_filter.mp hx).2
  simp [List.find?_append, hnone]

theorem kget_filter_ne_append {α : Type} (e : α) (l : List (Nat × α)) (k : Nat) (v : α) :
    kget e ((l.filter fun x => x.1 != k) ++ [(k, v)]) k = v := by
  induction l with
  | nil => simp [kget]
  | cons x l ih =>
    by_cases h : x.1 = k
    · simpa [h] using ih
    · simpa [h, kget] using ih

/-- What the sequencer holds once a site is retired: the row's sites for the next tick, and a record that waits for it. -/
theorem State.retireSite_remap (s : State) (d h r col : Nat) (software : Bool) : ∃ due,
    (s.retireSite d h r col software).remap = { s.remap with
      due := due
      nextSites := (s.remap.nextSites.filter fun (x : Nat × List Nat) => x.1 != 64 * (2 * d + h) + r) ++
        [(64 * (2 * d + h) + r, s.retiredNext d h r ++ [col])] } := by
  unfold State.retireSite
  dsimp only
  split
  · rw [(State.strikeAll_sequencer _ 0 (s.tick + 1) (s.partsOn d)).1]
    exact ⟨_, rfl⟩
  · exact ⟨_, rfl⟩

theorem State.retireSite_next (s : State) (d h r col : Nat) (software : Bool) :
    (s.retireSite d h r col software).retiredNext d h r = s.retiredNext d h r ++ [col] := by
  obtain ⟨due, hremap⟩ := s.retireSite_remap d h r col software
  generalize s.retireSite d h r col software = u at hremap
  generalize s.retiredNext d h r ++ [col] = l at hremap
  unfold State.retiredNext
  rw [hremap]
  simp only
  rw [if_pos (by simp), kget_filter_ne_append]

theorem State.retireTrack_remap (s : State) (d r index : Nat) (dir software : Bool) : ∃ due,
    (s.retireTrack d r index dir software).remap = { s.remap with
      due := due
      nextTracks := (s.remap.nextTracks.filter fun (x : Nat × List Nat) => x.1 != 128 * d + 2 * r + natOf dir) ++
        [(128 * d + 2 * r + natOf dir, s.tracksNext d r dir ++ [index])] } := by
  unfold State.retireTrack
  dsimp only
  split
  · rw [(State.strikeAll_sequencer _ 1 (s.tick + 1) (s.partsOn d)).1]
    exact ⟨_, rfl⟩
  · exact ⟨_, rfl⟩

theorem State.retireTrack_next (s : State) (d r index : Nat) (dir software : Bool) :
    (s.retireTrack d r index dir software).tracksNext d r dir = s.tracksNext d r dir ++ [index] := by
  obtain ⟨due, hremap⟩ := s.retireTrack_remap d r index dir software
  generalize s.retireTrack d r index dir software = u at hremap
  generalize s.tracksNext d r dir ++ [index] = l at hremap
  unfold State.tracksNext
  rw [hremap]
  simp only [find?_filter_ne_append]

/-! ### REMAP_GO (R462) -/

theorem bitsOf_go (n : Nat) : bitsOf (n / 2 * 2 + 1) 1 3 = bitsOf n 1 3 := by
  unfold bitsOf
  omega

/-- A request written to REMAP_CTRL: its own registers stand but REMAP_CTRL, and it is tried on its target. -/
def State.requested (s : State) (d : Nat) : State := s.setReg (remapReg d 4) (2 * bitsOf (s.reg (remapReg d 4)) 1 3)

theorem State.writeRemapCtrl_busy (s : State) (d v : Nat) (h : s.bit (remapReg d 0) 0 = true) :
    s.writeRemapCtrl d v = s.setField (remapReg d 0x0C) 1 3 2 := if_pos h

theorem State.writeRemapCtrl_go (s : State) (d : Nat) (h : s.bit (remapReg d 0) 0 = false) (hk : bitsOf (s.reg (remapReg d 4)) 1 3 < 3) :
    s.writeRemapCtrl d (s.reg (remapReg d 4) / 2 * 2 + 1) = (s.requested d).remapRequest d (bitsOf (s.reg (remapReg d 4)) 1 3) := by
  have hgo : bitOf (s.reg (remapReg d 4) / 2 * 2 + 1) 0 = true := by simp [bitOf]
  unfold State.writeRemapCtrl
  rw [if_neg (by simp [h]), bitsOf_go, hgo]
  refine (if_pos (by simp [hk])).trans ?_
  rw [if_neg (by omega)]
  rfl

theorem State.requested_reg (s : State) (d : Nat) {b : Nat} (h : b ≠ remapReg d 4) : (s.requested d).reg b = s.reg b :=
  s.reg_setReg_other _ h.symm

theorem State.requested_only (s : State) (d : Nat) : RegsOnly s (s.requested d) := rfl

theorem State.requested_invalid (s : State) (d kind half row index : Nat) (dir : Bool) :
    (s.requested d).remapInvalid d kind half row index dir = s.remapInvalid d kind half row index dir := rfl

theorem State.requested_noSpare (s : State) (d kind half row : Nat) (dir : Bool) :
    (s.requested d).noSpare d kind half row dir = s.noSpare d kind half row dir := by
  have hparity : (s.requested d).sliceParity d half = s.sliceParity d half :=
    State.bit_congr (s.requested_reg d (storeReg_ne_remapReg (by omega))) half
  unfold State.noSpare
  rw [hparity]
  rfl

theorem State.retiredNext_congr {s u : State} (h : u.remap = s.remap) (d half r : Nat) : u.retiredNext d half r = s.retiredNext d half r := by
  unfold State.retiredNext State.retired
  rw [h]

theorem State.tracksNext_congr {s u : State} (h : u.remap = s.remap) (d r : Nat) (dir : Bool) : u.tracksNext d r dir = s.tracksNext d r dir := by
  unfold State.tracksNext
  rw [h]

/-- A site that is asked for, unretired, on a row with a spare. -/
theorem State.substitute_site (s : State) {d half row index : Nat} {dir : Bool} (hinv : s.remapInvalid d 0 half row index dir = false)
    (hns : s.noSpare d 0 half row dir = false) : s.substitute d 0 half row index dir true = s.retireSite d half row index true := by
  simp only [State.remapInvalid, Bool.or_eq_false_iff] at hinv
  obtain ⟨⟨-, hfree⟩, -⟩ := hinv
  simp only [State.noSpare] at hns
  unfold State.substitute
  rw [hfree, hns]
  rfl

/-- A track that is asked for, unretired, of a row with a spare. -/
theorem State.substitute_track (s : State) {d half row index : Nat} {dir : Bool} (hinv : s.remapInvalid d 1 half row index dir = false)
    (hns : s.noSpare d 1 half row dir = false) : s.substitute d 1 half row index dir true = s.retireTrack d row index dir true := by
  simp only [State.remapInvalid, Bool.or_eq_false_iff] at hinv
  simp only [State.noSpare] at hns
  unfold State.substitute
  simp only [hinv.1, hinv.2, hns]
  rfl

theorem State.remapInvalid_slice (s : State) {d half row index : Nat} {dir : Bool} (hinv : s.remapInvalid d 2 half row index dir = false) :
    index < 64 ∧ s.spareServes d half ≠ some index := by
  simp only [State.remapInvalid, Bool.or_eq_false_iff, beq_eq_false_iff_ne, decide_eq_false_iff_not] at hinv
  obtain ⟨⟨⟨-, hl⟩, hserve⟩, -⟩ := hinv
  exact ⟨by omega, hserve⟩

/-- A slice that is asked for, of a half with parity. -/
theorem State.substitute_slice (s : State) {d half row index : Nat} {dir : Bool} (hinv : s.remapInvalid d 2 half row index dir = false)
    (hns : s.noSpare d 2 half row dir = false) : s.substitute d 2 half row index dir true = s.failSlice d half index true := by
  have hparity : s.sliceParity d half = true := by simpa [State.noSpare] using hns
  obtain ⟨hl, -⟩ := s.remapInvalid_slice hinv
  exact if_neg (by simp [hparity, hl])

/-- What is asked for, an unretired part with a spare, is replaced. -/
theorem State.substitute_asked (s : State) {d : Nat} (kind half row index : Nat) (dir : Bool) (hd : d < 8)
    (hinv : s.remapInvalid d kind half row index dir = false) (hns : s.noSpare d kind half row dir = false) :
    let u := s.substitute d kind half row index dir true
    (kind = 0 → u.retiredNext d half row = s.retiredNext d half row ++ [index]) ∧
      (kind = 1 → u.tracksNext d row dir = s.tracksNext d row dir ++ [index]) ∧
      (kind = 2 → kget none s.remap.failedSlice (2 * d + half) = none →
        kget none u.remap.failedSlice (2 * d + half) = some index ∧ u.bit (remapReg d 0) 0 = true) := by
  intro u
  refine ⟨fun h => ?_, fun h => ?_, fun h hnone => ?_⟩ <;> subst h
  · exact (congrArg (State.retiredNext · d half row) (s.substitute_site hinv hns)).trans (s.retireSite_next d half row index true)
  · exact (congrArg (State.tracksNext · d row dir) (s.substitute_track hinv hns)).trans (s.retireTrack_next d row index dir true)
  · have hparity : s.sliceParity d half = true := by simpa [State.noSpare] using hns
    obtain ⟨hl, hserve⟩ := s.remapInvalid_slice hinv
    obtain ⟨hslice, -, hbusy⟩ := s.failSlice_rebuilds true hd hl hparity hserve hnone
    have hu : u = _ := s.substitute_slice hinv hns
    rw [hu]
    exact ⟨hslice, hbusy⟩

/-- What a request on an idle sequencer does: its target is no unretired part, there is no spare for it, or it is done. -/
theorem State.remapRequest_requested (s : State) (d kind : Nat) (h : s.bit (remapReg d 0) 0 = false) :
    let tgt := s.reg (remapReg d 8)
    (s.requested d).remapRequest d kind =
      if s.remapInvalid d kind (bitsOf tgt 0 1) (bitsOf tgt 1 6) (bitsOf tgt 7 10) (bitOf tgt 17) = true then (s.requested d).remapResult d 3
      else if s.noSpare d kind (bitsOf tgt 0 1) (bitsOf tgt 1 6) (bitOf tgt 17) = true then (s.requested d).remapResult d 1
      else ((s.requested d).substitute d kind (bitsOf tgt 0 1) (bitsOf tgt 1 6) (bitsOf tgt 7 10) (bitOf tgt 17) true).remapResult d 0 := by
  intro tgt
  have hne (off : Nat) (ho : off ≠ 4) : remapReg d off ≠ remapReg d 4 := by unfold remapReg; omega
  have hbusy : (s.requested d).bit (remapReg d 0) 0 = false := (State.bit_congr (s.requested_reg d (hne 0 (by omega))) 0).trans h
  unfold State.remapRequest
  rw [if_neg (by simp [hbusy]), s.requested_reg d (hne 8 (by omega)), State.requested_invalid, State.requested_noSpare]

theorem State.remapResult_facts (s : State) (d code : Nat) (hc : code < 8) :
    (s.remapResult d code).reg (remapReg d 0x0C) = 1 + 2 * code ∧ (s.remapResult d code).remap = s.remap ∧ RegsOnly s (s.remapResult d code) ∧
      OtherRegs (remapReg d 0x0C) s (s.remapResult d code) :=
  ⟨(s.reg_setReg_same _ _).trans (Nat.mod_eq_of_lt (by omega)), rfl, rfl, otherRegs_setReg s _ _⟩

/-! ### Remap records (R35, R462, R492) -/

theorem State.popRecord_facts (s : State) (d : Nat) :
    let l := kget [] s.remap.records d
    let u := s.popRecord d
    kget [] u.remap.records d = l.drop 1 ∧ SameData s u ∧ u.reg (remapReg d 0x14) = (l.drop 1).length % 2 ^ 32 ∧
      u.remap.history = s.remap.history := by
  intro l u
  let w := { s with remap := { s.remap with records := kset [] s.remap.records d (l.drop 1) } }
  have hl : kget [] w.remap.records d = l.drop 1 := kget_kset_same _ _ _ _
  obtain ⟨honly, -⟩ := w.showRecords_regs d
  have hremap : u.remap = w.remap := by
    unfold RegsOnly at honly
    exact (congrArg State.remap honly).trans rfl
  refine ⟨hremap ▸ hl, ⟨?_, ?_⟩, ?_, ?_⟩
  · exact (congrArg State.mem honly).trans rfl
  · exact (congrArg State.held honly).trans rfl
  · have hcount : w.showRecords d = (List.range 4).foldl (fun s i => s.setReg (remapReg d (0x20 + 4 * i)) ((l.drop 1).headD 0 / 2 ^ (32 * i) % 2 ^ 32))
        (w.setReg (remapReg d 0x14) (l.drop 1).length) := by
      unfold State.showRecords
      rw [hl]
    change (w.showRecords d).reg _ = _
    rw [hcount]
    refine List.foldlRecOn (motive := fun u : State => u.reg (remapReg d 0x14) = (l.drop 1).length % 2 ^ 32) _ _ (w.reg_setReg_same _ _)
      fun u hu i _ => ?_
    rw [State.reg_setReg_other u _ (by unfold remapReg; omega), hu]
  · rw [hremap]

/-! ### The scrubber's vote (R450) -/

theorem vote_strikeCopy (v bad : Nat) {copy : Nat} (h : copy < 3) (hb : bad ≠ v) :
    vote (strikeCopy (v, v, v) copy bad).1 (strikeCopy (v, v, v) copy bad).2.1 (strikeCopy (v, v, v) copy bad).2.2 = v ∧
      agree (strikeCopy (v, v, v) copy bad) = false := by
  interval_cases copy <;> simp [vote, strikeCopy, agree, hb, hb.symm]

theorem exec_scrubVoteCorrect_control {s : State} {d copy bad v : Nat} (hd : d < 8) (hc : copy < 3) (hh : s.halted = false)
    (hv : s.scrubCopies d = (v, v, v)) (hb : bad ≠ v) :
    exec (.scrubVoteCorrect d (.control copy) bad) s =
      .next { (s.count (scrubReg d 0x0C) 1).setReg (scrubReg d 0) v with
        remap := { s.remap with scrub := kset (1, 1, 1) s.remap.scrub d (v, v, v) } } := by
  obtain ⟨hvote, hagree⟩ := vote_strikeCopy v bad hc hb
  change execScrubVoteCorrect d (.control copy) bad s = _
  unfold execScrubVoteCorrect
  rw [if_neg (by simp [ScrubCopy.real, hc]; omega), if_neg (by simp [hh])]
  simp only [hv, hvote, hagree, Bool.false_eq_true, if_false]
  rfl

theorem exec_scrubVoteCorrect_pointer {s : State} {d copy bad v : Nat} (hd : d < 8) (hc : copy < 3) (hh : s.halted = false)
    (hv : kget (0, 0, 0) s.remap.scrubPtr d = (v, v, v)) (hb : bad ≠ v) :
    exec (.scrubVoteCorrect d (.pointer copy) bad) s =
      .next { s.count (scrubReg d 0x0C) 1 with remap := { s.remap with scrubPtr := kset (0, 0, 0) s.remap.scrubPtr d (v, v, v) } } := by
  obtain ⟨hvote, hagree⟩ := vote_strikeCopy v bad hc hb
  change execScrubVoteCorrect d (.pointer copy) bad s = _
  unfold execScrubVoteCorrect
  rw [if_neg (by simp [ScrubCopy.real, hc]; omega), if_neg (by simp [hh])]
  simp only [hv, hvote, hagree, Bool.false_eq_true, if_false]
  rfl

/-! ### The commands -/

theorem exec_sliceRebuild {s : State} {d half n : Nat} (hd : d < 8) (hh : half < 2) (hrun : s.halted = false)
    (hn : kget none s.remap.failedSlice (2 * d + half) = some n) : ∃ u, exec (.sliceRebuild d half) s = .next u ∧
      kget none u.remap.nextSlices (2 * d + half) = some n ∧ u.remap.slices = s.remap.slices ∧
      kget none u.remap.failedSlice (2 * d + half) = none ∧
      u.remap.due = s.remap.due ++ [(d, remapRecord 0 2 s.remap.software half 0 n false 64)] ∧
      u.bit (storeReg d 0) half = false ∧ u.bit (remapReg d 0) 0 = false ∧ u.bit (remapReg d 0) 1 = true ∧ SameData s u ∧
      u.marks = s.marks ∧ RegsBut [storeReg d 0, remapReg d 0] s u := by
  let s1 := { s with remap := { s.remap with nextSlices := kset none s.remap.nextSlices (2 * d + half) (some n) } }
  obtain ⟨honly, hparity, hbusy, hregs⟩ := s1.endRebuild_facts (d := d) hh
  have hexec : exec (.sliceRebuild d half) s =
      .next (((s1.endRebuild d half).setBit (remapReg d 0) 1).dueRecord d (remapRecord 0 2 s.remap.software half 0 n false 64)) := by
    change execSliceRebuild d half s = _
    unfold execSliceRebuild
    rw [if_neg (by simp; omega), if_neg (by simp [hrun])]
    simp only [hn]
    rfl
  generalize s1.endRebuild d half = w at honly hparity hbusy hregs hexec
  have hne := storeReg_ne_remapReg (d := d) (off := 0) (by omega)
  have hremap : w.remap = { s1.remap with failedSlice := kset none s1.remap.failedSlice (2 * d + half) none } := (congrArg State.remap honly).trans rfl
  refine ⟨_, hexec, ?_, ?_, ?_, ?_, ?_, ?_, ?_, ⟨?_, ?_⟩, ?_, ?_⟩
  · exact (congrArg (fun x => kget none x.nextSlices (2 * d + half)) hremap).trans (kget_kset_same none s.remap.nextSlices _ (some n))
  · exact (congrArg (fun x => x.slices) hremap).trans rfl
  · exact (congrArg (fun x => kget none x.failedSlice (2 * d + half)) hremap).trans (kget_kset_same none s.remap.failedSlice _ none)
  · exact congrArg (· ++ _) ((congrArg (fun x => x.due) hremap).trans rfl)
  · exact (State.bit_congr (w.reg_setBit_other 1 hne.symm) half).trans hparity
  · exact (w.bit_setBit_apart (remapReg d 0) 1 0 (by omega) (by omega)).trans hbusy
  · exact w.bit_setBit_same _ 1 (by omega)
  · exact (congrArg State.mem honly).trans rfl
  · exact (congrArg State.held honly).trans rfl
  · exact (congrArg State.marks honly).trans rfl
  · exact regsBut_setBit 1 hregs (by simp)

theorem exec_lineParityRebuild {s : State} {base : Nat} (hrun : s.halted = false) :
    exec (.lineParityRebuild base) s = .next (s.badStoreLine base true) := by
  change execLineParityRebuild base s = _
  exact if_neg (by simp [hrun])

theorem exec_remapRecPop {s : State} {d : Nat} (hd : d < 8) (hf : s.vigil.frozen = false) :
    exec (.remapRecPop d) s = .next (s.popRecord d) := by
  change execRemapRecPop d s = _
  exact (if_neg (by omega)).trans (if_neg (by simp [hf]))

theorem exec_remapGo {s : State} {d : Nat} (hd : d < 8) (hf : s.vigil.frozen = false) :
    exec (.remapGo d) s = .next (s.writeRemapCtrl d (s.reg (remapReg d 4) / 2 * 2 + 1)) := by
  change execRemapGo d s = _
  exact (if_neg (by omega)).trans (if_neg (by simp [hf]))

end Sys2Proof.Machine

namespace Sys2Proof.Proofs

open Sys2Proof.Machine Sys2Proof.Claims

/-- Settles O50, by the command: the rebuild's end, a bad line by its count and parity, the vote, the request by its answer, and the oldest
record. -/
theorem remapRegisters : Obligations.RemapRegisters := by
  unfold Obligations.RemapRegisters
  intro s d half base copy bad v r rest hd hhalf hcopy l tgt kind h row index dir o sl bh bads votes
  have hfree : (l = [] ∨ s.mgmt.mcRestart = true) → exec (.mcRemapRecordRemoval d) s = .next s := fun hw => by
    change execMcRemapRecordRemoval d s = _
    unfold execMcRemapRecordRemoval
    rw [if_neg (by omega)]
    obtain hl | hr := hw
    · have hl' : kget [] s.remap.records d = [] := hl
      rw [hl']
      simp
    · simp [hr]
  refine ⟨fun hrun => ⟨fun n hn => ?_, fun lo hi hfew => ⟨fun hparity => ?_, fun hparity => ?_⟩, fun lo hi hfour hparity hspare hnone => ?_,
    fun hv hb => ?_, fun hv hb => ?_⟩, fun hf => ⟨fun hbusy => ?_, fun hidle hk => ⟨fun hinv => ?_, fun hinv hns => ?_, fun hinv hns => ?_⟩, ?_⟩,
    fun hdark hmc hl => ?_, fun hw => hfree hw.symm⟩
  · exact exec_sliceRebuild hd hhalf hrun hn
  · have hline := (State.badStoreLine_eq s lo hi).trans ((congrArg (State.countBadLine · sl) (if_pos hparity)).trans
      (State.countBadLine_few _ sl hfew))
    exact ⟨_, (exec_lineParityRebuild hrun).trans (congrArg _ hline), ⟨rfl, rfl⟩, rfl, s.reg_setReg_same _ _, otherRegs_count s _ 1,
      kget_kset_same 0 s.remap.badLines sl bads⟩
  · have hmark : kget false (s.markLines [base / 256 * 256]).marks (base / 256 * 256) = true := kget_kset_same false s.marks _ true
    have hline := (State.badStoreLine_eq s lo hi).trans ((congrArg (State.countBadLine · sl) (if_neg (by simp [sl, bh, o, ← hparity]))).trans
      (State.countBadLine_few _ sl hfew))
    exact ⟨_, (exec_lineParityRebuild hrun).trans (congrArg _ hline), ⟨rfl, rfl⟩, hmark, fun k hk => kget_kset_other false s.marks true hk.symm, otherRegs_count (s.markLines _) _ 1,
      kget_kset_same 0 s.remap.badLines sl bads⟩
  · have ho : sl / 128 = o := s.sliceOf_store 0 lo hi
    rw [exec_lineParityRebuild hrun, State.badStoreLine_eq s lo hi, if_pos hparity]
    have hstore : storeReg o 0x10 ≠ storeReg o 0 := by unfold storeReg; omega
    have hfacts := (s.count (storeReg o 0x10) 1).countBadLine_fourth (sl := sl) (by omega) hfour
    rw [ho] at hfacts
    exact ⟨_, rfl, hfacts ((State.bit_congr (s.reg_setReg_other _ hstore) bh).trans hparity) hspare hnone⟩
  · have hne : scrubReg d 0 ≠ votes := by simp [votes, scrubReg]
    rw [exec_scrubVoteCorrect_control hd hcopy hrun hv hb]
    refine ⟨_, rfl, kget_kset_same _ _ _ _, State.reg_setReg_same _ _ _, ?_, ?_, rfl, rfl⟩
    · exact (State.reg_setReg_other _ _ hne).trans (s.reg_setReg_same _ _)
    · exact regsBut_setReg v (regsBut_count 1 (regsBut_rfl _ s) (by simp [votes])) (by simp)
  · rw [exec_scrubVoteCorrect_pointer hd hcopy hrun hv hb]
    exact ⟨_, rfl, kget_kset_same _ _ _ _, s.reg_setReg_same _ _, otherRegs_count s _ 1, rfl, rfl⟩
  · rw [exec_remapGo hd hf, State.writeRemapCtrl_busy s d _ hbusy]
    exact ⟨_, rfl, rfl, State.field_setField_same _ _ _ _ _ (by omega), otherRegs_setField _ _ _ _ _⟩
  · rw [exec_remapGo hd hf, State.writeRemapCtrl_go s d hidle hk, State.remapRequest_requested s d _ hidle, if_pos hinv]
    obtain ⟨hcode, -, honly, -⟩ := (s.requested d).remapResult_facts d 3 (by omega)
    exact ⟨_, rfl, regsOnly_trans (s.requested_only d) honly, hcode⟩
  · rw [exec_remapGo hd hf, State.writeRemapCtrl_go s d hidle hk, State.remapRequest_requested s d _ hidle, if_neg (Bool.not_eq_true _ ▸ hinv), if_pos hns]
    obtain ⟨hcode, -, honly, -⟩ := (s.requested d).remapResult_facts d 1 (by omega)
    exact ⟨_, rfl, regsOnly_trans (s.requested_only d) honly, hcode⟩
  · rw [exec_remapGo hd hf, State.writeRemapCtrl_go s d hidle hk, State.remapRequest_requested s d _ hidle, if_neg (Bool.not_eq_true _ ▸ hinv),
      if_neg (Bool.not_eq_true _ ▸ hns)]
    obtain ⟨hsite, htrack, hslice⟩ := (s.requested d).substitute_asked kind h row index dir hd hinv ((s.requested_noSpare d kind h row dir).trans hns)
    obtain ⟨hcode, hremap, -, hother⟩ := ((s.requested d).substitute d kind h row index dir true).remapResult_facts d 0 (by omega)
    have hne : remapReg d 0x0C ≠ remapReg d 0 := by simp [remapReg]
    refine ⟨_, rfl, hcode, fun h0 => (State.retiredNext_congr hremap _ _ _).trans (hsite h0),
      fun h1 => (State.tracksNext_congr hremap _ _ _).trans (htrack h1), fun h2 hnone => ?_⟩
    obtain ⟨hfailed, hbusy⟩ := hslice h2 hnone
    exact ⟨(congrArg (fun x => kget none x.failedSlice (2 * d + h)) hremap).trans hfailed, (State.bit_congr (hother _ hne.symm) 0).trans hbusy⟩
  · rw [exec_remapRecPop hd hf]
    exact ⟨_, rfl, s.popRecord_facts d⟩
  · let w := { s with remap := { s.remap with history := s.remap.history ++ [(d, r)] } }
    have hexec : exec (.mcRemapRecordRemoval d) s = .next (w.popRecord d) := by
      have hl' : kget [] s.remap.records d = r :: rest := hl
      change execMcRemapRecordRemoval d s = _
      unfold execMcRemapRecordRemoval
      rw [if_neg (by omega), if_neg (by simp [hdark, hmc]), hl']
    obtain ⟨hrecords, hdata, -, hhistory⟩ := w.popRecord_facts d
    exact ⟨_, hexec, hrecords.trans (congrArg (List.drop 1) hl), hhistory, hdata⟩

end Sys2Proof.Proofs
end

section
/-! PROOFS. The engines of collectives: what they send and hold, and what they leave (R374, R378–R387, R393, R396, R398, R404). -/

namespace Sys2Proof.Machine

open Sys2Proof.Claims

/-! ### What an engine may change -/

/-- Collectives under way may differ, and what sending changes; of the registers only those that count lost and turned messages, and those
of functions. -/
structure EngineOnly (s u : State) : Prop where
  only : u = { s with
    regs := u.regs
    colls := { s.colls with run := u.colls.run }
    links := { s.links with ports := u.links.ports }
    obs := { s.obs with ctrs := u.obs.ctrs } }
  regs : ∀ a, a < 0xA000000 → a ∉ [linkReg 0x28, collReg 0x10] → u.reg a = s.reg a

theorem engineOnly_rfl (s : State) : EngineOnly s s := ⟨rfl, fun _ _ _ => rfl⟩

theorem EngineOnly.trans {s u w : State} (h : EngineOnly s u) (h' : EngineOnly u w) : EngineOnly s w where
  only := by rw [h'.only, h.only]
  regs := fun a ha hn => (h'.regs a ha hn).trans (h.regs a ha hn)

theorem engineOnly_send {s u : State} (h : SendOnly s u) : EngineOnly s u where
  only := by rw [h.only]
  regs := fun a _ hn => h.regs a hn

theorem engineOnly_setColl (s : State) (id : Nat) (c : Option Coll) : EngineOnly s (s.setColl id c) := ⟨rfl, fun _ _ _ => rfl⟩

theorem engineOnly_orStep (s : State) (f bits : Nat) : EngineOnly s (s.orStep f bits) where
  only := rfl
  regs := fun a ha _ => s.reg_setReg_other _ (by unfold bar0; omega)

theorem EngineOnly.data {s u : State} (h : EngineOnly s u) : SameData s u ∧ u.cmds = s.cmds ∧ u.colls.past = s.colls.past ∧
    u.colls.gates = s.colls.gates ∧ u.parts = s.parts ∧ u.cp = s.cp := by
  rw [h.only]
  exact ⟨⟨rfl, rfl⟩, rfl, rfl, rfl, rfl, rfl⟩

theorem EngineOnly.address {s u : State} (h : EngineOnly s u) : u.address = s.address :=
  congrArg (bitsOf · 0 16) (h.regs _ (by unfold linkReg; omega) (by simp [linkReg, collReg]))

theorem EngineOnly.axisLen {s u : State} (h : EngineOnly s u) (a : Nat) : u.axisLen a = s.axisLen a := by
  unfold State.axisLen
  rw [h.regs _ (by unfold linkReg; omega) (by simp [linkReg, collReg])]

/-! ### Sending (R378–R381) -/

theorem sendOnly_sendColl (s : State) (m : CollMsg) : SendOnly s (s.sendColl m) := by
  rw [State.sendColl_eq]
  exact sendOnly_launch s _ _ _

theorem sendOnly_answerColl (s : State) (m : CollMsg) (kind reason : Nat) : SendOnly s (s.answerColl m kind reason) := by
  rw [State.answerColl_eq]
  exact sendOnly_launch s _ _ _

theorem sendOnly_sendAll (s : State) (l : List CollMsg) : SendOnly s (l.foldl State.sendColl s) :=
  List.foldlRecOn (motive := fun u => SendOnly s u) _ _ (sendOnly_rfl s) fun u hu m _ => hu.trans (sendOnly_sendColl u m)

theorem State.coll_setColl_same (s : State) (id : Nat) (c : Option Coll) : (s.setColl id c).coll id = c := kget_kset_same none s.colls.run id c

theorem coll_of_run {s u : State} (h : u.colls = s.colls) (id : Nat) : u.coll id = s.coll id := by
  unfold State.coll
  rw [h]

theorem SendOnly.colls {s u : State} (h : SendOnly s u) : u.colls = s.colls := by rw [h.only]

/-- A collective as its engine moves it on: its turn, its data, what each edge has sent. -/
def Coll.Grown (c d : Coll) : Prop := ∃ turn data prog sent, d = { c with turn := turn, data := data, prog := prog, sent := sent }

theorem Coll.grown_rfl (c : Coll) : c.Grown c := ⟨_, _, _, _, rfl⟩

theorem Coll.Grown.trans {c d e : Coll} (h : c.Grown d) (h' : d.Grown e) : c.Grown e := by
  obtain ⟨_, _, _, _, rfl⟩ := h
  obtain ⟨t, d, p, n, rfl⟩ := h'
  exact ⟨t, d, p, n, rfl⟩

/-- What an engine's step leaves: the frame, the collective grown, STEP_ACC 0 where it was 0 and the operation adds nothing. -/
structure EngineStep (id : Nat) (c : Coll) (s u : State) : Prop where
  frame : EngineOnly s u
  coll : ∃ d, u.coll id = some d ∧ c.Grown d
  acc : c.op ≠ opAR → c.op ≠ opRS → s.reg (bar0 c.func 0xA100) = 0 → u.reg (bar0 c.func 0xA100) = 0

theorem engineStep_rfl {s : State} {id : Nat} {c : Coll} (h : s.coll id = some c) : EngineStep id c s s :=
  ⟨engineOnly_rfl s, ⟨c, h, c.grown_rfl⟩, fun _ _ h0 => h0⟩

theorem EngineStep.trans {s u w : State} {id : Nat} {c d : Coll} (h : EngineStep id c s u) (hd : u.coll id = some d) (h' : EngineStep id d u w) :
    EngineStep id c s w := by
  obtain ⟨d', hd', hg⟩ := h.coll
  obtain rfl : d = d' := Option.some.inj (hd.symm.trans hd')
  obtain ⟨e, he, hg'⟩ := h'.coll
  refine ⟨h.frame.trans h'.frame, ⟨e, he, hg.trans hg'⟩, fun h1 h2 h0 => ?_⟩
  obtain ⟨_, _, _, _, rfl⟩ := hg
  exact h'.acc h1 h2 (h.acc h1 h2 h0)

theorem barReg_notCounted (f off : Nat) : bar0 f off ∉ [linkReg 0x28, collReg 0x10] := by
  simp only [List.mem_cons, List.not_mem_nil, or_false, not_or, bar0, linkReg, collReg]
  omega

theorem engineStep_sendEdge {s : State} {id : Nat} {c : Coll} (e : Sending) (upto : Nat) (h : s.coll id = some c) :
    EngineStep id c s (s.sendEdge id e upto) := by
  have hsend := sendOnly_sendAll s ((e.ready (kget 0 c.prog (edgeKey e.peer e.phase e.tree e.level)) upto).mapIdx
    fun i l => s.collMsg c e (kget 0 c.prog (edgeKey e.peer e.phase e.tree e.level) + i) l)
  unfold State.sendEdge
  rw [h]
  dsimp only
  generalize List.foldl State.sendColl s _ = u at hsend ⊢
  exact ⟨(engineOnly_send hsend).trans (engineOnly_setColl u id _), ⟨_, u.coll_setColl_same id _, _, _, _, _, rfl⟩,
    fun _ _ h0 => (hsend.regs _ (barReg_notCounted _ _)).trans h0⟩

theorem engineStep_sendSteps {s : State} {id : Nat} {c : Coll} (l : List (Sending × Nat)) (h : s.coll id = some c) :
    EngineStep id c s (l.foldl (fun s e => s.sendEdge id e.1 e.2) s) :=
  List.foldlRecOn (motive := EngineStep id c s) _ _ (engineStep_rfl h) fun u hu e _ => by
    obtain ⟨d, hd, -⟩ := hu.coll
    exact hu.trans hd (engineStep_sendEdge e.1 e.2 hd)

theorem State.turnSticky_none (s : State) {c : Coll} (h1 : c.op ≠ opAR) (h2 : c.op ≠ opRS) : s.turnSticky c = 0 := by
  unfold State.turnSticky
  exact if_neg (by simp [h1, h2])

/-- A turn that is over: its output is the data of the next. -/
theorem engineStep_nextTurn (s : State) (id : Nat) (c : Coll) (data : List CollLine) :
    EngineStep id c s ((s.setColl id (some { c with turn := c.turn + 1, data := data })).orStep c.func
      (s.turnSticky { c with turn := c.turn + 1, data := data })) where
  frame := (engineOnly_setColl s id _).trans (engineOnly_orStep _ _ _)
  coll := ⟨_, s.coll_setColl_same id _, _, _, _, _, rfl⟩
  acc := fun h1 h2 h0 => by
    rw [State.turnSticky_none s (c := { c with turn := c.turn + 1, data := data }) h1 h2]
    refine (State.reg_setReg_same _ _ _).trans ?_
    have hreg : (s.setColl id (some { c with turn := c.turn + 1, data := data })).reg (bar0 c.func 0xA100) = 0 := h0
    rw [hreg]
    rfl

theorem engineStep_collPump (id fuel : Nat) : ∀ {s : State} {c : Coll}, s.coll id = some c → EngineStep id c s (s.collPump id fuel) := by
  induction fuel with
  | zero => exact fun h => engineStep_rfl h
  | succ fuel ih =>
    intro s c h
    have hsent := engineStep_sendSteps (s.sendSteps c) h
    obtain ⟨c1, hc1, hg⟩ := hsent.coll
    unfold State.collPump
    rw [h]
    dsimp only
    refine iteInduction (motive := EngineStep id c s) (fun _ => engineStep_rfl h) fun _ => ?_
    generalize (s.sendSteps c).foldl (fun s e => s.sendEdge id e.1 e.2) s = s1 at hsent hc1 ⊢
    rw [hc1]
    dsimp only
    refine iteInduction (motive := EngineStep id c s) (fun _ => ?_) fun _ => hsent
    cases s1.turnResult c1 with
    | none => exact hsent
    | some d =>
      have hturn := engineStep_nextTurn s1 id c1 d
      obtain ⟨c2, hc2, -⟩ := hturn.coll
      exact hsent.trans hc1 (hturn.trans hc2 (ih hc2))

/-- A collective that lands nothing may be done where its engine comes to its end. -/
theorem State.collSettle_facts {s : State} {id : Nat} {c : Coll} (h : s.coll id = some c) :
    EngineOnly s (s.collSettle id) ∧ (∀ a, (s.collSettle id).reg a = s.reg a) ∧
      ((s.collSettle id).coll id = some c ∨
        s.lands c = false ∧ (s.collSettle id).coll id = some { c with done := true, lastOrd := some (s.part c.part).ord }) := by
  unfold State.collSettle
  rw [h]
  dsimp only
  split
  next hcond =>
    have hl : s.lands c = false := by
      simp only [Bool.and_eq_true, Bool.not_eq_true'] at hcond
      exact hcond.1.2
    exact ⟨engineOnly_setColl s id _, fun _ => rfl, Or.inr ⟨hl, s.coll_setColl_same id _⟩⟩
  next => exact ⟨engineOnly_rfl s, fun _ => rfl, Or.inl h⟩

theorem State.lands_congr {s u : State} (h : u.address = s.address) {c d : Coll} (hg : c.Grown d) : u.lands d = s.lands c := by
  obtain ⟨_, _, _, _, rfl⟩ := hg
  unfold State.lands
  rw [h]

/-- What the engine leaves of its collective: it goes on, or it is done where it lands nothing. -/
theorem State.collRun_facts {s : State} {id : Nat} {c : Coll} (h : s.coll id = some c) :
    let u := s.collRun id
    EngineOnly s u ∧
      (∃ d, c.Grown d ∧ (u.coll id = some d ∨ s.lands c = false ∧ ∃ ord, u.coll id = some { d with done := true, lastOrd := ord })) ∧
      (c.op ≠ opAR → c.op ≠ opRS → s.reg (bar0 c.func 0xA100) = 0 → u.reg (bar0 c.func 0xA100) = 0) := by
  intro u
  have hu : u = if s.cp.powerDown then s else (s.collPump id 6).collSettle id := rfl
  rw [hu]
  split
  next => exact ⟨engineOnly_rfl s, ⟨c, c.grown_rfl, Or.inl h⟩, fun _ _ h0 => h0⟩
  next =>
    have hpump := engineStep_collPump id 6 h
    obtain ⟨d, hd, hg⟩ := hpump.coll
    obtain ⟨hframe, hregs, hsettle⟩ := State.collSettle_facts hd
    refine ⟨hpump.frame.trans hframe, ⟨d, hg, ?_⟩, fun h1 h2 h0 => (hregs _).trans (hpump.acc h1 h2 h0)⟩
    obtain hs | ⟨hl, hs⟩ := hsettle
    · exact Or.inl hs
    · exact Or.inr ⟨(State.lands_congr hpump.frame.address hg).symm.trans hl, _, hs⟩

end Sys2Proof.Machine
end

section
/-! PROOFS. Lines of collectives taken, refused, repeated and landed (R374, R384–R387, R393, R396, R398, R404). -/

namespace Sys2Proof.Machine

open Sys2Proof.Claims

/-! ### A line received (R374, R387, R393) -/

/-- The engines' frame, and no collective moved. -/
def CollsStand (s u : State) : Prop := EngineOnly s u ∧ u.colls = s.colls

theorem CollsStand.trans {s u w : State} (h : CollsStand s u) (h' : CollsStand u w) : CollsStand s w :=
  ⟨h.1.trans h'.1, h'.2.trans h.2⟩

theorem collsStand_send {s u : State} (h : SendOnly s u) : CollsStand s u := ⟨engineOnly_send h, h.colls⟩

theorem collsStand_ports {s u : State} (h : PortsOnly s u) : CollsStand s u := by
  unfold PortsOnly at h
  refine ⟨⟨?_, fun a _ _ => ?_⟩, ?_⟩ <;> rw [h]
  rfl

theorem collsStand_rideStatus (s : State) (f : Nat) (m : CollMsg) : CollsStand s (s.rideStatus f m) := by
  unfold State.rideStatus
  exact iteInduction (fun _ => ⟨engineOnly_orStep s f _, rfl⟩) fun _ => ⟨engineOnly_rfl s, rfl⟩

theorem State.incoming_congr {s u : State} (h : EngineOnly s u) (c : Coll) (m : CollMsg) : u.incoming c m = s.incoming c m := by
  have hrank : u.collRank c = s.collRank c := by
    funext k tree
    simp only [State.collRank, h.axisLen, h.address]
  have haddr : u.rankAddr c = s.rankAddr c := by
    funext k tree rank
    simp only [State.rankAddr, h.axisLen, h.address]
  have hsize : u.groupSize c.axes = s.groupSize c.axes := by simp only [State.groupSize, h.axisLen]
  have hgroup : u.groupRank c.axes c.origin = s.groupRank c.axes c.origin := by simp only [State.groupRank, h.axisLen, h.address]
  have hat : u.groupAddr c.axes c.origin = s.groupAddr c.axes c.origin := by
    funext g
    simp only [State.groupAddr, h.axisLen, h.address]
  unfold State.incoming
  simp only [hrank, haddr, hsize, hgroup, hat, h.axisLen, h.address]

theorem exec_collMessageReceive {s : State} {p : Nat} {hdr : BitVec 256} {payload : List Byte} (hp : p < 8) (hh : s.halted = false)
    (hup : s.portState p = 2) (hdst : (parseColl hdr payload).dst = s.address) (hk : bitsOf hdr.toNat 32 4 = 1) :
    exec (.collMessageReceive p hdr payload) s =
      .next ((s.passOn p (messageBytes hdr payload)).1.receiveColl (parseColl hdr payload)) := by
  have hd : bitsOf hdr.toNat 0 16 = s.address := hdst
  change onPort p _ s = _
  unfold onPort
  rw [if_neg (by simp [isPort, hp]), if_neg (by simp [hh]), if_pos (by simp [hup, hd, hk])]

section
variable {s : State} {m : CollMsg} {id : Nat} {c : Coll}

theorem State.receiveColl_none (h : s.collOf m.func m.hdr.ctag = none) :
    s.receiveColl m = (s.count (collReg 0x0C) 1).answerColl m 4 7 := by
  unfold State.receiveColl
  rw [h]

variable (h : s.collOf m.func m.hdr.ctag = some (id, c))
include h

/-- A message for a partition that stands still. -/
theorem State.receiveColl_still (hs : (s.part c.part).stopped = true ∨ (s.part c.part).recov.isSome = true) :
    s.receiveColl m = (s.rideStatus c.func m).answerColl m 4 5 := by
  unfold State.receiveColl
  rw [h]
  exact if_pos (by simpa using hs)

variable (hs : ¬ ((s.part c.part).stopped = true ∨ (s.part c.part).recov.isSome = true))
include hs

theorem State.receiveColl_digest (hd : m.hdr.pdig ≠ c.pdig) :
    s.receiveColl m = ((s.rideStatus c.func m).setBit (collReg 0x14) 1).collFail id 0x27 := by
  unfold State.receiveColl
  rw [h]
  exact (if_neg (by simpa using hs)).trans (if_pos (by simpa using hd))

variable (hd : m.hdr.pdig = c.pdig)
include hd

theorem State.receiveColl_noEdge (hi : s.incoming c m = none) : s.receiveColl m = (s.rideStatus c.func m).answerColl m 4 3 := by
  unfold State.receiveColl
  rw [h]
  refine (if_neg (by simpa using hs)).trans ((if_neg (by simpa using hd)).trans ?_)
  rw [State.incoming_congr (collsStand_rideStatus s c.func m).1 c m, hi]

variable {n : Nat} (hi : s.incoming c m = some n)
include hi

/-- A line that the edge has taken before. -/
theorem State.receiveColl_before (hl : m.hdr.line < kget 0 c.expected (edgeKey m.src m.hdr.phase (natOf m.hdr.madder) m.hdr.level)) :
    s.receiveColl m = ((s.rideStatus c.func m).count (collReg 0x08) 1).answerColl m 2 0 := by
  unfold State.receiveColl
  rw [h]
  refine (if_neg (by simpa using hs)).trans ((if_neg (by simpa using hd)).trans ?_)
  rw [State.incoming_congr (collsStand_rideStatus s c.func m).1 c m, hi]
  exact if_pos hl

variable (hl : kget 0 c.expected (edgeKey m.src m.hdr.phase (natOf m.hdr.madder) m.hdr.level) ≤ m.hdr.line)
include hl

/-- A line that is not the next, or past the edge's last. -/
theorem State.receiveColl_gap
    (hg : kget 0 c.expected (edgeKey m.src m.hdr.phase (natOf m.hdr.madder) m.hdr.level) < m.hdr.line ∨ n ≤ m.hdr.line) :
    s.receiveColl m = (s.rideStatus c.func m).answerColl m 4 1 := by
  unfold State.receiveColl
  rw [h]
  refine (if_neg (by simpa using hs)).trans ((if_neg (by simpa using hd)).trans ?_)
  rw [State.incoming_congr (collsStand_rideStatus s c.func m).1 c m, hi]
  exact (if_neg (by omega)).trans (if_pos (by simpa using hg))

/-- The line that the edge expects. -/
theorem State.receiveColl_next
    (hg : ¬ (kget 0 c.expected (edgeKey m.src m.hdr.phase (natOf m.hdr.madder) m.hdr.level) < m.hdr.line ∨ n ≤ m.hdr.line)) :
    s.receiveColl m = (s.rideStatus c.func m).takeLine id c m (edgeKey m.src m.hdr.phase (natOf m.hdr.madder) m.hdr.level) := by
  unfold State.receiveColl
  rw [h]
  refine (if_neg (by simpa using hs)).trans ((if_neg (by simpa using hd)).trans ?_)
  rw [State.incoming_congr (collsStand_rideStatus s c.func m).1 c m, hi]
  exact (if_neg (by omega)).trans (if_neg (by simpa using hg))

end

/-- A line that is answered leaves every collective, command and byte. -/
theorem CollsStand.answered {s w : State} (h : CollsStand s w) (m : CollMsg) (kind reason : Nat) :
    SameData s (w.answerColl m kind reason) ∧ (w.answerColl m kind reason).colls = s.colls ∧ (w.answerColl m kind reason).cmds = s.cmds := by
  obtain ⟨hframe, hcolls⟩ := h.trans (collsStand_send (sendOnly_answerColl w m kind reason))
  exact ⟨hframe.data.1, hcolls, hframe.data.2.1⟩

/-- A line that is counted and answered does the same, and its count goes up. -/
theorem CollsStand.counted {s w u : State} (h : CollsStand s w) {off : Nat} (ho : off = 0x08 ∨ off = 0x0C)
    (hsend : SendOnly (w.count (collReg off) 1) u) :
    SameData s u ∧ u.colls = s.colls ∧ u.cmds = s.cmds ∧ u.reg (collReg off) = (s.reg (collReg off) + 1) % 2 ^ 32 := by
  have hn : collReg off ∉ [linkReg 0x28, collReg 0x10] := by
    simp only [List.mem_cons, List.not_mem_nil, or_false, not_or, linkReg, collReg]
    omega
  obtain ⟨⟨hmem, hheld⟩, hcmds, -⟩ := (engineOnly_send hsend).data
  obtain ⟨⟨hmem', hheld'⟩, hcmds', -⟩ := h.1.data
  refine ⟨⟨hmem.trans hmem', hheld.trans hheld'⟩, hsend.colls.trans h.2, hcmds.trans hcmds', ?_⟩
  rw [hsend.regs _ hn, State.reg_count, if_pos rfl, h.1.regs _ (by unfold collReg; omega) hn]

/-- A collective that fails is none from then on, and its command faults. -/
theorem State.collFail_facts (s : State) (id reason : Nat) :
    SameData s (s.collFail id reason) ∧ (s.collFail id reason).regs = s.regs ∧ (s.collFail id reason).coll id = none ∧
      ∀ d, s.cmd id = some d → (s.collFail id reason).cmd id = some { d with
        fault := some (d.fault.getD { reason := reason, source := 4 }), ends := true } := by
  have hcmds := cmdsOnly_faultCmd (s.setColl id none) id { reason := reason, source := 4 }
  unfold CmdsOnly at hcmds
  have hu : s.collFail id reason = (s.setColl id none).faultCmd id { reason := reason, source := 4 } := rfl
  refine ⟨⟨?_, ?_⟩, ?_, ?_, fun d hd => ?_⟩
  · rw [hu, hcmds]
    rfl
  · rw [hu, hcmds]
    rfl
  · rw [hu, hcmds]
    rfl
  · rw [hu, hcmds]
    exact s.coll_setColl_same id none
  · rw [hu, State.faultCmd, State.cmd_modCmd, if_pos rfl]
    have : (s.setColl id none).cmd id = some d := hd
    rw [this]
    rfl

theorem collFail_of_stand {s w : State} (h : CollsStand s w) (id bit reason : Nat) (hb : bit < 32) :
    let u := (w.setBit (collReg 0x14) bit).collFail id reason
    SameData s u ∧ u.coll id = none ∧ u.bit (collReg 0x14) bit = true ∧ ∀ d, s.cmd id = some d → u.cmd id = some { d with
      fault := some (d.fault.getD { reason := reason, source := 4 }), ends := true } := by
  intro u
  obtain ⟨hdata, hregs, hnone, hcmd⟩ := (w.setBit (collReg 0x14) bit).collFail_facts id reason
  obtain ⟨⟨hmem, hheld⟩, hcmds, -⟩ := h.1.data
  refine ⟨⟨hdata.1.trans hmem, hdata.2.trans hheld⟩, hnone, ?_, fun d hd => hcmd d ((cmd_of_cmds hcmds id).trans hd)⟩
  exact (State.bit_congr (State.reg_congr hregs _) bit).trans (w.bit_setBit_same _ bit hb)

/-- The line that an edge expects is taken; the engine goes on. -/
theorem takeLine_of_stand {s w : State} (h : CollsStand s w) {id : Nat} (c : Coll) (m : CollMsg) (edge : Nat) :
    let u := w.takeLine id c m edge
    SameData s u ∧ ∃ d, u.coll id = some d ∧ d.got = c.got ++ [(edge * 2 ^ 32 + m.hdr.line, (m.payload.take c.lineLen, m.umber))] ∧
      kget 0 d.expected edge = m.hdr.line + 1 ∧ d.cmd = c.cmd ∧ d.landed = c.landed ∧ (s.lands c = true → d.done = c.done) := by
  intro u
  let c1 := { c with
    got := c.got ++ [(edge * 2 ^ 32 + m.hdr.line, (m.payload.take c.lineLen, m.umber))]
    expected := kset 0 c.expected edge (m.hdr.line + 1) }
  have hor := (engineOnly_setColl w id (some c1)).trans (engineOnly_orStep (w.setColl id (some c1)) c.func (w.stickyOf c1 m))
  have hsend := sendOnly_answerColl ((w.setColl id (some c1)).orStep c.func (w.stickyOf c1 m)) m 2 0
  have hcoll : (((w.setColl id (some c1)).orStep c.func (w.stickyOf c1 m)).answerColl m 2 0).coll id = some c1 :=
    (coll_of_run hsend.colls id).trans (w.coll_setColl_same id (some c1))
  have hframe := h.1.trans (hor.trans (engineOnly_send hsend))
  have hu : u = (((w.setColl id (some c1)).orStep c.func (w.stickyOf c1 m)).answerColl m 2 0).collRun id := by
    change w.takeLine id c m edge = _
    unfold State.takeLine
    rfl
  obtain ⟨hrun, ⟨d, hg, hd⟩, -⟩ := State.collRun_facts hcoll
  rw [← hu] at hrun hd
  have hlands : State.lands (((w.setColl id (some c1)).orStep c.func (w.stickyOf c1 m)).answerColl m 2 0) c1 = s.lands c := by
    unfold State.lands
    rw [hframe.address]
  have hexpected : kget 0 c1.expected edge = m.hdr.line + 1 := kget_kset_same 0 c.expected edge (m.hdr.line + 1)
  obtain ⟨_, _, _, _, rfl⟩ := hg
  refine ⟨(hframe.trans hrun).data.1, ?_⟩
  obtain hd | ⟨hl, ord, hd⟩ := hd
  · exact ⟨_, hd, rfl, hexpected, rfl, rfl, fun _ => rfl⟩
  · exact ⟨_, hd, rfl, hexpected, rfl, rfl, fun ht => absurd (ht.symm.trans (hlands.symm.trans hl)) (by decide)⟩

/-! ### Lines refused, and a collective's time (R384, R386, R404) -/

/-- Refused lines go out again, of a collective that runs or that has completed here. -/
theorem State.repeatRefused_facts (s : State) (id : Nat) (c : Coll) :
    SameData s (s.repeatRefused id c) ∧ (s.repeatRefused id c).cmds = s.cmds ∧
      (s.repeatRefused id c).colls = (s.putColl id { c with refused := [] }).colls := by
  have hput : SameData s (s.putColl id { c with refused := [] }) ∧ (s.putColl id { c with refused := [] }).cmds = s.cmds := by
    unfold State.putColl
    split <;> exact ⟨⟨rfl, rfl⟩, rfl⟩
  have hsend := sendOnly_sendAll (s.putColl id { c with refused := [] }) c.refused
  obtain ⟨⟨hmem, hheld⟩, hcmds, -⟩ := (engineOnly_send hsend).data
  exact ⟨⟨hmem.trans hput.1.1, hheld.trans hput.1.2⟩, hcmds.trans hput.2, hsend.colls⟩

/-! ### Landing (R382, R385, R392, R398) -/

/-- What a landing may change: writes held, commands marked, counts of the dies; no byte of memory and no partition. -/
structure LandOnly (s u : State) : Prop where
  mem : u.mem = s.mem
  parts : u.parts = s.parts
  regs : ∀ a, a < 0x2000000 → u.reg a = s.reg a

theorem landOnly_rfl (s : State) : LandOnly s s := ⟨rfl, rfl, fun _ _ => rfl⟩

theorem LandOnly.trans {s u w : State} (h : LandOnly s u) (h' : LandOnly u w) : LandOnly s w :=
  ⟨h'.mem.trans h.mem, h'.parts.trans h.parts, fun a ha => (h'.regs a ha).trans (h.regs a ha)⟩

theorem landOnly_setColl (s : State) (id : Nat) (c : Option Coll) : LandOnly s (s.setColl id c) := ⟨rfl, rfl, fun _ _ => rfl⟩

theorem landOnly_countWait (s : State) (home k : Nat) : LandOnly s (s.countWait home k) where
  mem := rfl
  parts := rfl
  regs := fun a ha => s.reg_setReg_other _ (by unfold storeReg; omega)

theorem landOnly_modCmd (s : State) (id : Nat) (f : Cmd → Cmd) : LandOnly s (s.modCmd id f) := by
  have h := cmdsOnly_modCmd id f (show CmdsOnly s s from rfl)
  unfold CmdsOnly at h
  rw [h]
  exact ⟨rfl, rfl, fun _ _ => rfl⟩

/-- Held writes and a performance counter may differ. -/
def HoldOnly (s u : State) : Prop := u = { s with held := u.held, obs := { s.obs with ctrs := u.obs.ctrs } }

theorem HoldOnly.trans {s u w : State} (h : HoldOnly s u) (h' : HoldOnly u w) : HoldOnly s w := by
  unfold HoldOnly at h h' ⊢
  rw [h', h]

theorem holdOnly_hold (s : State) (part ord home : Nat) (async mark : Bool) (base : Nat) (cells : List (Nat × Byte)) (outs : List Nat) :
    HoldOnly s (s.hold part ord home async mark base cells outs) := rfl

theorem holdOnly_foldl {α : Type} (f : State → α → Option State) (hf : ∀ s x u, f s x = some u → HoldOnly s u) (l : List α) :
    ∀ (o : Option State) (u : State), l.foldl (fun o x => o.bind fun s => f s x) o = some u → ∃ s, o = some s ∧ HoldOnly s u := by
  induction l with
  | nil => exact fun o u h => ⟨u, h, rfl⟩
  | cons x l ih =>
    intro o u h
    obtain ⟨w, hw, honly⟩ := ih _ u h
    obtain ⟨s, rfl, hs⟩ := Option.bind_eq_some_iff.mp hw
    exact ⟨s, rfl, (hf s x w hs).trans honly⟩

theorem holdOnly_holdAsync {s u : State} {part ord home : Nat} {mark : Bool} {k : Nat} {bs : List Byte}
    (h : s.holdAsync part ord home mark k bs = some u) : HoldOnly s u := by
  obtain ⟨w, hw, honly⟩ := holdOnly_foldl
    (fun s (x : Nat × List (Nat × Byte)) => if s.canHold home part ord x.1 true then some (s.hold part ord home true mark x.1 x.2) else none)
    (fun s x u hx => by
      split at hx
      · exact Option.some.inj hx ▸ holdOnly_hold s part ord home true mark x.1 x.2 []
      · exact absurd hx (by simp)) _ _ u h
  exact Option.some.inj hw ▸ honly

theorem holdOnly_holdLanding {s u : State} {c : Coll} {ord : Nat} {x : Landing} (h : s.holdLanding c ord x = some u) : HoldOnly s u := by
  obtain ⟨w, hw, honly⟩ := holdOnly_foldl
    (fun s (r : Nat × List Byte) => match s.key c.func r.1 with
      | some k => s.holdAsync c.part ord 0 x.mark k r.2
      | none => some s)
    (fun s r u hr => by
      cases hk : s.key c.func r.1 with
      | some k => exact holdOnly_holdAsync (hk ▸ hr)
      | none =>
        simp only [hk] at hr
        exact Option.some.inj hr ▸ rfl) _ _ u h
  exact Option.some.inj hw ▸ honly

theorem HoldOnly.lands {s u : State} (h : HoldOnly s u) : LandOnly s u ∧ u.colls = s.colls := by
  unfold HoldOnly at h
  rw [h]
  exact ⟨⟨rfl, rfl, fun _ _ => rfl⟩, rfl⟩

/-- A collective whose landing has gone on. -/
def Coll.LandedTo (c d : Coll) : Prop := c.landed ≤ d.landed ∧
  ∃ stage taken waited, d = { c with landed := d.landed, stage := stage, taken := taken, waited := waited }

theorem Coll.landedTo_rfl (c : Coll) : c.LandedTo c := ⟨le_refl _, _, _, _, rfl⟩

theorem Coll.LandedTo.trans {c d e : Coll} (h : c.LandedTo d) (h' : d.LandedTo e) : c.LandedTo e := by
  obtain ⟨hle, _, _, _, hd⟩ := h
  obtain ⟨hle', stage, taken, waited, he⟩ := h'
  refine ⟨hle.trans hle', stage, taken, waited, ?_⟩
  rw [he, hd]

theorem State.permLanding_after {s : State} {c : Coll} {x : Landing} (h : s.permLanding c = some x) : c.LandedTo x.after := by
  unfold State.permLanding at h
  dsimp only at h
  split at h
  next =>
    obtain ⟨l, -, rfl⟩ := Option.map_eq_some_iff.mp h
    exact ⟨Nat.le_succ _, _, _, _, rfl⟩
  next =>
    split at h
    next =>
      obtain ⟨l, -, rfl⟩ := Option.map_eq_some_iff.mp h
      exact ⟨Nat.le_succ _, _, _, _, rfl⟩
    next =>
      split at h
      next =>
        obtain ⟨l, -, rfl⟩ := Option.map_eq_some_iff.mp h
        exact ⟨le_refl _, _, _, _, rfl⟩
      next =>
        split at h
        next =>
          obtain ⟨l, -, rfl⟩ := Option.map_eq_some_iff.mp h
          exact ⟨le_refl _, _, _, _, rfl⟩
        next => exact absurd h (by simp)

theorem State.nextLanding_after {s : State} {c : Coll} {x : Landing} (h : s.nextLanding c = some x) : c.LandedTo x.after := by
  unfold State.nextLanding at h
  split at h
  next => exact State.permLanding_after h
  next =>
    split at h
    next => exact absurd h (by simp)
    next =>
      obtain ⟨l, -, rfl⟩ := Option.map_eq_some_iff.mp h
      exact ⟨Nat.le_succ _, _, _, _, rfl⟩

theorem State.landLines_facts (id ord fuel : Nat) : ∀ {s : State} {c : Coll}, s.coll id = some c →
    LandOnly s (s.landLines id ord fuel) ∧ ∃ d, (s.landLines id ord fuel).coll id = some d ∧ c.LandedTo d := by
  induction fuel with
  | zero => exact fun h => ⟨landOnly_rfl _, _, h, Coll.landedTo_rfl _⟩
  | succ fuel ih =>
    intro s c h
    have hself : LandOnly s s ∧ ∃ d, s.coll id = some d ∧ c.LandedTo d := ⟨landOnly_rfl s, c, h, c.landedTo_rfl⟩
    unfold State.landLines
    rw [h]
    dsimp only
    cases hx : s.nextLanding c with
    | none => exact hself
    | some x =>
      dsimp only
      cases hs : s.holdLanding c ord x with
      | none =>
        refine iteInduction (motive := fun u : State => LandOnly s u ∧ ∃ d, u.coll id = some d ∧ c.LandedTo d) (fun _ => hself) fun _ => ?_
        exact ⟨(landOnly_setColl s id _).trans (landOnly_countWait _ _ _), _, s.coll_setColl_same id _, le_refl _, _, _, _, rfl⟩
      | some s1 =>
        obtain ⟨hhold, -⟩ := (holdOnly_holdLanding hs).lands
        have hset := hhold.trans (landOnly_setColl s1 id (some { x.after with waited := false }))
        have hcoll := s1.coll_setColl_same id (some { x.after with waited := false })
        have hafter : c.LandedTo { x.after with waited := false } := (State.nextLanding_after hx).trans ⟨le_refl _, _, _, _, rfl⟩
        have hnext (u : State) (hland : LandOnly s u) (hc : u.coll id = some { x.after with waited := false }) :
            LandOnly s (u.landLines id ord fuel) ∧ ∃ d, (u.landLines id ord fuel).coll id = some d ∧ c.LandedTo d := by
          obtain ⟨hl, d, hd, ht⟩ := ih hc
          exact ⟨hland.trans hl, d, hd, hafter.trans ht⟩
        refine iteInduction (motive := fun u : State => LandOnly s (u.landLines id ord fuel) ∧
          ∃ d, (u.landLines id ord fuel).coll id = some d ∧ c.LandedTo d) (fun _ => hnext _ (hset.trans (landOnly_modCmd _ _ _)) ?_)
          fun _ => hnext _ hset hcoll
        rw [State.coll, State.modCmd_only]
        exact hcoll

/-- With nothing to land, nothing lands. -/
theorem State.landLines_waits {s : State} {id : Nat} {c : Coll} (h : s.coll id = some c) (hn : s.nextLanding c = none) (ord fuel : Nat) :
    s.landLines id ord fuel = s := by
  cases fuel with
  | zero => rfl
  | succ fuel =>
    unfold State.landLines
    rw [h]
    dsimp only
    rw [hn]

theorem State.outputLines_congr {s u : State} (h : LandOnly s u) {c d : Coll} (hd : c.LandedTo d) : u.outputLines d = s.outputLines c := by
  have haddr : u.address = s.address := congrArg (bitsOf · 0 16) (h.regs _ (by unfold linkReg; omega))
  have haxis (a : Nat) : u.axisLen a = s.axisLen a := by
    unfold State.axisLen
    rw [h.regs _ (by unfold linkReg; omega)]
  have hrank : u.groupRank = s.groupRank := by
    funext axes origin
    simp only [State.groupRank, haxis, haddr]
  have hsize : u.groupSize = s.groupSize := by
    funext axes
    simp only [State.groupSize, haxis]
  have hat : u.groupAddr = s.groupAddr := by
    funext axes origin g
    simp only [State.groupAddr, haxis, haddr]
  obtain ⟨-, _, _, _, hd⟩ := hd
  rw [hd]
  unfold State.outputLines State.permEdges
  simp only [hrank, hsize, hat]
  rfl

/-! ### The commands -/

theorem exec_collNotreadyRepeat {s : State} {id : Nat} {c : Coll} (hh : s.halted = false)
    (h : s.coll id = some c ∨ s.coll id = none ∧ kget none s.colls.past id = some c) :
    exec (.collNotreadyRepeat id) s = .next (s.repeatRefused id c) := by
  change execCollNotreadyRepeat id s = _
  unfold execCollNotreadyRepeat
  rw [if_neg (by simp [hh])]
  obtain h | ⟨h, hp⟩ := h
  · rw [h]
  · rw [h, hp]

theorem exec_collTimeout {s : State} {id : Nat} {c : Coll} (hh : s.halted = false) (h : s.coll id = some c) (hdone : c.done = false)
    (hstop : (s.part c.part).stopped = false) :
    exec (.collTimeout id) s = .next ((s.setBit (collReg 0x14) 0).collFail id 0x28) := by
  change execCollTimeout id s = _
  unfold execCollTimeout
  rw [if_neg (by simp [hh]), h]
  exact if_neg (by simp [hdone, hstop])

theorem exec_collLanding {s : State} (hh : s.halted = false) (id : Nat) : exec (.collLanding id) s = .next (s.collLand id) := by
  change execCollLanding id s = _
  exact if_neg (by simp [hh])

section
variable {s : State} {id : Nat} {c : Coll} (h : s.coll id = some c) (hdone : c.done = false)
  (hs : ¬ ((s.part c.part).stopped = true ∨ (s.part c.part).recov.isSome = true)) (hp : s.cp.powerDown = false)
include h hdone hs hp

theorem State.collLand_settles (hl : s.lands c = false) : s.collLand id = s.collSettle id := by
  have hstill : (c.done || (s.part c.part).stopped || (s.part c.part).recov.isSome || s.cp.powerDown) = false := by
    simpa [hdone, hp] using hs
  unfold State.collLand
  rw [h]
  exact (if_neg (by simp [hstill])).trans (if_pos (by simp [hl]))

/-- What has come lands, and with the last line the collective is done. -/
theorem State.collLand_facts (hl : s.lands c = true) : ∃ u d, LandOnly s u ∧ c.LandedTo d ∧ u.coll id = some d ∧
    u = s.landLines id (s.part c.part).ord (2 * c.data.length + 2) ∧
    s.collLand id = if c.turns ≤ c.turn && s.outputLines c ≤ d.landed
      then u.setColl id (some { d with done := true, lastOrd := some (s.part c.part).ord }) else u := by
  have hstill : (c.done || (s.part c.part).stopped || (s.part c.part).recov.isSome || s.cp.powerDown) = false := by
    simpa [hdone, hp] using hs
  obtain ⟨hland, d, hd, hto⟩ := State.landLines_facts id (s.part c.part).ord (2 * c.data.length + 2) h
  have hlines := State.outputLines_congr (landOnly_rfl s) hto
  refine ⟨_, d, hland, hto, hd, rfl, ?_⟩
  unfold State.collLand
  rw [h]
  refine (if_neg (by simp [hstill])).trans ((if_neg (by simp [hl])).trans ?_)
  dsimp only
  rw [hd]
  dsimp only
  rw [hlines]
  obtain ⟨-, _, _, _, hd'⟩ := hto
  have hturns : d.turns = c.turns ∧ d.turn = c.turn := by
    rw [hd']
    exact ⟨rfl, rfl⟩
  rw [hturns.1, hturns.2]

end

end Sys2Proof.Machine

namespace Sys2Proof.Proofs

open Sys2Proof.Machine Sys2Proof.Claims

/-- Settles O48, by the message's place among its edge's lines, and by what an engine has sent and landed. -/
theorem collectiveLines : Obligations.CollectiveLines := by
  unfold Obligations.CollectiveLines
  intro s p id hdr payload c hp hh m edge e x still keeps faults
  refine ⟨fun hup hdst hk => ?_, fun h => ?_, fun h hpast => ?_, fun h => ⟨fun hdone hstop => ?_, fun hend => ?_⟩,
    fun h hdone hs hpow => ⟨fun hl hop hturn => ?_, fun hl hturn => ?_, fun hl hturn hsent => ?_, fun hl hopen => ?_⟩⟩
  · have hexec := exec_collMessageReceive (payload := payload) hp hh hup hdst hk
    have hpass := collsStand_ports (portsOnly_passOn s p (messageBytes hdr payload))
    generalize (s.passOn p (messageBytes hdr payload)).1 = v at hexec hpass
    have hof : v.collOf m.func m.hdr.ctag = s.collOf m.func m.hdr.ctag := by
      unfold State.collOf
      rw [hpass.2]
    have hride := hpass.trans (collsStand_rideStatus v c.func m)
    have hpart : v.part c.part = s.part c.part := part_of_parts hpass.1.data.2.2.2.2.1 _
    have hin : v.incoming c m = s.incoming c m := State.incoming_congr hpass.1 c m
    have hcount (off kind reason : Nat) (ho : off = 0x08 ∨ off = 0x0C) (w : State) (hw : CollsStand s w)
        (hx : v.receiveColl m = (w.count (collReg off) 1).answerColl m kind reason) : keeps (some (collReg off)) := by
      obtain ⟨hdata, hcolls, hcmds, hreg⟩ := hw.counted ho (sendOnly_answerColl (w.count (collReg off) 1) m kind reason)
      exact ⟨_, hexec.trans (congrArg _ hx), hdata, hcolls, hcmds, fun a ha => Option.some.inj ha ▸ hreg⟩
    have hanswer (kind reason : Nat) (hx : v.receiveColl m = (v.rideStatus c.func m).answerColl m kind reason) : keeps none := by
      obtain ⟨hdata, hcolls, hcmds⟩ := hride.answered m kind reason
      exact ⟨_, hexec.trans (congrArg _ hx), hdata, hcolls, hcmds, fun a ha => absurd ha (by simp)⟩
    refine ⟨fun hnone => hcount 0x0C 4 7 (Or.inr rfl) v hpass (State.receiveColl_none (hof.trans hnone)), fun hsome => ?_⟩
    have hv := hof.trans hsome
    refine ⟨fun hs => hanswer 4 5 (State.receiveColl_still hv (hpart ▸ hs)), fun hs hd => ?_, fun hs hd hi =>
      hanswer 4 3 (State.receiveColl_noEdge hv (hpart ▸ hs) hd (hin.trans hi)), fun hs hd n hi => ⟨fun hlt => ?_, fun hle hgap => ?_, fun heq hlt => ?_⟩⟩
    · exact ⟨_, hexec.trans (congrArg _ (State.receiveColl_digest hv (hpart ▸ hs) hd)), collFail_of_stand hride id 1 0x27 (by omega)⟩
    · exact hcount 0x08 2 0 (Or.inl rfl) _ hride (State.receiveColl_before hv (hpart ▸ hs) hd (hin.trans hi) hlt)
    · exact hanswer 4 1 (State.receiveColl_gap hv (hpart ▸ hs) hd (hin.trans hi) hle (hgap.imp_right fun hn => hn.trans hle))
    · obtain ⟨hdata, d, hcoll, hgot, hexp, hcmd, hland, hdone⟩ := takeLine_of_stand hride (id := id) c m edge
      have hx := State.receiveColl_next hv (hpart ▸ hs) hd (hin.trans hi) (le_of_eq heq.symm)
        (not_or.mpr ⟨not_lt.mpr (le_of_eq heq), fun hn => (hlt.trans_le hn).ne heq.symm⟩)
      rw [heq] at hgot hexp
      exact ⟨_, d, hexec.trans (congrArg _ hx), hdata, hcoll, hgot, hexp, hcmd, hland, hdone⟩
  · obtain ⟨hdata, hcmds, hcolls⟩ := s.repeatRefused_facts id c
    have hput : s.putColl id { c with refused := [] } = s.setColl id (some { c with refused := [] }) := if_pos (by simp [h])
    exact ⟨_, exec_collNotreadyRepeat hh (Or.inl h), hdata, hcmds, (coll_of_run (hcolls.trans (congrArg State.colls hput)) id).trans
      (s.coll_setColl_same id _)⟩
  · obtain ⟨hdata, hcmds, hcolls⟩ := s.repeatRefused_facts id c
    refine ⟨_, exec_collNotreadyRepeat hh (Or.inr ⟨h, hpast⟩), hdata, hcmds, ?_, ?_⟩
    · rw [State.coll, hcolls, State.putColl, if_neg (by simp [h])]
      exact h
    · rw [hcolls, State.putColl, if_neg (by simp [h])]
      refine (kget_kset_same none s.colls.past id _).trans ?_
      simp [List.isEmpty_iff]
  · refine ⟨_, exec_collTimeout hh h hdone hstop, ?_⟩
    exact collFail_of_stand ⟨engineOnly_rfl s, rfl⟩ id 0 0x28 (by omega)
  · change execCollTimeout id s = _
    unfold execCollTimeout
    rw [if_neg (by simp [hh]), h]
    exact if_pos (by simpa using hend)
  · obtain ⟨u, d, -, -, hd, hu, hx⟩ := State.collLand_facts h hdone hs hpow hl
    have hnext : s.nextLanding c = none := (if_neg (by simpa using hop)).trans (if_pos hturn)
    rw [State.landLines_waits h hnext] at hu
    rw [exec_collLanding hh, hx, if_neg (by simp; omega), hu]
  · obtain ⟨u, d, hland, ⟨hle, stage, taken, waited, hd'⟩, hd, -, hx⟩ := State.collLand_facts h hdone hs hpow hl
    have hsame : d.data = c.data ∧ d.turn = c.turn ∧ d.done = false := by
      rw [hd']
      exact ⟨rfl, rfl, hdone⟩
    obtain ⟨hdata, hturn', hd0⟩ := hsame
    by_cases hend : c.turns ≤ c.turn ∧ s.outputLines c ≤ d.landed
    · rw [if_pos (by simpa using hend)] at hx
      exact ⟨_, _, (exec_collLanding hh id).trans (congrArg _ hx), hland.mem, u.coll_setColl_same id _, hle, hdata, hturn',
        ⟨fun _ => hend, fun _ => rfl⟩, fun _ => rfl⟩
    · rw [if_neg (by simpa using hend)] at hx
      exact ⟨u, d, (exec_collLanding hh id).trans (congrArg _ hx), hland.mem, hd, hle, hdata, hturn',
        ⟨fun ht => absurd (hd0.symm.trans ht) (by decide), fun he => absurd he hend⟩, fun ht => absurd (hd0.symm.trans ht) (by decide)⟩
  · have hx : s.collSettle id = s.setColl id (some { c with done := true, lastOrd := some x.ord }) := by
      unfold State.collSettle
      rw [h]
      exact if_pos (by obtain hv | he := hsent <;> simp [*])
    rw [exec_collLanding hh, State.collLand_settles h hdone hs hpow hl, hx]
    exact ⟨_, rfl, ⟨rfl, rfl⟩, s.coll_setColl_same id _⟩
  · have hx : s.collSettle id = s := by
      unfold State.collSettle
      rw [h]
      refine if_neg ?_
      obtain hlt | ⟨hv, he⟩ := hopen
      · simp [Nat.not_le.mpr hlt]
      · simp [hv, he]
    rw [exec_collLanding hh, State.collLand_settles h hdone hs hpow hl, hx]

end Sys2Proof.Proofs
end

section
/-! PROOFS. Long commands under way at their admission (R73, R353, R354, R360, R378, R394, R420, R456). -/

namespace Sys2Proof.Machine

open Sys2Proof.Claims

/-! ### What each opcode starts (R360) -/

section
variable {s : State} {id p : Nat} {c : Cmd} (hp : s.funcPart c.func = some p)
include hp

theorem State.startCmd_span (h : c.opcode = 0x01 ∨ c.opcode = 0x31) : s.startCmd id c = s.startSpan id p c := by
  unfold State.startCmd
  obtain h | h := h <;> simp [h, hp, Cmd.isSpan]

theorem State.startCmd_copy (h : c.opcode = 0x02) : s.startCmd id c = s.startCopy id p (s.part p).ord c := by
  unfold State.startCmd
  simp [h, hp, Cmd.isSpan]

theorem State.startCmd_ckpt (h : c.opcode = 0x30) : s.startCmd id c = s.startCkpt id p c := by
  unfold State.startCmd
  simp [h, hp, Cmd.isSpan]

theorem State.startCmd_coll (h : isColl c.opcode = true) : s.startCmd id c = s.startColl id p c := by
  have hop : c.opcode = 0x10 ∨ c.opcode = 0x11 ∨ c.opcode = 0x12 ∨ c.opcode = 0x13 ∨ c.opcode = 0x14 ∨ c.opcode = 0x15 ∨ c.opcode = 0x18 := by
    simp only [isColl, Bool.or_eq_true, Bool.and_eq_true, decide_eq_true_eq, beq_iff_eq] at h
    omega
  unfold State.startCmd
  obtain h | h | h | h | h | h | h := hop <;> simp [h, hp, Cmd.isSpan]

end

/-! ### RUN_SPAN (R73, R353) -/

/-- The cores of a partition, CSTAT cleared. -/
def Part.clearCore (x : Part) (k : Nat × Core) : Nat × Core := if x.hasDie (dieOf k.1) then (k.1, { k.2 with cstat := 0 }) else k

theorem kget_cleared (x : Part) (k : Nat) (hk : x.hasDie (dieOf k) = true) (m : KMap Core) :
    (kget ({} : Core) ((m.map x.clearCore).filter fun y => y.2 != {}) k).cstat = 0 := by
  induction m with
  | nil => rfl
  | cons y m ih =>
    by_cases hy : y.1 = k
    · have hclear : x.clearCore y = (k, { y.2 with cstat := 0 }) := by
        unfold Part.clearCore
        rw [hy, if_pos hk]
      rw [List.map_cons, hclear, List.filter_cons]
      split
      · exact (congrArg Core.cstat (if_pos rfl)).trans rfl
      · exact ih
    · have hkey : (x.clearCore y).1 = y.1 := by
        unfold Part.clearCore
        split <;> rfl
      rw [List.map_cons, List.filter_cons]
      split
      · exact (congrArg Core.cstat (if_neg fun h => hy (hkey.symm.trans h))).trans ih
      · exact ih

/-- The state in which an owner's span runs. -/
def State.spanRuns (s : State) (id p : Nat) : State :=
  let s2 := s.modPart p fun x => { x with run := some id }
  { s2 with cores := (s2.cores.map (s.part p).clearCore).filter fun x => x.2 != {} }

/-- A span of an owner's or a filler's, and for a REPLAY what it then prepares. -/
theorem State.startSpan_eq (s : State) (id p : Nat) (c : Cmd) : s.startSpan id p c =
    let s1 := if s.fnFiller c.func then s else s.spanRuns id p
    if c.opcode != 0x31 then s1
    else
      match s1.spanImage p c with
      | some m => s1.startReplay id p c m
      | none => s1 := rfl

theorem State.spanRuns_run (s : State) (id p : Nat) : ((s.spanRuns id p).part p).run = some id :=
  congrArg Part.run (s.part_modPart_same p fun x => { x with run := some id })

theorem State.spanRuns_cstat (s : State) (id p k : Nat) (hk : (s.part p).hasDie (dieOf k) = true) : ((s.spanRuns id p).core k).cstat = 0 :=
  kget_cleared (s.part p) k hk _

/-! ### COPY (R354) -/

/-- A copy that differs in its progress alone. -/
def CopyRun.Progress (r x : CopyRun) : Prop :=
  x.func = r.func ∧ x.part = r.part ∧ x.cmd = r.cmd ∧ x.lastOrd = r.lastOrd ∧ x.form = r.form ∧ x.async = r.async ∧ x.home = r.home

theorem CopyRun.Progress.trans {r x y : CopyRun} (h : r.Progress x) (h' : x.Progress y) : r.Progress y := by
  obtain ⟨h1, h2, h3, h4, h5, h6, h7⟩ := h
  obtain ⟨g1, g2, g3, g4, g5, g6, g7⟩ := h'
  exact ⟨g1.trans h1, g2.trans h2, g3.trans h3, g4.trans h4, g5.trans h5, g6.trans h6, g7.trans h7⟩

theorem progress_enterItem (s : State) (r : CopyRun) (w : WalkBlk) : r.Progress (s.enterItem r w) := by
  unfold State.enterItem State.readPtrs
  dsimp only
  split
  · exact ⟨rfl, rfl, rfl, rfl, rfl, rfl, rfl⟩
  · split <;> exact ⟨rfl, rfl, rfl, rfl, rfl, rfl, rfl⟩

theorem progress_settleCopy (s : State) (w : WalkBlk) (n : Nat) : ∀ r : CopyRun, r.Progress (s.settleCopy w n r) := by
  induction n with
  | zero => exact fun r => ⟨rfl, rfl, rfl, rfl, rfl, rfl, rfl⟩
  | succ n ih =>
    intro r
    unfold State.settleCopy
    split
    · exact ⟨rfl, rfl, rfl, rfl, rfl, rfl, rfl⟩
    · split
      · exact ⟨rfl, rfl, rfl, rfl, rfl, rfl, rfl⟩
      next b j _ =>
        have hmove : r.Progress { r with pos := { r.pos with item := b, point := j, seq := r.pos.seq + 1, unit := 0 } } :=
          ⟨rfl, rfl, rfl, rfl, rfl, rfl, rfl⟩
        refine CopyRun.Progress.trans ?_ (ih _)
        split
        · exact hmove
        · exact hmove.trans (progress_enterItem s _ w)

theorem progress_firstPos (s : State) (r : CopyRun) : r.Progress (s.firstPos r) := by
  unfold State.firstPos
  split
  · refine CopyRun.Progress.trans (CopyRun.Progress.trans ?_ (progress_enterItem s _ _)) (progress_settleCopy s _ _ _)
    exact ⟨rfl, rfl, rfl, rfl, rfl, rfl, rfl⟩
  next _ _ len h => exact ⟨rfl, rfl, rfl, rfl, rfl, rfl, rfl⟩

/-- The copy that a COPY asks for. -/
def State.askedCopy (s : State) (id p ord : Nat) (c : Cmd) : CopyRun :=
  if c.pay 0 1 == 1 then
    { func := c.func, part := p, cmd := id, home := c.copyHome, form := .linear c.copySrc c.copyDst c.copyLen, async := true, lastOrd := ord }
  else
    { func := c.func, part := p, cmd := id, home := (s.copyWalk c).homeDie ((s.copyWalk c).level.getD 0) c.copyHome
      form := .walk ((s.copyWalk c).level.getD 0) (s.tenantBytes c.func c.copySrc 128), async := (s.copyWalk c).tier == 4, lastOrd := ord }

theorem State.startCopy_eq (s : State) (id p ord : Nat) (c : Cmd) :
    s.startCopy id p ord c = s.putCopy id (s.firstPos (s.askedCopy id p ord c)) := rfl

theorem State.putCopy_facts (s : State) (id : Nat) (r : CopyRun) :
    DressOnly (s.setCopy id (some r)) (s.putCopy id r) ∨ s.putCopy id r = s.setCopy id (some r) := by
  unfold State.putCopy
  dsimp only
  split
  · exact Or.inl (dressOnly_noteFailed _ r)
  · exact Or.inr rfl

theorem State.copyRun_setCopy_same (s : State) (id : Nat) (r : Option CopyRun) : (s.setCopy id r).copyRun id = r := kget_kset_same _ _ _ _

/-! ### REPLAY (R420, R457, R458) -/

/-- What the preparation of a replay leaves: held writes, partitions, commands and replays. -/
structure Prepares (s u : State) : Prop where
  held : u.held = s.held
  parts : u.parts = s.parts
  cmds : u.cmds = s.cmds
  replays : u.replays = s.replays

theorem prepares_rfl (s : State) : Prepares s s := ⟨rfl, rfl, rfl, rfl⟩

theorem Prepares.trans {s u w : State} (h : Prepares s u) (h' : Prepares u w) : Prepares s w :=
  ⟨h'.held.trans h.held, h'.parts.trans h.parts, h'.cmds.trans h.cmds, h'.replays.trans h.replays⟩

theorem prepares_foldl {α : Type} (f : State → α → State) (hf : ∀ s x, Prepares s (f s x)) (l : List α) (s : State) : Prepares s (l.foldl f s) :=
  List.foldlRecOn (motive := fun u => Prepares s u) _ _ (prepares_rfl s) fun u hu x _ => hu.trans (hf u x)

/-- A fold that carries more than the state. -/
theorem prepares_foldl_fst {α β : Type} (f : State × β → α → State × β) (hf : ∀ y x, Prepares y.1 (f y x).1) (l : List α) (y : State × β) :
    Prepares y.1 (l.foldl f y).1 :=
  List.foldlRecOn (motive := fun u : State × β => Prepares y.1 u.1) _ _ (prepares_rfl y.1) fun u hu x _ => hu.trans (hf u x)

theorem prepares_marks (s : State) (l : KMap Bool) : Prepares s { s with marks := l } := ⟨rfl, rfl, rfl, rfl⟩

theorem prepares_writeMarked (s : State) (k : Nat) (bs : List Byte) (mark : Bool) : Prepares s (s.writeMarked k bs mark) := by
  have h := writesOnly_writeMarked s k bs mark
  unfold WritesOnly at h
  rw [h]
  exact ⟨rfl, rfl, rfl, rfl⟩

theorem prepares_startPart (s : State) (p : Nat) (m : ImgHeld) : Prepares s (s.startPart p m) := by
  unfold State.startPart
  refine prepares_foldl _ (fun u k => ?_) _ s
  exact ⟨rfl, rfl, rfl, rfl⟩

theorem prepares_putSlotCore (s : State) (m : ImgHeld) (known : Option Core) (c : Nat) (b : List Byte) : Prepares s (s.putSlotCore m known c b) := by
  have hcore : Prepares s (s.setCore c (known.getD (m.scannedCore c (b.take 6144)))) := ⟨rfl, rfl, rfl, rfl⟩
  unfold State.putSlotCore
  refine hcore.trans (prepares_foldl_fst _ (fun y r => ?_) _ (_, 6144))
  exact ⟨rfl, rfl, rfl, rfl⟩

theorem prepares_putSlot (s : State) (x : Part) (m : ImgHeld) (saved : Option Saved) (v : Nat) (b : List Byte) :
    Prepares s (s.putSlot x m saved v b) := by
  refine prepares_foldl_fst _ (fun y c => ?_) _ (s, b.drop 256)
  dsimp only
  split
  · exact prepares_putSlotCore y.1 m _ c y.2
  · exact prepares_rfl y.1

theorem prepares_putPads (s : State) (x : Part) (v : Nat) (b : List Byte) : Prepares s (s.putPads x v b) := by
  refine prepares_foldl_fst _ (fun y c => ?_) _ (s, b)
  dsimp only
  split
  · exact prepares_writeMarked y.1 _ _ _
  · exact prepares_rfl y.1

theorem prepares_setIsr (s : State) (i : Nat) (x : Option Isr) : Prepares s (s.setIsr i x) := ⟨rfl, rfl, rfl, rfl⟩

theorem prepares_putSavedRecord (s : State) (p : Nat) (saved : Option Saved) (b : List Byte) : Prepares s (s.putSavedRecord p saved b) := by
  have hset (v : Nat) : Prepares s (s.setReg (bar0 (s.part p).func 0xA100) v) := ⟨rfl, rfl, rfl, rfl⟩
  unfold State.putSavedRecord
  dsimp only
  split
  next => exact hset _
  next =>
    refine (hset _).trans ((prepares_foldl _ (fun u r => ?_) _ _).trans (prepares_foldl _ (fun u r => ?_) _ _))
    · split
      · exact prepares_rfl u
      · exact prepares_setIsr u _ _
    · split
      · exact prepares_setIsr u _ _
      · exact prepares_rfl u

theorem prepares_readSources (s : State) (m : ImgHeld) (v : Viewer) : Prepares s (s.readSources m v) := by
  refine prepares_foldl _ (fun u e => ?_) _ s
  dsimp only
  split
  · exact prepares_rfl u
  · exact prepares_foldl_fst _ (fun y q => prepares_writeMarked y.1 _ _ _) _ (u, 0)

theorem prepares_putManifest (s : State) (p : Nat) (c : Cmd) (m : ImgHeld) : Prepares s (s.putManifest p c m) := by
  have hentry (saved : Option Saved) (x : Part) (man : List Byte) : Prepares s ((List.range (s.manEntries c)).foldl (fun s' i =>
      match s.manData c i with
      | some b =>
        if leNat ((man.drop (64 + 32 * i)).take 1) == 1 then s'.putSlot x m saved (leNat (((man.drop (64 + 32 * i)).drop 1).take 1) % 8) b
        else if leNat ((man.drop (64 + 32 * i)).take 1) == 2 then s'.putPads x (leNat (((man.drop (64 + 32 * i)).drop 1).take 1) % 8) b
        else if leNat ((man.drop (64 + 32 * i)).take 1) == 4 then s'.putSavedRecord p saved b else s'
      | none => s') s) := by
    refine prepares_foldl _ (fun u i => ?_) _ s
    split
    · exact iteInduction (fun _ => prepares_putSlot u x m saved _ _) fun _ => iteInduction (fun _ => prepares_putPads u x _ _) fun _ =>
        iteInduction (fun _ => prepares_putSavedRecord u p saved _) fun _ => prepares_rfl u
    · exact prepares_rfl u
  unfold State.putManifest
  dsimp only
  refine Prepares.trans ?_ (prepares_readSources _ m none)
  split
  · exact (hentry _ _ _).trans (prepares_marks _ _)
  · exact hentry _ _ _

/-! ### The manifest's data under an admission (R457, R458) -/

/-- What a page maps to, its age apart. -/
def State.mapping (s : State) (f : Nat) (far : Bool) (v : Nat) : Option (PageState × Nat) := (s.page f far v).map fun p => (p.state, p.phys)

/-- Two states in which every address names the same bytes, none held otherwise. -/
structure SameView (s u : State) : Prop where
  mem : u.mem = s.mem
  held : u.held = s.held
  windows : u.tiers.fwOn = s.tiers.fwOn
  blocks : u.tiers.blocks = s.tiers.blocks
  bays : ∀ d, d < 4 → u.bayUsable d = s.bayUsable d
  pages : ∀ f far v, u.mapping f far v = s.mapping f far v

theorem SameView.trans {s u w : State} (h : SameView s u) (h' : SameView u w) : SameView s w :=
  ⟨h'.mem.trans h.mem, h'.held.trans h.held, h'.windows.trans h.windows, h'.blocks.trans h.blocks, fun d hd => (h'.bays d hd).trans (h.bays d hd),
    fun f far v => (h'.pages f far v).trans (h.pages f far v)⟩

theorem SameView.flashAt {s u : State} (h : SameView s u) (f a : Nat) : u.flashAt f a = s.flashAt f a := by
  unfold State.flashAt State.window
  rw [h.windows, h.blocks]
  dsimp only
  split
  · rfl
  next ctrl lba _ => rw [h.bays _ (bitsOf_lt ctrl 1 2)]

/-- A page's place in memory, where its state lets it be read. -/
theorem State.key_mapping (s : State) (f a : Nat) : s.key f a =
    if a ≤ 0x00BFFFFFFFFF then
      (s.mapping f false (a / 2 ^ 21)).bind fun p => if p.1 == .resident || p.1 == .pinned then some (p.2 * 2 ^ 21 + a % 2 ^ 21) else none
    else if farKey ≤ a && a ≤ 0x13FFFFFFFFFF then
      (s.mapping f true ((a - farKey) / 2 ^ 21)).bind fun p => some (farKey + p.2 * 2 ^ 21 + a % 2 ^ 21)
    else if storeKey ≤ a && a ≤ 0x2000FFFFFFFF then some a
    else if padKey ≤ a && a ≤ 0x3002FFFFFFFF then some a
    else if 0x400000000000 ≤ a && a ≤ 0x7FFFFFFFFFFF then s.flashAt f a
    else if 0x800000000000 ≤ a && a ≤ 0xFFFFFFFFFFFF then some (hostKey (a - 0x800000000000))
    else none := by
  unfold State.key State.mapping
  cases s.page f false (a / 2 ^ 21) <;> cases s.page f true ((a - farKey) / 2 ^ 21) <;> rfl

theorem SameView.key {s u : State} (h : SameView s u) (f a : Nat) : u.key f a = s.key f a := by
  rw [State.key_mapping, State.key_mapping, h.pages, h.pages, h.flashAt]

theorem SameView.seen {s u : State} (h : SameView s u) (v : Viewer) (k : Nat) : u.seen v k = s.seen v k := by
  unfold State.seen
  rw [h.mem, h.held]

theorem SameView.tenantBytes {s u : State} (h : SameView s u) (f a n : Nat) : u.tenantBytes f a n = s.tenantBytes f a n := by
  have hseen : u.seen none = s.seen none := funext fun k => h.seen none k
  unfold State.tenantBytes
  rw [hseen]
  simp only [h.key]

theorem SameView.manDataGood {s u : State} (h : SameView s u) (c : Cmd) : u.manDataGood c = s.manDataGood c := by
  have hseen : u.seen none = s.seen none := funext fun k => h.seen none k
  have hentries : u.manEntries c = s.manEntries c := congrArg leNat (h.tenantBytes _ _ _)
  have hbytes : u.manBytes c = s.manBytes c := by
    unfold State.manBytes
    rw [hentries, h.tenantBytes]
  have hdata (i : Nat) : u.manData c i = s.manData c i := by
    unfold State.manData State.flashRangeOk
    simp only [hbytes, h.flashAt, hseen]
  unfold State.manDataGood
  simp only [hentries, hbytes, hdata]

/-- A page's age says nothing of its place. -/
theorem sameView_setAge {s : State} {f v : Nat} {far : Bool} {p : Page} (hp : s.page f far v = some p) (age : Nat) :
    SameView s (s.setPage f far v (some { p with age := age })) := by
  refine ⟨rfl, rfl, rfl, rfl, fun _ _ => rfl, fun f' far' v' => ?_⟩
  have hpage : (s.setPage f far v (some { p with age := age })).page f' far' v' =
      kget none (kset none s.tiers.pages (f * 2 ^ 32 + natOf far * 2 ^ 31 + v) (some { p with age := age }))
        (f' * 2 ^ 32 + natOf far' * 2 ^ 31 + v') := rfl
  have hold : s.page f' far' v' = kget none s.tiers.pages (f' * 2 ^ 32 + natOf far' * 2 ^ 31 + v') := rfl
  unfold State.page at hp
  rw [State.mapping, State.mapping, hpage, hold]
  by_cases hk : f * 2 ^ 32 + natOf far * 2 ^ 31 + v = f' * 2 ^ 32 + natOf far' * 2 ^ 31 + v'
  · rw [← hk, kget_kset_same, hp]
    rfl
  · rw [kget_kset_other _ _ _ hk]

theorem sameView_agePages (s : State) (c : Cmd) (pages : List Nat) : SameView s (s.agePages c pages) := by
  unfold State.agePages
  refine List.foldlRecOn (motive := fun u => SameView s u) _ _ ⟨rfl, rfl, rfl, rfl, fun _ _ => rfl, fun _ _ _ => rfl⟩ fun u hu k _ => ?_
  split
  next p hp => exact hu.trans (sameView_setAge hp _)
  next => exact hu

theorem sameView_of_note {s u : State} (h : NoteOnly s u) (hp : u.tiers.pages = s.tiers.pages) : SameView s u where
  mem := h.mem
  held := h.held
  windows := (congrArg (fun u => u.tiers.fwOn) h.1).trans rfl
  blocks := (congrArg (fun u => u.tiers.blocks) h.1).trans rfl
  bays := fun d hd => State.bit_congr (h.2 _ (by simp only [List.mem_cons, List.not_mem_nil, or_false, tierReg, cpReg, obsReg]; omega)) 1
  pages := fun f far v => by
    unfold State.mapping State.page
    rw [hp]

theorem State.stallsDone_tiers (s : State) : s.stallsDone.tiers = s.tiers := by
  unfold State.stallsDone State.countStalls
  split
  · rfl
  · split <;> rfl

theorem State.admitCounted_tiers (s : State) (c : Cmd) : (s.admitCounted c).tiers = s.tiers := by
  unfold State.admitCounted
  exact (congrArg State.tiers (State.trace_only _ _ _ _ _)).trans rfl

theorem sameView_noteAdmitted {s : State} {id : Nat} {c : Cmd} (h : s.cmd id = some c) : SameView s (s.noteAdmitted id c) := by
  rw [State.noteAdmitted_eq h]
  have h0 : SameView s (s.setCmd id (some (s.asAdmitted c))) := ⟨rfl, rfl, rfl, rfl, fun _ _ => rfl, fun _ _ _ => rfl⟩
  refine (h0.trans (sameView_agePages _ c (s.namedPages c))).trans ?_
  exact (sameView_of_note (noteOnly_stallsDone _).1 (congrArg (·.pages) (State.stallsDone_tiers _))).trans
    (sameView_of_note (noteOnly_admitCounted _ c).1 (congrArg (·.pages) (State.admitCounted_tiers _ c)))

/-! ### What an admission without refusal tells (R220, R360, R420, R456) -/

theorem State.admitBad_none {s : State} {c : Cmd} (h : s.admitBad c = none) : s.loadBad c = none ∧ s.startBad c = none := by
  unfold State.admitBad at h
  cases hl : s.loadBad c with
  | none => exact ⟨rfl, by rwa [hl] at h⟩
  | some r =>
    rw [hl] at h
    exact absurd h (by simp)

/-- An admitted REPLAY has its image, and is no filler's. -/
theorem State.replay_image {s : State} {id p : Nat} {c : Cmd} (hadm : s.admissible id c = true) (hbad : s.admitBad c = none)
    (hp : s.funcPart c.func = some p) (hop : c.opcode = 0x31) : (∃ m, s.spanImage p c = some m) ∧ s.fnFiller c.func = false := by
  have hinfo : ((opcodeInfo c.opcode).map (·.2)).getD false = true := by rw [hop]; rfl
  have hspan : c.isSpan = true := by simp [Cmd.isSpan, hop]
  unfold State.admissible at hadm
  rw [if_pos hinfo, hp] at hadm
  simp only [Bool.and_eq_true, hspan, Bool.not_true, Bool.false_or, Bool.not_eq_true', State.spanWaits, Bool.or_eq_false_iff,
    Option.isNone_eq_false_iff] at hadm
  obtain ⟨⟨⟨⟨-, -, -, himage⟩, -⟩, -⟩, -⟩ := hadm
  obtain ⟨m, hm⟩ := Option.isSome_iff_exists.mp himage
  refine ⟨⟨m, hm⟩, ?_⟩
  have hload := (State.admitBad_none hbad).1
  unfold State.loadBad at hload
  simp only [hp, hspan, hm, hop, Bool.not_true, Bool.false_eq_true, if_false, beq_self_eq_true, Bool.true_and] at hload
  by_contra hf
  rw [if_pos (by simpa using hf)] at hload
  exact absurd hload (by simp)

theorem State.ckpt_mirror {s : State} {p : Nat} {c : Cmd} (hbad : s.admitBad c = none) (hp : s.funcPart c.func = some p)
    (hop : c.opcode = 0x30) : ∃ k, (s.part p).lastMirror = some k := by
  have hstart := (State.admitBad_none hbad).2
  cases hm : (s.part p).lastMirror with
  | some k => exact ⟨k, rfl⟩
  | none =>
    simp [State.startBad, hp, Cmd.isSpan, hop, State.ckptBad, hm] at hstart

/-- A CHECKPOINT with a mirrored frame is noted. -/
theorem State.startCkpt_facts (s : State) (id : Nat) {p : Nat} {k : Snap} (c : Cmd) (h : (s.part p).lastMirror = some k) :
    ∃ r : Ckpt, s.startCkpt id p c = { s with ckpts := kset none s.ckpts id (some r) } ∧ r.func = c.func ∧ r.part = p ∧
      r.manifestAddr = c.ckManifest ∧ r.failed = false ∧ r.endOrd = none := by
  unfold State.startCkpt
  dsimp only
  rw [h]
  exact ⟨_, rfl, rfl, rfl, rfl, rfl, rfl⟩

/-! ### The engines at their start -/

/-- The collective that a command asks for, with its data. -/
def State.askedColl (s : State) (id p : Nat) (c : Cmd) : Coll :=
  let k := c.coll
  let v := s.reg (bar0 c.func 0xA100) &&& (if bitOf (c.pay 3 1) 1 then 7 else 3)
  let data : List CollLine :=
    if k.op == opVT then [(leBytes 32 v, false)]
    else if k.op == opBC && !s.isBcRoot k then List.replicate (c.len / k.lineLen) ([], false)
    else s.tenantLines c.func k.src c.len k.lineLen
  let table := if k.op == opPM then s.tenantBytes c.func c.aux (s.auxBytes c k) else []
  { k with cmd := id, part := p, pdig := c.pdig table, list := s.auxWords c k, data := data, start := data }

/-- STEP_ACC as a VOTE takes it. -/
def State.accTaken (s : State) (c : Cmd) : State := if c.opcode == opVT then s.setReg (bar0 c.func 0xA100) 0 else s

theorem State.startColl_eq (s : State) (id p : Nat) (c : Cmd) :
    s.startColl id p c = ((s.accTaken c).setColl id (some (s.askedColl id p c))).collRun id := rfl

/-- A collective begins: its engine goes on, and a VOTE clears STEP_ACC. -/
theorem State.startColl_facts (s : State) (id p : Nat) (c : Cmd) :
    let u := s.startColl id p c
    SameData s u ∧ u.cmds = s.cmds ∧ u.colls.gates = s.colls.gates ∧
      (∃ k, u.coll id = some k ∧ k.cmd = id ∧ k.func = c.func ∧ k.part = p ∧ k.op = c.opcode ∧ k.ctag = c.pay 8 4 ∧ k.step = c.pay 0x0C 4 ∧
        k.axes = c.coll.axes) ∧
      (c.opcode = opVT → u.reg (bar0 c.func 0xA100) = 0) := by
  intro u
  have htaken : RegsOnly s (s.accTaken c) := by
    unfold State.accTaken
    split
    · exact regsOnly_setReg s _ _
    · exact regsOnly_rfl s
  have hacc : c.opcode = opVT → (s.accTaken c).reg (bar0 c.func 0xA100) = 0 := fun hop => by
    unfold State.accTaken
    rw [if_pos (by simp [hop]), State.reg_setReg_same]
    rfl
  have hu : u = _ := s.startColl_eq id p c
  generalize s.accTaken c = w at htaken hacc hu
  obtain ⟨hrun, ⟨d, hg, hd⟩, hzero⟩ := State.collRun_facts (w.coll_setColl_same id (some (s.askedColl id p c)))
  rw [← hu] at hrun hd hzero
  obtain ⟨⟨hmem, hheld⟩, hcmds, -, hgates, -⟩ := ((engineOnly_setColl w id (some (s.askedColl id p c))).trans hrun).data
  unfold RegsOnly at htaken
  obtain ⟨_, _, _, _, rfl⟩ := hg
  refine ⟨⟨hmem.trans ((congrArg State.mem htaken).trans rfl), hheld.trans ((congrArg State.held htaken).trans rfl)⟩,
    hcmds.trans ((congrArg State.cmds htaken).trans rfl),
    hgates.trans ((congrArg (fun s => s.colls.gates) htaken).trans rfl), ?_, fun hop => ?_⟩
  · obtain hd | ⟨-, _, hd⟩ := hd
    · exact ⟨_, hd, rfl, rfl, rfl, rfl, rfl, rfl, rfl⟩
    · exact ⟨_, hd, rfl, rfl, rfl, rfl, rfl, rfl, rfl⟩
  · have hne (x : Nat) (hx : x ≠ opVT) : (s.askedColl id p c).op ≠ x := fun h => hx (h.symm.trans hop)
    exact hzero (hne _ (by decide)) (hne _ (by decide)) (hacc hop)

/-! ### A REPLAY's start (R420) -/

theorem prepares_zeroPads (s : State) (p : Nat) : Prepares s (s.zeroPads p) := ⟨rfl, rfl, rfl, rfl⟩

theorem mem_settleRange_held {s : State} {a n : Nat} {h : Held} :
    h ∈ (s.settleRange a n).held ↔ h ∈ s.held ∧ ¬ (h.committed = true ∧ a ≤ h.base ∧ h.base < a + n) := by
  change h ∈ s.held.filter _ ↔ _
  simp only [List.mem_filter, Bool.not_eq_true', Bool.and_eq_false_iff, decide_eq_false_iff_not, not_and_or, Bool.not_eq_true, or_assoc]

/-- The replay that a REPLAY starts. -/
def State.askedReplay (s : State) (id p : Nat) (c : Cmd) : Replay :=
  { cmd := id, func := c.func, part := p, home := c.rpHome, ranges := c.rpRanges
    expect := (List.range 4).map fun i => s.reg (bar0 c.func (0xA210 + 4 * i)) }

/-- A REPLAY whose data is good prepares its partition and is noted. -/
theorem State.startReplay_facts (s : State) (id p : Nat) (c : Cmd) (m : ImgHeld) (hgood : c.rpCkpt = 0 ∨ s.manDataGood c = true) :
    let u := s.startReplay id p c m
    u.parts = s.parts ∧ u.cmds = s.cmds ∧ kget none u.replays id = some (s.askedReplay id p c) ∧ (∀ h, h ∈ u.held → h ∈ s.held) ∧
      ∀ h, h ∈ s.held → h.committed = false → h ∈ u.held := by
  intro u
  let s1 := { s with replays := kset none s.replays id (some (s.askedReplay id p c)) }
  have hprep (w : State) (hw : Prepares s1 w) (a : Nat) (bs : List Byte) :
      let v := (w.settleRange (a / 256 * 256) 256).writeMarked a bs false
      v.parts = s.parts ∧ v.cmds = s.cmds ∧ kget none v.replays id = some (s.askedReplay id p c) ∧ (∀ h, h ∈ v.held → h ∈ s.held) ∧
        ∀ h, h ∈ s.held → h.committed = false → h ∈ v.held := by
    intro v
    have hwrite := prepares_writeMarked (w.settleRange (a / 256 * 256) 256) a bs false
    obtain ⟨hsettle, -⟩ := memoryOnly_settleRange (a / 256 * 256) 256 (memoryOnly_rfl w)
    have hheld (h : Held) : h ∈ v.held ↔ h ∈ s.held ∧ ¬ (h.committed = true ∧ a / 256 * 256 ≤ h.base ∧ h.base < a / 256 * 256 + 256) := by
      rw [show v.held = _ from hwrite.held, mem_settleRange_held, hw.held]
    refine ⟨hwrite.parts.trans (((congrArg State.parts hsettle).trans rfl).trans hw.parts),
      hwrite.cmds.trans (((congrArg State.cmds hsettle).trans rfl).trans hw.cmds), ?_, fun h hh => ((hheld h).mp hh).1,
      fun h hh hc => (hheld h).mpr ⟨hh, fun hm => absurd (hc.symm.trans hm.1) (by decide)⟩⟩
    have hreplays : v.replays = kset none s.replays id (some (s.askedReplay id p c)) :=
      hwrite.replays.trans (((congrArg State.replays hsettle).trans rfl).trans hw.replays)
    rw [hreplays, kget_kset_same]
  have hbad : (c.rpCkpt != 0 && !s.manDataGood c) = false := by
    obtain h | h := hgood <;> simp [h]
  have hu : u = _ := if_neg (by simp [hbad])
  rw [hu]
  refine hprep _ ?_ _ _
  split
  · exact (prepares_zeroPads s1 p).trans (prepares_startPart _ p m)
  · exact (prepares_startPart s1 p m).trans (prepares_putManifest _ p c m)

end Sys2Proof.Machine
namespace Sys2Proof.Proofs

open Sys2Proof.Machine Sys2Proof.Claims

/-- Settles O39, by the opcode: what the command starts, in the state that the marks of its admission left, before the frames take it up. -/
theorem longCommands : Obligations.LongCommands := by
  unfold Obligations.LongCommands
  intro s f q id p c i hadm hskip hbad hpart hid going
  obtain ⟨hx, rfl, rfl, hcmd, -⟩ := exec_started hadm hskip hbad
  obtain ⟨hf, -, -, -, -, -, -, hadmit⟩ := hadm
  obtain ⟨hnote, -⟩ := State.noteAdmitted_facts hcmd
  have hcmd1 := State.noteAdmitted_cmd hcmd
  have hview := sameView_noteAdmitted hcmd
  have hcfg := fnCfg_of_note hnote hf
  have hpart1 : (s.noteAdmitted id c).funcPart (s.asAdmitted c).func = some p := (funcPart_congr hnote.parts hcfg).trans hpart
  have hfiller : (s.noteAdmitted id c).fnFiller (s.asAdmitted c).func = s.fnFiller c.func := congrArg (bitOf · 1) hcfg
  have hx0 := part_of_parts hnote.parts p
  generalize s.noteAdmitted id c = n at hx hnote hcmd1 hview hcfg hpart1 hfiller hx0
  have hgoing (w : State) (hm : w.cmdMark id = n.cmdMark id) : going w.dressAll := by
    obtain ⟨d, hd, hda⟩ := admitted_of_mark (((dressOnly_dressAll w).2.2.2.1 id).trans hm) hcmd1
    exact ⟨d, hd, hda⟩
  have hstart (w : State) (hw : n.startCmd id (s.asAdmitted c) = w) : exec i s = .next w.dressAll := hw ▸ hx
  refine ⟨fun hop => ?_, fun hop hgood => ?_, fun hop => ?_, fun hop => ?_, fun hop => ?_⟩
  · have hspan : n.startCmd id (s.asAdmitted c) = if n.fnFiller (s.asAdmitted c).func then n else n.spanRuns id p := by
      have hop' : (s.asAdmitted c).opcode = 0x01 := hop
      exact (State.startCmd_span hpart1 (Or.inl hop)).trans ((n.startSpan_eq id p _).trans (if_pos (by simp [hop'])))
    rw [hfiller] at hspan
    cases hown : s.fnFiller c.func with
    | true =>
      have hd := dressOnly_dressAll n
      rw [hown, if_pos rfl] at hspan
      exact ⟨_, hstart n hspan, hgoing n rfl, ⟨hd.mem.trans hnote.mem, hd.held.trans hnote.held⟩,
        (hd.2.1 p).trans (congrArg Part.run hx0), fun hn => absurd hn (by decide)⟩
    | false =>
      have hd := dressOnly_dressAll (n.spanRuns id p)
      rw [hown, if_neg (by decide)] at hspan
      exact ⟨_, hstart _ hspan, hgoing _ rfl, ⟨hd.mem.trans hnote.mem, hd.held.trans hnote.held⟩,
        (hd.2.1 p).trans (n.spanRuns_run id p), fun _ k hk => (congrArg Core.cstat (hd.core k)).trans (n.spanRuns_cstat id p k (hx0 ▸ hk))⟩
  · obtain ⟨⟨m, hm⟩, hown⟩ := State.replay_image hadmit hbad hpart hop
    have hrun : SameView s (n.spanRuns id p) := hview.trans ⟨rfl, rfl, rfl, rfl, fun _ _ => rfl, fun _ _ _ => rfl⟩
    have hserves : (n.spanRuns id p).serves (s.asAdmitted c) = s.serves c := by
      funext m
      unfold State.serves
      rw [hrun.tenantBytes]
      rfl
    have himage : (n.spanRuns id p).spanImage p (s.asAdmitted c) = some m := by
      have hpart' : ((n.spanRuns id p).part p).image = (s.part p).image :=
        (congrArg Part.image (n.part_modPart_same p fun x => { x with run := some id })).trans
          ((congrArg Part.image hx0 : (n.part p).image = _))
      have hf' : (n.spanRuns id p).fnFiller (s.asAdmitted c).func = false := hfiller.trans hown
      unfold State.spanImage at hm ⊢
      rw [if_neg (by simp [hown])] at hm
      rw [if_neg (by simp [hf']), hserves, hpart', hm]
    have hw : n.startCmd id (s.asAdmitted c) = (n.spanRuns id p).startReplay id p (s.asAdmitted c) m := by
      have hop' : (s.asAdmitted c).opcode = 0x31 := hop
      refine (State.startCmd_span hpart1 (Or.inr hop)).trans ((n.startSpan_eq id p _).trans ?_)
      dsimp only
      rw [if_neg (by rw [hop']; decide), hfiller, hown, if_neg (by decide), himage]
    obtain ⟨hparts, hcmds, hreplay, hsub, hkept⟩ := (n.spanRuns id p).startReplay_facts id p (s.asAdmitted c) m
      (hgood.imp_right fun hg => (hrun.manDataGood (s.asAdmitted c)).trans hg)
    generalize (n.spanRuns id p).startReplay id p (s.asAdmitted c) m = w at hw hparts hcmds hreplay hsub hkept
    have hd := dressOnly_dressAll w
    have hheld : (n.spanRuns id p).held = s.held := hnote.held
    refine ⟨_, _, hstart w hw, hgoing w (cmdMark_of_cmds hcmds id), ?_, (congrArg (kget none · id) hd.replays).trans hreplay, rfl, rfl, rfl, rfl,
      fun h hh => hheld ▸ hsub h (hd.held ▸ hh), fun h hh hc => hd.held ▸ hkept h (hheld ▸ hh) hc⟩
    exact (hd.2.1 p).trans ((congrArg Part.run (part_of_parts hparts p)).trans (n.spanRuns_run id p))
  · have hw := (State.startCmd_copy (id := id) hpart1 hop).trans (n.startCopy_eq id p (n.part p).ord (s.asAdmitted c))
    have hprog := progress_firstPos n (n.askedCopy id p (n.part p).ord (s.asAdmitted c))
    generalize n.firstPos (n.askedCopy id p (n.part p).ord (s.asAdmitted c)) = r at hw hprog
    obtain ⟨hfunc, hrpart, hrcmd, hord, hform, hasync, hhome⟩ := hprog
    have hput : DressOnly (n.setCopy id (some r)) (n.putCopy id r) := (n.putCopy_facts id r).elim (fun h => h) fun h => h ▸ dressOnly_rfl _
    have hd := dressOnly_trans hput (dressOnly_dressAll (n.putCopy id r))
    refine ⟨_, r, hstart _ hw, hgoing _ (hput.2.2.2.1 id), ⟨hd.mem.trans hnote.mem, hd.held.trans hnote.held⟩,
      (hd.2.2.2.2 id hid).trans (n.copyRun_setCopy_same id _), ?_⟩
    have hpay : (s.asAdmitted c).pay 0 1 = c.pay 0 1 := rfl
    unfold State.askedCopy at hfunc hrpart hrcmd hord hform hasync hhome
    rw [hpay] at hfunc hrpart hrcmd hord hform hasync hhome
    by_cases h1 : c.pay 0 1 = 1
    · rw [if_pos (by simp [h1])] at hfunc hrpart hrcmd hord hform hasync hhome
      exact ⟨hfunc, hrpart, hrcmd, hord.trans (congrArg Part.ord hx0), fun _ => ⟨hform, hasync, hhome⟩, fun hn => absurd h1 hn⟩
    · rw [if_neg (by simp [h1])] at hfunc hrpart hrcmd hord hform hasync hhome
      exact ⟨hfunc, hrpart, hrcmd, hord.trans (congrArg Part.ord hx0), fun hy => absurd hy h1, fun _ => ⟨_, _, hform⟩⟩
  · have hw := State.startCmd_coll (id := id) hpart1 hop
    obtain ⟨hdata, hcmds, hgates, ⟨k, hk, hkcmd, hkf, hkp, hkop, hktag, hkstep, hkaxes⟩, hacc⟩ := n.startColl_facts id p (s.asAdmitted c)
    generalize n.startColl id p (s.asAdmitted c) = w at hw hdata hcmds hgates hk hacc
    have hd := dressOnly_dressAll w
    refine ⟨_, k, hstart w hw, hgoing w (cmdMark_of_cmds hcmds id), ⟨hd.mem.trans (hdata.1.trans hnote.mem), hd.held.trans (hdata.2.trans hnote.held)⟩,
      (coll_of_run hd.colls id).trans hk, hkcmd, hkf, hkp, hkop, hktag, hkstep, hkaxes,
      (congrArg (·.gates) hd.colls).trans (hgates.trans (congrArg (·.gates) hnote.colls)), fun hv => ?_⟩
    refine (hd.2.2.1 _ ?_).trans (hacc hv)
    simp only [List.mem_cons, List.not_mem_nil, or_false, bar0, obsReg]
    omega
  · have hw := State.startCmd_ckpt (id := id) hpart1 hop
    obtain ⟨k, hk⟩ := State.ckpt_mirror hbad hpart hop
    have hmirror : (n.part p).lastMirror = some k := (congrArg Part.lastMirror hx0).trans hk
    obtain ⟨r, hr, hrf, hrp, hrm, hrfail, hrend⟩ := n.startCkpt_facts id (s.asAdmitted c) hmirror
    have hd := dressOnly_dressAll (n.startCkpt id p (s.asAdmitted c))
    rw [hr] at hd
    refine ⟨_, r, hstart _ (hw.trans hr), hgoing _ rfl, ⟨hd.mem.trans hnote.mem, hd.held.trans hnote.held⟩, ?_, hrf, hrp, hrm, hrfail, hrend⟩
    exact (congrArg (kget none · id) hd.ckpts).trans (kget_kset_same none n.ckpts id (some r))

end Sys2Proof.Proofs
end

section
/-! PROOFS. Finalisation, the load frame, a filler's load, and the stream checks of a replay (R217–R219, R225, R421). -/

namespace Sys2Proof.Machine

open Sys2Proof.Claims

/-! ### A span that ends at its finalisation (R217, R218) -/

/-- The partition without the command that ended, if it ran it. -/
def Part.without (x : Part) (id : Nat) : Part := if x.run == some id then { x with run := none } else x

theorem Part.without_images (x : Part) (id : Nat) : (x.without id).finalised = x.finalised ∧ (x.without id).fillerNext = x.fillerNext := by
  unfold Part.without
  split <;> exact ⟨rfl, rfl⟩

theorem kget_map_values {α : Type} (d : α) (g : α → α) (hd : g d = d) (m : KMap α) (k : Nat) :
    kget d (m.map fun x => (x.1, g x.2)) k = g (kget d m k) := by
  induction m with
  | nil => exact hd.symm
  | cons x m ih =>
    obtain ⟨i, v⟩ := x
    rw [List.map_cons]
    unfold kget
    split
    · rfl
    · exact ih

/-- A completion leaves every partition as it is but for what it ran. -/
theorem State.complete_part (s : State) {id : Nat} {c : Cmd} (status detail p : Nat) (h : s.cmd id = some c) :
    (s.complete id status detail).part p = (s.part p).without id := by
  have hparts : (s.complete id status detail).parts = s.parts.map fun x => (x.1, x.2.without id) := by
    rw [State.complete_eq s status detail h]
    have hpost := (s.completing id status c).post_only c.func c.q 1 (s.doneRec c status detail)
    have htrace := ((s.completing id status c).post c.func c.q 1 (s.doneRec c status detail)).trace_only 1 c.func
      (c.q % 64 + 2 ^ 6 * c.opcode + 2 ^ 14 * status + 2 ^ 22) c.hseq
    exact congrArg (List.map _) (((congrArg State.parts htrace).trans rfl).trans (((congrArg State.parts hpost).trans rfl).trans
      (State.completing_same s id status c).2.2.2))
  rw [State.part, hparts, State.part]
  exact kget_map_values {} (fun x : Part => x.without id) rfl s.parts p

theorem State.deny_facts (s : State) {id : Nat} {c : Cmd} (reason p : Nat) (h : s.cmd id = some c) :
    let u := s.deny id reason
    u.cmd id = none ∧ u.held = s.held ∧ (u.part p).finalised = (s.part p).finalised ∧ (u.part p).fillerNext = (s.part p).fillerNext := by
  intro u
  have hpart : u.part p = (s.part p).without id := s.complete_part 0x11 (reason % 256) p h
  rw [hpart]
  exact ⟨(s.complete_cmd id 0x11 (reason % 256) id).trans (if_pos rfl), (s.complete_only id 0x11 (reason % 256)).held, (s.part p).without_images id⟩

/-! ### What a span that is finalised meets, in order (R217, R218) -/

section
variable {s : State} {p id : Nat} {c : Cmd} (hspan : s.spanBad c = none) (hpage : s.evictedRange c.func c.image c.imageSize = false)
  (hsize : Img.nat (s.tenantBytes c.func c.image c.imageSize) 8 4 = c.imageSize)
include hspan hpage hsize

theorem State.finalise_refused {w : Nat}
    (hw : s.checkImage c.func (s.part p) (s.sampleImage c.func (s.part p) c.image (s.tenantBytes c.func c.image c.imageSize)) = some w) :
    s.finalise p id c = s.deny id w := by
  unfold State.finalise
  simp only [hspan, hpage, hsize, hw, Bool.false_eq_true, if_false, bne_self_eq_false]

variable (hgood : s.checkImage c.func (s.part p) (s.sampleImage c.func (s.part p) c.image (s.tenantBytes c.func c.image c.imageSize)) = none)
  (hlen : c.first + c.frames ≤ Img.seqLen (s.tenantBytes c.func c.image c.imageSize))
include hgood hlen

/-- An owner's image that passes its checks waits for its load frame. -/
theorem State.finalise_owner (hf : Img.filler (s.tenantBytes c.func c.image c.imageSize) = false) :
    s.finalise p id c = (s.modPart p fun x => { x with
      finalised := some (s.sampleImage c.func (s.part p) c.image (s.tenantBytes c.func c.image c.imageSize)) }).tally 11 0 6 1 := by
  unfold State.finalise
  simp only [hspan, hpage, hsize, hgood, hf, Nat.not_lt.mpr hlen, Bool.false_eq_true, if_false, bne_self_eq_false, decide_false]

/-- A filler's image that passes its checks waits among the partition's fillers to load. -/
theorem State.finalise_filler {h : ImgHeld} (hf : Img.filler (s.tenantBytes c.func c.image c.imageSize) = true)
    (hi : (s.part p).image = some h) :
    s.finalise p id c = (s.modPart p fun x => { x with fillerNext := (x.fillerNext.filter fun o => o.func != c.func) ++
      [{ s.sampleImage c.func (s.part p) c.image (s.tenantBytes c.func c.image c.imageSize) with
        cfgMap := fillerMap h.bytes (s.tenantBytes c.func c.image c.imageSize) ((s.part p).fillers.filter fun o => o.func != c.func) }] }).tally
          11 0 6 1 := by
  unfold State.finalise
  simp only [hspan, hpage, hsize, hgood, hf, hi, Nat.not_lt.mpr hlen, Bool.false_eq_true, if_false, if_true, bne_self_eq_false, decide_false]

end

/-- A partition changed, and the event counted: the rest stands. -/
theorem State.noted_facts (s : State) (p : Nat) (f : Part → Part) :
    let u := (s.modPart p f).tally 11 0 6 1
    u.part p = f (s.part p) ∧ SameData s u ∧ u.cmds = s.cmds ∧ u.regs = s.regs ∧ ∀ j, j ≠ p → u.part j = s.part j :=
  ⟨s.part_modPart_same p f, ⟨rfl, rfl⟩, rfl, rfl, fun _ hj => s.part_modPart_other f hj.symm⟩

section
variable {s : State} {p : Nat} (hp : p < 8) (hh : s.halted = false) (hs : s.partStill p = false)
include hp hh hs

theorem exec_finalisation {id : Nat} {c : Cmd} {rest : List (Nat × Cmd)} (ha : s.alm.armed = none) (hu : s.unfinalised p = (id, c) :: rest)
    (hw : s.fnFiller c.func = true ∨ s.finalWanted p = false) : exec (.finalisation p) s = .next (s.finalise p id c) := by
  have hwait : (!s.fnFiller c.func && s.finalWanted p) = false := by obtain h | h := hw <;> simp [h]
  change execFinalisation p s = _
  unfold execFinalisation
  rw [if_neg (by omega), if_neg (by simp [hh, hs, ha]), hu]
  exact if_neg (by simp [hwait])

theorem exec_finalisation_none (ha : s.alm.armed = none) (hu : s.unfinalised p = []) : exec (.finalisation p) s = .next s := by
  change execFinalisation p s = _
  unfold execFinalisation
  rw [if_neg (by omega), if_neg (by simp [hh, hs, ha]), hu]

theorem exec_loadFrame {fr : Frame} {m : ImgHeld} (hf : (s.part p).frame = some fr) (hl : fr.load = true) (hm : (s.part p).finalised = some m) :
    exec (.loadFrame p) s = .next (s.writeLoad p m) := by
  change execLoadFrame p s = _
  unfold execLoadFrame
  rw [if_neg (by omega), if_neg (by simp [hh, hs]), hf, hm]
  exact if_pos hl

theorem exec_fillerLoad {m : ImgHeld} (hm : (s.part p).fillerNext.find? (fun o => !o.coded) = some m) :
    exec (.fillerLoad p) s = .next (((s.writeCode m m.fillerIndex).writeDescs m (s.part p).dies).modPart p fun x => { x with
      fillerNext := x.fillerNext.map fun o => if o.func == m.func then { o with coded := true } else o }) := by
  change execFillerLoad p s = _
  unfold execFillerLoad
  rw [if_neg (by omega), if_neg (by simp [hh, hs]), hm]

end

/-! ### What a load writes (R203, R219, R225) -/

/-- A load changes memory, marks and caches alone, and of memory only bytes within the code space of its cores and its descriptors. -/
structure LoadsOnly (inside : Nat → Prop) (s u : State) : Prop where
  only : WritesOnly s u
  bytes : ∀ k, ¬ inside k → Mem.read u.mem k = Mem.read s.mem k

theorem loadsOnly_rfl (inside : Nat → Prop) (s : State) : LoadsOnly inside s s := ⟨rfl, fun _ _ => rfl⟩

theorem LoadsOnly.trans {inside : Nat → Prop} {s u w : State} (h : LoadsOnly inside s u) (h' : LoadsOnly inside u w) : LoadsOnly inside s w :=
  ⟨h.only.trans h'.only, fun k hk => (h'.bytes k hk).trans (h.bytes k hk)⟩

theorem loadsOnly_foldl {inside : Nat → Prop} {α : Type} (f : State → α → State) (l : List α) (s : State)
    (hf : ∀ u x, x ∈ l → WritesOnly s u → LoadsOnly inside u (f u x)) : LoadsOnly inside s (l.foldl f s) :=
  List.foldlRecOn (motive := fun u => LoadsOnly inside s u) _ _ (loadsOnly_rfl inside s) fun u hu x hx => hu.trans (hf u x hx hu.only)

theorem loadsOnly_writeMarked {inside : Nat → Prop} (s : State) (a : Nat) (bs : List Byte) (mark : Bool)
    (h : ∀ k, a ≤ k → k < a + bs.length → inside k) : LoadsOnly inside s (s.writeMarked a bs mark) where
  only := writesOnly_writeMarked s a bs mark
  bytes := fun k hk => (s.read_writeMarked a bs mark k).trans (Mem.read_writeBytes_outside bs s.mem a k (by
    by_contra hn
    exact hk (h k (by omega) (by omega))))

/-- The place of a configuration's code in its core's window. -/
def ImgHeld.codeAt (m : ImgHeld) (vi i : Nat) : Nat := padWindow (Img.logical m.bytes m.orgRow m.orgCol vi) + 0x30000 + 0x400 * i

theorem leBytes_flatMap_length (l : List Nat) (f : Nat → Nat) : (l.flatMap fun p => leBytes 4 (f p)).length = 4 * l.length := by
  induction l with
  | nil => rfl
  | cons x l ih =>
    rw [List.flatMap_cons, List.length_append, ih, List.length_cons, show (leBytes 4 (f x)).length = 4 by simp]
    omega

/-- A configuration of at most 256 words fills its place. -/
theorem loadsOnly_writeConfig {inside : Nat → Prop} (s : State) (m : ImgHeld) (vi k i : Nat)
    (hlen : Img.codeLen m.bytes (Img.configIndex m.bytes vi k) ≤ 256) (h : ∀ b, m.codeAt vi i ≤ b → b < m.codeAt vi i + 0x400 → inside b) :
    LoadsOnly inside s (s.writeConfig m vi k i) where
  only := rfl
  bytes := fun b hb => by
    refine Mem.read_writeBytes_outside _ s.mem _ b ?_
    rw [List.length_append, leBytes_flatMap_length, List.length_range, List.length_replicate]
    by_contra hn
    unfold ImgHeld.codeAt at h
    exact hb (h b (by omega) (by omega))

/-- The bytes that a load of image m may write. -/
def State.loadInside (s : State) (m : ImgHeld) (dies : List Nat) (k : Nat) : Prop :=
  (∃ vi i, vi < Img.cores m.bytes ∧ i < 8 ∧ m.codeAt vi i ≤ k ∧ k < m.codeAt vi i + 0x400) ∨
    ∃ d, d ∈ dies ∧ s.descBase m.func d m.bytes ≤ k ∧ k < s.descBase m.func d m.bytes + Img.descBytes m.bytes

theorem State.descBase_congr {s u : State} (h : WritesOnly s u) (f d : Nat) (b : Img) : u.descBase f d b = s.descBase f d b := by
  unfold WritesOnly at h
  rw [h]
  rfl

theorem loadsOnly_writeDescs {s w : State} (m : ImgHeld) (dies : List Nat) (h : WritesOnly s w) :
    LoadsOnly (s.loadInside m dies) w (w.writeDescs m dies) := by
  refine loadsOnly_foldl _ dies w fun u d hd hu => ?_
  rw [State.descBase_congr (h.trans hu)]
  refine loadsOnly_writeMarked u _ _ false fun k lo hi => Or.inr ⟨d, hd, lo, ?_⟩
  have hlen : (Img.slice m.bytes (Img.sec m.bytes 7).off (Img.descBytes m.bytes)).length ≤ Img.descBytes m.bytes := List.length_take_le _ _
  omega

theorem loadsOnly_writeCode {s : State} (m : ImgHeld) (dies : List Nat) (index : Nat → Nat → Nat)
    (hshort : ∀ vi k, vi < Img.cores m.bytes → k < 8 → Img.holds m.bytes vi k = true → Img.codeLen m.bytes (Img.configIndex m.bytes vi k) ≤ 256)
    (hindex : ∀ vi k, vi < Img.cores m.bytes → k < 8 → index vi k < 8) : LoadsOnly (s.loadInside m dies) s (s.writeCode m index) := by
  refine loadsOnly_foldl _ _ s fun u vi hvi _ => loadsOnly_foldl _ _ u fun w k hk _ => ?_
  have hv := List.mem_range.mp hvi
  obtain ⟨hk8, hholds⟩ := List.mem_filter.mp hk
  have hk8 := List.mem_range.mp hk8
  exact loadsOnly_writeConfig w m vi k _ (hshort vi k hv hk8 hholds) fun b lo hi => Or.inl ⟨vi, _, hv, hindex vi k hv hk8, lo, hi⟩

/-- Whatever its image holds, a load changes memory, marks and caches alone. -/
theorem writesOnly_load (s : State) (m : ImgHeld) (index : Nat → Nat → Nat) (dies : List Nat) :
    WritesOnly s ((s.writeCode m index).writeDescs m dies) := by
  have hcode : WritesOnly s (s.writeCode m index) := by
    refine List.foldlRecOn (motive := fun u => WritesOnly s u) _ _ (writesOnly_rfl s) fun u hu vi _ => ?_
    exact List.foldlRecOn (motive := fun w => WritesOnly s w) _ _ hu fun w hw k _ => hw.trans rfl
  exact List.foldlRecOn (motive := fun u => WritesOnly s u) _ _ hcode fun u hu d _ => hu.trans (writesOnly_writeMarked u _ _ _)

theorem loadsOnly_load {s : State} (m : ImgHeld) (dies : List Nat) (index : Nat → Nat → Nat)
    (hshort : ∀ vi k, vi < Img.cores m.bytes → k < 8 → Img.holds m.bytes vi k = true → Img.codeLen m.bytes (Img.configIndex m.bytes vi k) ≤ 256)
    (hindex : ∀ vi k, vi < Img.cores m.bytes → k < 8 → index vi k < 8) :
    LoadsOnly (s.loadInside m dies) s ((s.writeCode m index).writeDescs m dies) := by
  have hcode := loadsOnly_writeCode (s := s) m dies index hshort hindex
  exact hcode.trans (loadsOnly_writeDescs m dies hcode.only)

/-! ### Stream checks (R421) -/

section
variable {s : State} {id : Nat} {r : Replay} {a n : Nat} (hr : kget none s.replays id = some r) (hruns : s.asyncRuns r.part = true)
  (hcheck : r.checking = true) (hrange : r.range = some (a, n)) (hretry : r.retryAt = none)
include hr hruns hcheck hrange hretry

/-- A line that fails for the first time is noted. -/
theorem exec_streamCheck_failed :
    exec (.streamCheck id false) s = .next { s with replays := kset none s.replays id (some { r with retryAt := some s.tick }) } := by
  change execStreamCheck id false s = _
  unfold execStreamCheck
  rw [hr]
  simp only [hruns, if_true]
  unfold State.streamLine
  simp only [hrange, hcheck, hretry]
  rfl

/-- A line that arrives enters the running check. -/
theorem exec_streamCheck_read : ∃ u bad, exec (.streamCheck id true) s = .next u ∧ SameData s u ∧ u.cmds = s.cmds ∧
    kget none u.replays id = some (r.line a n (s.part r.part).ord (s.tenantBytes r.func (a + r.off) 256) bad) := by
  have hexec : ∃ bad, exec (.streamCheck id true) s = .next
      (let s1 := { s with replays := kset none s.replays id (some (r.line a n (s.part r.part).ord (s.tenantBytes r.func (a + r.off) 256) bad)) }
      if bad = true then ((s1.count (tierReg 0x20) 1).count (strmReg r.home 4) 1).trace 4 r.func (3 + 2 ^ 8 * 2 + 2 ^ 16) (a + r.off) else s1) := by
    change ∃ bad, execStreamCheck id true s = _
    unfold execStreamCheck
    rw [hr]
    simp only [hruns, if_true]
    unfold State.streamLine
    simp only [hrange, hcheck, hretry]
    exact ⟨_, rfl⟩
  obtain ⟨bad, hx⟩ := hexec
  have hline (bad : Bool) := kget_kset_same none s.replays id (some (r.line a n (s.part r.part).ord (s.tenantBytes r.func (a + r.off) 256) bad))
  refine ⟨_, bad, hx, ?_⟩
  cases bad with
  | false => exact ⟨⟨rfl, rfl⟩, rfl, hline false⟩
  | true =>
    dsimp only
    rw [if_pos rfl, State.trace_only]
    exact ⟨⟨rfl, rfl⟩, rfl, hline true⟩

end

/-- What a line makes of a replay: its range goes on, or is over and leaves its value. -/
theorem Replay.line_facts (r : Replay) (a n ord : Nat) (b : List Byte) (bad : Bool) :
    let crc := crcFeed (crcSel 0) (if r.off = 0 then 0xFFFFFFFF else r.crc) b
    let y := r.line a n ord b bad
    y.endOrd = some ord ∧ (r.off + 256 < n → y.off = r.off + 256 ∧ y.crc = crc ∧ y.crcs = r.crcs) ∧
      (n ≤ r.off + 256 → y.off = 0 ∧ y.crcs = r.crcs ++ [crc ^^^ 0xFFFFFFFF]) := by
  intro crc y
  have hcrc : crcFeed (crcSel 0) (if r.off == 0 then 0xFFFFFFFF else r.crc) b = crc := by simp only [beq_iff_eq]; rfl
  have hy : y = r.line a n ord b bad := rfl
  unfold Replay.line at hy
  dsimp only at hy
  rw [hcrc] at hy
  split at hy
  next hlt =>
    rw [hy]
    exact ⟨rfl, fun _ => ⟨rfl, rfl, rfl⟩, fun hle => absurd hlt (Nat.not_lt.mpr hle)⟩
  next hge =>
    rw [hy]
    exact ⟨rfl, fun hlt => absurd hlt hge, fun _ => ⟨rfl, rfl⟩⟩

end Sys2Proof.Machine

namespace Sys2Proof.Proofs

open Sys2Proof.Machine Sys2Proof.Claims

/-- Settles O40, by the command: finalisation by its checks, a load by the places it writes, a stream check by its line. -/
theorem imagesAndChecks : Obligations.ImagesAndChecks := by
  unfold Obligations.ImagesAndChecks
  intro s p id c rest r a n fr m hp hh hs x b held outside short
  have houtside (k : Nat) (hk : outside k) : ¬ s.loadInside m x.dies k := by
    obtain ⟨hcode, hdesc⟩ := hk
    rintro (⟨vi, i, hvi, hi, lo, hi'⟩ | ⟨d, hd, lo, hi'⟩)
    · have hat := hcode vi i hvi hi
      unfold ImgHeld.codeAt at lo hi'
      omega
    · have hat := hdesc d hd
      omega
  refine ⟨fun ha => ⟨fun hu => exec_finalisation_none hp hh hs ha hu, fun hu hc hw hspan hpage hsize => ⟨fun w hw' => ?_, fun hgood hlen =>
    ⟨fun hf => ?_, fun hf h hi => ?_⟩⟩⟩, fun hf hl hm => ?_, fun hm => ?_, fun hr hruns hcheck hrange hretry => ⟨?_, ?_⟩⟩
  · exact ⟨_, (exec_finalisation hp hh hs ha hu hw).trans (congrArg _ (State.finalise_refused hspan hpage hsize hw')), s.deny_facts w p hc⟩
  · have hx := (exec_finalisation hp hh hs ha hu hw).trans (congrArg _ (State.finalise_owner hspan hpage hsize hgood hlen hf))
    exact ⟨_, hx, s.noted_facts p _⟩
  · have hx := (exec_finalisation hp hh hs ha hu hw).trans (congrArg _ (State.finalise_filler hspan hpage hsize hgood hlen hf hi))
    obtain ⟨hpart, hdata, hcmds, hregs, -⟩ := s.noted_facts p fun x => { x with fillerNext := (x.fillerNext.filter fun o => o.func != c.func) ++
      [{ held with cfgMap := fillerMap h.bytes b (x.fillers.filter fun o => o.func != c.func) }] }
    exact ⟨_, _, hx, hdata, hcmds, hregs, rfl, rfl, rfl, hpart⟩
  · have honly := writesOnly_load s m (fun _ k => k) x.dies
    have hpart : ((s.writeCode m fun _ k => k).writeDescs m x.dies).part p = x := part_of_parts ((congrArg State.parts honly).trans rfl) p
    refine ⟨_, exec_loadFrame hp hh hs hf hl hm, (State.part_modPart_same _ p _).trans (congrArg (fun y : Part => { y with loading := true }) hpart),
      (congrArg State.held honly).trans rfl, (congrArg State.regs honly).trans rfl, (congrArg State.cmds honly).trans rfl,
      (congrArg State.cores honly).trans rfl, fun hshort k hk => ?_⟩
    exact (loadsOnly_load m x.dies (fun _ k => k) hshort fun _ _ _ hk => hk).bytes k (houtside k hk)
  · have honly := writesOnly_load s m m.fillerIndex x.dies
    have hpart : ((s.writeCode m m.fillerIndex).writeDescs m x.dies).part p = x := part_of_parts ((congrArg State.parts honly).trans rfl) p
    refine ⟨_, exec_fillerLoad hp hh hs hm, (congrArg State.held honly).trans rfl, (congrArg State.regs honly).trans rfl,
      (congrArg State.cmds honly).trans rfl, (congrArg State.cores honly).trans rfl, ?_, fun hshort hindex k hk => ?_⟩
    · exact (State.part_modPart_same _ p _).trans (congrArg (fun y : Part => { y with
        fillerNext := y.fillerNext.map fun o : ImgHeld => if o.func == m.func then { o with coded := true } else o }) hpart)
    · exact (loadsOnly_load m x.dies m.fillerIndex hshort hindex).bytes k (houtside k hk)
  · exact ⟨_, exec_streamCheck_failed hr hruns hcheck hrange hretry, kget_kset_same none s.replays id (some { r with retryAt := some s.tick }), rfl⟩
  · obtain ⟨u, bad, hx, hdata, hcmds, hline⟩ := exec_streamCheck_read hr hruns hcheck hrange hretry
    exact ⟨u, _, hx, hdata, hcmds, hline, r.line_facts a n (s.part r.part).ord _ bad⟩

end Sys2Proof.Proofs
end

section
/-! PROOFS. The lines of copies and the Writes of checkpoints (O41; R281, R286, R431, R452, R277, R456). -/

namespace Sys2Proof.Machine
open Sys2Proof.Claims

/-! ### What the delivery of a line leaves -/

/-- Memory and held writes are as before. -/
def DataStand (s u : State) : Prop := u.mem = s.mem ∧ u.held = s.held

theorem dataStand_rfl (s : State) : DataStand s s := ⟨rfl, rfl⟩

theorem DataStand.trans {s u w : State} (h : DataStand s u) (h' : DataStand u w) : DataStand s w := ⟨h'.1.trans h.1, h'.2.trans h.2⟩

/-- Memory, held writes and the use of stripe parity are as before: a hold buffer has the room that it had. -/
def RoomStands (s u : State) : Prop := DataStand s u ∧ u.reg (tierReg 0) = s.reg (tierReg 0)

theorem RoomStands.trans {s u w : State} (h : RoomStands s u) (h' : RoomStands u w) : RoomStands s w := ⟨h.1.trans h'.1, h'.2.trans h.2⟩

theorem roomStands_count (s : State) {a : Nat} (n : Nat) (h : a ≠ tierReg 0) : RoomStands s (s.count a n) :=
  ⟨⟨rfl, rfl⟩, State.reg_setReg_other s _ h⟩

theorem strmReg_ne_tierReg (d off : Nat) : strmReg d off ≠ tierReg 0 := by
  unfold strmReg tierReg
  omega

theorem roomStands_touch (s : State) (d k : Nat) (marked : Bool) : RoomStands s (s.touch d k marked) := by
  unfold State.touch
  split
  · exact ⟨⟨rfl, rfl⟩, rfl⟩
  · dsimp only
    split <;> exact ⟨⟨rfl, rfl⟩, rfl⟩

theorem roomStands_cacheLines (s : State) (r : CopyRun) (p : CopyPos) (fail : Bool) : RoomStands s (s.cacheLines r p fail) := by
  unfold State.cacheLines
  split
  · exact List.foldlRecOn (motive := fun u => RoomStands s u) _ _ ⟨⟨rfl, rfl⟩, rfl⟩ fun u hu k _ => hu.trans (roomStands_touch u _ _ _)
  · exact ⟨⟨rfl, rfl⟩, rfl⟩

theorem roomStands_tally (s : State) (kind inst event n : Nat) : RoomStands s (s.tally kind inst event n) := ⟨⟨rfl, rfl⟩, rfl⟩

theorem roomStands_countUmber (s : State) (r : CopyRun) : RoomStands s (s.countUmber r) :=
  have hclosed : tierReg 0x20 ≠ tierReg 0 := by decide
  ((roomStands_count s 1 hclosed).trans (roomStands_count _ 1 (strmReg_ne_tierReg _ _))).trans (roomStands_tally _ _ _ _ _)

theorem dataStand_countCorrected (s : State) (r : CopyRun) (p : CopyPos) : DataStand s (s.countCorrected r p) := by
  unfold State.countCorrected
  split <;> exact ⟨rfl, rfl⟩

theorem dataStand_retireStack (s : State) (n : Nat) : DataStand s (s.retireStack n) := by
  unfold State.retireStack
  obtain ⟨honly, -⟩ := ((s.setBit (tierReg 0) 2).setField (tierReg 0) 3 4 n).queueRecord_only (n / 2)
    (remapRecord s.tick 4 false (n % 2) 0 n false 0)
  rw [honly]
  exact ⟨rfl, rfl⟩

theorem dataStand_stackError (s : State) (n : Nat) : DataStand s (s.stackError n) := by
  unfold State.stackError
  dsimp only
  split
  · exact DataStand.trans ⟨rfl, rfl⟩ (dataStand_retireStack _ n)
  · exact ⟨rfl, rfl⟩

theorem dataStand_countFailed (s : State) (r : CopyRun) (p : CopyPos) : DataStand s (s.countFailed r p) := by
  unfold State.countFailed
  refine List.foldlRecOn (motive := fun u => DataStand s u) _ _ (dataStand_rfl s) fun u hu k _ => hu.trans ?_
  exact iteInduction (motive := fun w => DataStand u w) (fun _ => dataStand_stackError u _) fun _ => dataStand_rfl u

/-! ### Room in a hold buffer -/

theorem State.sliceOf_congr {s u : State} (h : u.reg (tierReg 0) = s.reg (tierReg 0)) (home k : Nat) : u.sliceOf home k = s.sliceOf home k := by
  unfold State.sliceOf
  rw [State.bit_congr h]

theorem State.canHold_congr {s u : State} (h : RoomStands s u) (home part ord base : Nat) (async : Bool) :
    u.canHold home part ord base async = s.canHold home part ord base async := by
  obtain ⟨⟨-, hheld⟩, hreg⟩ := h
  simp only [State.canHold, State.hasEntry, State.sliceCount, State.sliceInFrame, State.sliceOf_congr hreg, hheld]
  rfl

theorem State.hold_congr {s u : State} (h : DataStand s u) (part ord home : Nat) (async mark : Bool) (base : Nat) (cells : List (Nat × Byte)) :
    (u.hold part ord home async mark base cells).held = (s.hold part ord home async mark base cells).held :=
  congrArg (holdInto _ cells (markUnit base)) h.2

theorem State.holdLine_room {s u : State} (h : RoomStands s u) {r : CopyRun} {ord k : Nat} {b : Byte} {more : List (Nat × Byte)} {mark : Bool}
    (hroom : s.canHold r.home r.part ord (markBase k) r.async = true) :
    u.holdLine r ord ((k, b) :: more) mark = some (u.hold r.part ord r.home r.async mark (markBase k) ((k, b) :: more)) :=
  if_pos ((State.canHold_congr h _ _ _ _ _).trans hroom)

theorem State.holdLine_full {s u : State} (h : RoomStands s u) {r : CopyRun} {ord k : Nat} {b : Byte} {more : List (Nat × Byte)} {mark : Bool}
    (hroom : s.canHold r.home r.part ord (markBase k) r.async = false) : u.holdLine r ord ((k, b) :: more) mark = none :=
  if_neg (by rw [State.canHold_congr h, hroom]; exact Bool.false_ne_true)

/-! ### A copy kept -/

theorem State.noteFailed_tiers (s : State) (r : CopyRun) : (s.noteFailed r).tiers = s.tiers := by
  have hfold : ∀ l : List (Nat × Nat × Nat),
      (l.foldl (fun s x => s.trace 4 r.func (3 + 2 ^ 8 * x.2.1 + 2 ^ 16 * min x.2.2 65535) x.1) s).tiers = s.tiers := fun l =>
    List.foldlRecOn (motive := fun u : State => u.tiers = s.tiers) _ _ rfl fun u hu x _ =>
      ((congrArg State.tiers (u.trace_only 4 r.func (3 + 2 ^ 8 * x.2.1 + 2 ^ 16 * min x.2.2 65535) x.1)).trans rfl).trans hu
  unfold State.noteFailed
  dsimp only
  split
  · exact hfold _
  · exact (congrArg State.tiers (State.modCmd_only _ _ _)).trans (hfold _)

theorem State.putCopy_run (s : State) (id : Nat) (r : CopyRun) : (s.putCopy id r).copyRun id = some r := by
  refine Eq.trans ?_ (s.copyRun_setCopy_same id (some r))
  unfold State.putCopy
  exact iteInduction (motive := fun u => State.copyRun u id = State.copyRun (s.setCopy id (some r)) id)
    (fun _ => congrArg (fun t : Tiers => kget none t.copies id) (State.noteFailed_tiers _ r)) fun _ => rfl

theorem dataStand_putCopy (s : State) (id : Nat) (r : CopyRun) : DataStand s (s.putCopy id r) :=
  DataStand.trans (u := s.setCopy id (some r)) ⟨rfl, rfl⟩ ((s.putCopy_facts id r).elim (fun h => ⟨h.mem, h.held⟩) fun h => h ▸ dataStand_rfl _)

/-! ### Delivery -/

/-- A copy with the line at a position taken in. -/
def State.lineTaken (s : State) (r : CopyRun) (l : Line) : CopyRun :=
  { r with lastOrd := (s.part r.part).ord, waits := false, bad := r.bad ++ l.bad }

/-- The state in which a line is delivered: caches and counters may differ. -/
def State.lineRead (s : State) (r : CopyRun) (p : CopyPos) (fail : Bool) : State :=
  if (s.lineAt r p fail).zeroed then (s.cacheLines r p fail).countUmber r else s.cacheLines r p fail

theorem roomStands_lineRead (s : State) (r : CopyRun) (p : CopyPos) (fail : Bool) : RoomStands s (s.lineRead r p fail) :=
  iteInduction (motive := fun u => RoomStands s u) (fun _ => (roomStands_cacheLines s r p fail).trans (roomStands_countUmber _ r))
    fun _ => roomStands_cacheLines s r p fail

section
variable {s : State} {r : CopyRun} {p : CopyPos} {fail : Bool}

theorem State.deliver_async (ha : r.async = true) : s.deliver r p fail = some (s.lineRead r p fail, { s.lineTaken r (s.lineAt r p fail) with
    arrived := r.arrived ++ [⟨(s.part r.part).ord, (s.lineAt r p fail).cells, (s.lineAt r p fail).mark, false⟩] }) := if_pos ha

theorem State.deliver_sync (ha : r.async = false) : s.deliver r p fail =
    ((s.lineRead r p fail).holdLine r (s.part r.part).ord (s.lineAt r p fail).cells (s.lineAt r p fail).mark).map
      fun u => (u, s.lineTaken r (s.lineAt r p fail)) := if_neg (by simp [ha])

theorem State.deliver_empty (ha : r.async = false) (hc : (s.lineAt r p fail).cells = []) :
    s.deliver r p fail = some (s.lineRead r p fail, s.lineTaken r (s.lineAt r p fail)) := by
  rw [State.deliver_sync ha, hc]
  rfl

section
variable (ha : r.async = false) {k : Nat} {b : Byte} {more : List (Nat × Byte)} (hc : (s.lineAt r p fail).cells = (k, b) :: more)
include ha hc

theorem State.deliver_room (hroom : s.canHold r.home r.part (s.part r.part).ord (markBase k) false = true) :
    ∃ u, s.deliver r p fail = some (u, s.lineTaken r (s.lineAt r p fail)) ∧ u.mem = s.mem ∧
      u.held = (s.hold r.part (s.part r.part).ord r.home r.async (s.lineAt r p fail).mark (markBase k) (s.lineAt r p fail).cells).held := by
  have hq := roomStands_lineRead s r p fail
  rw [State.deliver_sync ha, hc, State.holdLine_room hq (ha ▸ hroom)]
  exact ⟨_, rfl, hq.1.1, State.hold_congr hq.1 _ _ _ _ _ _ _⟩

theorem State.deliver_full (hroom : s.canHold r.home r.part (s.part r.part).ord (markBase k) false = false) : s.deliver r p fail = none := by
  rw [State.deliver_sync ha, hc, State.holdLine_full (roomStands_lineRead s r p fail) (ha ▸ hroom)]
  rfl

end
end

/-! ### One command of a copy -/

section
variable {s : State} {id : Nat} {r : CopyRun} (h : s.copyRun id = some r) (hm : s.copyMoves r = true)
include h hm

theorem onCopy_moves (f : CopyRun → State → State) : onCopy id f s = .next (f r s) := by
  unfold onCopy
  rw [h]
  exact if_pos hm

theorem exec_tierLineArrival (ok corr : Bool) : exec (.tierLineArrival id ok corr) s = .next (copyLine id ok corr r s) := onCopy_moves h hm _

theorem exec_lineRetry (line : LineRead) : exec (.lineRetry id line) s = .next (copyRetry id line r s) := onCopy_moves h hm _

section
variable (hk : kget none s.ckpts id = none)
include hk

theorem exec_asyncCopyLine_copy : exec (.asyncCopyLine id) s = .next (copyWrite id r s) := by
  change execAsyncCopyLine id s = _
  unfold execAsyncCopyLine
  rw [hk]
  exact onCopy_moves h hm _

theorem exec_nvmeCompletion_copy (ok : Bool) :
    exec (.nvmeCompletion id ok) s = .next (s.readDone id (if ok then readLine false else readAgain) r) := by
  change execNvmeCompletion id ok s = _
  unfold execNvmeCompletion
  rw [hk]
  exact onCopy_moves h hm _

theorem exec_nvmeTimeout_copy : exec (.nvmeTimeout id) s = .next (s.readDone id (readLine true) r) := by
  change execNvmeTimeout id s = _
  unfold execNvmeTimeout
  rw [hk]
  exact onCopy_moves h hm _

end
end

/-! ### The next line of a copy (R281, R452) -/

section
variable {s : State} {r : CopyRun} (id : Nat) (corr : Bool) (hfin : r.fin = false) (hflash : r.flash = false)
include hfin hflash

theorem copyLine_failed : copyLine id false corr r s = (s.countFailed r r.pos).putCopy id
    { s.nextPos r with retry := r.retry ++ [(r.pos, s.tick)], lastOrd := (s.part r.part).ord } := by
  unfold copyLine
  rw [hfin, hflash]
  rfl

theorem copyLine_waits (hd : s.deliver r r.pos false = none) : copyLine id true corr r s = s.setCopy id (some { r with waits := true }) := by
  unfold copyLine
  rw [hfin, hflash, hd]
  rfl

theorem copyLine_delivers {u : State} {y : CopyRun} (hd : s.deliver r r.pos false = some (u, y)) :
    ∃ w, copyLine id true corr r s = w ∧ DataStand u w ∧ w.copyRun id = some (s.nextPos y) := by
  refine ⟨(if corr then u.countCorrected r r.pos else u).putCopy id (s.nextPos y), ?_, ?_, State.putCopy_run _ _ _⟩
  · unfold copyLine
    rw [hfin, hflash, hd]
    rfl
  · refine DataStand.trans ?_ (dataStand_putCopy _ _ _)
    exact iteInduction (motive := fun w => DataStand u w) (fun _ => dataStand_countCorrected u r r.pos) fun _ => dataStand_rfl u

end

/-! ### The retry of a failed line (R452) -/

section
variable {s : State} {r : CopyRun} (id : Nat) (line : LineRead) {q : CopyPos} {t : Nat} {rest : List (CopyPos × Nat)}
  (h : r.retry = (q, t) :: rest)
include h

theorem copyRetry_early (ht : s.tick ≤ t) : copyRetry id line r s = s := by
  unfold copyRetry
  rw [h]
  exact if_pos ht

section
variable (ht : t < s.tick)
include ht

theorem copyRetry_waits (hd : s.deliver { r with retry := rest } q (line == .failed) = none) : copyRetry id line r s = s := by
  unfold copyRetry
  rw [h]
  refine (if_neg (by omega)).trans ?_
  rw [hd]

theorem copyRetry_delivers {u : State} {y : CopyRun} (hd : s.deliver { r with retry := rest } q (line == .failed) = some (u, y)) :
    ∃ w, copyRetry id line r s = w ∧ DataStand u w ∧ w.copyRun id = some y := by
  refine ⟨((match line with
      | .failed => u.countFailed r q
      | .good => u
      | .corrected => u.countCorrected r q).count (strmReg r.home (0x40 * r.streamer + 8)) 1).putCopy id y, ?_, ?_, State.putCopy_run _ _ _⟩
  · unfold copyRetry
    rw [h]
    refine (if_neg (by omega)).trans ?_
    rw [hd] <;> rfl
  · refine DataStand.trans (u := State.count _ _ _) ?_ (dataStand_putCopy _ _ _)
    cases line with
    | failed => exact dataStand_countFailed u r q
    | good => exact dataStand_rfl u
    | corrected => exact dataStand_countCorrected u r q

end
end

/-! ### The oldest line of an asynchronous copy that waits (R286, R431) -/

section
variable {s : State} {r : CopyRun} (id : Nat) {v : Arrived} {rest : List Arrived} (h : r.arrived = v :: rest)
include h

theorem copyWrite_early (ho : (s.part r.part).ord ≤ v.ord) : copyWrite id r s = s := by
  unfold copyWrite
  rw [h]
  exact if_pos ho

section
variable (ho : v.ord < (s.part r.part).ord) {k : Nat} {b : Byte} {more : List (Nat × Byte)} (hc : v.cells = (k, b) :: more)
include ho hc

theorem copyWrite_room (hroom : s.canHold r.home r.part (s.part r.part).ord (markBase k) r.async = true) :
    copyWrite id r s = (s.hold r.part (s.part r.part).ord r.home r.async v.mark (markBase k) v.cells).putCopy id
      { r with arrived := rest, lastOrd := (s.part r.part).ord } := by
  unfold copyWrite
  rw [h]
  refine (if_neg (by omega)).trans ?_
  rw [hc, State.holdLine_room ⟨dataStand_rfl s, rfl⟩ hroom]

theorem copyWrite_full (hroom : s.canHold r.home r.part (s.part r.part).ord (markBase k) r.async = false) : copyWrite id r s =
    if v.waited then s
    else (s.setCopy id (some { r with arrived := { v with waited := true } :: rest })).countWait r.home k := by
  unfold copyWrite
  rw [h]
  refine (if_neg (by omega)).trans ?_
  rw [hc, State.holdLine_full ⟨dataStand_rfl s, rfl⟩ hroom]
  rfl

end
end

/-! ### The lines of a Read of flash (R277, R452) -/

/-- A copy that moves on differs in its position alone. -/
def CopyRun.Moved (r x : CopyRun) : Prop := x = { r with ptrs := x.ptrs, pos := x.pos, fin := x.fin }

theorem CopyRun.Moved.trans {r x y : CopyRun} (h : r.Moved x) (h' : x.Moved y) : r.Moved y := by
  unfold CopyRun.Moved at h h' ⊢
  rw [h', h]

theorem moved_enterItem (s : State) (r : CopyRun) (w : WalkBlk) : r.Moved (s.enterItem r w) := by
  unfold State.enterItem State.readPtrs
  dsimp only
  split
  · exact rfl
  · split <;> exact rfl

theorem moved_settleCopy (s : State) (w : WalkBlk) (n : Nat) : ∀ r : CopyRun, r.Moved (s.settleCopy w n r) := by
  induction n with
  | zero => exact fun r => rfl
  | succ n ih =>
    intro r
    unfold State.settleCopy
    split
    · exact rfl
    · split
      · exact rfl
      next b j _ =>
        have hmove : r.Moved { r with pos := { r.pos with item := b, point := j, seq := r.pos.seq + 1, unit := 0 } } := rfl
        refine CopyRun.Moved.trans ?_ (ih _)
        exact iteInduction (motive := fun x => r.Moved x) (fun _ => hmove) fun _ => hmove.trans (moved_enterItem s _ w)

theorem moved_nextPos (s : State) (r : CopyRun) : r.Moved (s.nextPos r) := by
  unfold State.nextPos
  dsimp only
  split
  · have hmove : r.Moved { r with pos := { r.pos with unit := r.pos.unit + 1 } } := rfl
    exact hmove.trans (moved_settleCopy s _ _ _)
  · exact rfl

/-- An asynchronous copy whose lines have arrived: they wait behind those that came before. -/
def CopyRun.Gathers (r x : CopyRun) : Prop := x.async = r.async ∧ ∃ l, x.arrived = r.arrived ++ l

/-- A copy whose lines are to be retried, behind those that failed before. -/
def CopyRun.Requeues (r x : CopyRun) : Prop := x.arrived = r.arrived ∧ ∃ l, x.retry = r.retry ++ l

theorem CopyRun.Gathers.trans {r x y : CopyRun} (h : r.Gathers x) (h' : x.Gathers y) : r.Gathers y := by
  obtain ⟨ha, l, hl⟩ := h
  obtain ⟨ha', l', hl'⟩ := h'
  exact ⟨ha'.trans ha, l ++ l', by rw [hl', hl, List.append_assoc]⟩

theorem CopyRun.Requeues.trans {r x y : CopyRun} (h : r.Requeues x) (h' : x.Requeues y) : r.Requeues y := by
  obtain ⟨ha, l, hl⟩ := h
  obtain ⟨ha', l', hl'⟩ := h'
  exact ⟨ha'.trans ha, l ++ l', by rw [hl', hl, List.append_assoc]⟩

theorem CopyRun.Moved.gathers {r x : CopyRun} (h : r.Moved x) : r.Gathers x := by
  unfold CopyRun.Moved at h
  rw [h]
  exact ⟨rfl, [], (List.append_nil _).symm⟩

theorem CopyRun.Moved.requeues {r x : CopyRun} (h : r.Moved x) : r.Requeues x := by
  unfold CopyRun.Moved at h
  rw [h]
  exact ⟨rfl, [], (List.append_nil _).symm⟩

theorem readLine_async {s : State} {r : CopyRun} (ha : r.async = true) (fail : Bool) : readLine fail r s =
    (s.lineRead r r.pos fail, { s.lineTaken r (s.lineAt r r.pos fail) with
      arrived := r.arrived ++ [⟨(s.part r.part).ord, (s.lineAt r r.pos fail).cells, (s.lineAt r r.pos fail).mark, false⟩] }) := by
  unfold readLine
  rw [State.deliver_async ha]
  rfl

theorem readAgain_keeps (r : CopyRun) (s : State) : DataStand s (readAgain r s).1 ∧ r.Requeues (readAgain r s).2 :=
  ⟨dataStand_rfl s, rfl, _, rfl⟩

theorem readLine_keeps (fail : Bool) :
    ∀ r s, r.async = true → DataStand s (readLine fail r s).1 ∧ r.Gathers (readLine fail r s).2 := by
  intro r s ha
  rw [readLine_async ha]
  exact ⟨(roomStands_lineRead s r r.pos fail).1, rfl, _, rfl⟩

section
variable {f : CopyRun → State → State × CopyRun} {R : CopyRun → CopyRun → Prop} (P : CopyRun → Prop)
  (hf : ∀ r s, P r → DataStand s (f r s).1 ∧ R r (f r s).2) (hP : ∀ r x, P r → R r x → P x)
  (hmove : ∀ r x, CopyRun.Moved r x → R r x) (htrans : ∀ r x y, R r x → R x y → R r y)
include hf hP hmove htrans

theorem State.readLines_keeps (seq n : Nat) : ∀ (s : State) (span : Nat × Nat) (r : CopyRun), P r →
    DataStand s (s.readLines seq f n span r).1 ∧ R r (s.readLines seq f n span r).2 := by
  induction n with
  | zero => exact fun s _ r _ => ⟨dataStand_rfl s, hmove r r rfl⟩
  | succ n ih =>
    intro s span r hr
    unfold State.readLines
    split
    · exact ⟨dataStand_rfl s, hmove r r rfl⟩
    · split
      · exact ⟨dataStand_rfl s, hmove r r rfl⟩
      · obtain ⟨hdata, hline⟩ := hf r s hr
        have hnext := htrans r _ _ hline (hmove _ _ (moved_nextPos (f r s).1 (f r s).2))
        obtain ⟨hdata', hlines⟩ := ih (f r s).1 _ _ (hP r _ hr hnext)
        exact ⟨hdata.trans hdata', htrans r _ _ hnext hlines⟩

/-- The first line of a Read, and those that it serves too. -/
theorem State.readDone_facts (s : State) (id : Nat) (r : CopyRun) (hfin : r.fin = false) (hflash : r.flash = true) (hr : P r) :
    ∃ y, DataStand s (s.readDone id f r) ∧ (s.readDone id f r).copyRun id = some y ∧ R (f r s).2 y := by
  obtain ⟨hdata, hline⟩ := hf r s hr
  have hmoved := hmove _ _ (moved_nextPos (f r s).1 (f r s).2)
  unfold State.readDone
  rw [hfin, hflash]
  rw [if_neg (by decide : ¬ (false || !true) = true)]
  dsimp only
  split
  · obtain ⟨hdata', hlines⟩ := State.readLines_keeps P hf hP hmove htrans r.pos.seq _ (f r s).1 _ _
      (hP r _ hr (htrans r _ _ hline hmoved))
    exact ⟨_, (hdata.trans hdata').trans (dataStand_putCopy _ _ _), State.putCopy_run _ _ _, htrans _ _ _ hmoved hlines⟩
  · exact ⟨_, hdata.trans (dataStand_putCopy _ _ _), State.putCopy_run _ _ _, hmoved⟩

end

/-- A Read of an asynchronous copy that delivers its lines, as they are or failed. -/
theorem State.readDone_delivers (s : State) (id : Nat) {r : CopyRun} (hfin : r.fin = false) (hflash : r.flash = true) (ha : r.async = true)
    (fail : Bool) : ∃ y, DataStand s (s.readDone id (readLine fail) r) ∧ (s.readDone id (readLine fail) r).copyRun id = some y ∧
      ∃ l, y.arrived = r.arrived ++ l ∧
        l.head? = some ⟨(s.part r.part).ord, (s.lineAt r r.pos fail).cells, (s.lineAt r r.pos fail).mark, false⟩ := by
  obtain ⟨y, hdata, hy, -, l, hl⟩ := State.readDone_facts (f := readLine fail) (R := CopyRun.Gathers) (fun x => x.async = true)
    (readLine_keeps fail) (fun r x hr hx => hx.1.trans hr) (fun r x => CopyRun.Moved.gathers) (fun r x y => CopyRun.Gathers.trans)
    s id r hfin hflash ha
  rw [readLine_async ha] at hl
  exact ⟨y, hdata, hy, _ :: l, hl.trans (List.append_assoc _ _ _), rfl⟩

/-- A Read that failed: its lines are to be retried. -/
theorem State.readDone_fails (s : State) (id : Nat) {r : CopyRun} (hfin : r.fin = false) (hflash : r.flash = true) :
    ∃ y, DataStand s (s.readDone id readAgain r) ∧ (s.readDone id readAgain r).copyRun id = some y ∧ y.arrived = r.arrived ∧
      ∃ l, y.retry = r.retry ++ l ∧ l.head? = some (r.pos, s.tick) := by
  obtain ⟨y, hdata, hy, harr, l, hl⟩ := State.readDone_facts (f := readAgain) (R := CopyRun.Requeues) (fun _ => True)
    (fun r s _ => readAgain_keeps r s) (fun _ _ _ _ => trivial) (fun r x => CopyRun.Moved.requeues) (fun r x y => CopyRun.Requeues.trans)
    s id r hfin hflash trivial
  exact ⟨y, hdata, hy, harr, _ :: l, hl.trans (List.append_assoc _ _ _), rfl⟩

/-! ### The Writes of a checkpoint (R456) -/

/-- A checkpoint kept. -/
def State.setCkpt (s : State) (id : Nat) (r : Ckpt) : State := { s with ckpts := kset none s.ckpts id (some r) }

theorem State.ckpt_setCkpt (s : State) (id : Nat) (r : Ckpt) : kget none (s.setCkpt id r).ckpts id = some r :=
  kget_kset_same none s.ckpts id (some r)

/-- A checkpoint whose Write has failed. -/
def State.ckptFailed (s : State) (r : Ckpt) : Ckpt := { r with failed := true, blob := [], endOrd := some (s.part r.part).ord }

section
variable {s : State} {id : Nat} {r : Ckpt} (h : kget none s.ckpts id = some r) (hrun : s.asyncRuns r.part = true) (hend : r.endOrd = none)
include h hrun

theorem exec_nvmeCompletion_ckpt (ok : Bool) : exec (.nvmeCompletion id ok) s = .next (s.ckptWrite id r ok) := by
  change execNvmeCompletion id ok s = _
  unfold execNvmeCompletion
  rw [h]
  exact congrArg _ (if_pos hrun)

theorem exec_nvmeTimeout_ckpt : exec (.nvmeTimeout id) s = .next (s.ckptWrite id r false) := by
  change execNvmeTimeout id s = _
  unfold execNvmeTimeout
  rw [h]
  exact congrArg _ (if_pos hrun)

include hend

theorem exec_asyncCopyLine_ckpt (hb : r.blob = []) : exec (.asyncCopyLine id) s = .next (s.ckptHold id r) := by
  change execAsyncCopyLine id s = _
  unfold execAsyncCopyLine
  rw [h]
  exact if_pos (by simp [hrun, hb, hend])

end

section
variable {r : Ckpt} (s : State) (id : Nat) (hend : r.endOrd = none) {a : Nat} {b : List Byte} {rest : List (Nat × List Byte)}
  (hb : r.blob = (a, b) :: rest)
include hend hb

theorem State.ckptWrite_failed : s.ckptWrite id r false = s.setCkpt id (s.ckptFailed r) := by
  unfold State.ckptWrite
  rw [hend, hb]
  rfl

theorem State.ckptWrite_done {k e : Nat} (hk : s.flashAt r.func a = some k) (he : s.flashAt r.func (a + (b.length - 1)) = some e) :
    s.ckptWrite id r true = if rest.isEmpty then ({ s with mem := Mem.writeBytes s.mem k b } : State).ckptHold id { r with blob := [] }
      else ({ s with mem := Mem.writeBytes s.mem k b } : State).setCkpt id { r with blob := rest } := by
  unfold State.ckptWrite
  rw [hend, hb]
  dsimp only
  rw [hk, he]
  rfl

end

/-- A unit of a checkpoint's manifest held in its frame; none where its hold buffer has no room. -/
def State.holdManifest (s : State) (r : Ckpt) (ord : Nat) (u : Nat × List (Nat × Byte)) : Option State :=
  match s.key r.func u.1 with
  | some k => s.holdAsync r.part ord 0 false k (u.2.map (·.2))
  | none => some s

theorem holdOnly_holdManifest {s w : State} {r : Ckpt} {ord : Nat} {u : Nat × List (Nat × Byte)} (h : s.holdManifest r ord u = some w) :
    HoldOnly s w := by
  unfold State.holdManifest at h
  split at h
  · exact holdOnly_holdAsync h
  · exact Option.some.inj h ▸ rfl

/-- The manifest of a checkpoint is held, or the checkpoint waits. -/
theorem State.ckptHold_facts (s : State) (id : Nat) (r : Ckpt) : (s.ckptHold id r).mem = s.mem ∧
    ∃ y, kget none (s.ckptHold id r).ckpts id = some y ∧
      (y = { r with endOrd := some (s.part r.part).ord } ∨ (y = { r with waited := true } ∧ (s.ckptHold id r).held = s.held)) := by
  unfold State.ckptHold
  dsimp only
  split
  next s1 hs1 =>
    obtain ⟨w, hw, honly⟩ := holdOnly_foldl (fun w u => w.holdManifest r (s.part r.part).ord u) (fun s x u => holdOnly_holdManifest) _ _ s1 hs1
    obtain rfl := Option.some.inj hw
    unfold HoldOnly at honly
    exact ⟨(congrArg State.mem honly).trans rfl, _, State.ckpt_setCkpt s1 id _, Or.inl rfl⟩
  · split
    next hw => exact ⟨rfl, r, State.ckpt_setCkpt s id r, Or.inr ⟨by rw [← hw], rfl⟩⟩
    · exact ⟨rfl, _, State.ckpt_setCkpt s id _, Or.inr ⟨rfl, rfl⟩⟩

end Sys2Proof.Machine

namespace Sys2Proof.Proofs
open Sys2Proof.Machine Sys2Proof.Claims

/-- Settles O41. A line is delivered through caches and counters, which leave memory, held writes and the use of stripe parity, so the
hold buffer has the room it had; the Reads go by induction over the further lines they serve. -/
theorem copyLines : Obligations.CopyLines := by
  unfold Obligations.CopyLines
  intro s id corr line
  refine ⟨fun r h hm => ?_, fun r h hrun hend => ?_⟩
  · refine ⟨fun hfin hflash => ?_, fun q t rest hretry => ?_, fun hk => ⟨fun v rest k b more harr hc => ?_, fun hfin hflash ha => ?_⟩⟩
    · have hdel : ∀ {u y}, s.deliver r r.pos false = some (u, y) → ∃ w, exec (.tierLineArrival id true corr) s = .next w ∧ w.mem = u.mem ∧
          w.held = u.held ∧ w.copyRun id = some (s.nextPos y) := fun hd => by
        obtain ⟨w, hw, ⟨hmem, hheld⟩, hy⟩ := copyLine_delivers id corr hfin hflash hd
        exact ⟨w, (exec_tierLineArrival h hm true corr).trans (congrArg _ hw), hmem, hheld, hy⟩
      have hread := (roomStands_lineRead s r r.pos false).1
      refine ⟨?_, fun ha => ?_, fun ha hc => ?_, fun ha k b rest hc => ⟨fun hroom => ?_, fun hroom => ?_⟩⟩
      · have hdata := (dataStand_countFailed s r r.pos).trans (dataStand_putCopy _ id
          { s.nextPos r with retry := r.retry ++ [(r.pos, s.tick)], lastOrd := (s.part r.part).ord })
        exact ⟨_, (exec_tierLineArrival h hm false corr).trans (congrArg _ (copyLine_failed id corr hfin hflash)), hdata.1, hdata.2,
          State.putCopy_run _ _ _⟩
      · obtain ⟨w, hw, hmem, hheld, hy⟩ := hdel (State.deliver_async ha)
        exact ⟨w, hw, hmem.trans hread.1, hheld.trans hread.2, hy⟩
      · obtain ⟨w, hw, hmem, hheld, hy⟩ := hdel (State.deliver_empty ha hc)
        exact ⟨w, hw, hmem.trans hread.1, hheld.trans hread.2, hy⟩
      · obtain ⟨u, hd, hum, huh⟩ := State.deliver_room ha hc hroom
        obtain ⟨w, hw, hmem, hheld, hy⟩ := hdel hd
        exact ⟨w, hw, hmem.trans hum, hheld.trans huh, hy⟩
      · exact ⟨_, (exec_tierLineArrival h hm true corr).trans (congrArg _ (copyLine_waits id corr hfin hflash (State.deliver_full ha hc hroom))),
          rfl, State.copyRun_setCopy_same s id _⟩
    · have hdel : ∀ {u y}, t < s.tick → s.deliver { r with retry := rest } q (line == .failed) = some (u, y) →
          ∃ w, exec (.lineRetry id line) s = .next w ∧ w.mem = u.mem ∧ w.held = u.held ∧ w.copyRun id = some y := fun ht hd => by
        obtain ⟨w, hw, ⟨hmem, hheld⟩, hy⟩ := copyRetry_delivers id line hretry ht hd
        exact ⟨w, (exec_lineRetry h hm line).trans (congrArg _ hw), hmem, hheld, hy⟩
      have hread := (roomStands_lineRead s { r with retry := rest } q (line == .failed)).1
      refine ⟨fun ht => (exec_lineRetry h hm line).trans (congrArg _ (copyRetry_early id line hretry ht)), fun ht ha => ?_, fun ht ha hc => ?_,
        fun ht ha k b more hc => ⟨fun hroom => ?_, fun hroom => ?_⟩⟩
      · obtain ⟨w, hw, hmem, hheld, hy⟩ := hdel ht (State.deliver_async (r := { r with retry := rest }) ha)
        exact ⟨w, hw, hmem.trans hread.1, hheld.trans hread.2, hy⟩
      · obtain ⟨w, hw, hmem, hheld, hy⟩ := hdel ht (State.deliver_empty (r := { r with retry := rest }) ha hc)
        exact ⟨w, hw, hmem.trans hread.1, hheld.trans hread.2, hy⟩
      · obtain ⟨u, hd, hum, huh⟩ := State.deliver_room (r := { r with retry := rest }) ha hc hroom
        obtain ⟨w, hw, hmem, hheld, hy⟩ := hdel ht hd
        exact ⟨w, hw, hmem.trans hum, hheld.trans huh, hy⟩
      · exact (exec_lineRetry h hm line).trans (congrArg _ (copyRetry_waits id line hretry ht
          (State.deliver_full (r := { r with retry := rest }) ha hc hroom)))
    · have hexec := exec_asyncCopyLine_copy h hm hk
      refine ⟨fun ho => hexec.trans (congrArg _ (copyWrite_early id harr ho)), fun ho hroom => ?_, fun ho hroom => ⟨fun hw => ?_, fun hw => ?_⟩⟩
      · have hput := dataStand_putCopy (s.hold r.part (s.part r.part).ord r.home r.async v.mark (markBase k) v.cells) id
          { r with arrived := rest, lastOrd := (s.part r.part).ord }
        exact ⟨_, hexec.trans (congrArg _ (copyWrite_room id harr ho hc hroom)), hput.1, hput.2, State.putCopy_run _ _ _⟩
      · exact hexec.trans (congrArg _ ((copyWrite_full id harr ho hc hroom).trans (if_pos hw)))
      · have hfull := (copyWrite_full id harr ho hc hroom).trans (if_neg (by simp [hw]))
        exact ⟨_, hexec.trans (congrArg _ hfull), rfl, rfl, State.copyRun_setCopy_same s id _, rfl⟩
    · obtain ⟨y1, hd1, hy1, hl1⟩ := s.readDone_delivers id hfin hflash ha false
      obtain ⟨y2, hd2, hy2, hl2⟩ := s.readDone_fails id hfin hflash
      obtain ⟨y3, hd3, hy3, hl3⟩ := s.readDone_delivers id hfin hflash ha true
      exact ⟨⟨_, y1, exec_nvmeCompletion_copy h hm hk true, hd1.1, hd1.2, hy1, hl1⟩,
        ⟨_, y2, exec_nvmeCompletion_copy h hm hk false, hd2.1, hd2.2, hy2, hl2⟩,
        ⟨_, y3, exec_nvmeTimeout_copy h hm hk, hd3.1, hd3.2, hy3, hl3⟩⟩
  · refine ⟨fun a b rest hb => ⟨?_, ?_, fun k e hka hke => ?_⟩, fun hb => ?_⟩
    · exact ⟨_, (exec_nvmeTimeout_ckpt h hrun).trans (congrArg _ (s.ckptWrite_failed id hend hb)), rfl, s.ckpt_setCkpt id _⟩
    · exact ⟨_, (exec_nvmeCompletion_ckpt h hrun false).trans (congrArg _ (s.ckptWrite_failed id hend hb)), rfl, s.ckpt_setCkpt id _⟩
    · refine ⟨_, (exec_nvmeCompletion_ckpt h hrun true).trans (congrArg _ (s.ckptWrite_done id hend hb hka hke)), ?_, fun hrest => ?_⟩
      · split
        · exact (State.ckptHold_facts _ id _).1
        · rfl
      · rw [if_neg (by simpa using hrest)]
        exact ⟨State.ckpt_setCkpt _ id _, rfl, rfl⟩
    · obtain ⟨hmem, y, hy, hcase⟩ := s.ckptHold_facts id r
      exact ⟨_, y, exec_asyncCopyLine_ckpt h hrun hend hb, hmem, hy, hcase⟩

end Sys2Proof.Proofs
end

section
/-! PROOFS. What the engines of a core leave, entries that cross between queues, transfers (O27; R88–R90, R92, R95, R96). -/

namespace Sys2Proof.Machine
open Sys2Proof.Claims

/-! ### A command of a core's engines -/

theorem engine_runs {s : State} {c : Nat} (hc : s.isCore c = true) (hr : s.engineRuns c = true) (f : State → State) :
    engine c f s = .next (f s) := by
  unfold engine
  rw [hc, hr]
  rfl

theorem sameMemory_of {s u : State} (hmem : u.mem = s.mem) (hmarks : u.marks = s.marks) : SameMemory s u :=
  ⟨hmem, hmarks, fun a => by rw [hmem]⟩

theorem oneCore_modCore (c : Nat) (s : State) (f : Core → Core) : OneCore c s (s.modCore c f) :=
  ⟨rfl, fun _ hd => State.core_modCore_other s f (Ne.symm hd)⟩

theorem oneCore_tally (c : Nat) (s : State) (kind inst event n : Nat) : OneCore c s (s.tally kind inst event n) := ⟨rfl, fun _ _ => rfl⟩

theorem oneCore_memory (c : Nat) (s : State) (mem : Mem) (marks : KMap Bool) : OneCore c s { s with mem := mem, marks := marks } :=
  ⟨rfl, fun _ _ => rfl⟩

theorem oneCore_trans {c : Nat} {s u w : State} (h : OneCore c s u) (h' : OneCore c u w) : OneCore c s w := by
  obtain ⟨honly, hcore⟩ := h
  obtain ⟨honly', hcore'⟩ := h'
  exact ⟨by rw [honly', honly], fun d hd => (hcore' d hd).trans (hcore d hd)⟩

/-! ### The end of a slot (R75, R85, R95, R96) -/

/-- A core one of whose slots has ended: the slot is free and counted where `count` says so. -/
def Core.endSlot (k : Core) (i : Nat) (sl : DmaSlot) (count : Bool) : Core :=
  (if count then (k.setSlot i none).addCtr sl.ctr.toNat 1 else k.setSlot i none).wake fun st => st == .waitDma || st == .waitArray

theorem State.slotEnd_core (s : State) (c i : Nat) (sl : DmaSlot) (count : Bool) :
    (s.slotEnd c i sl count).core c = (s.core c).endSlot i sl count := State.core_modCore_same _ c _

theorem State.slotEnd_only (s : State) (c i : Nat) (sl : DmaSlot) (count : Bool) :
    OneCore c s (s.slotEnd c i sl count) ∧ (s.slotEnd c i sl count).mem = s.mem ∧ (s.slotEnd c i sl count).marks = s.marks :=
  ⟨oneCore_trans (oneCore_tally c s 0 c 6 (natOf count)) (oneCore_modCore c _ _), rfl, rfl⟩

section
variable (k : Core) (i : Nat) (sl : DmaSlot)

theorem Core.slot_endSlot (j : Nat) : (k.endSlot i sl true).slot j = (k.setSlot i none).slot j := rfl

theorem Core.ctr_endSlot (n : Nat) : (k.endSlot i sl true).ctr n = ((k.setSlot i none).addCtr sl.ctr.toNat 1).ctr n := rfl

theorem Core.ctr_endSlot_same : (k.endSlot i sl true).ctr sl.ctr.toNat = k.ctr sl.ctr.toNat + 1 :=
  (k.ctr_endSlot i sl _).trans (Core.addCtr_ctr_same _ _ _)

theorem Core.ctr_endSlot_other {n : Nat} (h : n ≠ sl.ctr.toNat) : (k.endSlot i sl true).ctr n = k.ctr n :=
  (k.ctr_endSlot i sl n).trans (Core.addCtr_ctr_other _ _ h.symm)

end

/-- What the end of a slot shows: it is free, the other slots stand, its counter has moved and no other. -/
theorem State.slotEnd_facts (s : State) (c i : Nat) (sl : DmaSlot) :
    ((s.slotEnd c i sl true).core c).slot i = none ∧
      (∀ j, j ≠ i → ((s.slotEnd c i sl true).core c).slot j = (s.core c).slot j) ∧
      ((s.slotEnd c i sl true).core c).ctr sl.ctr.toNat = (s.core c).ctr sl.ctr.toNat + 1 ∧
      ∀ n, n ≠ sl.ctr.toNat → ((s.slotEnd c i sl true).core c).ctr n = (s.core c).ctr n := by
  rw [State.slotEnd_core]
  refine ⟨?_, fun j hj => ?_, Core.ctr_endSlot_same _ i sl, fun n hn => Core.ctr_endSlot_other _ i sl hn⟩
  · rw [Core.slot_endSlot, Core.slot_setSlot_same]
  · rw [Core.slot_endSlot, Core.slot_setSlot_other _ _ hj.symm]

/-! ### Entries between queues (R88–R90) -/

/-- A fold of changes each of which leaves the state is the state. -/
theorem foldl_stands {α β : Type} (f : α → β → α) (a : α) (l : List β) (h : ∀ x ∈ l, f a x = a) : l.foldl f a = a :=
  List.foldlRecOn (motive := fun b => b = a) l f rfl fun _ hb x hx => hb ▸ h x hx

theorem queueResume_awake {s : State} {c : Nat} (h : ∀ t, ((s.core c).thread t).state ≠ .waitQueue) (q : Nat) (push : Bool) (t : Nat) :
    queueResume c q push s t = s := if_pos (by simpa using h t)

theorem queueResume_all {s : State} {c : Nat} (h : ∀ t, ((s.core c).thread t).state ≠ .waitQueue) (q : Nat) (push : Bool) :
    (List.range 16).foldl (queueResume c q push) s = s := foldl_stands _ _ _ fun t _ => queueResume_awake h q push t

/-- The state with an entry taken over its hop. -/
def State.crossed (s : State) (c q c2 q2 : Nat) (e : QEntry) (es : List QEntry) : State :=
  (s.modCore c fun k => { k with qout := kset [] k.qout q es }).modCore c2
    fun k => { k with qin := kset [] k.qin q2 (kget [] (s.core c2).qin q2 ++ [{ e with cfg := 0 }]) }

section
variable {s : State} {c q c2 q2 : Nat} {e : QEntry} {es : List QEntry}

theorem State.crossed_core (d : Nat) : ((s.crossed c q c2 q2 e es).core d) = { s.core d with
    qout := if d = c then kset [] (s.core d).qout q es else (s.core d).qout
    qin := if d = c2 then kset [] (s.core d).qin q2 (kget [] (s.core c2).qin q2 ++ [{ e with cfg := 0 }]) else (s.core d).qin } := by
  have hfirst : (s.modCore c fun k => { k with qout := kset [] k.qout q es }).core d =
      { s.core d with qout := if d = c then kset [] (s.core d).qout q es else (s.core d).qout } := by
    by_cases hd : d = c
    · subst hd
      rw [State.core_modCore_same, if_pos rfl]
    · rw [State.core_modCore_other _ _ (Ne.symm hd), if_neg hd]
  unfold State.crossed
  by_cases hd : d = c2
  · subst hd
    rw [State.core_modCore_same, hfirst, if_pos rfl]
  · rw [State.core_modCore_other _ _ (Ne.symm hd), hfirst, if_neg hd]

theorem State.core_tally (s : State) (kind inst event n d : Nat) : (s.tally kind inst event n).core d = s.core d := rfl

theorem State.crossed_memory : (s.crossed c q c2 q2 e es).mem = s.mem ∧ (s.crossed c q c2 q2 e es).marks = s.marks := ⟨rfl, rfl⟩

section
variable (ho : kget [] (s.core c).qout q = e :: es) (ht : s.queueTarget c q e.cfg.toNat = some (c2, q2))
include ho ht

theorem queueMove_full (hf : 8 ≤ (kget [] (s.core c2).qin q2).length) : queueMove c q s = s := by
  unfold queueMove
  rw [ho]
  dsimp only
  rw [ht]
  exact if_neg (by omega)

theorem queueMove_crosses (hf : (kget [] (s.core c2).qin q2).length < 8) (hc : ∀ t, ((s.core c).thread t).state ≠ .waitQueue)
    (hc2 : ∀ t, ((s.core c2).thread t).state ≠ .waitQueue) :
    ∃ u, queueMove c q s = u ∧ SameMemory s u ∧ ∀ d, u.core d = (s.crossed c q c2 q2 e es).core d := by
  have hwake (d : Nat) (hd : ∀ t, ((s.core d).thread t).state ≠ .waitQueue) (t : Nat) :
      ((((s.crossed c q c2 q2 e es).tally 0 c 7 1).core d).thread t).state ≠ .waitQueue := by
    change (((s.crossed c q c2 q2 e es).core d).thread t).state ≠ _
    rw [State.crossed_core]
    exact hd t
  suffices h : ∃ n, queueMove c q s = State.tally ((List.range 16).foldl (queueResume c2 q2 false)
      ((List.range 16).foldl (queueResume c q true) ((s.crossed c q c2 q2 e es).tally 0 c 7 1))) 0 c2 8 n by
    obtain ⟨n, hn⟩ := h
    rw [queueResume_all (hwake c hc), queueResume_all (hwake c2 hc2)] at hn
    refine ⟨_, hn, sameMemory_of ?_ ?_, fun d => ?_⟩
    · rw [State.tally_mem, State.tally_mem, State.crossed_memory.1]
    · rw [State.tally_marks, State.tally_marks, State.crossed_memory.2]
    · rw [State.core_tally, State.core_tally]
  unfold queueMove
  rw [ho]
  dsimp only
  rw [ht]
  exact ⟨_, if_pos hf⟩

end
end

/-! ### One turn of the store port (R92, R95) -/

/-- A core whose port's pointer has moved behind the requester at place i. -/
def Core.pointPort (k : Core) (i : Nat) : Core := { k with portPtr := (i + 1) % 10 }

theorem Core.slot_pointPort (k : Core) (i j : Nat) : (k.pointPort i).slot j = k.slot j := rfl

theorem Core.thread_pointPort (k : Core) (i t : Nat) : (k.pointPort i).thread t = k.thread t := rfl

section
variable {s x : State} {c i : Nat} {sl : DmaSlot}

/-- The slot at the pointer has its turn where it has something to send. -/
theorem State.portTurn_slot (hp : (s.core c).portPtr = i) (hi : i < 8) (ht : slotTurn c i s = some x) :
    s.portTurn c = some (i, x.modCore c fun k => k.pointPort i) := by
  have hnext : portNext c s 10 i = some (i, x) := by
    unfold portNext portServe
    rw [if_pos hi, ht]
  unfold State.portTurn
  rw [hp, hnext]
  rfl

theorem exec_storePortTurn {n : Nat} (hc : s.isCore c = true) (hr : s.engineRuns c = true) (ht : s.portTurn c = some (n, x)) :
    exec (.storePortTurn c) s = .next x := by
  refine (engine_runs hc hr fun s => match s.portTurn c with
    | some x => x.2
    | none => s).trans ?_
  rw [ht]

theorem slotTurn_of_walk {run : WalkRun} (hs : (s.core c).slot i = some sl) (hw : sl.walk = some run) (hm : (s.core c).mayMove sl = true) :
    slotTurn c i s = walkTurn c i sl run s := by
  unfold slotTurn
  rw [hs]
  dsimp only
  rw [hm, hw]
  rfl

theorem slotTurn_of_dma (hs : (s.core c).slot i = some sl) (hw : sl.walk = none) (hm : (s.core c).mayMove sl = true) :
    slotTurn c i s = dmaTurn c i sl s := by
  unfold slotTurn
  rw [hs]
  dsimp only
  rw [hm, hw]
  rfl

/-- A unit that lies in a store or at a foreign key is read in. -/
theorem dmaTurn_reads (hown : sl.srcLocal = false) (hheld : sl.held = none) (hasked : sl.asked = false) (hlen : sl.readPos < sl.len)
    (hpad : isPadKey sl.src = false) : dmaTurn c i sl s =
      some (landRead c i sl sl.readPos (ofNat256 (leNat (s.seenBytes (s.viewerOf c sl.cfg) (sl.src + sl.readPos) 32)))
        (s.seenMarked (s.viewerOf c sl.cfg) (sl.src + sl.readPos)) s) := by
  unfold dmaTurn
  rw [hown, hheld, hasked, hpad]
  dsimp only
  rw [if_neg (Bool.false_ne_true : ¬ (false && sl.dstLocal) = true), if_neg (by simpa using hlen : ¬ (false || decide (sl.len ≤ sl.readPos)) = true)]
  rfl

theorem landRead_own {off : Nat} {data : BitVec 256} {mark : Bool} (hdst : sl.dstLocal = true) (hasked : sl.asked = false)
    (hx : s.ownWrite c (ownAddr c sl.dst off) data mark = some x) :
    landRead c i sl off data mark s = x.setSlot c i (some { sl with readPos := off + 32, donePos := sl.donePos + 32 }) := by
  unfold landRead
  rw [hdst, hx, ← hasked]
  rfl

theorem State.ownWrite_eq {key : Nat} {data : BitVec 256} {mark : Bool} (hx : s.ownWrite c key data mark = some x) :
    x = { s with mem := Mem.writeNat s.mem key 32 data.toNat, marks := kset false s.marks key mark } := by
  unfold State.ownWrite at hx
  split at hx
  · exact absurd hx (by simp)
  · exact (Option.some.inj hx).symm

theorem State.seenBytes_length (s : State) (v : Viewer) (n : Nat) : ∀ k, (s.seenBytes v k n).length = n := by
  induction n with
  | zero => exact fun _ => rfl
  | succ n ih => exact fun k => congrArg (· + 1) (ih (k + 1))

/-- 32 bytes as the reader sees them, as the data of a unit. -/
theorem State.seenUnit_toNat (s : State) (v : Viewer) (k : Nat) :
    (ofNat256 (leNat (s.seenBytes v k 32))).toNat = leNat (s.seenBytes v k 32) := by
  have h := leNat_lt (s.seenBytes v k 32)
  rw [State.seenBytes_length] at h
  exact Nat.mod_eq_of_lt (by norm_num at h ⊢; exact h)

/-! ### The arrival of a transfer (R92, R94, R95, R105) -/

theorem dmaArrive_arrived (hs : (s.core c).slot i = some sl) (hw : sl.walk = none) (hown : (sl.srcLocal && sl.dstLocal) = false)
    (hdone : sl.donePos = sl.len) : dmaArrive c i s = s.slotEnd c i sl true := by
  unfold dmaArrive
  rw [hs]
  dsimp only
  rw [hw, hown, hdone]
  exact (if_neg Bool.false_ne_true).trans ((if_neg Bool.false_ne_true).trans (if_pos (beq_self_eq_true _)))

theorem Core.mayCopy_of_mayMove {k : Core} (h : k.mayMove sl = true) : k.mayCopy sl = true := by
  unfold Core.mayMove at h
  unfold Core.mayCopy
  simp only [Bool.or_eq_true, Bool.and_eq_true] at h ⊢
  exact h.imp_right And.left

theorem dmaArrive_own (hs : (s.core c).slot i = some sl) (hw : sl.walk = none) (hm : (s.core c).mayMove sl = true)
    (hsrc : sl.srcLocal = true) (hdst : sl.dstLocal = true) (hx : ownMove c sl (sl.len / 32) s = some x) :
    dmaArrive c i s = x.slotEnd c i sl true := by
  unfold dmaArrive
  rw [hs]
  dsimp only
  rw [hw, hsrc, hdst, Core.mayCopy_of_mayMove hm, hx]
  rfl

end

/-- A transfer within the own pads writes its units' bytes and marks, no other byte. -/
theorem ownMove_facts {c : Nat} {sl : DmaSlot} (n : Nat) : ∀ {s x : State}, ownMove c sl n s = some x →
    OneCore c s x ∧ x.cores = s.cores ∧
      ∀ a, (∀ m, m < n → a < ownAddr c sl.dst (sl.len - 32 * (m + 1)) ∨ ownAddr c sl.dst (sl.len - 32 * (m + 1)) + 32 ≤ a) →
        Mem.read x.mem a = Mem.read s.mem a := by
  induction n with
  | zero =>
    intro s x h
    obtain rfl := Option.some.inj h
    exact ⟨⟨rfl, fun _ _ => rfl⟩, rfl, fun _ _ => rfl⟩
  | succ n ih =>
    intro s x h
    unfold ownMove at h
    dsimp only at h
    split at h
    · exact absurd h (by simp)
    next y hy =>
      obtain ⟨hone, hcores, hread⟩ := ih h
      obtain rfl := State.ownWrite_eq hy
      refine ⟨oneCore_trans (oneCore_memory c s _ _) hone, hcores, fun a ha => (hread a fun m hm => ha m (by omega)).trans ?_⟩
      exact Mem.read_writeNat_outside _ (ha n (by omega))

end Sys2Proof.Machine

namespace Sys2Proof.Proofs
open Sys2Proof.Machine Sys2Proof.Claims

/-- Settles O27. With no thread waiting, the queues' resumption is the identity; a unit read lands by one write of the own pad; the move
within the own pads goes by induction over its units. -/
theorem queueAndTransferMoves : Obligations.QueueAndTransferMoves := by
  unfold Obligations.QueueAndTransferMoves
  refine ⟨fun s c c2 q2 q e es hcore hrun ho ht => ?_, fun s c i sl x slot hcore hrun hs hw hm => ?_⟩
  · have hexec : exec (.queueEntryMove c q) s = .next (queueMove c q.toNat s) := engine_runs hcore hrun _
    refine ⟨fun hf hc hc2 => ?_, fun hf => hexec.trans (congrArg _ (queueMove_full ho ht hf))⟩
    obtain ⟨u, hu, hmem, hcross⟩ := queueMove_crosses ho ht hf hc hc2
    refine ⟨u, hexec.trans (congrArg _ hu), hmem, ?_, ?_, fun d hdc hdc2 => ?_, fun d t => ?_⟩
    · rw [hcross, State.crossed_core, if_pos rfl]
      exact kget_kset_same [] (s.core c).qout q.toNat es
    · rw [hcross, State.crossed_core, if_pos rfl]
      exact kget_kset_same [] (s.core c2).qin q2 _
    · rw [hcross, State.crossed_core, if_neg hdc, if_neg hdc2]
    · rw [hcross, State.crossed_core]
      rfl
  · refine ⟨fun hp hi hsrc hdst hheld hasked hlen hpad hx => ?_, fun hslot hown hdone => ?_, fun hslot hsrc hdst hx => ?_⟩
    · have hturn : slotTurn c i s = some _ := (slotTurn_of_dma hs hw hm).trans ((dmaTurn_reads hsrc hheld hasked hlen hpad).trans
        (congrArg some (landRead_own hdst hasked hx)))
      have hexec := exec_storePortTurn hcore hrun (State.portTurn_slot hp hi hturn)
      obtain rfl := State.ownWrite_eq hx
      refine ⟨_, hexec, oneCore_trans (oneCore_memory c s _ _) (oneCore_trans (oneCore_modCore c _ _) (oneCore_modCore c _ _)), fun a ha =>
        Mem.read_writeNat_outside _ ha, ?_, rfl, ?_, ?_, fun t => ?_⟩
      · refine (Mem.readNat_writeNat _ _ _ _).trans ?_
        rw [State.seenUnit_toNat]
        have hlt := leNat_lt (s.seenBytes (s.viewerOf c sl.cfg) (sl.src + sl.readPos) 32)
        rw [State.seenBytes_length] at hlt
        exact Nat.mod_eq_of_lt hlt
      · rw [State.core_modCore_same, Core.slot_pointPort, setSlot_core_same, Core.slot_setSlot_same]
      · rw [State.core_modCore_same]
        rfl
      · rw [State.core_modCore_same, Core.thread_pointPort, setSlot_core_same]
        rfl
    · subst hslot
      have hexec : exec (.dmaArrival c slot) s = .next _ := (engine_runs hcore hrun _).trans (congrArg _ (dmaArrive_arrived hs hw hown hdone))
      obtain ⟨hone, hmem, hmarks⟩ := s.slotEnd_only c slot.toNat sl true
      exact ⟨_, hexec, hone, sameMemory_of hmem hmarks, s.slotEnd_facts c slot.toNat sl⟩
    · subst hslot
      have hexec : exec (.dmaArrival c slot) s = .next _ := (engine_runs hcore hrun _).trans (congrArg _ (dmaArrive_own hs hw hm hsrc hdst hx))
      obtain ⟨honex, hcores, hread⟩ := ownMove_facts _ hx
      obtain ⟨hone, hmem, hmarks⟩ := x.slotEnd_only c slot.toNat sl true
      obtain ⟨hfree, hother, hctr, -⟩ := x.slotEnd_facts c slot.toNat sl
      rw [core_of_cores hcores c] at hother hctr
      exact ⟨_, hexec, oneCore_trans honex hone, hmem, hmarks, hfree, hother, hctr, fun a ha => by
        rw [hmem]
        exact hread a ha⟩

end Sys2Proof.Proofs
end

section
/-! PROOFS. Fold slots open, pass and end, filler slots are cut (O29; R36, R76, R102, R105, R212, R213). -/

namespace Sys2Proof.Machine
open Sys2Proof.Claims

/-! ### Changes of the threads one after the other -/

/-- A fold that changes each of the first n values once. -/
theorem kget_foldl_range {α : Type} [DecidableEq α] (d : α) (f : Nat → α → α) (m : KMap α) (j n : Nat) :
    kget d ((List.range n).foldl (fun m i => kmod d m i (f i)) m) j = if j < n then f j (kget d m j) else kget d m j := by
  induction n with
  | zero => rfl
  | succ n ih =>
    rw [List.range_succ, List.foldl_concat]
    by_cases hj : n = j
    · subst hj
      rw [kget_kmod_same, ih, if_neg (Nat.lt_irrefl n), if_pos (Nat.lt_succ_self n)]
    · rw [kget_kmod_other _ _ _ hj, ih]
      exact if_congr (by omega) rfl rfl

/-! ### A slot opens (R76, R102) -/

theorem Core.resumeDrain_facts (k : Core) : k.resumeDrain.threads = k.threads ∧ k.resumeDrain.slotOpen = k.slotOpen ∧
    k.resumeDrain.arrayPtr = k.arrayPtr ∧ k.resumeDrain.generalPtr = k.generalPtr ∧ k.resumeDrain.slotIndex = k.slotIndex ∧
    k.resumeDrain.fillerCut = k.fillerCut := by
  unfold Core.resumeDrain
  split
  · split <;> exact ⟨rfl, rfl, rfl, rfl, rfl, rfl⟩
  · exact ⟨rfl, rfl, rfl, rfl, rfl, rfl⟩

/-- A thread of the configuration of a slot that opens. -/
def openThread (r : BitVec 256) (t : Nat) (th : Thread) : Thread :=
  if th.state == .faulted then th
  else if bitOf (cfgField r 0 16) t then { th with pc := BitVec.ofNat 8 (cfgField r (16 + 8 * t) 8), state := .ready, pend := .none }
  else if th.state == .suspended then th
  else { th with state := .idle }

/-- The threads of a core whose slot of configuration record r opens. -/
@[irreducible] def openThreads (r : BitVec 256) (m : KMap Thread) : KMap Thread :=
  (List.range 16).foldl (fun m t => kmod {} m t (openThread r t)) m

/-- A core whose slot of configuration i has opened, before a filler's drain goes on. -/
def Core.atEntries (k : Core) (i : Nat) : Core :=
  { k with
    threads := openThreads (k.cfg i) k.threads
    slotOpen := some (BitVec.ofNat 3 i)
    arrayPtr := 15
    generalPtr := 15 }

/-- A core that a filler's slot lets go on with its drain. -/
def Core.fillerGoesOn (k : Core) (filler : Bool) : Core := if filler then ({ k with fillerCut := false }).resumeDrain else k

theorem Core.fillerGoesOn_facts (k : Core) (filler : Bool) : (k.fillerGoesOn filler).threads = k.threads ∧
    (k.fillerGoesOn filler).slotOpen = k.slotOpen ∧ (k.fillerGoesOn filler).arrayPtr = k.arrayPtr ∧
    (k.fillerGoesOn filler).generalPtr = k.generalPtr ∧ (k.fillerGoesOn filler).slotIndex = k.slotIndex ∧
    (filler = true → (k.fillerGoesOn filler).fillerCut = false) := by
  cases filler with
  | true =>
    obtain ⟨hth, hopen, harr, hgen, hidx, hcut⟩ := ({ k with fillerCut := false } : Core).resumeDrain_facts
    exact ⟨hth, hopen, harr, hgen, hidx, fun _ => hcut⟩
  | false => exact ⟨rfl, rfl, rfl, rfl, rfl, fun h => absurd h Bool.false_ne_true⟩

theorem Core.openSlot_eq (k : Core) (i : Nat) : k.openSlot i = (k.atEntries i).fillerGoesOn (cfgFiller (k.cfg i)) := by
  unfold Core.openSlot Core.fillerGoesOn Core.atEntries openThreads openThread
  rfl

theorem Core.atEntries_facts (k : Core) (i : Nat) : (k.atEntries i).threads = openThreads (k.cfg i) k.threads ∧
    (k.atEntries i).slotOpen = some (BitVec.ofNat 3 i) ∧ (k.atEntries i).arrayPtr = 15 ∧ (k.atEntries i).generalPtr = 15 ∧
    (k.atEntries i).slotIndex = k.slotIndex := ⟨rfl, rfl, rfl, rfl, rfl⟩

/-- What shows of a core whose slot has opened. -/
theorem Core.openSlot_facts (k : Core) (i : Nat) : (k.openSlot i).threads = openThreads (k.cfg i) k.threads ∧
    (k.openSlot i).slotOpen = some (BitVec.ofNat 3 i) ∧ (k.openSlot i).arrayPtr = 15 ∧ (k.openSlot i).generalPtr = 15 ∧
    (k.openSlot i).slotIndex = k.slotIndex ∧ (cfgFiller (k.cfg i) = true → (k.openSlot i).fillerCut = false) := by
  rw [Core.openSlot_eq]
  obtain ⟨hth, hopen, harr, hgen, hidx, hcut⟩ := (k.atEntries i).fillerGoesOn_facts (cfgFiller (k.cfg i))
  obtain ⟨hth', hopen', harr', hgen', hidx'⟩ := k.atEntries_facts i
  exact ⟨hth.trans hth', hopen.trans hopen', harr.trans harr', hgen.trans hgen', hidx.trans hidx', hcut⟩

theorem Core.openSlot_thread (k : Core) (i : Nat) {t : Nat} (ht : t < 16) (hf : (k.thread t).state ≠ .faulted)
    (hb : bitOf (cfgField (k.cfg i) 0 16) t = true) : (k.openSlot i).thread t =
      { k.thread t with pc := BitVec.ofNat 8 (cfgField (k.cfg i) (16 + 8 * t) 8), state := .ready, pend := .none } := by
  unfold Core.thread at hf ⊢
  rw [(k.openSlot_facts i).1]
  unfold openThreads
  rw [kget_foldl_range, if_pos ht]
  exact (if_neg (by simpa using hf)).trans (if_pos hb)

section
variable {s : State} {c p pat vi : Nat} {fr : Frame} {m : ImgHeld} {e : Nat × Nat × Nat × Nat × Nat}
  (hp : s.partOf c = some p) (hfr : (s.part p).frame = some fr) (hm : (s.part p).image = some m) (hpat : fr.pattern = some pat)
  (hvi : m.vcore c = some vi) (hfast : fr.fast = false) (hload : fr.load = false)
  (he : (Img.slots m.bytes (Img.slotListAt m.bytes pat vi))[(s.core c).slotIndex]? = some e)
include hp hfr hm hpat hvi hfast hload he

/-- The next slot of a core, once its frame, its image and its place are known. -/
theorem foldOpen_eq : foldOpen c s =
    if !(s.core c).slotDone || decide (s.subtick < 16) || decide (s.frameCycle fr < e.1) then s
    else if e.2.2.2.1 == 0 then (s.setCore c (({ s.core c with slotIndex := (s.core c).slotIndex + 1 } : Core).openSlot e.2.2.1)).tally 0 c 0x0A 1
    else match bubbleConfig (s.part p) fr vi e.1 e.2.1 with
      | some i => (s.setCore c (({ s.core c with slotIndex := (s.core c).slotIndex + 1 } : Core).openSlot i)).tally 0 c 0x0A 1
      | none => s.setCore c { s.core c with slotIndex := (s.core c).slotIndex + 1 } := by
  unfold foldOpen
  rw [hp]
  dsimp only
  rw [hfr, hm]
  dsimp only
  rw [hpat, hvi]
  dsimp only
  rw [he]
  dsimp only
  rw [hfast, hload, Bool.or_false, Bool.or_false] <;> rfl

theorem foldOpen_early (h : (s.core c).slotDone = false ∨ s.subtick < 16 ∨ s.frameCycle fr < e.1) : foldOpen c s = s := by
  rw [foldOpen_eq hp hfr hm hpat hvi hfast hload he]
  exact if_pos (by simpa [or_assoc] using h)

section
variable (hdone : (s.core c).slotDone = true) (hsub : 16 ≤ s.subtick) (hcyc : e.1 ≤ s.frameCycle fr)
include hdone hsub hcyc

theorem foldOpen_opens {i : Nat} (hi : e.2.2.2.1 = 0 ∧ e.2.2.1 = i ∨ e.2.2.2.1 ≠ 0 ∧ bubbleConfig (s.part p) fr vi e.1 e.2.1 = some i) :
    foldOpen c s = (s.setCore c (({ s.core c with slotIndex := (s.core c).slotIndex + 1 } : Core).openSlot i)).tally 0 c 0x0A 1 := by
  rw [foldOpen_eq hp hfr hm hpat hvi hfast hload he, if_neg (by simp [hdone]; omega)]
  rcases hi with ⟨h0, rfl⟩ | ⟨h0, hb⟩
  · exact if_pos (by simpa using h0)
  · rw [if_neg (by simpa using h0), hb]

theorem foldOpen_passes (h0 : e.2.2.2.1 ≠ 0) (hb : bubbleConfig (s.part p) fr vi e.1 e.2.1 = none) :
    foldOpen c s = s.setCore c { s.core c with slotIndex := (s.core c).slotIndex + 1 } := by
  rw [foldOpen_eq hp hfr hm hpat hvi hfast hload he, if_neg (by simp [hdone]; omega), if_neg (by simpa using h0), hb]

end
end

/-! ### A filler slot ends (R105, R188) -/

/-- A thread of the configuration of a filler slot that ends. -/
def endThreadOf (r : BitVec 256) (t : Nat) (th : Thread) : Thread :=
  if bitOf (cfgField r 0 16) t && th.state != .yielded && th.state != .faulted then { th with state := .suspended, pend := .none } else th

/-- The threads of a core whose filler slot of configuration record r ends. -/
@[irreducible] def endThreads (r : BitVec 256) (m : KMap Thread) : KMap Thread :=
  (List.range 16).foldl (fun m t => kmod {} m t (endThreadOf r t)) m

/-- A core whose filler slot has ended, before the filler's drain is put by. -/
def Core.cutFiller (k : Core) : Core :=
  { k with
    threads := endThreads k.activeCfg k.threads
    slotOpen := none
    fillerCut := true }

theorem Core.endFiller_eq (k : Core) : k.endFiller = match k.cutFiller.drain with
    | some d =>
      if cfgFiller (k.cutFiller.cfg d.cfg.toNat) then Core.wake { k.cutFiller with drain := none, suspended := some d } fun st => st == .waitArray
      else k.cutFiller
    | none => k.cutFiller := by
  unfold Core.endFiller Core.cutFiller endThreads endThreadOf
  rfl

/-- A wake changes no thread in a state that it does not name. -/
theorem Core.wake_thread {k : Core} {f : ThreadState → Bool} {t : Nat} (h : f (k.thread t).state = false) : (k.wake f).thread t = k.thread t := by
  refine List.foldlRecOn (motive := fun m : KMap Thread => kget {} m t = k.thread t) _ _ rfl fun m hm j _ => ?_
  by_cases hj : j = t
  · subst hj
    rw [kget_kmod_same, hm, h]
    rfl
  · rw [kget_kmod_other _ _ _ hj, hm]

theorem Core.cutFiller_thread (k : Core) {t : Nat} (ht : t < 16) (hb : bitOf (cfgField k.activeCfg 0 16) t = true)
    (hy : (k.thread t).state ≠ .yielded) (hf : (k.thread t).state ≠ .faulted) :
    k.cutFiller.thread t = { k.thread t with state := .suspended, pend := .none } := by
  unfold Core.thread at hy hf ⊢
  change kget {} (endThreads k.activeCfg k.threads) t = _
  unfold endThreads
  rw [kget_foldl_range, if_pos ht]
  exact if_pos (by simpa [hb] using ⟨hy, hf⟩)

/-- What shows of a core whose filler slot has ended. -/
theorem Core.endFiller_facts (k : Core) : k.endFiller.slotOpen = none ∧ k.endFiller.fillerCut = true ∧
    ∀ t, t < 16 → bitOf (cfgField k.activeCfg 0 16) t = true → (k.thread t).state ≠ .yielded → (k.thread t).state ≠ .faulted →
      k.endFiller.thread t = { k.thread t with state := .suspended, pend := .none } := by
  rw [Core.endFiller_eq]
  split
  next d _ =>
    split
    · refine ⟨rfl, rfl, fun t ht hb hy hf => ?_⟩
      have hcut := k.cutFiller_thread ht hb hy hf
      refine (Core.wake_thread ?_).trans hcut
      exact (congrArg (fun th : Thread => th.state == .waitArray) hcut).trans rfl
    · exact ⟨rfl, rfl, fun t => k.cutFiller_thread⟩
  · exact ⟨rfl, rfl, fun t => k.cutFiller_thread⟩

section
variable {s : State} {c : Nat} (hcore : s.isCore c = true) (hrun : s.engineRuns c = true)
include hcore hrun

theorem exec_fillerSlotEnd : exec (.fillerSlotEnd c) s =
    .next (if (s.core c).fillerOpen && s.slotEnds c 0 then s.modCore c Core.endFiller else s) :=
  engine_runs hcore hrun fun s => if (s.core c).fillerOpen && s.slotEnds c 0 then s.modCore c Core.endFiller else s

theorem exec_fillerPortCutoff : exec (.fillerPortCutoff c) s =
    .next (if (s.core c).fillerOpen && s.slotEnds c 256 then s.modCore c ({ · with fillerCut := true }) else s) :=
  engine_runs hcore hrun fun s => if (s.core c).fillerOpen && s.slotEnds c 256 then s.modCore c ({ · with fillerCut := true }) else s

end

end Sys2Proof.Machine

namespace Sys2Proof.Proofs
open Sys2Proof.Machine Sys2Proof.Claims

/-- Settles O29. A slot opens by one fold over the threads; a filler's end suspends them, and the wake of those that waited for its drain
meets none of them. -/
theorem foldSlots : Obligations.FoldSlots := by
  unfold Obligations.FoldSlots
  intro s c p pat vi fr m e hcore hrun
  refine ⟨fun hp hfr hm hpat hvi hfast hload he => ⟨fun hdone hsub hcyc => ⟨fun i hi hcfg => ?_, fun h0 hb => ?_⟩, fun h => ?_⟩, fun h => ?_,
    fun h => ?_, fun hopen => ⟨fun hend => ?_, fun hend => ?_⟩⟩
  · have hexec : exec (.foldSlotOpen c) s = .next (foldOpen c s) := engine_runs hcore hrun _
    rw [foldOpen_opens hp hfr hm hpat hvi hfast hload he hdone hsub hcyc hcfg] at hexec
    obtain ⟨-, hslot, harr, hgen, hidx, hcut⟩ := Core.openSlot_facts { s.core c with slotIndex := (s.core c).slotIndex + 1 } i
    have hnew : ((s.setCore c (({ s.core c with slotIndex := (s.core c).slotIndex + 1 } : Core).openSlot i)).tally 0 c 0x0A 1).core c =
        ({ s.core c with slotIndex := (s.core c).slotIndex + 1 } : Core).openSlot i := by
      rw [State.core_tally, State.core_setCore_same]
    have hone : OneCore c s ((s.setCore c (({ s.core c with slotIndex := (s.core c).slotIndex + 1 } : Core).openSlot i)).tally 0 c 0x0A 1) :=
      oneCore_trans (oneCore_modCore c s fun _ => _) (oneCore_tally c _ 0 c 0x0A 1)
    have hmem := State.tally_mem (s.setCore c (({ s.core c with slotIndex := (s.core c).slotIndex + 1 } : Core).openSlot i)) 0 c 0x0A 1
    have hmarks := State.tally_marks (s.setCore c (({ s.core c with slotIndex := (s.core c).slotIndex + 1 } : Core).openSlot i)) 0 c 0x0A 1
    rw [State.setCore_mem] at hmem
    rw [State.setCore_marks] at hmarks
    generalize (s.setCore c (({ s.core c with slotIndex := (s.core c).slotIndex + 1 } : Core).openSlot i)).tally 0 c 0x0A 1 = u
      at hexec hnew hone hmem hmarks
    refine ⟨u, hexec, hone, sameMemory_of hmem hmarks, ?_⟩
    rw [hnew]
    exact ⟨hslot, harr, hgen, hidx, hcut, fun t ht hf hb => Core.openSlot_thread { s.core c with slotIndex := _ } i ht hf hb⟩
  · exact (engine_runs hcore hrun _).trans (congrArg _ (foldOpen_passes hp hfr hm hpat hvi hfast hload he hdone hsub hcyc h0 hb))
  · exact (engine_runs hcore hrun _).trans (congrArg _ (foldOpen_early hp hfr hm hpat hvi hfast hload he h))
  · exact (exec_fillerSlotEnd hcore hrun).trans (congrArg _ (if_neg (by rcases h with h | h <;> simp [h])))
  · exact (exec_fillerPortCutoff hcore hrun).trans (congrArg _ (if_neg (by rcases h with h | h <;> simp [h])))
  · have hexec := (exec_fillerSlotEnd hcore hrun).trans (congrArg _ (if_pos (by simp [hopen, hend])))
    refine ⟨_, hexec, oneCore_modCore c s _, sameMemory_of rfl rfl, ?_⟩
    rw [State.core_modCore_same]
    exact (s.core c).endFiller_facts
  · have hexec := (exec_fillerPortCutoff hcore hrun).trans (congrArg _ (if_pos (by simp [hopen, hend])))
    exact ⟨_, hexec, oneCore_modCore c s _, sameMemory_of rfl rfl, State.core_modCore_same _ _ _⟩

end Sys2Proof.Proofs
end

section
/-! PROOFS. Debug reads of accumulators, the turns of a mirror engine and the end of a mirror (O30; R193, R436, R437). -/

namespace Sys2Proof.Machine
open Sys2Proof.Claims

/-! ### Debug reads of accumulators (R193) -/

theorem exec_debugAccRead {s : State} {f c : Nat} (hf : f < 256) (hc : s.isCore c = true) (off n : Nat) :
    exec (.debugAccRead f c off n) s = .next (if s.mgmt.dark || !accRange off n then s else s.serveAcc c off n) := by
  change execDebugAccRead f c off n s = _
  unfold execDebugAccRead
  rw [if_neg (by simp [hc, hf])]
  split <;> rfl

section
variable {s : State} {c : Nat} (off n : Nat)

theorem State.serveAcc_free (hp : (s.debugPart c).isSome = true) (h : s.accFree c = true) :
    s.serveAcc c off n = { s with obs := { s.obs with accOut := s.obs.accOut ++ s.accUnits c off n } } := by
  unfold State.serveAcc
  rw [if_neg (by simpa [Option.isSome_iff_ne_none] using hp), h]
  dsimp only
  rw [if_pos rfl, if_pos rfl, if_neg (Nat.lt_irrefl n)]

theorem State.serveAcc_window (hp : (s.debugPart c).isSome = true) (h : s.accFree c = false) (hs : s.subtick ≤ 15) :
    s.serveAcc c off n =
      let used := kget 0 s.obs.accServed c
      let k := min n (8 - used)
      { s with obs := { s.obs with
        accOut := s.obs.accOut ++ s.accUnits c off k
        accServed := kset 0 s.obs.accServed c (used + k)
        accWait := if k < n then s.obs.accWait ++ [(c, off + 32 * k, n - k)] else s.obs.accWait } } := by
  unfold State.serveAcc
  rw [if_neg (by simpa [Option.isSome_iff_ne_none] using hp), h]
  dsimp only
  rw [if_neg Bool.false_ne_true, if_pos hs, if_neg Bool.false_ne_true]

theorem State.serveAcc_absent (h : s.debugPart c = none) : s.serveAcc c off n = s := by
  unfold State.serveAcc
  exact if_pos (by simp [h])

/-- A unit that is not withheld is among those read. -/
theorem State.mem_accUnits {i : Nat} (hi : i < n) (h : s.unitWithheld c (off + 32 * i) = false) :
    (padWindow c + off + 32 * i, ofNat256 (Mem.readNat s.mem (padWindow c + off + 32 * i) 32),
      kget false s.marks (markBase (padWindow c + off + 32 * i))) ∈ s.accUnits c off n := by
  unfold State.accUnits
  refine List.mem_filterMap.mpr ⟨i, List.mem_range.mpr hi, ?_⟩
  dsimp only
  rw [if_neg (by simp [h])]

end

/-! ### One turn of a mirror engine (R436) -/

section
variable {s : State} {c p : Nat} {fr : Frame} {m : ImgHeld} (hc : s.isCore c = true) (hr : s.engineRuns c = true)
  (hp : s.partOf c = some p) (hfr : (s.part p).mirroring = some fr) (hm : (s.part p).image = some m)
include hc hr hp hfr hm

theorem exec_mirrorTurn : exec (.mirrorTurn c) s = .next (if m.coreSize c ≤ 32 * (s.core c).mirrored then s
    else (s.mirrorUnit m ((s.part p).snap fr.ord) c (s.core c).mirrored).modCore c fun k => { k with mirrored := (s.core c).mirrored + 1 }) := by
  have hexec : exec (.mirrorTurn c) s = .next (s.mirrorTurn c) := by
    change execMirrorTurn c s = _
    unfold execMirrorTurn
    rw [hc, hr]
    rfl
  rw [hexec]
  unfold State.mirrorTurn
  rw [hp]
  dsimp only
  rw [hfr, hm]

end

/-- One unit of a core's carried state in its slot, and nothing else written. -/
theorem State.mirrorUnit_facts (s : State) (m : ImgHeld) (snap : Snap) (c n : Nat) :
    WritesOnly s (s.mirrorUnit m snap c n) ∧ SameOutside s (s.mirrorUnit m snap c n) (s.slotCore m (snap.ord % 2) c + 32 * n) 32 ∧
      ∀ j, j < 32 → 32 * n + j < (s.carriedBytes m snap c).length →
        Mem.read (s.mirrorUnit m snap c n).mem (s.slotCore m (snap.ord % 2) c + 32 * n + j) = (s.carriedBytes m snap c).getD (32 * n + j) 0 := by
  refine ⟨writesOnly_writeMarked s _ _ false, fun a ha => sameOutside_writeMarked s _ _ false a ?_, fun j hj hlen => ?_⟩
  · have hle : (((s.carriedBytes m snap c).drop (32 * n)).take 32).length ≤ 32 := by
      rw [List.length_take]
      exact Nat.min_le_left _ _
    omega
  · refine (s.read_writeMarked_inside _ _ false j ?_).trans ?_
    · rw [List.length_take, List.length_drop]
      omega
    · rw [List.getD_eq_getElem?_getD, List.getD_eq_getElem?_getD, List.getElem?_take_of_lt hj, List.getElem?_drop]

/-! ### The end of a mirror (R437) -/

/-- Memory and cores may be written; partitions stand. -/
def PartsStand (s u : State) : Prop := u.parts = s.parts

theorem partsStand_writeMarked (s : State) (k : Nat) (bs : List Byte) (mark : Bool) : PartsStand s (s.writeMarked k bs mark) := by
  have h := writesOnly_writeMarked s k bs mark
  unfold WritesOnly at h
  exact (congrArg State.parts h).trans rfl

theorem partsStand_mirrorRest (s : State) (m : ImgHeld) (snap : Snap) (c : Nat) : PartsStand s (s.mirrorRest m snap c) :=
  partsStand_writeMarked s _ _ false

theorem partsStand_foldl {α : Type} (f : State → α → State) (hf : ∀ s x, PartsStand s (f s x)) (l : List α) (s : State) :
    PartsStand s (l.foldl f s) :=
  List.foldlRecOn (motive := fun u => PartsStand s u) _ _ rfl fun u hu x _ => (hf u x).trans hu

/-- Every engine done and every die's header written. -/
def State.mirrorWritten (s : State) (x : Part) (fr : Frame) : State :=
  match x.image with
  | none => s
  | some m => x.dies.foldl (fun s d => s.writeHeader m fr d)
      ((s.coresOf x).foldl (fun s c => s.mirrorRest m (x.snap fr.ord) c) s)

theorem partsStand_mirrorWritten (s : State) (x : Part) (fr : Frame) : PartsStand s (s.mirrorWritten x fr) := by
  unfold State.mirrorWritten
  split
  · exact rfl
  next m _ =>
    exact (partsStand_foldl _ (fun s d => partsStand_writeMarked s _ _ false) _ _).trans
      (partsStand_foldl _ (fun s c => partsStand_mirrorRest s m _ c) _ _)

theorem Part.snap_setSnap (x : Part) (ord : Nat) (k : Snap) : (x.setSnap ord k).snap ord = k := by
  unfold Part.setSnap Part.snap
  by_cases h : (ord % 2 == 0) = true
  · rw [if_pos h, if_pos h]
  · rw [if_neg h, if_neg h]

theorem Part.setSnap_frames (x : Part) (ord : Nat) (k : Snap) : (x.setSnap ord k).ord = x.ord ∧ (x.setSnap ord k).frame = x.frame := by
  unfold Part.setSnap
  split <;> exact ⟨rfl, rfl⟩

/-- A partition whose sealed frame has been mirrored, its slot holding a snapshot. -/
def Part.mirroredWith (x : Part) (fr : Frame) (k : Snap) : Part := { x.setSnap fr.ord k with sealed := some { fr with mirrored := true } }

theorem Part.mirroredWith_facts (x : Part) (fr : Frame) (k : Snap) :
    (x.mirroredWith fr k).sealed = some { fr with mirrored := true } ∧ (x.mirroredWith fr k).mirroring = none ∧
      (x.mirroredWith fr k).snap fr.ord = k ∧ (x.mirroredWith fr k).ord = x.ord ∧ (x.mirroredWith fr k).frame = x.frame :=
  ⟨rfl, rfl, x.snap_setSnap fr.ord k, (x.setSnap_frames fr.ord k).1, (x.setSnap_frames fr.ord k).2⟩

section
variable {s : State} {p : Nat} (hp : p < 8) (hh : s.halted = false) (hs : s.partStill p = false)
include hp hh hs

theorem exec_mirrorComplete : exec (.mirrorComplete p) s = .next (s.mirrorComplete p) := by
  change execMirrorComplete p s = _
  unfold execMirrorComplete
  rw [if_neg (by omega), hh, hs]
  rfl

end

theorem State.mirrorComplete_none {s : State} {p : Nat} (h : (s.part p).mirroring = none) : s.mirrorComplete p = s := by
  unfold State.mirrorComplete
  dsimp only
  rw [h]

theorem State.mirrorComplete_some {s : State} {p : Nat} {fr : Frame} (h : (s.part p).mirroring = some fr) : ∃ k : Snap, k.valid = true ∧
    s.mirrorComplete p = (s.mirrorWritten (s.part p) fr).modPart p fun x => x.mirroredWith fr k := by
  suffices hk : ∃ ranges marks, s.mirrorComplete p = (s.mirrorWritten (s.part p) fr).modPart p fun x =>
      x.mirroredWith fr { (s.part p).snap fr.ord with valid := true, ranges := ranges, marks := marks } by
    obtain ⟨ranges, marks, hk⟩ := hk
    exact ⟨_, rfl, hk⟩
  unfold State.mirrorComplete
  dsimp only
  rw [h]
  exact ⟨_, _, rfl⟩

end Sys2Proof.Machine

namespace Sys2Proof.Proofs
open Sys2Proof.Machine Sys2Proof.Claims

/-- Settles O30. A turn of a mirror engine is one marked write of at most 32 bytes; the end of a mirror writes memory and cores, and then
the partition alone. -/
theorem readsAndMirror : Obligations.ReadsAndMirror := by
  unfold Obligations.ReadsAndMirror
  refine ⟨fun s f c off n p fr m hc => ⟨fun hf hd hrange hpart => ⟨fun hfree => ?_, fun hfree hsub => ?_⟩, fun i hi h => ?_, fun hf h => ?_,
    fun hr hp hfr hm => ⟨fun hlt => ?_, fun hle => ?_⟩⟩, fun s p fr hp hh hs => ⟨fun h => ?_, fun h => ?_⟩⟩
  · rw [exec_debugAccRead hf hc, if_neg (by simp [hd, hrange]), State.serveAcc_free off n hpart hfree]
  · rw [exec_debugAccRead hf hc, if_neg (by simp [hd, hrange]), State.serveAcc_window off n hpart hfree hsub]
  · exact State.mem_accUnits off n hi h
  · rw [exec_debugAccRead hf hc]
    rcases h with h | h
    · rw [if_pos (by simp [h])]
    · rw [State.serveAcc_absent off n h, ite_self]
  · obtain ⟨hwrites, hout, hin⟩ := s.mirrorUnit_facts m ((s.part p).snap fr.ord) c (s.core c).mirrored
    have hexec := exec_mirrorTurn hc hr hp hfr hm
    rw [if_neg (by omega)] at hexec
    unfold WritesOnly at hwrites
    generalize s.mirrorUnit m ((s.part p).snap fr.ord) c (s.core c).mirrored = w at hwrites hout hin hexec
    have hcore : w.core c = s.core c := core_of_cores ((congrArg State.cores hwrites).trans rfl) c
    refine ⟨_, hexec, ?_, hin, hout, (congrArg State.held hwrites).trans rfl, (congrArg State.regs hwrites).trans rfl,
      (congrArg State.cmds hwrites).trans rfl⟩
    rw [State.core_modCore_same, hcore]
  · rw [exec_mirrorTurn hc hr hp hfr hm, if_pos hle]
  · obtain ⟨k, hvalid, hk⟩ := State.mirrorComplete_some h
    have hpart (q : Nat) : (s.mirrorWritten (s.part p) fr).part q = s.part q := part_of_parts (partsStand_mirrorWritten s (s.part p) fr) q
    refine ⟨_, (exec_mirrorComplete hp hh hs).trans (congrArg _ hk), ?_⟩
    obtain ⟨hsealed, hmir, hsnap, hord, hframe⟩ := (s.part p).mirroredWith_facts fr k
    rw [State.part_modPart_same, hpart]
    refine ⟨hsealed, hmir, (congrArg Snap.valid hsnap).trans hvalid, hord, hframe, fun q hq => ?_⟩
    rw [State.part_modPart_other _ _ (Ne.symm hq), hpart]
  · rw [exec_mirrorComplete hp hh hs, State.mirrorComplete_none h]

end Sys2Proof.Proofs
end

section
/-! PROOFS. The core walker: starts, units, release waits and tiles (O28; R232, R244–R246, R249–R254). -/

namespace Sys2Proof.Machine
open Sys2Proof.Claims

/-! ### A slot faults (R106, R254) -/

/-- Dropping requests at the ports leaves each core but for its port's queue. -/
theorem orphan_core (c i : Nat) (keys : List Nat) (s : State) (d : Nat) : ∃ l,
    (keys.foldl (fun s d => s.modCore d fun k => { k with ext := k.ext.filterMap (ExtReq.orphan c i) }) s).core d = { s.core d with ext := l } := by
  refine List.foldlRecOn (motive := fun u : State => ∃ l, u.core d = { s.core d with ext := l }) _ _ ⟨_, rfl⟩ fun u hu e _ => ?_
  obtain ⟨l, hl⟩ := hu
  by_cases he : e = d
  · subst he
    exact ⟨_, by rw [State.core_modCore_same, hl]⟩
  · exact ⟨l, by rw [State.core_modCore_other _ _ he, hl]⟩

theorem State.slotFault_facts (s : State) (c i : Nat) (sl : DmaSlot) (cause : Cause) : ((s.slotFault c i sl cause).core c).slot i = none ∧
    (((s.slotFault c i sl cause).core c).thread sl.thread.toNat).state = .faulted := by
  unfold State.slotFault
  dsimp only
  rw [State.coreFault_core, State.core_modCore_same]
  obtain ⟨l, hl⟩ := orphan_core c i (kkeys (s.modCore c fun k => (k.setSlot i none).wake fun st => st == .waitDma || st == .waitArray).cores)
    (s.modCore c fun k => (k.setSlot i none).wake fun st => st == .waitDma || st == .waitArray) c
  rw [hl, State.core_modCore_same]
  refine ⟨(s.core c).slot_setSlot_same i none, ?_⟩
  rw [Core.thread_modThread_same]

/-! ### A walk starts (R245, R250, R254) -/

theorem State.readPointer_based (s : State) (c : Nat) (sl : DmaSlot) {w : WalkBlk} (run : WalkRun) (h : w.bmode ≠ 2) :
    s.readPointer c sl w run = some run := if_pos (by simpa using h)

/-- The address of an item's pointer. -/
def WalkBlk.pointerAt (w : WalkBlk) (item : Nat) : Nat := w.ptrList + 8 * item

/-- The pointer of an item, read with its line. -/
def State.itemPointer (s : State) (v : Viewer) (w : WalkBlk) (item : Nat) : Nat :=
  leNat (((s.seenBytes v (w.pointerAt item / 256 * 256) 256).drop (w.pointerAt item % 256)).take 8)

/-- May the walker of core c read an item's pointer: does its tenant own it, in the core's die's store? -/
def State.pointerOwned (s : State) (c f : Nat) (w : WalkBlk) (item : Nat) : Bool :=
  s.ownsStore f (w.pointerAt item) 8 && (w.pointerAt item - storeKey) / 0x20000000 == dieOf c

section
variable (s : State) (v : Viewer) (w : WalkBlk) {run : WalkRun} (hb : run.ptrBytes = []) (ha : run.ptrAhead = [])
include hb ha

/-- With nothing read ahead the pointer's line is read now, and the line after it where a later pointer lies there. -/
theorem State.pointerLine_fresh : s.pointerLine v w run = { run with
    ptrLine := w.pointerAt run.item / 256 * 256
    ptrBytes := s.seenBytes v (w.pointerAt run.item / 256 * 256) 256
    ptrAhead := if w.pointerAt run.item / 256 * 256 + 256 ≤ w.ptrList + 8 * (w.items - 1)
      then s.seenBytes v (w.pointerAt run.item / 256 * 256 + 256) 256 else [] } := by
  unfold State.pointerLine
  dsimp only
  rw [hb, ha, if_neg (by simp), if_neg (by simp)]
  rfl

variable (c : Nat) (sl : DmaSlot) (hm : w.bmode = 2) (hv : v = s.viewerOf c sl.cfg)
include hm hv

theorem State.readPointer_listed (hown : s.pointerOwned c (cfgTenant ((s.core c).cfg sl.cfg.toNat)) w run.item = true)
    (hok : w.pointerOk 2 (s.itemPointer v w run.item) = true) :
    s.readPointer c sl w run = some { s.pointerLine v w run with ptr := s.itemPointer v w run.item } := by
  unfold State.pointerOwned WalkBlk.pointerAt at hown
  unfold State.readPointer
  rw [if_neg (by simp [hm])]
  dsimp only
  rw [if_neg (by simpa using hown), ← hv, s.pointerLine_fresh v w hb ha]
  exact if_pos hok

theorem State.readPointer_refused (h : s.pointerOwned c (cfgTenant ((s.core c).cfg sl.cfg.toNat)) w run.item = false ∨
    w.pointerOk 2 (s.itemPointer v w run.item) = false) : s.readPointer c sl w run = none := by
  unfold State.readPointer
  rw [if_neg (by simp [hm])]
  dsimp only
  by_cases hown : s.pointerOwned c (cfgTenant ((s.core c).cfg sl.cfg.toNat)) w run.item = true
  · have hok := h.resolve_left (by simp [hown])
    unfold State.pointerOwned WalkBlk.pointerAt at hown
    rw [if_neg (by simpa using hown), ← hv, s.pointerLine_fresh v w hb ha]
    have hno : ¬ w.pointerOk 2 (s.itemPointer v w run.item) = true := by simp [hok]
    exact if_neg hno
  · unfold State.pointerOwned WalkBlk.pointerAt at hown
    exact if_pos ((Bool.not_eq_true' _).mpr (eq_false_of_ne_true hown))

end

/-- A walk that has started with its block, at its first tile, its pointer still to be read. -/
def State.startedRun (s : State) (c : Nat) (sl : DmaSlot) (run : WalkRun) : WalkRun :=
  let bytes := s.seenBytes (s.viewerOf c sl.cfg) run.blockAddr 128
  { run with
    block := bytes, started := true, crel := (s.core c).ctr (parseWalk bytes).rctr
    front := BitVec.ofNat 2 (natOf (s.core c).frontW + 2 * natOf (s.core c).frontA)
    point := ((parseWalk bytes).nextPoint ((parseWalk bytes).span + 1) 0).getD 0 }

/-- Does a walk's block pass every check of its start? -/
def State.blockGood (s : State) (c : Nat) (sl : DmaSlot) (w : WalkBlk) : Bool :=
  let r := (s.core c).cfg sl.cfg.toNat
  w.ok 2 && (!w.relEn || cntAllowed r w.rctr) && ringBound c r (s.core c).frontW (s.core c).frontA w

/-- The FRONT bits that a walk keeps. -/
theorem front_bits (a b : Bool) : (BitVec.ofNat 2 (natOf a + 2 * natOf b)).getLsbD 0 = a ∧ (BitVec.ofNat 2 (natOf a + 2 * natOf b)).getLsbD 1 = b := by
  cases a <;> cases b <;> decide

section
variable {s : State} {c i : Nat} {sl : DmaSlot} {run : WalkRun} (hs : (s.core c).slot i = some sl) (hw : sl.walk = some run)
include hs hw

section
variable (hst : run.started = false)
include hst

theorem walkStart_refused (hgood : s.blockGood c sl (parseWalk (s.seenBytes (s.viewerOf c sl.cfg) run.blockAddr 128)) = false) :
    walkStart c i s = s.slotFault c i sl .dma := by
  unfold State.blockGood at hgood
  unfold walkStart
  rw [hs]
  dsimp only
  rw [hw]
  dsimp only
  rw [hst, if_neg Bool.false_ne_true]
  exact if_neg (by rw [hgood]; exact Bool.false_ne_true)

variable (hgood : s.blockGood c sl (parseWalk (s.seenBytes (s.viewerOf c sl.cfg) run.blockAddr 128)) = true)
include hgood

theorem walkStart_eq : walkStart c i s =
    ((s.readPointer c sl (parseWalk (s.seenBytes (s.viewerOf c sl.cfg) run.blockAddr 128)) (s.startedRun c sl run)).map fun y =>
      s.setSlot c i (some (tileSlot c s sl (parseWalk (s.seenBytes (s.viewerOf c sl.cfg) run.blockAddr 128)) y))).getD
        (s.slotFault c i sl .dma) := by
  unfold State.blockGood at hgood
  unfold walkStart
  rw [hs]
  dsimp only
  rw [hw]
  dsimp only
  rw [hst, if_neg Bool.false_ne_true]
  refine (if_pos hgood).trans ?_
  have hrun : ∀ o : Option WalkRun, (match o with
      | none => s.slotFault c i sl .dma
      | some y => s.setSlot c i (some (tileSlot c s sl (parseWalk (s.seenBytes (s.viewerOf c sl.cfg) run.blockAddr 128)) y))) =
      (o.map fun y => s.setSlot c i (some (tileSlot c s sl (parseWalk (s.seenBytes (s.viewerOf c sl.cfg) run.blockAddr 128)) y))).getD
        (s.slotFault c i sl .dma) := fun o => by cases o <;> rfl
  exact hrun _

end

/-! ### One unit (R92, R251, R254) -/

section
variable (hm : (s.core c).mayMove sl = true) (hst : run.started = true) (hrel : run.releaseWait = false) {n : Nat}
  {l : List (Nat × ByteSrc)} (hu : run.unitBytes = some (n, l))
include hm hst hrel hu

theorem slotTurn_walk : slotTurn c i s = match s.walkCells c sl run.front l with
    | .error e => some (s.slotFault c i sl e)
    | .ok x => match run.asked with
      | some 0 => walkMove c i sl run n x s
      | some _ => none
      | none => match otherCores c x.reads with
        | [] => walkMove c i sl run n x s
        | d :: ds => some ((d :: ds).foldl (fun s e => s.modCore e fun k => { k with ext := k.ext ++ [.walkRead c i] })
            (s.setSlot c i (some { sl with walk := some { run with asked := some (ds.length + 1) } }))) := by
  rw [slotTurn_of_walk hs hw hm]
  unfold walkTurn
  rw [if_neg (by simp [hst, hrel]), hu] <;> rfl

theorem slotTurn_refused {e : Cause} (hx : s.walkCells c sl run.front l = .error e) : slotTurn c i s = some (s.slotFault c i sl e) := by
  rw [slotTurn_walk hs hw hm hst hrel hu, hx]

section
variable {x : WalkUnit} (hx : s.walkCells c sl run.front l = .ok x)
include hx

theorem slotTurn_moves (ha : run.asked = some 0 ∨ run.asked = none ∧ otherCores c x.reads = []) :
    slotTurn c i s = walkMove c i sl run n x s := by
  rw [slotTurn_walk hs hw hm hst hrel hu, hx]
  rcases ha with ha | ⟨ha, ho⟩
  · dsimp only
    rw [ha] <;> rfl
  · dsimp only
    rw [ha, ho]

theorem slotTurn_asks (ha : run.asked = none) {d : Nat} {ds : List Nat} (ho : otherCores c x.reads = d :: ds) :
    slotTurn c i s = some ((d :: ds).foldl (fun s e => s.modCore e fun k => { k with ext := k.ext ++ [.walkRead c i] })
      (s.setSlot c i (some { sl with walk := some { run with asked := some (ds.length + 1) } }))) := by
  rw [slotTurn_walk hs hw hm hst hrel hu, hx]
  dsimp only
  rw [ha, ho]

end
end
end

theorem walkMove_moved {s y : State} {c i n out : Nat} {sl : DmaSlot} {run : WalkRun} {x : WalkUnit}
    (h : s.walkWrite c i sl.cfg x.cells x.mark = .moved y out) : walkMove c i sl run n x s = some (y.setSlot c i (some { sl with
      readPos := sl.readPos + 32
      walk := some { run with unit := n + 1, asked := none, out := run.out + out } })) := by
  unfold walkMove
  rw [h]

theorem walkMove_refused {s : State} {c i n : Nat} {sl : DmaSlot} {run : WalkRun} {x : WalkUnit}
    (h : s.walkWrite c i sl.cfg x.cells x.mark = .refused) : walkMove c i sl run n x s = some (s.slotFault c i sl .bounds) := by
  unfold walkMove
  rw [h]

/-- A unit written changes its cells at most; into the own pad it changes them to its bytes. -/
theorem State.walkWrite_mem {s y : State} {c i out : Nat} {cfg : BitVec 3} {cells : List (Nat × Byte)} {mark : Bool}
    (h : s.walkWrite c i cfg cells mark = .moved y out) : (∀ a, a ∉ cells.map (·.1) → Mem.read y.mem a = Mem.read s.mem a) ∧
      ∀ z zs, cells = z :: zs → padWindow c ≤ z.1 → z.1 < padWindow c + 0x28000 → (cells.map (·.1)).Nodup →
        ∀ x, x ∈ cells → Mem.read y.mem x.1 = x.2 := by
  unfold State.walkWrite at h
  split at h
  · injection h with hy
    subst hy
    exact ⟨fun _ _ => rfl, fun z zs hz => absurd hz (by simp)⟩
  next k b more =>
    dsimp only at h
    split at h
    · split at h
      · exact absurd h (by simp)
      · injection h with hy
        subst hy
        refine ⟨fun a ha => Mem.read_writeCells_other _ _ _ fun x hx he => ha (he ▸ List.mem_map_of_mem hx), fun z zs _ _ _ hnd x hx =>
          Mem.read_writeCells_mem _ _ x hnd hx⟩
    next hown =>
      have hfar (hmem : y.mem = s.mem) : (∀ a, a ∉ ((k, b) :: more).map (·.1) → Mem.read y.mem a = Mem.read s.mem a) ∧
          ∀ z zs, (k, b) :: more = z :: zs → padWindow c ≤ z.1 → z.1 < padWindow c + 0x28000 → (((k, b) :: more).map (·.1)).Nodup →
            ∀ x, x ∈ (k, b) :: more → Mem.read y.mem x.1 = x.2 := by
        refine ⟨fun a _ => by rw [hmem], fun z zs hz hlo hhi _ => absurd ?_ hown⟩
        obtain ⟨rfl, -⟩ := List.cons_eq_cons.mp hz
        simp only [Bool.and_eq_true, decide_eq_true_eq]
        exact ⟨hlo, hhi⟩
      split at h
      · injection h with hy
        exact hfar (hy ▸ rfl)
      · split at h
        · exact absurd h (by simp)
        · split at h
          · injection h with hy
            exact hfar (hy ▸ rfl)
          · exact absurd h (by simp)

/-- A walk's requests wait behind what waits at each port asked. -/
theorem askPorts_core (c i : Nat) (l : List Nat) : ∀ (s : State) (d : Nat), l.Nodup →
    (l.foldl (fun s e => s.modCore e fun k => { k with ext := k.ext ++ [.walkRead c i] }) s).core d =
      { s.core d with ext := if d ∈ l then (s.core d).ext ++ [.walkRead c i] else (s.core d).ext } := by
  induction l with
  | nil => exact fun s d _ => rfl
  | cons e l ih =>
    intro s d hnd
    obtain ⟨he, hnd⟩ := List.nodup_cons.mp hnd
    rw [List.foldl_cons, ih _ d hnd]
    by_cases hd : e = d
    · subst hd
      rw [State.core_modCore_same, if_neg he, if_pos List.mem_cons_self]
    · rw [State.core_modCore_other _ _ hd]
      have hiff : d ∈ l ↔ d ∈ e :: l := ⟨List.mem_cons_of_mem e, fun h => (List.mem_cons.mp h).resolve_left (Ne.symm hd)⟩
      rw [if_congr hiff rfl rfl]

theorem askPorts_slot (c i : Nat) (l : List Nat) (s : State) (d j : Nat) (hnd : l.Nodup) :
    ((l.foldl (fun s e => s.modCore e fun k => { k with ext := k.ext ++ [.walkRead c i] }) s).core d).slot j = (s.core d).slot j := by
  rw [askPorts_core c i l s d hnd]
  rfl

theorem askPorts_only (c i : Nat) (l : List Nat) (s : State) :
    ∃ cores, l.foldl (fun s e => s.modCore e fun k => { k with ext := k.ext ++ [.walkRead c i] }) s = { s with cores := cores } :=
  List.foldlRecOn (motive := fun u : State => ∃ cores, u = { s with cores := cores }) _ _ ⟨s.cores, rfl⟩ fun u hu e _ => by
    obtain ⟨cores, rfl⟩ := hu
    exact ⟨_, rfl⟩

theorem otherCores_spec {c d : Nat} {keys : List Nat} (h : d ∈ otherCores c keys) : d ≠ c := by
  unfold otherCores at h
  rw [List.mem_eraseDups, List.mem_map] at h
  obtain ⟨k, hk, rfl⟩ := h
  have := (List.mem_filter.mp hk).2
  simp only [Bool.and_eq_true, bne_iff_ne] at this
  exact this.2

theorem nodup_eraseDups (l : List Nat) : l.eraseDups.Nodup := by
  match l with
  | [] => exact List.nodup_nil
  | a :: l =>
    rw [List.eraseDups_cons]
    refine List.nodup_cons.mpr ⟨fun h => ?_, nodup_eraseDups _⟩
    simp at h
termination_by l.length
decreasing_by exact Nat.lt_succ_of_le (List.length_filter_le _ _)

theorem otherCores_nodup (c : Nat) (keys : List Nat) : (otherCores c keys).Nodup := nodup_eraseDups _

/-! ### Commands of the walker -/

section
variable {s : State} {c : Nat} {slot : BitVec 3} (hc : s.isCore c = true) (hr : s.engineRuns c = true)
include hc hr

theorem exec_walkerStart : exec (.walkerStart c slot) s = .next (walkStart c slot.toNat s) := engine_runs hc hr _

theorem exec_walkerReleaseWaitEnd : exec (.walkerReleaseWaitEnd c slot) s = .next (walkRelease c slot.toNat s) := engine_runs hc hr _

theorem exec_tileArrival : exec (.tileArrival c slot) s = .next (tileArrive c slot.toNat s) := engine_runs hc hr _

theorem exec_walkerUnit : exec (.walkerUnit c slot) s = .next ((s.portTurn c).elim s fun x =>
    if x.1 == slot.toNat && (((s.core c).slot slot.toNat).bind (·.walk)).isSome then x.2 else s) := by
  refine (engine_runs hc hr fun s => match s.portTurn c with
    | some x => if x.1 == slot.toNat && (((s.core c).slot slot.toNat).bind (·.walk)).isSome then x.2 else s
    | none => s).trans ?_
  cases s.portTurn c <;> rfl

theorem exec_walkerUnit_turn {sl : DmaSlot} {run : WalkRun} {x : State} (hs : (s.core c).slot slot.toNat = some sl) (hw : sl.walk = some run)
    (hp : (s.core c).portPtr = slot.toNat) (ht : slotTurn c slot.toNat s = some x) :
    exec (.walkerUnit c slot) s = .next (x.modCore c fun k => k.pointPort slot.toNat) := by
  rw [exec_walkerUnit hc hr, State.portTurn_slot hp slot.isLt ht]
  exact congrArg _ (if_pos (by simp [hs, hw]))

/-- A walk whose turn ends it in a fault. -/
theorem exec_walkerUnit_faults {sl : DmaSlot} {run : WalkRun} {cause : Cause} (hs : (s.core c).slot slot.toNat = some sl) (hw : sl.walk = some run)
    (hp : (s.core c).portPtr = slot.toNat) (ht : slotTurn c slot.toNat s = some (s.slotFault c slot.toNat sl cause)) :
    ∃ u, exec (.walkerUnit c slot) s = .next u ∧ (u.core c).slot slot.toNat = none ∧
      ((u.core c).thread sl.thread.toNat).state = .faulted := by
  refine ⟨_, exec_walkerUnit_turn hc hr hs hw hp ht, ?_⟩
  obtain ⟨hfree, hfault⟩ := s.slotFault_facts c slot.toNat sl cause
  rw [State.core_modCore_same, Core.slot_pointPort, Core.thread_pointPort]
  exact ⟨hfree, hfault⟩

theorem exec_walkerUnit_idle (h : ∀ x, s.portTurn c = some x → x.1 ≠ slot.toNat) : exec (.walkerUnit c slot) s = .next s := by
  rw [exec_walkerUnit hc hr]
  cases hp : s.portTurn c with
  | none => rfl
  | some x => exact congrArg _ (if_neg (by simp [h x hp]))

end

/-! ### Release waits and tiles (R249, R253) -/

section
variable {s : State} {c i : Nat} {sl : DmaSlot} {run : WalkRun} (hs : (s.core c).slot i = some sl) (hw : sl.walk = some run)
include hs hw

theorem walkRelease_eq : walkRelease c i s =
    if run.releaseWait && waitHolds ((s.core c).ctr (parseWalk run.block).rctr)
        (run.crel + BitVec.ofNat 32 (run.seq - (parseWalk run.block).nbuf + 1)) then
      s.setSlot c i (some { sl with walk := some { run with releaseWait := false } })
    else s := by
  unfold walkRelease
  rw [hs]
  dsimp only
  rw [hw]

theorem tileArrive_eq : tileArrive c i s =
    if !run.started || run.releaseWait || run.unitBytes.isSome || run.out != 0 then s
    else match (parseWalk run.block).advance run.item run.point with
      | none => s.slotEnd c i sl true
      | some (b, j) =>
        let s0 := s.tally 0 c 6 1
        let s1 := if run.cpt then s0.modCore c (·.addCtr sl.ctr.toNat 1) else s0
        let run1 := { run with item := b, point := j, seq := run.seq + 1 }
        match (if b == run.item then some run1 else s1.readPointer c sl (parseWalk run.block) run1) with
        | none => s1.slotFault c i sl .dma
        | some run2 => (s1.setSlot c i (some (tileSlot c s1 sl (parseWalk run.block) run2))).modCore c (·.wake fun st => st == .waitArray) := by
  unfold tileArrive
  rw [hs]
  dsimp only
  rw [hw] <;> rfl

theorem tileArrive_stands (h : run.started = false ∨ run.releaseWait = true ∨ run.unitBytes.isSome = true ∨ run.out ≠ 0) :
    tileArrive c i s = s := by
  rw [tileArrive_eq hs hw]
  exact if_pos (by simpa [or_assoc] using h)

section
variable (hst : run.started = true) (hrel : run.releaseWait = false) (hu : run.unitBytes = none) (ho : run.out = 0)
include hst hrel hu ho

theorem tileArrive_last (ha : (parseWalk run.block).advance run.item run.point = none) : tileArrive c i s = s.slotEnd c i sl true := by
  rw [tileArrive_eq hs hw, if_neg (by simp [hst, hrel, hu, ho]), ha]

/-- The state in which a tile of a walk that goes on is counted. -/
def State.tileCounted (s : State) (c : Nat) (sl : DmaSlot) (cpt : Bool) : State :=
  if cpt then (s.tally 0 c 6 1).modCore c (·.addCtr sl.ctr.toNat 1) else s.tally 0 c 6 1

theorem tileArrive_next {b j : Nat} (ha : (parseWalk run.block).advance run.item run.point = some (b, j))
    (hb : b = run.item ∨ (parseWalk run.block).bmode ≠ 2) :
    tileArrive c i s = ((s.tileCounted c sl run.cpt).setSlot c i (some (tileSlot c (s.tileCounted c sl run.cpt) sl (parseWalk run.block)
      { run with item := b, point := j, seq := run.seq + 1 }))).modCore c (·.wake fun st => st == .waitArray) := by
  rw [tileArrive_eq hs hw, if_neg (by simp [hst, hrel, hu, ho]), ha]
  dsimp only
  have hrun : (if b == run.item then some { run with item := b, point := j, seq := run.seq + 1 }
      else (s.tileCounted c sl run.cpt).readPointer c sl (parseWalk run.block) { run with item := b, point := j, seq := run.seq + 1 }) =
      some { run with item := b, point := j, seq := run.seq + 1 } := by
    by_cases hitem : b = run.item
    · exact if_pos (by simpa using hitem)
    · rw [State.readPointer_based _ _ _ _ (hb.resolve_left hitem), ite_self]
  unfold State.tileCounted at hrun ⊢
  rw [hrun]

end
end

theorem State.tileCounted_facts (s : State) (c : Nat) (sl : DmaSlot) (cpt : Bool) :
    OneCore c s (s.tileCounted c sl cpt) ∧ (s.tileCounted c sl cpt).mem = s.mem ∧ (s.tileCounted c sl cpt).marks = s.marks ∧
      ((s.tileCounted c sl cpt).core c).ctr sl.ctr.toNat = (s.core c).ctr sl.ctr.toNat + (if cpt then 1 else 0) := by
  unfold State.tileCounted
  cases cpt with
  | true =>
    rw [if_pos rfl, if_pos rfl]
    refine ⟨oneCore_trans (oneCore_tally c s 0 c 6 1) (oneCore_modCore c _ _), rfl, rfl, ?_⟩
    rw [State.core_modCore_same, Core.addCtr_ctr_same, State.core_tally]
  | false =>
    rw [if_neg Bool.false_ne_true, if_neg Bool.false_ne_true]
    refine ⟨oneCore_tally c s 0 c 6 1, rfl, rfl, ?_⟩
    rw [State.core_tally]
    exact (BitVec.add_zero _).symm

/-! ### What shows of a walk that has started -/

/-- What shows of core c once the walk of its slot i has started with a run. -/
theorem setSlot_shows (s : State) (c i : Nat) (d : Option DmaSlot) : OneCore c s (s.setSlot c i d) ∧ SameMemory s (s.setSlot c i d) ∧
    ((s.setSlot c i d).core c).slot i = d ∧ (∀ j, j ≠ i → ((s.setSlot c i d).core c).slot j = (s.core c).slot j) ∧
    ∀ t, ((s.setSlot c i d).core c).thread t = (s.core c).thread t := by
  refine ⟨oneCore_modCore c s _, sameMemory_of rfl rfl, ?_⟩
  rw [setSlot_core_same]
  exact ⟨Core.slot_setSlot_same _ _ _, fun j hj => Core.slot_setSlot_other _ _ hj.symm, fun _ => rfl⟩

section
variable {s : State} {c : Nat} {slot : BitVec 3} (hc : s.isCore c = true) (hr : s.engineRuns c = true) {sl : DmaSlot} {run : WalkRun}
include hc hr

/-- A walk whose start fails a check. -/
theorem exec_walkerStart_faults (h : walkStart c slot.toNat s = s.slotFault c slot.toNat sl .dma) :
    ∃ u, exec (.walkerStart c slot) s = .next u ∧ (u.core c).slot slot.toNat = none ∧ ((u.core c).thread sl.thread.toNat).state = .faulted :=
  ⟨_, (exec_walkerStart hc hr).trans (congrArg _ h), s.slotFault_facts c slot.toNat sl .dma⟩

variable (hs : (s.core c).slot slot.toNat = some sl) (hw : sl.walk = some run) (hst : run.started = false)
  (hgood : s.blockGood c sl (parseWalk (s.seenBytes (s.viewerOf c sl.cfg) run.blockAddr 128)) = true) {y : WalkRun}
  (hy : s.readPointer c sl (parseWalk (s.seenBytes (s.viewerOf c sl.cfg) run.blockAddr 128)) (s.startedRun c sl run) = some y)
include hs hw hst hgood hy

theorem exec_walkerStart_starts : exec (.walkerStart c slot) s = .next (s.setSlot c slot.toNat
    (some (tileSlot c s sl (parseWalk (s.seenBytes (s.viewerOf c sl.cfg) run.blockAddr 128)) y))) := by
  rw [exec_walkerStart hc hr, walkStart_eq hs hw hst hgood, hy]
  rfl

end

end Sys2Proof.Machine

namespace Sys2Proof.Proofs
open Sys2Proof.Machine Sys2Proof.Claims

/-- Settles O28. Each command of the walker is one case of its definition; where the ports of other cores are asked, each is asked once. -/
theorem walkerMoves : Obligations.WalkerMoves := by
  unfold Obligations.WalkerMoves
  intro s c slot sl run hc hr hs hw
  refine ⟨fun hst => ⟨fun hgood hb => ?_, fun hgood hb hbytes hahead => ⟨fun hown hok => ?_, fun h => ?_⟩, fun hgood => ?_⟩,
    fun n l hst hrel hu hm hp => ⟨fun x hx => ⟨fun y out ha hy => ?_, fun ha hy ho => ?_, fun d ds ha ho => ?_⟩, fun e hx => ?_⟩,
    fun h => exec_walkerUnit_idle hc hr h, ⟨fun hdue => ?_, fun hdue => ?_⟩,
    fun hst hrel hu ho => ⟨fun ha => ?_, fun b j ha hb => ?_⟩, fun h => ?_⟩
  · have hexec := exec_walkerStart_starts hc hr hs hw hst hgood (s.readPointer_based c sl (s.startedRun c sl run) hb)
    obtain ⟨hone, hmem, hslot, hother, hthread⟩ := setSlot_shows s c slot.toNat
      (some (tileSlot c s sl (parseWalk (s.seenBytes (s.viewerOf c sl.cfg) run.blockAddr 128)) (s.startedRun c sl run)))
    exact ⟨_, _, _, hexec, hone, hmem, hslot, rfl, rfl, rfl, rfl, rfl, rfl, rfl, rfl, (front_bits _ _).1, (front_bits _ _).2, rfl, hother, hthread⟩
  · have hline := s.pointerLine_fresh (s.viewerOf c sl.cfg) (parseWalk (s.seenBytes (s.viewerOf c sl.cfg) run.blockAddr 128))
      (run := s.startedRun c sl run) hbytes hahead
    have hread := s.readPointer_listed (s.viewerOf c sl.cfg) (parseWalk (s.seenBytes (s.viewerOf c sl.cfg) run.blockAddr 128))
      (run := s.startedRun c sl run) hbytes hahead c sl hb rfl hown hok
    rw [hline] at hread
    have hexec := exec_walkerStart_starts hc hr hs hw hst hgood hread
    obtain ⟨hone, hmem, hslot, hother, hthread⟩ := setSlot_shows s c slot.toNat _
    exact ⟨_, _, _, hexec, hone, hmem, hslot, rfl, rfl, rfl, rfl, rfl, rfl, rfl, rfl, (front_bits _ _).1, (front_bits _ _).2, rfl, hother, hthread⟩
  · have hread := s.readPointer_refused (s.viewerOf c sl.cfg) (parseWalk (s.seenBytes (s.viewerOf c sl.cfg) run.blockAddr 128))
      (run := s.startedRun c sl run) hbytes hahead c sl hb rfl h
    refine exec_walkerStart_faults hc hr ((walkStart_eq hs hw hst hgood).trans ?_)
    rw [hread]
    rfl
  · exact exec_walkerStart_faults hc hr (walkStart_refused hs hw hst hgood)
  · have hturn := (slotTurn_moves hs hw hm hst hrel hu hx ha).trans (walkMove_moved hy)
    obtain ⟨hmem, hcells⟩ := State.walkWrite_mem hy
    refine ⟨_, exec_walkerUnit_turn hc hr hs hw hp hturn, ?_, rfl, ?_, hmem, hcells⟩
    · rw [State.core_modCore_same]
      rfl
    · rw [State.core_modCore_same, Core.slot_pointPort, setSlot_core_same, Core.slot_setSlot_same]
  · exact exec_walkerUnit_faults hc hr hs hw hp ((slotTurn_moves hs hw hm hst hrel hu hx (Or.inr ⟨ha, ho⟩)).trans (walkMove_refused hy))
  · have hexec := exec_walkerUnit_turn hc hr hs hw hp (slotTurn_asks hs hw hm hst hrel hu hx ha ho)
    have hnd : (d :: ds).Nodup := ho ▸ otherCores_nodup c x.reads
    have hother {e : Nat} (he : e ∈ d :: ds) : e ≠ c := otherCores_spec (ho.symm ▸ he)
    have hcore (e : Nat) := askPorts_core c slot.toNat (d :: ds)
      (s.setSlot c slot.toNat (some { sl with walk := some { run with asked := some (ds.length + 1) } })) e hnd
    have hslot := askPorts_slot c slot.toNat (d :: ds)
      (s.setSlot c slot.toNat (some { sl with walk := some { run with asked := some (ds.length + 1) } })) c slot.toNat hnd
    rw [setSlot_core_same, Core.slot_setSlot_same] at hslot
    obtain ⟨cores, honly⟩ := askPorts_only c slot.toNat (d :: ds)
      (s.setSlot c slot.toNat (some { sl with walk := some { run with asked := some (ds.length + 1) } }))
    generalize (d :: ds).foldl (fun s e => s.modCore e fun k => { k with ext := k.ext ++ [.walkRead c slot.toNat] })
      (s.setSlot c slot.toNat (some { sl with walk := some { run with asked := some (ds.length + 1) } })) = w at hexec hcore hslot honly
    have hmem : w.mem = s.mem := (congrArg State.mem honly).trans rfl
    have hmarks : w.marks = s.marks := (congrArg State.marks honly).trans rfl
    refine ⟨_, hexec, sameMemory_of hmem hmarks, (congrArg State.held honly).trans rfl, ?_, ?_, fun e he => ?_⟩
    · rw [State.core_modCore_same]
      rfl
    · rw [State.core_modCore_same, Core.slot_pointPort]
      exact hslot
    · rw [State.core_modCore_other _ _ (hother he).symm, hcore, if_pos he]
      exact congrArg (fun k : Core => k.ext ++ [ExtReq.walkRead c slot.toNat]) (State.core_modCore_other _ _ (hother he).symm)
  · exact exec_walkerUnit_faults hc hr hs hw hp (slotTurn_refused hs hw hm hst hrel hu hx)
  · obtain ⟨hrel, hheld⟩ := hdue
    have hexec := (exec_walkerReleaseWaitEnd (slot := slot) hc hr).trans (congrArg _ ((walkRelease_eq hs hw).trans
      (if_pos (Bool.and_eq_true_iff.mpr ⟨hrel, hheld⟩))))
    obtain ⟨hone, hmem, hslot, hother, -⟩ := setSlot_shows s c slot.toNat (some { sl with walk := some { run with releaseWait := false } })
    exact ⟨_, hexec, hone, hmem, hother, hslot⟩
  · exact (exec_walkerReleaseWaitEnd (slot := slot) hc hr).trans (congrArg _ ((walkRelease_eq hs hw).trans
      (if_neg fun h => hdue (Bool.and_eq_true_iff.mp h))))
  · have hexec := (exec_tileArrival (slot := slot) hc hr).trans (congrArg _ (tileArrive_last hs hw hst hrel hu ho ha))
    obtain ⟨hone, hmem, hmarks⟩ := s.slotEnd_only c slot.toNat sl true
    obtain ⟨hfree, hother, hctr, -⟩ := s.slotEnd_facts c slot.toNat sl
    exact ⟨_, hexec, hone, sameMemory_of hmem hmarks, hfree, hother, hctr⟩
  · have hexec := (exec_tileArrival (slot := slot) hc hr).trans (congrArg _ (tileArrive_next hs hw hst hrel hu ho ha hb))
    obtain ⟨hone, hmem, hmarks, hctr⟩ := s.tileCounted_facts c sl run.cpt
    generalize s.tileCounted c sl run.cpt = w at hexec hone hmem hmarks hctr
    obtain ⟨hone', hmem', hslot, -, -⟩ := setSlot_shows w c slot.toNat
      (some (tileSlot c w sl (parseWalk run.block) { run with item := b, point := j, seq := run.seq + 1 }))
    refine ⟨_, tileSlot c w sl (parseWalk run.block) { run with item := b, point := j, seq := run.seq + 1 }, _, hexec, oneCore_trans hone (oneCore_trans hone' (oneCore_modCore c _ _)), sameMemory_of hmem hmarks, ?_, rfl, rfl, rfl, rfl, rfl,
      rfl, rfl, rfl, ?_⟩
    · rw [State.core_modCore_same]
      exact hslot
    · rw [State.core_modCore_same, ← hctr, setSlot_core_same]
      rfl
  · exact (exec_tileArrival (slot := slot) hc hr).trans (congrArg _ (tileArrive_stands hs hw h))

end Sys2Proof.Proofs
end
